-- ==== Sys2Proof/Word.lean ====
section
/-! DEFINITION. The word types of the model: bytes, dwords, timewords and the die index. -/

namespace Sys2Proof

/-- One byte. -/
abbrev Byte := BitVec 8
/-- A 32-bit register or register half (R371). -/
abbrev Dword := BitVec 32
/-- A 64-bit value: a timeword (R167), an address, a register pair. -/
abbrev Qword := BitVec 64
/-- A capture die of the package: die 0 or die 1. -/
abbrev Die := Fin 2

end Sys2Proof
end

