-- ==== Sys2Proof/Syntax.lean ====
section
/-! DEFINITION. The commands of the part: one constructor for each row of the opcode table, with its operands. -/

namespace Sys2Proof

/-! ### Shared operand forms -/

/-- Who asked for an operation: the SOURCE coding of R351. `bar0` is a register write, `part` the part itself. -/
inductive Source where
  | mailbox | eth0 | eth1 | tunnel | part | bar0
  deriving DecidableEq, Repr

/-- How a guarded register write arrives: the dword alone, or one 64-bit write that carries a complement dword too (R378). -/
inductive GuardForm where
  | single
  | pair (c : Dword)
  deriving DecidableEq, Repr

/-- How a PCI Express read completion ends (R326). -/
inductive CplStatus where
  | ok | unsupported | abort | poisoned
  deriving DecidableEq, Repr

/-- The write forms that let a pending MSI-X vector be sent (R334). -/
inductive UnmaskWhat where
  | vector (v : Fin 64)
  | function
  | enable
  deriving DecidableEq, Repr

/-- The straps latched at the release of a reset (R396, R421). -/
structure Straps where
  guardsel : Bool
  nodeid : BitVec 6
  deriving DecidableEq, Repr

/-- One UDP datagram on port 48620 as it reaches an Ethernet port (R355). -/
structure Datagram where
  srcAddr : List Byte
  srcPort : BitVec 16
  vlan : BitVec 12
  fragment : Bool
  payload : List Byte
  deriving DecidableEq, Repr

/-- A change of the voltage at a channel ball (R26): the channel, the moment at the ball in bins of 15.625 ps from the convoy's
opening, and the new voltage in µV. The part adds the channel's delay (R32). -/
structure PinChange where
  chan : Fin 1024
  at_ : Int
  uv : Int
  deriving DecidableEq, Repr

/-- A change of the voltage at a TRIGIN ball (R64), its moment counted as a channel's. -/
structure TrigChange where
  pin : Fin 4
  at_ : Int
  uv : Int
  deriving DecidableEq, Repr

/-- What reaches a die with one core word of sixteen samples (R69, R77): the pin changes up to 1 ns beyond its last sample, each list in
time order. What lies beyond the word's samples waits for a later word. -/
structure CoreWordIn where
  pins : List PinChange
  trig : List TrigChange
  deriving DecidableEq, Repr

/-- A knot (R208), without MAGIC, VERSION and KCRC, which its bytes carry. -/
structure Knot where
  cls : Fin 16
  node : BitVec 18
  die : Die
  convoy : Dword
  time : Qword
  offset : Int
  hops : Nat
  holdover : Bool
  relayed : Bool
  host : Bool
  seq : BitVec 16
  deriving DecidableEq, Repr

/-- How the load of the evaluators from a trigger RAM ends (R67): at the first load, at the second, or not at all. -/
inductive RamLoad where
  | clean
  | reloaded
  | failed
  deriving DecidableEq, Repr

/-- What the trigger-RAM check of one ARMING finds (R67): the errors corrected in place, and how the load ends. -/
structure RamCheck where
  corrected : Nat
  load : RamLoad
  deriving DecidableEq, Repr

/-- A maintenance task that runs (R404): its number, and the channels that a drift check among its work re-trims (R43). -/
structure TaskRun where
  task : Fin 5
  moved : List (Fin 1024)
  deriving DecidableEq, Repr

/-- What the eye finder measured on one channel (R39): a channel that showed no edge within ±1 ns is not listed. `best` is the number of
the threshold point with the widest run, the lower of equals. -/
structure EyeResult where
  chan : Fin 1024
  centre : Int
  width : BitVec 16
  best : Nat
  deriving DecidableEq, Repr

/-- The latching pairs of R374. -/
inductive LatchPair where
  | tbTime
  | capTrig (d : Die)
  | pgT0 (d : Die)
  | ptpOffset
  | ptpMpd
  deriving DecidableEq, Repr

/-- The guarded registers of R376. -/
inductive GuardedReg where
  | ydir (d : Die) (k : Fin 4)
  | ydrv (d : Die) (k : Fin 8)
  | fstepGo
  | dsSpeed
  | dsRas
  | hltFrz
  | hltBbadm
  deriving DecidableEq, Repr

/-- The pins that assert a fundamental reset (R397). -/
inductive ResetPin where
  | perst | sysrst
  deriving DecidableEq, Repr

/-- What a start finds of the past (R285, R400): the items of MRAM history whose check code fails, in the row order of R400, and
whether the DIMMs kept power since the last run. -/
structure HistoryCheck where
  failed : List (Fin 8)
  dimmPower : Bool
  deriving DecidableEq, Repr

/-- A failing row that a memory test finds (R297, R300): its bank, its row, and how many spares fail their retest first. -/
structure MarchFault where
  bank : Nat
  row : Nat
  badSpares : Nat
  deriving DecidableEq, Repr

/-- How a deep-store group read ends (R273). -/
structure GroupResult where
  corrected : Bool
  uncorrectable : Bool
  deriving DecidableEq, Repr

/-- How a training of channels ends (R268, R271). -/
structure TrainReport where
  failed : List (Fin 8)
  property : Nat
  deriving DecidableEq, Repr

/-- A pulse on SYNCIN (R257, R258), at the tick that reads it high first: ps from its rising edge to that tick, its width in ps, and
whether two consecutive ticks read it high. -/
structure SyncinPulse where
  phase : Nat
  width : Nat
  seen : Bool
  deriving DecidableEq, Repr

/-- The two DISCIPLINED periods from which an ageing rate is learned (R182), by their places among those kept, the oldest first. Which two
the HKC takes where more than two qualify the spec leaves open. -/
structure LearnPair where
  first : Nat
  second : Nat
  deriving DecidableEq, Repr

/-- What a sync calibration has stamped (R259): the phase of each pulse in ps, the oldest first. -/
structure SyncCalResult where
  phases : List Nat
  deriving DecidableEq, Repr

/-- An edge of a gauge input at the ball (R232, R233): its moment in units of 3.125 ps from the present one, and its direction. -/
structure GaugeEdge where
  at_ : Int
  rising : Bool
  deriving DecidableEq, Repr

/-- Where a jump request comes from (R252): a register or command, a staircase action, or an edge of a TRIGIN input that the first die
sample reads while no capture evaluates that die's samples. -/
inductive JumpSource where
  | request (via : Source)
  | staircase
  | trigin (pin : Fin 4) (rising : Bool)
  deriving DecidableEq, Repr

/-- A heartbeat of R220 as it arrives, with the receiver's stamp and whether its FCRC is good. -/
structure Heartbeat where
  node : BitVec 18
  root : BitVec 6
  dist : BitVec 6
  parent : Bool
  ttx : Qword
  trx : Qword
  seq : Byte
  eseq : Byte
  credit : BitVec 16
  good : Bool
  arrival : Qword
  deriving DecidableEq, Repr

/-- A frame of the Aelop link other than a heartbeat or a knot (R219, R227): TYPE, 3 for a tunnel frame, positions, FRAG, the bytes of its data
blocks, and whether its FCRC is good. -/
structure TunnelFrame where
  typ : Byte
  dest : BitVec 6
  source : BitVec 6
  frag : Byte
  payload : List Byte
  good : Bool
  deriving DecidableEq, Repr

/-- The bytes of a host write of the descriptor RAM, none where disabled, the offsets of the dwords that the HKC port writes in the same
cycle (R294), and the errors that stored dwords have taken on afterwards, by dword number and whether uncorrectable (R295). -/
structure RamBytes where
  bytes : List (Option Byte)
  clash : List Nat
  flaws : List (Nat × Bool)
  deriving DecidableEq, Repr

/-- What a host read of the descriptor RAM meets: ECC errors, by dword number and whether uncorrectable (R295), and the offsets of the dwords that the HKC
port writes in the same cycle (R294). -/
structure RamMeets where
  ecc : List (Nat × Bool)
  clash : List Nat
  deriving DecidableEq, Repr

/-- Where a knot arrives (R212): an Aelop port, with whether its frame's FCRC is good (R219), an Ethernet port over IPv4 or IPv6, or the package
itself. -/
inductive KnotRoute where
  | alp (k : Fin 4) (good : Bool)
  | eth (p : Fin 2) (v6 : Bool)
  | own
  deriving DecidableEq, Repr

/-- The header fields of a PTP message that the engine uses (R193): domain, sender identity, sequence, correctionField in
2^−16 ns. -/
structure PtpHdr where
  domain : Byte
  source : Qword
  sourcePort : BitVec 16
  seqId : BitVec 16
  correction : Int
  deriving DecidableEq, Repr

/-- A Sync with its MII ingress stamp (R195); `origin`: originTimestamp in 2^−16 ns since the PTP epoch. -/
structure SyncMsg where
  hdr : PtpHdr
  twoStep : Bool
  origin : Nat
  stamp : Qword
  deriving DecidableEq, Repr

/-- A Follow_Up: preciseOriginTimestamp in 2^−16 ns. -/
structure FollowUpMsg where
  hdr : PtpHdr
  origin : Nat
  deriving DecidableEq, Repr

/-- An Announce: the grandmaster dataset (R194). -/
structure AnnounceMsg where
  hdr : PtpHdr
  gm : Qword
  priority1 : Byte
  clockClass : Byte
  accuracy : Byte
  variance : BitVec 16
  priority2 : Byte
  steps : BitVec 16
  timeTraceable : Bool
  timeSource : Byte
  deriving DecidableEq, Repr

/-- A Delay_Req or Pdelay_Req with its MII ingress stamp. -/
structure DelayReqMsg where
  hdr : PtpHdr
  stamp : Qword
  deriving DecidableEq, Repr

/-- A Delay_Resp: receiveTimestamp in 2^−16 ns and the port that asked. -/
structure DelayRespMsg where
  hdr : PtpHdr
  received : Nat
  reqSource : Qword
  reqPort : BitVec 16
  deriving DecidableEq, Repr

/-- A Pdelay_Resp (`followUp` false: request receipt time, with its MII ingress stamp; `twoStep`: a follow-up comes) or its
follow-up (response origin time), and the port that asked. -/
structure PdelayRespMsg where
  hdr : PtpHdr
  followUp : Bool
  twoStep : Bool
  time : Nat
  reqSource : Qword
  reqPort : BitVec 16
  stamp : Qword
  deriving DecidableEq, Repr

/-- A PTP message in a frame (R193). -/
inductive PtpMsg where
  | sync (m : SyncMsg)
  | followUp (m : FollowUpMsg)
  | announce (m : AnnounceMsg)
  | delayReq (m : DelayReqMsg)
  | delayResp (m : DelayRespMsg)
  | pdelayReq (m : DelayReqMsg) (egress : Qword)
  | pdelayResp (m : PdelayRespMsg)
  | management
  | unlisted
  deriving DecidableEq, Repr

/-- What a frame carries (R189): address resolution, a query for group members, an echo request, PTP over one of the transports 0 to 2, a UDP datagram,
or anything else. -/
inductive FrameBody where
  | resolution (v6 : Bool)
  | query (v6 : Bool)
  | echo (v6 : Bool) (payload : List Byte)
  | ptp (transport : Nat) (m : PtpMsg)
  | udp (v6 : Bool) (srcAddr : List Byte) (srcPort dstPort : BitVec 16) (fragment : Bool) (payload : List Byte)
  | other
  deriving DecidableEq, Repr

/-- A frame on an Ethernet port (R189, R190): its VLAN id (0: untagged), its length, whether it is addressed to the port
or one of its groups, and its body. -/
structure EthFrame where
  vlan : BitVec 12
  length : Nat
  addressed : Bool
  body : FrameBody
  deriving DecidableEq, Repr

/-- A DIMM as its SPD describes it (R263): a registered module with ECC of x4 devices and readable SPD; device density in Gb;
ranks; rated speed (0: slower than DDR5-4800, else 1 to 3 as DS_SPEED codes it). -/
structure Dimm where
  rdimm : Bool
  density : Nat
  ranks : Nat
  rated : Nat
  deriving DecidableEq, Repr

/-- What the board and the part's tests find during a start-up (R263, R285, R298, R399). `patch`: none when no flash is readable,
otherwise the image version and whether its signature checked. `checkFailed` are channels whose stored training fails its check,
`train` the channels that no training makes work. `hubFault`: a failing row of the scratchpad (`false`) or the descriptor RAM
(`true`). -/
structure StartupReport where
  patch : Option (Dword × Bool)
  dimms : Vector (Option Dimm) 8
  checkFailed : List (Fin 8)
  train : TrainReport
  basinFaults : List (Die × MarchFault)
  hubFault : Option (Bool × MarchFault)
  durationMs : Nat
  deriving DecidableEq, Repr
/-! ### The commands -/

/-- The operations and events of the part (opcode_table.json), each whole and indivisible. -/
inductive Instr where
  /-- CORE_WORD (R77): A core word of 16 samples of all channels of a die leaves the deserialiser; terms, staircase and storage stage process each of its samples in order. -/
  | coreWord (d : Die) (word : CoreWordIn)
  /-- DEFERRED_ADVANCE_EXECUTE (R81): At the first sample of the next word the pending chamber is entered, with a snapshot, a DEFERRED record and CONGESTION. -/
  | deferredAdvanceExecute (d : Die)
  /-- TIMER_SATURATION (R71): A running timer reaching 2^48 − 1 holds, is counted and writes a SATURATED record for its first saturation. -/
  | timerSaturation (d : Die) (t : Fin 8)
  /-- TRIGOUT_PULSE_END (R89): A TRIGOUT pulse width expires and the pin returns to its inactive level. -/
  | trigoutPulseEnd (p : Fin 2)
  /-- EVENT_BARGE_CLOSE (R133): An event barge ready to close waits for a free barge in window 0, or goes to the directory reserve after storage. -/
  | eventBargeClose (d : Die)
  /-- FORCE_TRIGGER (R84): A write of 1 to CAPn_STC_FORCE.FORCE requests a trigger at the first sample evaluated after it. -/
  | forceTrigger (d : Die)
  /-- PENDING_PLACEMENT_COMMIT (R85): A pending placement commits at the first sample whose time reaches its target. -/
  | pendingPlacementCommit (d : Die)
  /-- TRIGGER_LINE_ARRIVAL (R87): In a coupled convoy the other die's trigger commit arrives over the trigger line and the earlier trigger time becomes the shared trigger point. -/
  | triggerLineArrival (d : Die)
  /-- ARM (R119): A write of 1 to CAPn_CTL.ARM moves an IDLE die to ARMING, or is ignored and counted. -/
  | arm (d : Die)
  /-- CONVOY_OPEN (R121): ARMING completes, the trigger RAM is loaded, the convoy id is assigned and sample 0 is evaluated. -/
  | convoyOpen (d : Die) (ram : Vector RamCheck 2)
  /-- STOP (R119): A write of 1 to CAPn_CTL.STOP ends ARMING or ends storage and starts the closing part. -/
  | stop (d : Die)
  /-- RELEASE (R119): A write of 1 to CAPn_CTL.RELEASE returns a SEALED die to IDLE and frees its basin barges. -/
  | release (d : Die)
  /-- SLUICE_COPY (R131): The sluice copies the oldest queued barge of window 0 to the deep ring when its port is granted. -/
  | sluiceCopy (d : Die)
  /-- CONVOY_SEALED (R136): The closing part ends: the backlog is drained, the directory chain is written, the die enters SEALED and vector 3 is raised. -/
  | convoySealed (d : Die)
  /-- SLUICE_SEALED_CONVOY (R138): A write to object 3940 or 3941 starts a copy of a sealed BASIN convoy into the deep region, or is ignored. -/
  | sluiceSealedConvoy (d : Die) (via : Source)
  /-- SLUICE_SEALED_COPY_DONE (R138): The copy of a sealed convoy to the deep store completes and sets object 3910:08. -/
  | sluiceSealedCopyDone (d : Die)
  /-- WATCHED_EDGE (R114): An edge on a watched channel in WATCH is stamped, written to the watch log and evaluated by chamber W. -/
  | watchedEdge (d : Die) (slot : Fin 64) (time : Qword) (level : Bool)
  /-- QUADRANT_RETURN (R291): Retained basin quadrants return to service 60 µs after their wake began. -/
  | quadrantReturn (d : Die)
  /-- EYE_FINDER_START (R38): A write to object 2070:08 starts the eye finder on one die, or is ignored and counted. -/
  | eyeFinderStart (via : Source)
  /-- EYE_FINDER_DONE (R39): The eye finder finishes, writes centres, widths and best codes, optionally auto-applies them and sets DONE. -/
  | eyeFinderDone (results : List EyeResult)
  /-- EYE_FINDER_NO_CLOCK (R40): The reference edge is absent for 1 ms and the eye finder ends with NO_CLOCK. -/
  | eyeFinderNoClock
  /-- FULL_CALIBRATION_COMMAND (R44): A write to object 2060 starts a full calibration of each named IDLE die. -/
  | fullCalibrationCommand (mask : BitVec 2) (via : Source)
  /-- CALIBRATION_COMPLETE (R44): A calibration completes and is stored in MRAM with its timeword, epoch and temperature. -/
  | calibrationComplete (d : Die) (wide : List (Fin 1024))
  /-- DRIFT_CHECK (R43): Every 60 s an IDLE die runs a threshold-DAC drift check and re-trims channels that moved. -/
  | driftCheck (d : Die) (moved : List (Fin 1024))
  /-- DESKEW_RECALIBRATION (R43): A die temperature move of more than 5 °C starts an internal deskew recalibration of an IDLE die. -/
  | deskewRecalibration (d : Die)
  /-- CALIBRATION_AGE_DUE (R42): A calibration reaching 30 days of age makes a full calibration due. -/
  | calibrationAgeDue (d : Die)
  /-- MAINTENANCE_TASK_RUN (R404): A due maintenance task starts once R17 allows it and its lateness is published. -/
  | maintenanceTaskRun (t : TaskRun)
  /-- WRITE_YARN_DIRECTION (R29): A guarded write to CAPn_YDIR_k changes yarn directions when the die is IDLE or SEALED and its generator stopped. -/
  | writeYarnDirection (d : Die) (k : Fin 4) (value : Dword) (g : GuardForm)
  /-- WRITE_YARN_DRIVE (R29): A guarded write to CAPn_YDRV_k changes yarn drive strengths under the same conditions. -/
  | writeYarnDrive (d : Die) (k : Fin 8) (value : Dword) (g : GuardForm)
  /-- INCREMENT_COMMIT (R171): A write of TB_INC_HI commits both halves of the increment, clamped to ±500 ppm, effective at the next tick. -/
  | incrementCommit (hi : Dword)
  /-- STEP_COMMIT (R172): A write of TB_STEP_HI commits a step, which is refused when beyond the step limit. -/
  | stepCommit (hi : Dword)
  /-- STEP_APPLY (R172): A pending step is added to the time base at the next tick and counted. -/
  | stepApply
  /-- FORCE_STEP_AMOUNT (R173): A guarded write of TB_FSTEP_GO with GO set and ABS clear adds the staged signed amount at the next tick, or is ignored. -/
  | forceStepAmount (g : GuardForm)
  /-- FORCE_STEP_ABSOLUTE (R173): A guarded write of TB_FSTEP_GO with GO and ABS set loads the staged timeword at the next tick, or is ignored. -/
  | forceStepAbsolute (g : GuardForm)
  /-- EPOCH_WRITE (R170): A write of TB_EPOCH or object 4020:01 sets the epoch when no capture is open, and sets TIMESET. -/
  | epochWrite (value : Dword) (via : Source)
  /-- TIMEWORD_WRAP (R169): The timeword carries out of bit 63 and the epoch advances by one. -/
  | timewordWrap
  /-- DISC_SET (R176): Under owner HOST a write setting TB_HCTL.DISC declares the time base DISCIPLINED and sets TIMESET. -/
  | discSet
  /-- DISC_CLEAR (R176): Under owner HOST a write clearing TB_HCTL.DISC moves the time base to HOLDOVER. -/
  | discClear
  /-- HOST_WATCHDOG_EXPIRY (R177): The host servo watchdog expires with DISC set, so DISC is cleared and the time base enters HOLDOVER. -/
  | hostWatchdogExpiry
  /-- SERVO_OWNER_WRITE (R171): A write of object 4000:01 changes the servo owner, which takes a DISCIPLINED time base to HOLDOVER. -/
  | servoOwnerWrite (value : Byte) (via : Source)
  /-- COMPARE_TARGET_COMMIT (R178): A write of TB_CMPk_HI or object 4030+k:07 commits a slot target, which fires late when already passed. -/
  | compareTargetCommit (k : Fin 8) (target : Qword) (via : Source)
  /-- COMPARE_SLOT_ENABLE (R178): A write enabling a compare slot arms it, and a target already passed makes it fire late. -/
  | compareSlotEnable (k : Fin 8) (via : Source)
  /-- COMPARE_SLOT_FIRE (R178): An enabled slot reaches its target, sets FIRED, requests its interrupt and delivers its function. -/
  | compareSlotFire (k : Fin 8)
  /-- SOURCE_SELECT (R184): A write of object 4001:01 selects the time-base and PLL reference source. -/
  | sourceSelect (value : Byte) (via : Source)
  /-- SOURCE_SWAP (R184): At the first tick of the new source the interval is measured and added, and PLLs re-enter on the new source. -/
  | sourceSwap (interval : Int)
  /-- REFIN_FALLBACK (R185): No REFIN edge for 200 ns makes the part fall back to the quartz, set FALLBACK and enter HOLDOVER. -/
  | refinFallback (interval : Int)
  /-- REFIN_AUTO_RETURN (R185): With auto-return set, REFIN running 10 ms without a missing edge swaps the source back to REFIN. -/
  | refinAutoReturn (interval : Int)
  /-- FREE_RUN_UPDATE (R183): Every 24 h of powered time in FREE the HKC recomputes and commits the free-run increment. -/
  | freeRunUpdate
  /-- AGEING_LEARNED (R182): After two qualifying DISCIPLINED periods the HKC learns a new ageing rate and stores it in MRAM. -/
  | ageingLearned (pick : LearnPair)
  /-- LATCHING_PAIR_READ (R374): A read of the low half of a latching pair latches the high half and any named registers into one snapshot. -/
  | latchingPairRead (pair : LatchPair)
  /-- PORT_RECONFIGURE (R191): A write to an Ethernet port's line mode, FEC, addresses, VLAN or MTU takes the link down and retrains it. -/
  | portReconfigure (p : Fin 2) (sub : Byte) (value : List Byte) (via : Source)
  /-- ETH_LINK_LOSS (R191): An Ethernet link is lost, sets NET_LINK.LDNp and is counted. -/
  | ethLinkLoss (p : Fin 2)
  /-- ETH_LINK_UP (R188): An Ethernet link completes training and comes up. -/
  | ethLinkUp (p : Fin 2)
  /-- ETH_FRAME_RECEIVE (R189): A frame arrives on an enabled port and is passed to its service or dropped and counted. -/
  | ethFrameReceive (p : Fin 2) (frame : EthFrame)
  /-- BULK_READOUT_START (R192): A write of 1 to object 4470:06 starts a bulk-readout job, or is refused with MTU or ignored. -/
  | bulkReadoutStart (via : Source) (addr : List Byte)
  /-- BULK_READOUT_DATAGRAM (R192): At its paced time the job reads one barge on P5 and sends it as a datagram, marking the last one. -/
  | bulkReadoutDatagram
  /-- SYNC_RECEIVE (R198): A PTP Sync arrives, is stamped and, when accepted, yields one offset for the servo. -/
  | syncReceive (p : Fin 2) (m : SyncMsg)
  /-- FOLLOW_UP_RECEIVE (R198): A Follow_Up arrives and completes a two-step Sync. -/
  | followUpReceive (p : Fin 2) (m : FollowUpMsg)
  /-- ANNOUNCE_RECEIVE (R194): An Announce arrives and feeds the best master clock algorithm and the parent monitor. -/
  | announceReceive (p : Fin 2) (m : AnnounceMsg)
  /-- DELAY_REQ_RECEIVE (R193): A Delay_Req arrives at a master port and is answered with a Delay_Resp. -/
  | delayReqReceive (p : Fin 2) (m : DelayReqMsg)
  /-- DELAY_RESP_RECEIVE (R198): A Delay_Resp arrives and yields a path-delay measurement. -/
  | delayRespReceive (p : Fin 2) (m : DelayRespMsg)
  /-- PDELAY_REQ_RECEIVE (R193): A Pdelay_Req arrives and is answered two-step. -/
  | pdelayReqReceive (p : Fin 2) (m : DelayReqMsg) (egress : Qword)
  /-- PDELAY_RESP_RECEIVE (R198): A Pdelay_Resp or its follow-up arrives and yields a link-delay measurement. -/
  | pdelayRespReceive (p : Fin 2) (m : PdelayRespMsg)
  /-- MANAGEMENT_MESSAGE_RECEIVE (R193): A PTP management message arrives and is ignored and counted. -/
  | managementMessageReceive (p : Fin 2)
  /-- SYNC_SEND (R197): At its Sync interval a master port sends Sync and, once stamped, Follow_Up. -/
  | syncSend (p : Fin 2) (stamp : Qword)
  /-- ANNOUNCE_SEND (R194): At its Announce interval a master port sends Announce. -/
  | announceSend (p : Fin 2)
  /-- DELAY_REQ_SEND (R197): At its request interval a slave port sends Delay_Req or Pdelay_Req and queues its transmit stamp. -/
  | delayReqSend (p : Fin 2) (stamp : Qword)
  /-- SYNC_TIMEOUT (R176): No accepted Sync within three Sync intervals takes a DISCIPLINED time base to HOLDOVER. -/
  | syncTimeout
  /-- ANNOUNCE_RECEIPT_TIMEOUT (R176): No Announce from the parent within announceReceiptTimeout takes the time base to HOLDOVER. -/
  | announceReceiptTimeout
  /-- KNOT_SEND (R210): The hub takes a knot from a die queue, assigns SEQ and KCRC and sends it on every open route and to its own package. -/
  | knotSend
  /-- HOST_KNOT_SEND (R211): A write of a class to object 4840:03 builds and sends a host knot. -/
  | hostKnotSend (cls : Byte) (via : Source)
  /-- KNOT_RECEIVE (R212): A knot arrives on any route and passes the ordered checks, is forwarded, and is accepted, refused or dropped. -/
  | knotReceive (route : KnotRoute) (bytes : List Byte)
  /-- KNOT_DELIVER (R214): An accepted knot reaches both dies and is offered to knot-in terms, placement, chamber W, a waiting generator and PME wake. -/
  | knotDeliver
  /-- DUPLICATE_ENTRY_EXPIRY (R215): A duplicate-cache entry expires 2 × KNOT_ACCEPT after it was written. -/
  | duplicateEntryExpiry (node : BitVec 18) (seq : BitVec 16)
  /-- HEARTBEAT_SEND (R220): Every 1 µs an enabled Aelop port sends a stamped heartbeat. -/
  | heartbeatSend (k : Fin 4) (stamp : Qword)
  /-- HEARTBEAT_RECEIVE (R220): A heartbeat arrives, is stamped, completes an exchange and updates port state, HELD checks and the tree. -/
  | heartbeatReceive (k : Fin 4) (h : Heartbeat)
  /-- ALP_PORT_ENABLE (R221): A write of object 4810+k:01 enables or disables an Aelop port. -/
  | alpPortEnable (k : Fin 4) (on : Bool) (via : Source)
  /-- ALP_PORT_DOWN (R221): 4 µs without a good heartbeat takes an UP port DOWN, recomputes the tree and ends tunnel requests through it. -/
  | alpPortDown (k : Fin 4)
  /-- ALP_LANE_FAILURE (R218): A failed Aelop lane takes its port down. -/
  | alpLaneFailure (k : Fin 4) (lane : Fin 2)
  /-- ALP_MEASUREMENT (R225): Every 1.024 ms a port averages 1,024 exchanges and publishes delay and offset, which the Aelop servo may use. -/
  | alpMeasurement (k : Fin 4)
  /-- TUNNEL_FRAME_RECEIVE (R227): A tunnel frame arrives and is relayed, served, or answered BUSY or UNREACHABLE. -/
  | tunnelFrameReceive (k : Fin 4) (f : TunnelFrame)
  /-- GAUGE_START (R234): Command 1 to object 4C00+g:10 starts a gauge when the package is ON. -/
  | gaugeStart (g : Fin 64) (via : Source)
  /-- GAUGE_STOP (R242): Command 2 to object 4C00+g:10 ends the gauge's set with state ABORTED. -/
  | gaugeStop (g : Fin 64) (via : Source)
  /-- GAUGE_STAMPING_BEGIN (R237): Stamping begins 25 µs after the start and a TIMER or NONE gate opens. -/
  | gaugeStampingBegin (g : Fin 64)
  /-- GATE_CLOSE (R237): A gauge gate closes at its time and the frequency result or partial set is published. -/
  | gateClose (g : Fin 64)
  /-- GAUGE_START_EDGE (R238): An edge on a gauge's start input is stamped and counted, or opens a shot. -/
  | gaugeStartEdge (g : Fin 64) (e : GaugeEdge)
  /-- GAUGE_STOP_EDGE (R238): An edge on a gauge's stop input is stamped and pairs with an open shot or enters the stop history. -/
  | gaugeStopEdge (g : Fin 64) (e : GaugeEdge)
  /-- SHOT_TIMEOUT (R238): A shot reaches start + W2 with no stop and ends with no result. -/
  | shotTimeout (g : Fin 64)
  /-- GAUGE_TIMEOUT (R242): The gauge timeout passes without a completed set or gate and the state becomes TIMEOUT. -/
  | gaugeTimeout (g : Fin 64)
  /-- PG_PRIME (R251): A prime command takes a STOPPED generator to PRIMING and checks every reachable entry. -/
  | pgPrime (d : Die) (via : Source)
  /-- PG_START (R251): A start command primes a STOPPED generator or starts a READY one under start source IMMEDIATE. -/
  | pgStart (d : Die) (via : Source)
  /-- PG_READY (R251): Priming ends with the buffers filled and the generator READY, or the start is refused with TABLE, CACHE or RATE. -/
  | pgReady (d : Die)
  /-- PG_STOP (R255): A stop command ends the sequence at the pass boundary or at once, by the stop mode. -/
  | pgStop (d : Die) (via : Source)
  /-- PG_JUMP_REQUEST (R252): A jump request by register or command is taken at the end of this or the next pass, or merged or ignored. -/
  | pgJumpRequest (d : Die) (src : JumpSource)
  /-- PG_PASS_END (R250): A pass ends and the generator repeats the entry, takes a jump or follows the entry's exit. -/
  | pgPassEnd (d : Die)
  /-- PG_UNDERRUN (R255): The next DEEP sample is not in the prefetch buffer when due, so the sequence ends with UNDERRUN. -/
  | pgUnderrun (d : Die)
  /-- PG_HOLD_END (R255): The hold time after an ending expires and the outputs go to the idle word, state STOPPED. -/
  | pgHoldEnd (d : Die)
  /-- PG_KNOT_START (R256): A waiting generator begins entry TARGET at K plus the knot start offset, or 200 ns after a late knot. -/
  | pgKnotStart (d : Die)
  /-- SYNCIN_PULSE (R257): A sync pulse is read high on two consecutive ticks and schedules a READY or WAITING generator's start. -/
  | syncinPulse (p : SyncinPulse)
  /-- PG_SYNC_START (R257): The first sample or entry TARGET reaches the balls at t_s − C + L. -/
  | pgSyncStart (d : Die)
  /-- SYNCOUT_ORIGINATE (R258): A write of 1 to object 5030:02 launches a 300 ns pulse on SYNCOUT at the next tick. -/
  | syncoutOriginate (via : Source)
  /-- PG_SYNC_CALIBRATION (R259): Command 5 starts a sync calibration of a STOPPED generator. -/
  | pgSyncCalibration (d : Die) (via : Source)
  /-- SYNC_CALIBRATION_END (R259): Sync calibration ends with DONE, MARGIN or NO_SYNC and stores the trim. -/
  | syncCalibrationEnd (d : Die) (r : SyncCalResult)
  /-- LOOP_CACHE_LOAD (R254): A write of object 5040+d:05 copies a deep-store range into the loop cache, or is refused. -/
  | loopCacheLoad (d : Die) (via : Source)
  /-- LOOP_CACHE_LOAD_DONE (R254): A loop-cache load completes and sets cache valid. -/
  | loopCacheLoadDone (d : Die)
  /-- SPEED_CHANGE_REQUEST (R267): A guarded write of DS_SPEED requests a speed, clamped to the DIMM rating and pending until allowed. -/
  | speedChangeRequest (value : Dword) (g : GuardForm)
  /-- SPEED_CHANGE_APPLY (R267): A pending speed change becomes allowed; the channels enter self-refresh, hop and retrain. -/
  | speedChangeApply
  /-- SPEED_CHANGE_COMPLETE (R267): Retraining at the new speed ends and the channels return to service. -/
  | speedChangeComplete (r : TrainReport)
  /-- TRAINING_DUE (R268): The training interval or temperature step passes and a channel is trained between captures. -/
  | trainingDue (c : Fin 8)
  /-- TRAINING_COMPLETE (R268): A channel's training ends, its result is recorded, and a deferred speed change is applied. -/
  | trainingComplete (c : Fin 8) (r : TrainReport)
  /-- DIMM_SENSOR_READ (R272): Every 16 ms each DIMM's thermal sensors are read and refresh is doubled or restored. -/
  | dimmSensorRead (temps : Vector (Option Int) 8)
  /-- DS_REQUEST_COMPLETE (R279): A deep-store group request completes, correcting errors and counting uncorrectable reads. -/
  | dsRequestComplete (p : Fin 8) (r : GroupResult)
  /-- DS_PARITY_ERROR (R275): A DIMM reports a command or address parity error, and the access is reissued once. -/
  | dsParityError (barge : BitVec 28) (again : Bool)
  /-- MIGRATION_DONE (R275): A rank copy to the spare completes and the rank slot names the spare. -/
  | migrationDone (c : Fin 8) (bad : List (BitVec 28))
  /-- URGENCY_RISE (R279): A queued request reaches an urgency age threshold, and at urgency 3 class 5 is refused. -/
  | urgencyRise (p : Fin 8)
  /-- PATROL_SCRUB_READ (R274): Patrol scrub issues its next read on P7 and writes back corrected groups. -/
  | patrolScrubRead (r : GroupResult)
  /-- RANK_RETIRE (R276): A guarded write of DS_RAS.RETIRE retires the named rank now. -/
  | rankRetire (c : Fin 8) (rank : Fin 4) (g : GuardForm)
  /-- SPARE_ENABLE (R276): A guarded write of DS_RAS.SPARE_EN sets rank sparing for the next start-up. -/
  | spareEnable (on : Bool) (g : GuardForm)
  /-- RETIRED_LIST_CLEAR (R276): A guarded write of DS_RAS.CLEAR empties the retired list at the next start-up. -/
  | retiredListClear (g : GuardForm)
  /-- MPLL_COAST_SELF_REFRESH (R284): An MPLL coasting for 1 ms puts its channel into self-refresh. -/
  | mpllCoastSelfRefresh (c : Fin 8)
  /-- WINDOW_READ (R286): A BAR2 read reaches the deep store, or returns all ones for an out-of-service address. -/
  | windowRead (off : BitVec 36) (len : BitVec 13)
  /-- WINDOW_WRITE (R286): A BAR2 write reaches the deep store, or is dropped and counted. -/
  | windowWrite (off : BitVec 36) (bytes : List (Option Byte))
  /-- WINDOW_BASE_WRITE (R342): A write of DS_HWIN_BASE switches the window base after ordering earlier requests. -/
  | windowBaseWrite (value : Dword)
  /-- MARCH_TEST_COMMAND (R299): A write to object 5801:06 starts a requested march test, or sets REFUSED. -/
  | marchTestCommand (value : Byte) (via : Source)
  /-- MARCH_TEST_DONE (R300): A requested test ends, repairs rows with spares and takes unrepairable banks out of service. -/
  | marchTestDone (faults : List MarchFault)
  /-- BACKGROUND_TEST_STEP (R302): At each pace interval the background test borrows and tests one block of the hub memories. -/
  | backgroundTestStep (faults : List MarchFault)
  /-- DESCRIPTOR_RAM_HOST_WRITE (R293): A host write to the ODM_ block writes descriptor-RAM dwords, restoring a borrowed block first. -/
  | descriptorRamHostWrite (off : BitVec 16) (bytes : RamBytes)
  /-- DESCRIPTOR_RAM_HOST_READ (R295): A host read of the ODM_ block returns dwords, correcting or counting ECC errors. -/
  | descriptorRamHostRead (off : BitVec 16) (len : BitVec 13) (met : RamMeets)
  /-- SCRATCHPAD_UE (R296): An uncorrectable scratchpad error restarts the HKC with cause MEMORY. -/
  | scratchpadUe
  /-- REFERENCE_LOSS (R312): A reference edge is missing by 2 ns and every PLL on that source coasts. -/
  | referenceLoss
  /-- LOCK_LOSS (R312): Phase error above 500 ps at four compares puts a PLL into coast. -/
  | lockLoss (i : Fin 13)
  /-- COAST_ESTIMATE (R313): Every 100 µs during a coast the HKC estimates the frequency error, and above 10 ppm the capture is sealed. -/
  | coastEstimate (i : Fin 13) (estimate : Int)
  /-- COAST_ESTIMATE_TIMEOUT (R313): A coast lasting 10 ms without an estimate seals the affected capture. -/
  | coastEstimateTimeout (i : Fin 13)
  /-- REENTRY (R315): At a reference edge a coasting PLL re-phases, loads the residual and closes its loop. -/
  | reentry (i : Fin 13) (residual : Int)
  /-- REENTRY_ATTEMPT (R314): 10 µs after a loss-of-lock coast began, the part attempts re-entry. -/
  | reentryAttempt (i : Fin 13) (residual : Int)
  /-- LOCK_CONFIRMED (R308): Phase error within ±50 ps for 32 compares declares lock, or a loss counts as a failed attempt. -/
  | lockConfirmed (i : Fin 13) (locked : Bool)
  /-- BAND_SEARCH_DONE (R309): A band search ends in lock and stores its band-table entry. -/
  | bandSearchDone (i : Fin 13) (band : BitVec 6) (tuning : BitVec 12)
  /-- BAND_REVALIDATE (R310): A write of object 5A40:01 revalidates the named PLLs' band tables, or is ignored. -/
  | bandRevalidate (mask : BitVec 16) (via : Source)
  /-- SPREAD_CHANGE (R311): A write of object 5A00:02 ramps the FPLL spread to its new depth over 1 ms. -/
  | spreadChange (value : Byte) (via : Source)
  /-- ELASTIC_BUFFER_SEAL (R317): The sample-to-core elastic buffer drifts 96 words during a coast and seals the die's capture. -/
  | elasticBufferSeal (d : Die)
  /-- DMA_RUN (R327): Setting HDMA_CHk_CTL.RUN reads BASE, SIZE and PROD and starts the channel. -/
  | dmaRun (k : Fin 8)
  /-- DMA_STOP (R332): Clearing RUN aborts a running job and stops the channel. -/
  | dmaStop (k : Fin 8)
  /-- DMA_ABORT (R332): Writing ABORT ends the running job with ABORTED and halts the channel. -/
  | dmaAbort (k : Fin 8)
  /-- DMA_RESUME (R332): Writing RESUME takes a halted channel out of HALTED, or is ignored while Bus Master Enable is clear. -/
  | dmaResume (k : Fin 8)
  /-- DMA_PRODUCER_WRITE (R327): A write of HDMA_CHk_PROD hands new ring entries to the part. -/
  | dmaProducerWrite (k : Fin 8) (idx : BitVec 16)
  /-- DMA_JOB_COMPLETE (R330): A job ends: last data write, STATUS and DONE written, CONS advanced and its vector raised. -/
  | dmaJobComplete (k : Fin 8)
  /-- PCIE_COMPLETION_RECEIVE (R326): A read completion arrives for a descriptor fetch or HOST_TO_DS data, or is discarded. -/
  | pcieCompletionReceive (tag : BitVec 10) (status : CplStatus) (data : List Byte)
  /-- COMPLETION_TIMEOUT (R326): A read ends in Completion Timeout and ends its job with HOST_ERROR. -/
  | completionTimeout (tag : BitVec 10)
  /-- BUS_MASTER_DISABLE (R338): Clearing Bus Master Enable stops new requests and ends running jobs with HALTED_BME. -/
  | busMasterDisable
  /-- BUS_MASTER_ENABLE (R338): Setting Bus Master Enable sends pending vectors. -/
  | busMasterEnable
  /-- D3HOT_ENTRY (R335): The function enters D3hot, ends DMA jobs and answers configuration requests only. -/
  | d3hotEntry
  /-- D0_RETURN (R335): The function returns from D3hot to D0 keeping its state, with channels halted. -/
  | d0Return
  /-- FUNCTION_LEVEL_RESET (R339): An FLR ends jobs with HALTED_FLR and waits up to 10 ms for outstanding completions. -/
  | functionLevelReset
  /-- HOT_RESET (R339): An in-band hot reset acts as an FLR and retrains the link. -/
  | hotReset
  /-- FLR_WAIT_END (R339): At the end of the 10 ms wait outstanding tags are retired and the function state is reset. -/
  | flrWaitEnd
  /-- RETIRED_TAG_EXPIRY (R339): A retired tag becomes reusable 1 s after retirement. -/
  | retiredTagExpiry (tag : BitVec 10)
  /-- PCIE_LINK_LOSS (R340): The data link leaves DL_Active, DMA stops with LINK_LOST, tags are retired and the function resets. -/
  | pcieLinkLoss (ltssm : Byte)
  /-- MSIX_UNMASK (R334): Unmasking a vector, or setting MSI-X Enable, sends a pending message. -/
  | msixUnmask (what : UnmaskWhat)
  /-- PME_STATUS_CLEAR (R336): Clearing PME_Status releases WAKE#. -/
  | pmeStatusClear
  /-- MAILBOX_SUBMIT (R365): A host write of MB_REQ submits the mailbox request frame to the HKC. -/
  | mailboxSubmit (seq : BitVec 16)
  /-- ODP_DATAGRAM_RECEIVE (R355): An ODP datagram on UDP 48620 is authenticated, queued, answered from the response store, or dropped. -/
  | odpDatagramReceive (p : Fin 2) (dg : Datagram)
  /-- ODP_READ (R358): The HKC serves a READ request and returns each item's value and status. -/
  | odpRead
  /-- ODP_WRITE (R358): The HKC serves a WRITE of one object, applying, clamping, ignoring or refusing it. -/
  | odpWrite
  /-- ODP_READ_BLOCK (R358): The HKC serves a READ_BLOCK and returns every listed subindex of an index as one snapshot. -/
  | odpReadBlock
  /-- ODP_WRITE_BLOCK (R358): The HKC serves a WRITE_BLOCK, applying items in order. -/
  | odpWriteBlock
  /-- ODP_SUBSCRIBE (R360): The HKC serves a SUBSCRIBE, adding, renewing or cancelling a subscription or answering RESOURCE. -/
  | odpSubscribe
  /-- KEY_WRITE (R363): A write of object 1110+n:01 on the mailbox sets an authentication key, or gets DENIED on other paths. -/
  | keyWrite (n : Fin 4) (key : List Byte) (via : Source)
  /-- NOTIFY (R361): At the end of the least interval a subscribed change is sent as NOTIFY or a mailbox notify entry. -/
  | notify (i : Fin 64)
  /-- SUBSCRIPTION_LAPSE (R360): An Ethernet or tunnel subscription lapses when its lease expires unrenewed. -/
  | subscriptionLapse (i : Fin 64)
  /-- REGISTER_WRITE (R372): A BAR0 write to a register with no row of its own, including W1C, RWM and partial-write handling. -/
  | registerWrite (off : BitVec 20) (bytes : List (Option Byte))
  /-- GUARD_UNLOCK (R379): A write of GRD_UNLOCK in keyed mode opens the lock, or fails with BAD_KEY. -/
  | guardUnlock (value : Dword)
  /-- GUARD_LOCK_TIMEOUT (R379): An unused keyed lock closes 1 ms after unlock and sets TIMEOUT. -/
  | guardLockTimeout
  /-- GUARD_COMPLEMENT_WRITE (R378): A write to a complement register in paired mode applies the pending value or fails as MISMATCH or ORPHAN. -/
  | guardComplementWrite (reg : GuardedReg) (value : Dword)
  /-- GUARD_MODE_SELECT (R377): The write-once write of GRD_MODE or object 1101:01 selects the guard mode until power-on. -/
  | guardModeSelect (value : Dword) (via : Source)
  /-- REQUEST_ON (R391): A power request for ON returns the package from STANDBY, RETAIN or WATCH. -/
  | requestOn (via : Source)
  /-- REQUEST_STANDBY (R391): A power request for STANDBY is carried out or ignored with cause POWER. -/
  | requestStandby (via : Source)
  /-- REQUEST_RETAIN (R391): A power request for RETAIN is carried out or ignored. -/
  | requestRetain (via : Source)
  /-- REQUEST_WATCH (R392): A power request for WATCH checks and clamps each watched die's plan and enters WATCH, or is ignored. -/
  | requestWatch (via : Source)
  /-- REQUEST_OFF (R394): A power request for OFF puts the DDR channels in self-refresh and switches every domain off. -/
  | requestOff (via : Source)
  /-- POWER_TRANSITION_DONE (R391): A power-state transition completes, sets PWR_EVT.DONE and requests vector 1. -/
  | powerTransitionDone
  /-- DOMAIN_IDLE_OFF (R389): A switched domain with no user for 1 ms is switched off. -/
  | domainIdleOff (n : Fin 44)
  /-- POWER_FAIL_WARNING (R387): A main rail falls below its threshold, storage stops, POWER_LOST is committed and the part enters OFF within 20 µs. -/
  | powerFailWarning (rails : BitVec 16)
  /-- POWER_ON_RESET (R386): VAUX or VDD_AON is lost or first applied and the part is held in power-on reset. -/
  | powerOnReset
  /-- POWER_ON_RESET_RELEASE (R386): VAUX, VDD_AON and the quartz have been stable long enough and power-on reset is released into start-up. -/
  | powerOnResetRelease (straps : Straps) (history : HistoryCheck)
  /-- FUNDAMENTAL_RESET_ASSERT (R397): PERST# or SYSRST_N falls, outputs go safe, storage ends with RESET and the directory is written. -/
  | fundamentalResetAssert (pin : ResetPin)
  /-- FUNDAMENTAL_RESET_RELEASE (R397): The fundamental reset is released no earlier than 1,000 µs, straps are latched and start-up begins. -/
  | fundamentalResetRelease (straps : Straps) (history : HistoryCheck)
  /-- STARTUP_COMPLETE (R399): Start-up ends with training done, calibration loaded, READY and STARTUP set and the package ON. -/
  | startupComplete (r : StartupReport)
  /-- MAIN_RAILS_RETURN (R395): Main rails present for 1 ms, or returning, take the part out of OFF into start-up. -/
  | mainRailsReturn (straps : Straps) (history : HistoryCheck)
  /-- OFF_WAKE_EDGE (R395): In OFF the wake detector sees the chosen TRIGIN0 edge, sets PME_Status and may drive WAKE#. -/
  | offWakeEdge (rising : Bool)
  /-- HKC_WATCHDOG_EXPIRY (R20): The HKC fails to service its watchdog for 100 ms and is reset alone. -/
  | hkcWatchdogExpiry
  /-- HKC_RESTART_COMPLETE (R20): The HKC serves again, resumes policy from MRAM and sets READY. -/
  | hkcRestartComplete
  /-- SENSOR_READ (R405): Every 10 µs every junction sensor is read and the maxima are published. -/
  | sensorRead (readings : Vector Int 20)
  /-- FREEZE_PIN_LOW (R409): FREEZE_N held low for 100 ns freezes the latched scope and stores the freeze timeword. -/
  | freezePinLow
  /-- FREEZE_PIN_RELEASE (R410): FREEZE_N rises and a pin-caused capture-scope freeze thaws. -/
  | freezePinRelease
  /-- FREEZE_REGISTER (R409): A guarded write of HLT_FRZ with FREEZE set freezes with the written scope. -/
  | freezeRegister (full : Bool) (g : GuardForm)
  /-- THAW_REGISTER (R410): A guarded write of HLT_FRZ with THAW set thaws a register-caused capture-scope freeze. -/
  | thawRegister (g : GuardForm)
  /-- HOST_MARK (R415): A guarded write of HLT_BBADM with MARK set commits a HOST_MARK entry. -/
  | hostMark (opt : BitVec 5) (g : GuardForm)
  /-- OPTIONAL_CATEGORIES_WRITE (R415): A guarded write of HLT_BBADM.OPT enables optional black-box categories. -/
  | optionalCategoriesWrite (opt : BitVec 5) (g : GuardForm)
  /-- BLACK_BOX_COMMIT (R413): Every 125 ns the head of the black-box queue is committed to the ring and, when first of its code, to its slot. -/
  | blackBoxCommit
  /-- JTAG_EXTEST (R431): The EXTEST instruction is loaded, or replaced by BYPASS outside fundamental reset. -/
  | jtagExtest
  /-- JTAG_IDCODE (R430): The IDCODE instruction selects the 32-bit identification register. -/
  | jtagIdcode
  /-- JTAG_SAMPLE_PRELOAD (R430): The SAMPLE/PRELOAD instruction selects the boundary-scan register. -/
  | jtagSamplePreload
  /-- JTAG_CLAMP (R431): The CLAMP instruction is loaded only under fundamental reset. -/
  | jtagClamp
  /-- JTAG_HIGHZ (R431): The HIGHZ instruction is loaded only under fundamental reset. -/
  | jtagHighz
  /-- JTAG_EXTEST_PULSE (R431): The IEEE 1149.6 EXTEST_PULSE instruction is loaded only under fundamental reset. -/
  | jtagExtestPulse
  /-- JTAG_BYPASS (R430): BYPASS, or any unlisted opcode, selects the 1-bit bypass register. -/
  | jtagBypass (opcode : Byte)
  /-- FRZ_SEG (R411): The FRZ_SEG instruction selects a freeze segment. -/
  | frzSeg (seg : Byte)
  /-- FRZ_READ (R411): The FRZ_READ instruction shifts out the selected frozen segment. -/
  | frzRead
  /-- BB_ADDR (R411): The BB_ADDR instruction sets the black-box entry index. -/
  | bbAddr (index : BitVec 16)
  /-- BB_READ (R411): The BB_READ instruction powers MRAM and shifts out the addressed black-box entry. -/
  | bbRead
  /-- CHAMBER_W_EVALUATION (R113): In WATCH, chamber W evaluates its four conditions on every 10 ns always-on tick, so a level, constant or watch-timer condition can win and wake the package without any edge or knot. -/
  | chamberWEvaluation (d : Die)
  /-- PG_TIME_START (R251): Under start source TIME, the generator's first sample reaches the balls on the first f_base edge at or after the slot target plus 1 µs, and the generator enters RUNNING. -/
  | pgTimeStart (d : Die)
  /-- PCIE_LINK_UP (R341): The PCI Express link trains and the data link reaches DL_Active again, after start-up, a reset, a link loss or insertion, and the function answers enumeration. -/
  | pcieLinkUp (rate : Fin 6) (width : BitVec 5)
  /-- CONFIGURATION_WRITE (R322): A configuration write to the function changes a field with effects of its own, such as Memory Space Enable, PME_En or 10-Bit Tag Requester Enable. -/
  | configurationWrite (off : BitVec 12) (value : Dword) (be : BitVec 4)
  deriving DecidableEq, Repr

end Sys2Proof
end

