-- ==== Sys2Proof/Machine/Bits.lean ====
section
/-! DEFINITION. Bit-field, byte-order and checksum helpers that every chapter shares (R143 byte order, R149 CRCs). -/

namespace Sys2Proof.Machine

/-- The `n` low bytes of `v`, least significant first (R143: little-endian). -/
def leBytes : Nat → Nat → List Byte
  | 0, _ => []
  | n + 1, v => BitVec.ofNat 8 v :: leBytes n (v / 256)

/-- The number that little-endian bytes spell (R143). -/
def leNat : List Byte → Nat
  | [] => 0
  | b :: bs => b.toNat + 256 * leNat bs

/-- The residue of an integer in `w` bits, as a natural number (two's complement). -/
def wrapInt (w : Nat) (v : Int) : Nat := (v % (2 ^ w : Int)).toNat

/-- The signed reading of the low `w` bits of `v`. -/
def signedOf (w : Nat) (v : Nat) : Int := (BitVec.ofNat w v).toInt

/-- The two's-complement little-endian bytes of an integer. -/
def intBytes (n : Nat) (v : Int) : List Byte := leBytes n (wrapInt (8 * n) v)

/-- Zero bytes. -/
def zeros (n : Nat) : List Byte := List.replicate n 0

/-- A byte list filled with zeros or cut to exactly `n` bytes (R350, a length). -/
def fitBytes (n : Nat) (bs : List Byte) : List Byte := bs.take n ++ zeros (n - bs.length)

/-- Bits `[lo, lo + w)` of a number. -/
def bitsAt (lo w v : Nat) : Nat := v / 2 ^ lo % 2 ^ w

/-- One when the flag holds. -/
def b2n (b : Bool) : Nat := if b then 1 else 0

/-- A dword from a number. -/
def dw (n : Nat) : Dword := BitVec.ofNat 32 n

/-- A flag placed at bit `i` of a dword. -/
def bitIf (b : Bool) (i : Nat) : Dword := if b then BitVec.ofNat 32 (2 ^ i) else 0

/-- A number placed at bit `i` of a dword. -/
def fieldAt (n i : Nat) : Dword := BitVec.ofNat 32 (n * 2 ^ i)

/-- The nearest integer of a closed range. -/
def clampInt (lo hi v : Int) : Int := if v < lo then lo else if hi < v then hi else v

/-- Nearest-integer division, halves away from the floor; the divisor is positive. -/
def divRound (a b : Int) : Int := (2 * a + b) / (2 * b)

/-- The vector with one entry changed by a function. -/
def vmod {α : Type} {n : Nat} (v : Vector α n) (i : Fin n) (f : α → α) : Vector α n := v.set i (f v[i])

/-- One bit of a reflected CRC shift register. -/
def crcBitR (w : Nat) (poly : BitVec w) (c : BitVec w) : BitVec w :=
  if c.getLsbD 0 then (c >>> 1) ^^^ poly else c >>> 1

/-- One byte of CRC-32C (reflected polynomial 0x82F63B78). -/
def crc32cByte (c : BitVec 32) (b : Byte) : BitVec 32 :=
  (List.range 8).foldl (fun c _ => crcBitR 32 0x82F63B78 c) (c ^^^ b.setWidth 32)

/-- CRC-32C over a byte list (R149). -/
def crc32c (bs : List Byte) : BitVec 32 := ~~~(bs.foldl crc32cByte 0xFFFFFFFF)

/-- One byte of an MSB-first CRC-16 with polynomial 0x1021. -/
def crc16Byte (c : BitVec 16) (b : Byte) : BitVec 16 :=
  (List.range 8).foldl
    (fun c _ => if c.getLsbD 15 then (c <<< 1) ^^^ 0x1021 else c <<< 1)
    (c ^^^ (b.setWidth 16 <<< 8))

/-- The CRC-16 of R149 (HCRC): polynomial 0x1021, initial value all ones, no reflection, no final inversion. -/
def crc16 (bs : List Byte) : BitVec 16 := bs.foldl crc16Byte 0xFFFF

end Sys2Proof.Machine
end

