-- ==== Sys2Proof/Machine/Crypto.lean ====
section
/-! DEFINITION. SHA-256 (FIPS 180-4) and HMAC-SHA-256 (RFC 2104), as the trailer of R362 names them. -/

namespace Sys2Proof.Machine

/-- The greatest `r` below `2 ^ b` over `r` with `r ^ e` at most `x`, bit by bit. -/
def rootBits (e x : Nat) : Nat → Nat → Nat
  | 0, r => r
  | b + 1, r => rootBits e x b (if (r + 2 ^ b) ^ e ≤ x then r + 2 ^ b else r)

/-- The 64 primes that the constants of SHA-256 come from. -/
def shaPrimes : List Nat :=
  (List.range 312).filter (fun n => Nat.blt 1 n && (List.range 16).all (fun d => Nat.ble n (d + 2) || !Nat.beq (n % (d + 2)) 0))

/-- The first 32 bits of the fraction of the `e`-th root of a prime. -/
def rootWord (e p : Nat) : BitVec 32 := BitVec.ofNat 32 (rootBits e (p * 2 ^ (32 * e)) 37 0)

/-- The round constants of SHA-256: cube roots. -/
def shaK : List (BitVec 32) := shaPrimes.map (rootWord 3)

/-- The eight working words of SHA-256. -/
structure Sha where
  a : BitVec 32
  b : BitVec 32
  c : BitVec 32
  d : BitVec 32
  e : BitVec 32
  f : BitVec 32
  g : BitVec 32
  h : BitVec 32
  deriving DecidableEq, Repr

/-- The initial hash value: square roots of the first eight primes. -/
def Sha.init : Sha :=
  { a := rootWord 2 2, b := rootWord 2 3, c := rootWord 2 5, d := rootWord 2 7, e := rootWord 2 11, f := rootWord 2 13,
    g := rootWord 2 17, h := rootWord 2 19 }

/-- One round, with round constant and schedule word. -/
def Sha.round (x : Sha) (k w : BitVec 32) : Sha :=
  let s1 := x.e.rotateRight 6 ^^^ x.e.rotateRight 11 ^^^ x.e.rotateRight 25
  let ch := (x.e &&& x.f) ^^^ (~~~x.e &&& x.g)
  let t1 := x.h + s1 + ch + k + w
  let s0 := x.a.rotateRight 2 ^^^ x.a.rotateRight 13 ^^^ x.a.rotateRight 22
  let maj := (x.a &&& x.b) ^^^ (x.a &&& x.c) ^^^ (x.b &&& x.c)
  { a := t1 + (s0 + maj), b := x.a, c := x.b, d := x.c, e := x.d + t1, f := x.e, g := x.f, h := x.g }

/-- Wordwise sum. -/
def Sha.add (x y : Sha) : Sha :=
  { a := x.a + y.a, b := x.b + y.b, c := x.c + y.c, d := x.d + y.d, e := x.e + y.e, f := x.f + y.f, g := x.g + y.g, h := x.h + y.h }

/-- Big-endian bytes of a word. -/
def beBytes (w : BitVec 32) : List Byte := (leBytes 4 w.toNat).reverse

/-- The digest's bytes. -/
def Sha.bytes (x : Sha) : List Byte := [x.a, x.b, x.c, x.d, x.e, x.f, x.g, x.h].flatMap beBytes

/-- Big-endian words of a byte list. -/
def beWords : List Byte → List (BitVec 32)
  | a :: b :: c :: d :: rest => (a ++ b ++ c ++ d) :: beWords rest
  | _ => []

/-- The next schedule word from the sixteen before it. -/
def shaNext (w : List (BitVec 32)) : BitVec 32 :=
  let at_ := fun i => w.getD i 0
  let x := at_ 1
  let y := at_ 14
  let s0 := x.rotateRight 7 ^^^ x.rotateRight 18 ^^^ (x >>> 3)
  let s1 := y.rotateRight 17 ^^^ y.rotateRight 19 ^^^ (y >>> 10)
  at_ 0 + s0 + at_ 9 + s1

/-- One block: the rounds over the sliding schedule. -/
def Sha.block (x : Sha) (ws : List (BitVec 32)) : Sha :=
  let q := shaK.foldl (fun (q : Sha × List (BitVec 32)) k =>
    (q.1.round k (q.2.getD 0 0), q.2.drop 1 ++ [shaNext q.2])) (x, ws)
  x.add q.1

/-- The padded message. -/
def shaPad (bs : List Byte) : List Byte :=
  bs ++ [0x80] ++ zeros ((119 - bs.length % 64) % 64) ++ (leBytes 8 (8 * bs.length)).reverse

/-- Blocks of sixteen words, at most `n`. -/
def shaBlocks : Nat → List (BitVec 32) → Sha → Sha
  | 0, _, x => x
  | n + 1, ws, x => shaBlocks n (ws.drop 16) (x.block (ws.take 16))

/-- SHA-256. -/
def sha256 (bs : List Byte) : List Byte :=
  let p := shaPad bs
  (shaBlocks (p.length / 64) (beWords p) .init).bytes

/-- HMAC-SHA-256 under a key of at most 64 bytes. -/
def hmac256 (key msg : List Byte) : List Byte :=
  let k := fitBytes 64 key
  sha256 (k.map (· ^^^ 0x5c) ++ sha256 (k.map (· ^^^ 0x36) ++ msg))

end Sys2Proof.Machine
end

