-- ==== Sys2Proof/Config.lean ====
section
/-! DEFINITION. What an implementation fixes and the spec does not state: free values, with no body. -/

namespace Sys2Proof

/-- Per-part constants the spec only calls "per part": serial number, ROM version, silicon revision, factory calibration
data (assumption 4). The argument is the object key. -/
opaque Config.perPart : Nat → Nat
/-- Bytes of per-part identity fields (assumption 4). -/
opaque Config.perPartBytes : Nat → List Byte
/-- The chain version of freeze segment 0 (R411; assumption 4). -/
opaque Config.chainVersion : Nat
/-- A number that an instruction leaves open, fresh at each use of the counter `State.fresh` (assumption 5). -/
opaque Config.freeNat : Nat → Nat
/-- An integer that an instruction leaves open (assumption 5). -/
opaque Config.freeInt : Nat → Int
/-- A flag that an instruction leaves open (assumption 5). -/
opaque Config.freeBool : Nat → Bool
/-- Bytes that an instruction leaves open (assumption 5); the second argument is the length. -/
opaque Config.freeByte : Nat → Nat → Byte

end Sys2Proof
end

