-- ==== Sys2Proof/Machine/Store.lean ====
section
/-! DEFINITION. Sorted maps by number, the byte memories of the part and the values of dictionary objects (R346). -/

namespace Sys2Proof.Machine

/-- A map from numbers to values: pairs with strictly rising keys. -/
abbrev SMap (α : Type) := List (Nat × α)

/-- The value at a key, if one is held. -/
def mget {α : Type} (k : Nat) : SMap α → Option α
  | [] => none
  | (j, v) :: m => if j = k then some v else mget k m

/-- Put a value at a key, keeping the keys rising. -/
def mput {α : Type} (k : Nat) (v : α) : SMap α → SMap α
  | [] => [(k, v)]
  | (j, w) :: m =>
    if k < j then (k, v) :: (j, w) :: m else if k = j then (k, v) :: m else (j, w) :: mput k v m

/-- Remove a key. -/
def mdel {α : Type} (k : Nat) : SMap α → SMap α
  | [] => []
  | (j, w) :: m => if k = j then m else (j, w) :: mdel k m

/-- The keys rise strictly. -/
def mwf {α : Type} : SMap α → Bool
  | [] => true
  | [_] => true
  | (i, _) :: (j, w) :: m => decide (i < j) && mwf ((j, w) :: m)

/-- A byte memory in canonical form: addresses strictly rising, no zero byte listed. -/
abbrev Memory := List Host.Cell

/-- What an address reads as that nothing has written: zero (DESIGN CHOICE, assumption 3). -/
def unlistedByte : Byte := 0

/-- The canonical form of a memory. -/
def Memory.wf (m : Memory) : Bool := mwf m && m.all (fun c => c.2 != unlistedByte)

/-- One byte of a memory. -/
def memRead (m : Memory) (a : Nat) : Byte := (mget a m).getD unlistedByte

/-- A byte stored; storing what an unlisted address reads as removes the entry. -/
def memWrite (m : Memory) (a : Nat) (b : Byte) : Memory :=
  if b = unlistedByte then mdel a m else mput a b m

/-- `n` bytes from `a` upward. -/
def memReadBlock (m : Memory) : Nat → Nat → List Byte
  | _, 0 => []
  | a, n + 1 => memRead m a :: memReadBlock m (a + 1) n

/-- The listed cells that a byte string at `a` gives: its bytes that are not the unlisted byte. -/
def blockCells : Nat → List Byte → Memory
  | _, [] => []
  | a, b :: bs => if b = unlistedByte then blockCells (a + 1) bs else (a, b) :: blockCells (a + 1) bs

/-- A byte string stored from `a` upward, in one pass over the cells. -/
def memWriteBlock (m : Memory) (a : Nat) (bs : List Byte) : Memory :=
  m.takeWhile (fun c => c.1 < a) ++
    (blockCells a bs ++ (m.dropWhile (fun c => c.1 < a)).dropWhile (fun c => c.1 < a + bs.length))

/-- The value of a dictionary object: a number in the range of its type, or the bytes of a STR or BLOB (R346). -/
inductive Val where
  | num (v : Int)
  | bytes (bs : List Byte)
  deriving DecidableEq, Repr

/-- The number of a value; a byte value has none and reads as zero. -/
def Val.int : Val → Int
  | .num v => v
  | .bytes _ => 0

/-- The bytes of a byte value. -/
def Val.byteList : Val → List Byte
  | .num _ => []
  | .bytes bs => bs

/-- The key of an object in the store. -/
def objKey (idx sub : Nat) : Nat := idx * 256 + sub

end Sys2Proof.Machine
end

