-- ==== Sys2Proof/Machine/ObjTable.lean ====
section
/-! DEFINITION. The object dictionary of the part: one row for each object line of the chapters' object tables (R345 to R349).
Each row holds the index range, the subindex range, the type, the access code, the default, the range and the die the object belongs to (2: the package). -/

namespace Sys2Proof.Machine

/-- Type codes of R346. -/
inductive OType where
  | bool | u8 | u16 | u32 | u64 | i32 | i64 | time | str | blob
  deriving DecidableEq, Repr

/-- Access codes of R347. -/
inductive OAcc where
  | const | ro | rw | rwi | wo | w1 | g
  deriving DecidableEq, Repr

/-- The default of an object, as its table states it. -/
inductive ODflt where
  | num (n : Int)
  | zeros
  /-- `base + step × (sub − first)`. -/
  | bySub (base step first : Nat)
  /-- `base + step × (index − first index of the row)`. -/
  | byIdx (base step : Nat)
  /-- Channel `128 × (strand of the state clock)`: the first strand pair of the clock (object 2050). -/
  | clockSrc
  /-- Channel `128 × (g ÷ 4)` of gauge g. -/
  | gaugeChan
  /-- A value of the variant or of the single part. -/
  | perPart
  deriving DecidableEq, Repr

/-- The range of an object. -/
inductive ORange where
  | range (lo hi : Int)
  | any
  | aligned (n : Nat)
  /-- Multiples of `n` up to `hi`. -/
  | alignedTo (n hi : Nat)
  | channel
  | slotChannel
  | selector
  | watchSelector
  | compareSource
  | watchCompare
  | backgrounds
  | blob (n : Nat)
  | ipv4Group
  | guardMode
  /-- Codes 0 to `n`, with the codes beyond reserved. -/
  | codes (n : Nat)
  | variantMax
  deriving DecidableEq, Repr

/-- One line of an object table. -/
structure ObjRow where
  lo : Nat
  hi : Nat
  slo : Nat
  shi : Nat
  typ : OType
  acc : OAcc
  dflt : ODflt
  rng : ORange
  die : Nat
  deriving DecidableEq, Repr

def objRows02_0 : List ObjRow :=
  [ ⟨0x2000, 0x2003, 0x00, 0xFF, .u16, .rwi, .num 512, .range (0) (1023), 0⟩,
    ⟨0x2004, 0x2007, 0x00, 0xFF, .u16, .rwi, .num 512, .range (0) (1023), 1⟩,
    ⟨0x2010, 0x2013, 0x00, 0xFF, .u8, .rwi, .num 0, .range (0) (15), 0⟩,
    ⟨0x2014, 0x2017, 0x00, 0xFF, .u8, .rwi, .num 0, .range (0) (15), 1⟩,
    ⟨0x2020, 0x2023, 0x00, 0xFF, .i32, .rwi, .num 0, .range (-64) (64), 0⟩,
    ⟨0x2024, 0x2027, 0x00, 0xFF, .i32, .rwi, .num 0, .range (-64) (64), 1⟩,
    ⟨0x2030, 0x2030, 0x00, 0x7F, .i32, .rwi, .num 0, .range (-32) (31), 0⟩,
    ⟨0x2030, 0x2030, 0x80, 0xFF, .i32, .rwi, .num 0, .range (-32) (31), 1⟩,
    ⟨0x2031, 0x2031, 0x00, 0x7F, .bool, .rwi, .num 0, .range (0) (1), 0⟩,
    ⟨0x2031, 0x2031, 0x80, 0xFF, .bool, .rwi, .num 0, .range (0) (1), 1⟩,
    ⟨0x2032, 0x2032, 0x00, 0x7F, .bool, .ro, .num 0, .range (0) (1), 0⟩,
    ⟨0x2032, 0x2032, 0x80, 0xFF, .bool, .ro, .num 0, .range (0) (1), 1⟩,
    ⟨0x2033, 0x2033, 0x00, 0x7F, .u8, .ro, .num 0, .range (0) (3), 0⟩,
    ⟨0x2033, 0x2033, 0x80, 0xFF, .u8, .ro, .num 0, .range (0) (3), 1⟩,
    ⟨0x2040, 0x2040, 0x00, 0x07, .u8, .rwi, .num 0, .range (0) (1), 0⟩,
    ⟨0x2040, 0x2040, 0x08, 0x0F, .u8, .rwi, .num 0, .range (0) (1), 1⟩,
    ⟨0x2041, 0x2041, 0x00, 0x07, .u8, .rwi, .num 0, .range (0) (3), 0⟩,
    ⟨0x2041, 0x2041, 0x08, 0x0F, .u8, .rwi, .num 0, .range (0) (3), 1⟩,
    ⟨0x2050, 0x2050, 0x00, 0x03, .u8, .rwi, .clockSrc, .range (0) (7), 0⟩,
    ⟨0x2050, 0x2050, 0x04, 0x07, .u8, .rwi, .clockSrc, .range (0) (7), 1⟩ ]

def objRows02_1 : List ObjRow :=
  [ ⟨0x2051, 0x2051, 0x00, 0x03, .u8, .rwi, .num 0, .range (0) (2), 0⟩,
    ⟨0x2051, 0x2051, 0x04, 0x07, .u8, .rwi, .num 0, .range (0) (2), 1⟩,
    ⟨0x2060, 0x2060, 0x00, 0x00, .u8, .wo, .num 0, .range (1) (3), 2⟩,
    ⟨0x2061, 0x2061, 0x01, 0x01, .time, .ro, .num 0, .any, 0⟩,
    ⟨0x2061, 0x2061, 0x02, 0x02, .time, .ro, .num 0, .any, 1⟩,
    ⟨0x2061, 0x2061, 0x03, 0x03, .i32, .ro, .num 0, .range (-40000) (125000), 0⟩,
    ⟨0x2061, 0x2061, 0x04, 0x04, .i32, .ro, .num 0, .range (-40000) (125000), 1⟩,
    ⟨0x2061, 0x2061, 0x05, 0x05, .u8, .ro, .num 0, .range (0) (2), 0⟩,
    ⟨0x2061, 0x2061, 0x06, 0x06, .u8, .ro, .num 0, .range (0) (2), 1⟩,
    ⟨0x2061, 0x2061, 0x07, 0x07, .u32, .ro, .num 0, .range (0) (4294967295), 0⟩,
    ⟨0x2061, 0x2061, 0x08, 0x08, .u32, .ro, .num 0, .range (0) (4294967295), 1⟩,
    ⟨0x2061, 0x2061, 0x09, 0x09, .bool, .ro, .num 0, .range (0) (1), 2⟩,
    ⟨0x2061, 0x2061, 0x0A, 0x0A, .u32, .ro, .num 0, .range (0) (4294967295), 2⟩,
    ⟨0x2062, 0x2062, 0x00, 0x00, .u32, .ro, .num 0, .range (0) (4294967295), 2⟩,
    ⟨0x2070, 0x2070, 0x01, 0x01, .u8, .rw, .num 0, .range (0) (1), 2⟩,
    ⟨0x2070, 0x2070, 0x02, 0x02, .u8, .rw, .num 0, .range (0) (1), 2⟩,
    ⟨0x2070, 0x2070, 0x03, 0x03, .u32, .rw, .num 65536, .range (1024) (16777216), 2⟩,
    ⟨0x2070, 0x2070, 0x04, 0x04, .u8, .rw, .num 1, .range (1) (64), 2⟩,
    ⟨0x2070, 0x2070, 0x05, 0x05, .u16, .rw, .num 8, .range (1) (128), 2⟩,
    ⟨0x2070, 0x2070, 0x06, 0x06, .u16, .rw, .num 0, .range (0) (1023), 2⟩,
    ⟨0x2070, 0x2070, 0x07, 0x07, .bool, .rw, .num 0, .range (0) (1), 2⟩,
    ⟨0x2070, 0x2070, 0x08, 0x08, .bool, .wo, .num 0, .range (1) (1), 2⟩,
    ⟨0x2071, 0x2071, 0x00, 0x00, .u8, .ro, .num 0, .range (0) (4), 2⟩,
    ⟨0x2080, 0x2083, 0x00, 0xFF, .i32, .ro, .num 0, .range (-64) (64), 0⟩ ]

def objRows02_2 : List ObjRow :=
  [ ⟨0x2084, 0x2087, 0x00, 0xFF, .i32, .ro, .num 0, .range (-64) (64), 1⟩,
    ⟨0x2088, 0x208B, 0x00, 0xFF, .u16, .ro, .num 0, .range (0) (129), 0⟩,
    ⟨0x208C, 0x208F, 0x00, 0xFF, .u16, .ro, .num 0, .range (0) (129), 1⟩,
    ⟨0x2090, 0x2093, 0x00, 0xFF, .u16, .ro, .num 0, .range (0) (1023), 0⟩,
    ⟨0x2094, 0x2097, 0x00, 0xFF, .u16, .ro, .num 0, .range (0) (1023), 1⟩,
    ⟨0x20B0, 0x20B3, 0x00, 0xFF, .u32, .ro, .num 0, .range (0) (4294967295), 0⟩,
    ⟨0x20B4, 0x20B7, 0x00, 0xFF, .u32, .ro, .num 0, .range (0) (4294967295), 1⟩,
    ⟨0x20B8, 0x20BB, 0x00, 0xFF, .bool, .ro, .num 0, .range (0) (1), 0⟩,
    ⟨0x20BC, 0x20BF, 0x00, 0xFF, .bool, .ro, .num 0, .range (0) (1), 1⟩ ]

/-- The objects of chapter 02. -/
def objRows02 : List ObjRow :=
  objRows02_0 ++ objRows02_1 ++ objRows02_2

def objRows03_0 : List ObjRow :=
  [ ⟨0x3000, 0x303F, 0x01, 0x01, .u8, .rwi, .num 0, .range (0) (1), 0⟩,
    ⟨0x3000, 0x303F, 0x02, 0x02, .blob, .rwi, .zeros, .blob 128, 0⟩,
    ⟨0x3000, 0x303F, 0x03, 0x03, .blob, .rwi, .zeros, .blob 128, 0⟩,
    ⟨0x3040, 0x307F, 0x01, 0x01, .u8, .rwi, .num 0, .range (0) (1), 1⟩,
    ⟨0x3040, 0x307F, 0x02, 0x02, .blob, .rwi, .zeros, .blob 128, 1⟩,
    ⟨0x3040, 0x307F, 0x03, 0x03, .blob, .rwi, .zeros, .blob 128, 1⟩,
    ⟨0x3080, 0x309F, 0x01, 0x01, .u8, .rwi, .num 0, .range (0) (1), 0⟩,
    ⟨0x3080, 0x309F, 0x02, 0x02, .u16, .rwi, .num 0, .channel, 0⟩,
    ⟨0x3080, 0x309F, 0x03, 0x03, .u8, .rwi, .num 0, .range (0) (63), 0⟩,
    ⟨0x3080, 0x309F, 0x04, 0x04, .u8, .rwi, .num 0, .range (0) (2), 0⟩,
    ⟨0x30A0, 0x30BF, 0x01, 0x01, .u8, .rwi, .num 0, .range (0) (1), 1⟩,
    ⟨0x30A0, 0x30BF, 0x02, 0x02, .u16, .rwi, .num 1024, .channel, 1⟩,
    ⟨0x30A0, 0x30BF, 0x03, 0x03, .u8, .rwi, .num 0, .range (0) (63), 1⟩,
    ⟨0x30A0, 0x30BF, 0x04, 0x04, .u8, .rwi, .num 0, .range (0) (2), 1⟩,
    ⟨0x30C0, 0x30CF, 0x01, 0x01, .u8, .rwi, .num 0, .range (0) (63), 0⟩,
    ⟨0x30C0, 0x30CF, 0x02, 0x02, .u8, .rwi, .num 0, .range (0) (1), 0⟩,
    ⟨0x30C0, 0x30CF, 0x03, 0x03, .u64, .rwi, .num 0, .any, 0⟩,
    ⟨0x30C0, 0x30CF, 0x04, 0x04, .u64, .rwi, .num 0, .any, 0⟩,
    ⟨0x30D0, 0x30DF, 0x01, 0x01, .u8, .rwi, .num 0, .range (0) (63), 1⟩,
    ⟨0x30D0, 0x30DF, 0x02, 0x02, .u8, .rwi, .num 0, .range (0) (1), 1⟩ ]

def objRows03_1 : List ObjRow :=
  [ ⟨0x30D0, 0x30DF, 0x03, 0x03, .u64, .rwi, .num 0, .any, 1⟩,
    ⟨0x30D0, 0x30DF, 0x04, 0x04, .u64, .rwi, .num 0, .any, 1⟩,
    ⟨0x30E0, 0x30E7, 0x01, 0x01, .u8, .rwi, .num 0, .range (0) (1), 0⟩,
    ⟨0x30E0, 0x30E7, 0x02, 0x02, .u16, .rwi, .num 0, .channel, 0⟩,
    ⟨0x30E0, 0x30E7, 0x03, 0x03, .u8, .rwi, .num 0, .range (0) (63), 0⟩,
    ⟨0x30E0, 0x30E7, 0x04, 0x04, .u8, .rwi, .num 0, .range (0) (2), 0⟩,
    ⟨0x30E0, 0x30E7, 0x05, 0x05, .u32, .rwi, .num 64, .range (64) (65535), 0⟩,
    ⟨0x30E8, 0x30EF, 0x01, 0x01, .u8, .rwi, .num 0, .range (0) (1), 1⟩,
    ⟨0x30E8, 0x30EF, 0x02, 0x02, .u16, .rwi, .num 1024, .channel, 1⟩,
    ⟨0x30E8, 0x30EF, 0x03, 0x03, .u8, .rwi, .num 0, .range (0) (63), 1⟩,
    ⟨0x30E8, 0x30EF, 0x04, 0x04, .u8, .rwi, .num 0, .range (0) (2), 1⟩,
    ⟨0x30E8, 0x30EF, 0x05, 0x05, .u32, .rwi, .num 64, .range (64) (65535), 1⟩,
    ⟨0x30F0, 0x30F7, 0x01, 0x01, .u8, .rwi, .num 0, .range (0) (1), 0⟩,
    ⟨0x30F0, 0x30F7, 0x02, 0x02, .u16, .rwi, .num 0, .channel, 0⟩,
    ⟨0x30F0, 0x30F7, 0x03, 0x03, .u8, .rwi, .num 0, .range (0) (63), 0⟩,
    ⟨0x30F0, 0x30F7, 0x04, 0x04, .u8, .rwi, .num 1, .range (0) (1), 0⟩,
    ⟨0x30F0, 0x30F7, 0x05, 0x05, .u8, .rwi, .num 0, .range (0) (1), 0⟩,
    ⟨0x30F0, 0x30F7, 0x06, 0x06, .u64, .rwi, .num 0, .range (0) (281474976710655), 0⟩,
    ⟨0x30F0, 0x30F7, 0x07, 0x07, .u64, .rwi, .num 281474976710655, .range (0) (281474976710655), 0⟩,
    ⟨0x30F8, 0x30FF, 0x01, 0x01, .u8, .rwi, .num 0, .range (0) (1), 1⟩ ]

def objRows03_2 : List ObjRow :=
  [ ⟨0x30F8, 0x30FF, 0x02, 0x02, .u16, .rwi, .num 1024, .channel, 1⟩,
    ⟨0x30F8, 0x30FF, 0x03, 0x03, .u8, .rwi, .num 0, .range (0) (63), 1⟩,
    ⟨0x30F8, 0x30FF, 0x04, 0x04, .u8, .rwi, .num 1, .range (0) (1), 1⟩,
    ⟨0x30F8, 0x30FF, 0x05, 0x05, .u8, .rwi, .num 0, .range (0) (1), 1⟩,
    ⟨0x30F8, 0x30FF, 0x06, 0x06, .u64, .rwi, .num 0, .range (0) (281474976710655), 1⟩,
    ⟨0x30F8, 0x30FF, 0x07, 0x07, .u64, .rwi, .num 281474976710655, .range (0) (281474976710655), 1⟩,
    ⟨0x3100, 0x313F, 0x01, 0x01, .u8, .rwi, .num 1, .range (1) (64), 0⟩,
    ⟨0x3100, 0x313F, 0x02, 0x02, .bool, .rwi, .num 0, .range (0) (1), 0⟩,
    ⟨0x3100, 0x313F, 0x10, 0x4F, .u16, .rwi, .bySub 0 1 0x10, .channel, 0⟩,
    ⟨0x3140, 0x317F, 0x01, 0x01, .u8, .rwi, .num 1, .range (1) (64), 1⟩,
    ⟨0x3140, 0x317F, 0x02, 0x02, .bool, .rwi, .num 0, .range (0) (1), 1⟩,
    ⟨0x3140, 0x317F, 0x10, 0x4F, .u16, .rwi, .bySub 1024 1 0x10, .channel, 1⟩,
    ⟨0x3210, 0x3217, 0x01, 0x01, .u16, .rwi, .num 0, .range (0) (65535), 0⟩,
    ⟨0x3210, 0x3217, 0x02, 0x02, .u8, .rwi, .num 0, .range (0) (1), 0⟩,
    ⟨0x3210, 0x3217, 0x03, 0x03, .i64, .rwi, .num 0, .range (-1000000000) (1000000000), 0⟩,
    ⟨0x3218, 0x321F, 0x01, 0x01, .u16, .rwi, .num 0, .range (0) (65535), 1⟩,
    ⟨0x3218, 0x321F, 0x02, 0x02, .u8, .rwi, .num 0, .range (0) (1), 1⟩,
    ⟨0x3218, 0x321F, 0x03, 0x03, .i64, .rwi, .num 0, .range (-1000000000) (1000000000), 1⟩,
    ⟨0x3220, 0x3220, 0x01, 0x08, .u32, .ro, .num 0, .range (0) (4294967295), 0⟩,
    ⟨0x3220, 0x3220, 0x09, 0x10, .u32, .ro, .num 0, .range (0) (4294967295), 0⟩ ]

def objRows03_3 : List ObjRow :=
  [ ⟨0x3221, 0x3221, 0x01, 0x08, .u32, .ro, .num 0, .range (0) (4294967295), 1⟩,
    ⟨0x3221, 0x3221, 0x09, 0x10, .u32, .ro, .num 0, .range (0) (4294967295), 1⟩,
    ⟨0x3280, 0x3280, 0x01, 0x04, .u16, .rwi, .num 512, .range (0) (1023), 2⟩,
    ⟨0x3281, 0x3281, 0x01, 0x04, .u8, .rwi, .num 0, .range (0) (15), 2⟩,
    ⟨0x3290, 0x3290, 0x01, 0x04, .u8, .rwi, .num 0, .range (0) (4), 0⟩,
    ⟨0x3291, 0x3291, 0x01, 0x04, .u8, .rwi, .num 0, .range (0) (4), 1⟩,
    ⟨0x3292, 0x3292, 0x01, 0x04, .i32, .rwi, .num 0, .range (-64) (64), 0⟩,
    ⟨0x3293, 0x3293, 0x01, 0x04, .i32, .rwi, .num 0, .range (-64) (64), 1⟩,
    ⟨0x32F0, 0x32F0, 0x01, 0x01, .bool, .ro, .num 0, .range (0) (1), 0⟩,
    ⟨0x32F0, 0x32F0, 0x02, 0x02, .u32, .ro, .num 0, .range (0) (4294967295), 0⟩,
    ⟨0x32F0, 0x32F0, 0x03, 0x03, .u32, .ro, .num 0, .range (0) (4294967295), 0⟩,
    ⟨0x32F1, 0x32F1, 0x01, 0x01, .bool, .ro, .num 0, .range (0) (1), 1⟩,
    ⟨0x32F1, 0x32F1, 0x02, 0x02, .u32, .ro, .num 0, .range (0) (4294967295), 1⟩,
    ⟨0x32F1, 0x32F1, 0x03, 0x03, .u32, .ro, .num 0, .range (0) (4294967295), 1⟩ ]

/-- The objects of chapter 03. -/
def objRows03 : List ObjRow :=
  objRows03_0 ++ objRows03_1 ++ objRows03_2 ++ objRows03_3

def objRows04_0 : List ObjRow :=
  [ ⟨0x3400, 0x347F, 0x01, 0x01, .bool, .rwi, .num 0, .range (0) (1), 0⟩,
    ⟨0x3400, 0x347F, 0x02, 0x05, .u8, .rwi, .num 254, .selector, 0⟩,
    ⟨0x3400, 0x347F, 0x06, 0x06, .u8, .rwi, .num 0, .range (0) (15), 0⟩,
    ⟨0x3400, 0x347F, 0x07, 0x07, .u16, .rwi, .num 0, .range (0) (65535), 0⟩,
    ⟨0x3400, 0x347F, 0x08, 0x08, .u8, .rwi, .num 0, .compareSource, 0⟩,
    ⟨0x3400, 0x347F, 0x09, 0x09, .u8, .rwi, .num 0, .range (0) (2), 0⟩,
    ⟨0x3400, 0x347F, 0x0A, 0x0A, .u64, .rwi, .num 0, .range (0) (281474976710655), 0⟩,
    ⟨0x3400, 0x347F, 0x10, 0x10, .bool, .rwi, .num 0, .range (0) (1), 0⟩,
    ⟨0x3400, 0x347F, 0x11, 0x11, .u8, .rwi, .num 0, .range (0) (15), 0⟩,
    ⟨0x3400, 0x347F, 0x12, 0x12, .bool, .rwi, .num 0, .range (0) (1), 0⟩,
    ⟨0x3400, 0x347F, 0x13, 0x13, .u8, .rwi, .num 0, .range (0) (2), 0⟩,
    ⟨0x3400, 0x347F, 0x14, 0x14, .u8, .rwi, .num 0, .range (0) (255), 0⟩,
    ⟨0x3400, 0x347F, 0x15, 0x15, .u8, .rwi, .num 0, .range (0) (255), 0⟩,
    ⟨0x3400, 0x347F, 0x16, 0x16, .u8, .rwi, .num 0, .range (0) (255), 0⟩,
    ⟨0x3400, 0x347F, 0x17, 0x17, .u8, .rwi, .num 0, .range (0) (255), 0⟩,
    ⟨0x3400, 0x347F, 0x18, 0x18, .u8, .rwi, .num 0, .range (0) (255), 0⟩,
    ⟨0x3400, 0x347F, 0x19, 0x19, .u16, .rwi, .num 0, .range (0) (65535), 0⟩,
    ⟨0x3400, 0x347F, 0x1A, 0x1A, .bool, .rwi, .num 0, .range (0) (1), 0⟩,
    ⟨0x3400, 0x347F, 0x1B, 0x1B, .u8, .rwi, .num 0, .range (0) (15), 0⟩,
    ⟨0x3400, 0x347F, 0x1C, 0x1C, .u8, .rwi, .num 0, .range (0) (3), 0⟩ ]

def objRows04_1 : List ObjRow :=
  [ ⟨0x3480, 0x3480, 0x01, 0x01, .u16, .rwi, .num 0, .range (0) (65535), 0⟩,
    ⟨0x3480, 0x3480, 0x02, 0x02, .bool, .rwi, .num 1, .range (0) (1), 0⟩,
    ⟨0x3480, 0x3480, 0x03, 0x03, .u8, .rwi, .num 0, .range (0) (255), 0⟩,
    ⟨0x3480, 0x3480, 0x04, 0x04, .bool, .rwi, .num 0, .range (0) (1), 0⟩,
    ⟨0x3480, 0x3480, 0x05, 0x05, .i64, .rwi, .num 0, .range (-1000000000) (1000000000), 0⟩,
    ⟨0x3480, 0x3480, 0x06, 0x06, .u16, .rwi, .num 0, .range (0) (65535), 0⟩,
    ⟨0x3480, 0x3480, 0x07, 0x07, .i64, .rwi, .num 0, .range (-1000000000) (1000000000), 0⟩,
    ⟨0x3490, 0x3490, 0x01, 0x01, .u8, .ro, .num 0, .range (0) (15), 0⟩,
    ⟨0x3490, 0x3490, 0x02, 0x02, .u32, .ro, .num 0, .range (0) (4294967295), 0⟩,
    ⟨0x3490, 0x3490, 0x03, 0x03, .u32, .ro, .num 0, .range (0) (4294967295), 0⟩,
    ⟨0x3490, 0x3490, 0x04, 0x04, .u32, .ro, .num 0, .range (0) (4294967295), 0⟩,
    ⟨0x3490, 0x3490, 0x05, 0x05, .u32, .ro, .num 0, .range (0) (4294967295), 0⟩,
    ⟨0x3490, 0x3490, 0x06, 0x06, .u32, .ro, .num 0, .range (0) (4294967295), 0⟩,
    ⟨0x3490, 0x3490, 0x07, 0x07, .u32, .ro, .num 0, .range (0) (4294967295), 0⟩,
    ⟨0x34A0, 0x34A0, 0x01, 0x08, .u64, .ro, .num 0, .range (0) (281474976710655), 0⟩,
    ⟨0x34A0, 0x34A0, 0x09, 0x10, .u64, .ro, .num 0, .range (0) (281474976710655), 0⟩,
    ⟨0x3500, 0x357F, 0x01, 0x01, .bool, .rwi, .num 0, .range (0) (1), 1⟩,
    ⟨0x3500, 0x357F, 0x02, 0x05, .u8, .rwi, .num 254, .selector, 1⟩,
    ⟨0x3500, 0x357F, 0x06, 0x06, .u8, .rwi, .num 0, .range (0) (15), 1⟩,
    ⟨0x3500, 0x357F, 0x07, 0x07, .u16, .rwi, .num 0, .range (0) (65535), 1⟩ ]

def objRows04_2 : List ObjRow :=
  [ ⟨0x3500, 0x357F, 0x08, 0x08, .u8, .rwi, .num 0, .compareSource, 1⟩,
    ⟨0x3500, 0x357F, 0x09, 0x09, .u8, .rwi, .num 0, .range (0) (2), 1⟩,
    ⟨0x3500, 0x357F, 0x0A, 0x0A, .u64, .rwi, .num 0, .range (0) (281474976710655), 1⟩,
    ⟨0x3500, 0x357F, 0x10, 0x10, .bool, .rwi, .num 0, .range (0) (1), 1⟩,
    ⟨0x3500, 0x357F, 0x11, 0x11, .u8, .rwi, .num 0, .range (0) (15), 1⟩,
    ⟨0x3500, 0x357F, 0x12, 0x12, .bool, .rwi, .num 0, .range (0) (1), 1⟩,
    ⟨0x3500, 0x357F, 0x13, 0x13, .u8, .rwi, .num 0, .range (0) (2), 1⟩,
    ⟨0x3500, 0x357F, 0x14, 0x14, .u8, .rwi, .num 0, .range (0) (255), 1⟩,
    ⟨0x3500, 0x357F, 0x15, 0x15, .u8, .rwi, .num 0, .range (0) (255), 1⟩,
    ⟨0x3500, 0x357F, 0x16, 0x16, .u8, .rwi, .num 0, .range (0) (255), 1⟩,
    ⟨0x3500, 0x357F, 0x17, 0x17, .u8, .rwi, .num 0, .range (0) (255), 1⟩,
    ⟨0x3500, 0x357F, 0x18, 0x18, .u8, .rwi, .num 0, .range (0) (255), 1⟩,
    ⟨0x3500, 0x357F, 0x19, 0x19, .u16, .rwi, .num 0, .range (0) (65535), 1⟩,
    ⟨0x3500, 0x357F, 0x1A, 0x1A, .bool, .rwi, .num 0, .range (0) (1), 1⟩,
    ⟨0x3500, 0x357F, 0x1B, 0x1B, .u8, .rwi, .num 0, .range (0) (15), 1⟩,
    ⟨0x3500, 0x357F, 0x1C, 0x1C, .u8, .rwi, .num 0, .range (0) (3), 1⟩,
    ⟨0x3580, 0x3580, 0x01, 0x01, .u16, .rwi, .num 0, .range (0) (65535), 1⟩,
    ⟨0x3580, 0x3580, 0x02, 0x02, .bool, .rwi, .num 1, .range (0) (1), 1⟩,
    ⟨0x3580, 0x3580, 0x03, 0x03, .u8, .rwi, .num 0, .range (0) (255), 1⟩,
    ⟨0x3580, 0x3580, 0x04, 0x04, .bool, .rwi, .num 0, .range (0) (1), 1⟩ ]

def objRows04_3 : List ObjRow :=
  [ ⟨0x3580, 0x3580, 0x05, 0x05, .i64, .rwi, .num 0, .range (-1000000000) (1000000000), 1⟩,
    ⟨0x3580, 0x3580, 0x06, 0x06, .u16, .rwi, .num 0, .range (0) (65535), 1⟩,
    ⟨0x3580, 0x3580, 0x07, 0x07, .i64, .rwi, .num 0, .range (-1000000000) (1000000000), 1⟩,
    ⟨0x3590, 0x3590, 0x01, 0x01, .u8, .ro, .num 0, .range (0) (15), 1⟩,
    ⟨0x3590, 0x3590, 0x02, 0x02, .u32, .ro, .num 0, .range (0) (4294967295), 1⟩,
    ⟨0x3590, 0x3590, 0x03, 0x03, .u32, .ro, .num 0, .range (0) (4294967295), 1⟩,
    ⟨0x3590, 0x3590, 0x04, 0x04, .u32, .ro, .num 0, .range (0) (4294967295), 1⟩,
    ⟨0x3590, 0x3590, 0x05, 0x05, .u32, .ro, .num 0, .range (0) (4294967295), 1⟩,
    ⟨0x3590, 0x3590, 0x06, 0x06, .u32, .ro, .num 0, .range (0) (4294967295), 1⟩,
    ⟨0x3590, 0x3590, 0x07, 0x07, .u32, .ro, .num 0, .range (0) (4294967295), 1⟩,
    ⟨0x35A0, 0x35A0, 0x01, 0x08, .u64, .ro, .num 0, .range (0) (281474976710655), 1⟩,
    ⟨0x35A0, 0x35A0, 0x09, 0x10, .u64, .ro, .num 0, .range (0) (281474976710655), 1⟩,
    ⟨0x3600, 0x3601, 0x01, 0x01, .bool, .rwi, .num 0, .range (0) (1), 2⟩,
    ⟨0x3600, 0x3601, 0x02, 0x02, .u8, .rwi, .num 0, .range (0) (2), 2⟩,
    ⟨0x3600, 0x3601, 0x03, 0x03, .u8, .rwi, .num 0, .range (0) (1), 2⟩,
    ⟨0x3600, 0x3601, 0x04, 0x04, .u16, .rwi, .num 4, .range (1) (1024), 2⟩ ]

/-- The objects of chapter 04. -/
def objRows04 : List ObjRow :=
  objRows04_0 ++ objRows04_1 ++ objRows04_2 ++ objRows04_3

def objRows05_0 : List ObjRow :=
  [ ⟨0x3800, 0x3800, 0x01, 0x01, .u8, .rwi, .num 0, .range (0) (3), 0⟩,
    ⟨0x3800, 0x3800, 0x02, 0x02, .u8, .rwi, .num 0, .range (0) (3), 0⟩,
    ⟨0x3800, 0x3800, 0x03, 0x03, .u32, .rwi, .num 1, .range (1) (65536), 0⟩,
    ⟨0x3800, 0x3800, 0x04, 0x04, .u64, .rwi, .num 4096, .range (2) (4294967296), 0⟩,
    ⟨0x3800, 0x3800, 0x05, 0x05, .u64, .rwi, .num 0, .any, 0⟩,
    ⟨0x3801, 0x3801, 0x01, 0x01, .u8, .rwi, .num 0, .range (0) (3), 1⟩,
    ⟨0x3801, 0x3801, 0x02, 0x02, .u8, .rwi, .num 0, .range (0) (3), 1⟩,
    ⟨0x3801, 0x3801, 0x03, 0x03, .u32, .rwi, .num 1, .range (1) (65536), 1⟩,
    ⟨0x3801, 0x3801, 0x04, 0x04, .u64, .rwi, .num 4096, .range (2) (4294967296), 1⟩,
    ⟨0x3801, 0x3801, 0x05, 0x05, .u64, .rwi, .num 0, .any, 1⟩,
    ⟨0x3808, 0x3808, 0x00, 0x07, .u16, .rwi, .num 0, .range (0) (8000), 0⟩,
    ⟨0x3809, 0x3809, 0x00, 0x07, .u16, .rwi, .num 0, .range (0) (8000), 1⟩,
    ⟨0x3810, 0x3813, 0x00, 0xFF, .bool, .rwi, .num 0, .range (0) (1), 0⟩,
    ⟨0x3814, 0x3817, 0x00, 0xFF, .bool, .rwi, .num 0, .range (0) (1), 1⟩,
    ⟨0x3820, 0x3820, 0x01, 0x01, .u32, .rwi, .num 20000, .range (0) (300000), 2⟩,
    ⟨0x3820, 0x3820, 0x02, 0x02, .u32, .ro, .num 0, .range (0) (409600), 2⟩,
    ⟨0x3822, 0x3822, 0x01, 0x01, .u32, .ro, .num 0, .range (0) (4294967295), 0⟩,
    ⟨0x3823, 0x3823, 0x01, 0x01, .u32, .ro, .num 0, .range (0) (4294967295), 1⟩,
    ⟨0x3824, 0x3824, 0x01, 0x01, .u64, .ro, .num 0, .range (0) (18446744073709551615), 0⟩,
    ⟨0x3824, 0x3824, 0x02, 0x02, .u32, .ro, .num 0, .range (0) (4294967295), 0⟩ ]

def objRows05_1 : List ObjRow :=
  [ ⟨0x3824, 0x3824, 0x03, 0x03, .u32, .ro, .num 0, .range (0) (4294967295), 0⟩,
    ⟨0x3825, 0x3825, 0x01, 0x01, .u64, .ro, .num 0, .range (0) (18446744073709551615), 1⟩,
    ⟨0x3825, 0x3825, 0x02, 0x02, .u32, .ro, .num 0, .range (0) (4294967295), 1⟩,
    ⟨0x3825, 0x3825, 0x03, 0x03, .u32, .ro, .num 0, .range (0) (4294967295), 1⟩,
    ⟨0x3860, 0x3860, 0x01, 0x01, .bool, .rwi, .num 0, .range (0) (1), 0⟩,
    ⟨0x3861, 0x3861, 0x01, 0x01, .bool, .rwi, .num 0, .range (0) (1), 1⟩,
    ⟨0x3862, 0x3862, 0x01, 0x40, .u16, .rwi, .num 65535, .slotChannel, 0⟩,
    ⟨0x3863, 0x3863, 0x01, 0x40, .u16, .rwi, .num 65535, .slotChannel, 1⟩,
    ⟨0x3864, 0x3864, 0x01, 0x40, .u8, .rwi, .num 2, .range (0) (2), 0⟩,
    ⟨0x3865, 0x3865, 0x01, 0x40, .u8, .rwi, .num 2, .range (0) (2), 1⟩,
    ⟨0x3868, 0x386B, 0x01, 0x01, .bool, .rwi, .num 0, .range (0) (1), 0⟩,
    ⟨0x3868, 0x386B, 0x02, 0x05, .u8, .rwi, .num 254, .watchSelector, 0⟩,
    ⟨0x3868, 0x386B, 0x06, 0x06, .u8, .rwi, .num 0, .range (0) (15), 0⟩,
    ⟨0x3868, 0x386B, 0x07, 0x07, .u16, .rwi, .num 0, .range (0) (65535), 0⟩,
    ⟨0x3868, 0x386B, 0x08, 0x08, .u8, .rwi, .num 0, .watchCompare, 0⟩,
    ⟨0x3868, 0x386B, 0x09, 0x09, .u8, .rwi, .num 0, .range (0) (2), 0⟩,
    ⟨0x3868, 0x386B, 0x0A, 0x0A, .u64, .rwi, .num 0, .range (0) (281474976710655), 0⟩,
    ⟨0x3868, 0x386B, 0x10, 0x10, .bool, .rwi, .num 0, .range (0) (1), 0⟩,
    ⟨0x3868, 0x386B, 0x14, 0x15, .bool, .rwi, .num 0, .range (0) (1), 0⟩,
    ⟨0x3868, 0x386B, 0x16, 0x18, .bool, .rwi, .num 0, .range (0) (1), 0⟩ ]

def objRows05_2 : List ObjRow :=
  [ ⟨0x386C, 0x386F, 0x01, 0x01, .bool, .rwi, .num 0, .range (0) (1), 1⟩,
    ⟨0x386C, 0x386F, 0x02, 0x05, .u8, .rwi, .num 254, .watchSelector, 1⟩,
    ⟨0x386C, 0x386F, 0x06, 0x06, .u8, .rwi, .num 0, .range (0) (15), 1⟩,
    ⟨0x386C, 0x386F, 0x07, 0x07, .u16, .rwi, .num 0, .range (0) (65535), 1⟩,
    ⟨0x386C, 0x386F, 0x08, 0x08, .u8, .rwi, .num 0, .watchCompare, 1⟩,
    ⟨0x386C, 0x386F, 0x09, 0x09, .u8, .rwi, .num 0, .range (0) (2), 1⟩,
    ⟨0x386C, 0x386F, 0x0A, 0x0A, .u64, .rwi, .num 0, .range (0) (281474976710655), 1⟩,
    ⟨0x386C, 0x386F, 0x10, 0x10, .bool, .rwi, .num 0, .range (0) (1), 1⟩,
    ⟨0x386C, 0x386F, 0x14, 0x15, .bool, .rwi, .num 0, .range (0) (1), 1⟩,
    ⟨0x386C, 0x386F, 0x16, 0x18, .bool, .rwi, .num 0, .range (0) (1), 1⟩,
    ⟨0x3870, 0x3870, 0x01, 0x01, .u32, .ro, .num 0, .range (0) (4294967295), 0⟩,
    ⟨0x3870, 0x3870, 0x02, 0x02, .time, .ro, .num 0, .any, 0⟩,
    ⟨0x3870, 0x3870, 0x03, 0x03, .u32, .ro, .num 0, .range (0) (4294967295), 0⟩,
    ⟨0x3870, 0x3870, 0x04, 0x04, .u32, .ro, .num 0, .range (0) (35000), 0⟩,
    ⟨0x3871, 0x3871, 0x01, 0x01, .u32, .ro, .num 0, .range (0) (4294967295), 1⟩,
    ⟨0x3871, 0x3871, 0x02, 0x02, .time, .ro, .num 0, .any, 1⟩,
    ⟨0x3871, 0x3871, 0x03, 0x03, .u32, .ro, .num 0, .range (0) (4294967295), 1⟩,
    ⟨0x3871, 0x3871, 0x04, 0x04, .u32, .ro, .num 0, .range (0) (35000), 1⟩ ]

/-- The objects of chapter 05. -/
def objRows05 : List ObjRow :=
  objRows05_0 ++ objRows05_1 ++ objRows05_2

def objRows06_0 : List ObjRow :=
  [ ⟨0x3900, 0x3900, 0x01, 0x01, .u8, .rwi, .num 0, .range (0) (1), 0⟩,
    ⟨0x3900, 0x3900, 0x02, 0x02, .u64, .rwi, .num 0, .range (0) (281474976710655), 0⟩,
    ⟨0x3900, 0x3900, 0x03, 0x03, .u64, .rwi, .num 65536, .range (0) (281474976710655), 0⟩,
    ⟨0x3900, 0x3900, 0x04, 0x04, .u64, .rwi, .num 0, .range (0) (281474976710655), 0⟩,
    ⟨0x3900, 0x3900, 0x05, 0x05, .u64, .rwi, .num 0, .range (0) (281474976710655), 0⟩,
    ⟨0x3900, 0x3900, 0x06, 0x06, .u32, .rwi, .num 0, .range (0) (1048575), 0⟩,
    ⟨0x3900, 0x3900, 0x07, 0x07, .u32, .rwi, .num 0, .range (0) (1048576), 0⟩,
    ⟨0x3901, 0x3901, 0x01, 0x01, .u8, .rwi, .num 0, .range (0) (1), 1⟩,
    ⟨0x3901, 0x3901, 0x02, 0x02, .u64, .rwi, .num 0, .range (0) (281474976710655), 1⟩,
    ⟨0x3901, 0x3901, 0x03, 0x03, .u64, .rwi, .num 65536, .range (0) (281474976710655), 1⟩,
    ⟨0x3901, 0x3901, 0x04, 0x04, .u64, .rwi, .num 0, .range (0) (281474976710655), 1⟩,
    ⟨0x3901, 0x3901, 0x05, 0x05, .u64, .rwi, .num 0, .range (0) (281474976710655), 1⟩,
    ⟨0x3901, 0x3901, 0x06, 0x06, .u32, .rwi, .num 0, .range (0) (1048575), 1⟩,
    ⟨0x3901, 0x3901, 0x07, 0x07, .u32, .rwi, .num 0, .range (0) (1048576), 1⟩,
    ⟨0x3910, 0x3910, 0x01, 0x01, .u64, .ro, .num 0, .range (0) (281474976710655), 0⟩,
    ⟨0x3910, 0x3910, 0x02, 0x02, .u64, .ro, .num 0, .range (0) (281474976710655), 0⟩,
    ⟨0x3910, 0x3910, 0x03, 0x03, .u8, .ro, .num 0, .range (0) (6), 0⟩,
    ⟨0x3910, 0x3910, 0x04, 0x04, .u32, .ro, .num 0, .range (0) (4294967295), 0⟩,
    ⟨0x3910, 0x3910, 0x05, 0x05, .time, .ro, .num (2^64-1), .any, 0⟩,
    ⟨0x3910, 0x3910, 0x06, 0x06, .u64, .ro, .num 0, .any, 0⟩ ]

def objRows06_1 : List ObjRow :=
  [ ⟨0x3910, 0x3910, 0x07, 0x07, .u64, .ro, .num 0, .any, 0⟩,
    ⟨0x3910, 0x3910, 0x08, 0x08, .bool, .ro, .num 0, .range (0) (1), 0⟩,
    ⟨0x3911, 0x3911, 0x01, 0x01, .u64, .ro, .num 0, .range (0) (281474976710655), 1⟩,
    ⟨0x3911, 0x3911, 0x02, 0x02, .u64, .ro, .num 0, .range (0) (281474976710655), 1⟩,
    ⟨0x3911, 0x3911, 0x03, 0x03, .u8, .ro, .num 0, .range (0) (6), 1⟩,
    ⟨0x3911, 0x3911, 0x04, 0x04, .u32, .ro, .num 0, .range (0) (4294967295), 1⟩,
    ⟨0x3911, 0x3911, 0x05, 0x05, .time, .ro, .num (2^64-1), .any, 1⟩,
    ⟨0x3911, 0x3911, 0x06, 0x06, .u64, .ro, .num 0, .any, 1⟩,
    ⟨0x3911, 0x3911, 0x07, 0x07, .u64, .ro, .num 0, .any, 1⟩,
    ⟨0x3911, 0x3911, 0x08, 0x08, .bool, .ro, .num 0, .range (0) (1), 1⟩,
    ⟨0x3920, 0x3920, 0x01, 0x01, .u64, .ro, .num 0, .range (0) (18446744073709551615), 0⟩,
    ⟨0x3920, 0x3920, 0x02, 0x02, .u32, .ro, .num 0, .range (0) (4294967295), 0⟩,
    ⟨0x3920, 0x3920, 0x03, 0x03, .u32, .ro, .num 0, .range (0) (16384), 0⟩,
    ⟨0x3921, 0x3921, 0x01, 0x01, .u64, .ro, .num 0, .range (0) (18446744073709551615), 1⟩,
    ⟨0x3921, 0x3921, 0x02, 0x02, .u32, .ro, .num 0, .range (0) (4294967295), 1⟩,
    ⟨0x3921, 0x3921, 0x03, 0x03, .u32, .ro, .num 0, .range (0) (16384), 1⟩,
    ⟨0x3930, 0x3930, 0x01, 0x01, .bool, .rwi, .num 0, .range (0) (1), 2⟩,
    ⟨0x3940, 0x3940, 0x01, 0x01, .bool, .wo, .num 0, .range (1) (1), 0⟩,
    ⟨0x3941, 0x3941, 0x01, 0x01, .bool, .wo, .num 0, .range (1) (1), 1⟩,
    ⟨0x3950, 0x3957, 0x01, 0x01, .u32, .ro, .num 0, .range (0) (16383), 0⟩ ]

def objRows06_2 : List ObjRow :=
  [ ⟨0x3950, 0x3957, 0x02, 0x02, .u32, .ro, .num 0, .range (0) (16384), 0⟩,
    ⟨0x3950, 0x3957, 0x03, 0x03, .u32, .ro, .num 0, .range (0) (4294967295), 0⟩,
    ⟨0x3958, 0x395F, 0x01, 0x01, .u32, .ro, .num 0, .range (0) (16383), 1⟩,
    ⟨0x3958, 0x395F, 0x02, 0x02, .u32, .ro, .num 0, .range (0) (16384), 1⟩,
    ⟨0x3958, 0x395F, 0x03, 0x03, .u32, .ro, .num 0, .range (0) (4294967295), 1⟩ ]

/-- The objects of chapter 06. -/
def objRows06 : List ObjRow :=
  objRows06_0 ++ objRows06_1 ++ objRows06_2

def objRows08_0 : List ObjRow :=
  [ ⟨0x4000, 0x4000, 0x01, 0x01, .u8, .rw, .num 0, .range (0) (2), 2⟩,
    ⟨0x4000, 0x4000, 0x02, 0x02, .u8, .ro, .num 0, .range (0) (2), 2⟩,
    ⟨0x4000, 0x4000, 0x03, 0x03, .u32, .rw, .num 2000, .range (0) (60000), 2⟩,
    ⟨0x4000, 0x4000, 0x04, 0x04, .u32, .ro, .num 0, .range (0) (4294967295), 2⟩,
    ⟨0x4001, 0x4001, 0x01, 0x01, .u8, .rwi, .num 0, .range (0) (2), 2⟩,
    ⟨0x4001, 0x4001, 0x03, 0x03, .bool, .rw, .num 0, .range (0) (1), 2⟩,
    ⟨0x4001, 0x4001, 0x04, 0x04, .u8, .ro, .num 0, .any, 2⟩,
    ⟨0x4001, 0x4001, 0x05, 0x05, .u32, .ro, .num 0, .range (0) (4294967295), 2⟩,
    ⟨0x4001, 0x4001, 0x06, 0x06, .i64, .ro, .num 0, .range (-9223372036854775808) (9223372036854775807), 2⟩,
    ⟨0x4010, 0x4010, 0x01, 0x01, .u64, .rw, .num 1000, .range (0) (1000000000), 2⟩,
    ⟨0x4010, 0x4010, 0x02, 0x02, .u32, .ro, .num 0, .range (0) (4294967295), 2⟩,
    ⟨0x4010, 0x4010, 0x03, 0x03, .u32, .ro, .num 0, .range (0) (4294967295), 2⟩,
    ⟨0x4010, 0x4010, 0x04, 0x04, .u32, .ro, .num 0, .range (0) (4294967295), 2⟩,
    ⟨0x4010, 0x4010, 0x05, 0x05, .u32, .ro, .num 0, .range (0) (4294967295), 2⟩,
    ⟨0x4010, 0x4010, 0x06, 0x06, .time, .ro, .num 0, .any, 2⟩,
    ⟨0x4010, 0x4010, 0x07, 0x07, .i64, .ro, .num 0, .range (-9223372036854775808) (9223372036854775807), 2⟩,
    ⟨0x4010, 0x4010, 0x08, 0x08, .u32, .ro, .num 0, .range (0) (4294967295), 2⟩,
    ⟨0x4011, 0x4011, 0x00, 0x00, .u64, .ro, .num 42949672960, .range (42928198124) (42971147796), 2⟩,
    ⟨0x4020, 0x4020, 0x01, 0x01, .u32, .rw, .num 0, .range (0) (4294967295), 2⟩,
    ⟨0x4030, 0x4037, 0x01, 0x01, .u8, .rw, .num 0, .codes 11, 2⟩ ]

def objRows08_1 : List ObjRow :=
  [ ⟨0x4030, 0x4037, 0x02, 0x02, .u64, .rw, .num 0, .range (0) (140737488355328), 2⟩,
    ⟨0x4030, 0x4037, 0x03, 0x03, .u64, .rw, .num 1000000, .range (1000) (10000000000), 2⟩,
    ⟨0x4030, 0x4037, 0x04, 0x04, .u32, .ro, .num 0, .range (0) (4294967295), 2⟩,
    ⟨0x4030, 0x4037, 0x05, 0x05, .u32, .ro, .num 0, .range (0) (4294967295), 2⟩,
    ⟨0x4030, 0x4037, 0x06, 0x06, .u32, .ro, .num 0, .range (0) (4294967295), 2⟩,
    ⟨0x4030, 0x4037, 0x07, 0x07, .time, .rw, .num 0, .any, 2⟩,
    ⟨0x4030, 0x4037, 0x08, 0x08, .bool, .rw, .num 0, .range (0) (1), 2⟩,
    ⟨0x4040, 0x4040, 0x01, 0x01, .i32, .const, .perPart, .range (-2000000) (2000000), 2⟩,
    ⟨0x4040, 0x4040, 0x02, 0x02, .i32, .ro, .perPart, .range (-100000) (100000), 2⟩,
    ⟨0x4040, 0x4040, 0x03, 0x03, .u8, .ro, .num 0, .range (0) (2), 2⟩,
    ⟨0x4040, 0x4040, 0x04, 0x04, .i32, .rw, .num 0, .range (-100000) (100000), 2⟩,
    ⟨0x4040, 0x4040, 0x05, 0x05, .bool, .rw, .num 0, .range (0) (1), 2⟩,
    ⟨0x4040, 0x4040, 0x06, 0x06, .i32, .const, .perPart, .range (-100000) (100000), 2⟩,
    ⟨0x4040, 0x4040, 0x07, 0x07, .u32, .ro, .num 0, .range (0) (4294967295), 2⟩,
    ⟨0x4040, 0x4040, 0x08, 0x08, .bool, .ro, .num 0, .range (0) (1), 2⟩,
    ⟨0x4040, 0x4040, 0x09, 0x09, .time, .ro, .num 0, .any, 2⟩,
    ⟨0x4040, 0x4040, 0x0A, 0x0A, .u64, .ro, .perPart, .any, 2⟩,
    ⟨0x4050, 0x4050, 0x01, 0x01, .u32, .ro, .num 0, .range (0) (4294967295), 2⟩ ]

/-- The objects of chapter 08. -/
def objRows08 : List ObjRow :=
  objRows08_0 ++ objRows08_1

def objRows09_0 : List ObjRow :=
  [ ⟨0x4400, 0x4401, 0x01, 0x01, .bool, .rw, .num 0, .range (0) (1), 2⟩,
    ⟨0x4400, 0x4401, 0x02, 0x02, .u8, .rw, .num 0, .range (0) (1), 2⟩,
    ⟨0x4400, 0x4401, 0x03, 0x03, .u8, .rw, .num 0, .range (0) (2), 2⟩,
    ⟨0x4400, 0x4401, 0x04, 0x04, .u64, .const, .perPart, .any, 2⟩,
    ⟨0x4400, 0x4401, 0x05, 0x05, .u32, .rw, .num 0, .any, 2⟩,
    ⟨0x4400, 0x4401, 0x06, 0x06, .u8, .rw, .num 24, .range (0) (32), 2⟩,
    ⟨0x4400, 0x4401, 0x07, 0x07, .u32, .rw, .num 0, .any, 2⟩,
    ⟨0x4400, 0x4401, 0x08, 0x08, .blob, .rw, .zeros, .blob 16, 2⟩,
    ⟨0x4400, 0x4401, 0x09, 0x09, .u16, .rw, .num 0, .range (0) (4094), 2⟩,
    ⟨0x4400, 0x4401, 0x0A, 0x0A, .u8, .rw, .num 0, .range (0) (15), 2⟩,
    ⟨0x4400, 0x4401, 0x0B, 0x0B, .u16, .rw, .num 1500, .range (1500) (9216), 2⟩,
    ⟨0x4402, 0x4403, 0x01, 0x01, .u64, .ro, .num 0, .range (0) (18446744073709551615), 2⟩,
    ⟨0x4402, 0x4403, 0x02, 0x02, .u32, .ro, .num 0, .range (0) (4294967295), 2⟩,
    ⟨0x4402, 0x4403, 0x03, 0x03, .u32, .ro, .num 0, .range (0) (4294967295), 2⟩,
    ⟨0x4410, 0x4410, 0x01, 0x01, .u8, .rw, .num 0, .range (0) (2), 2⟩,
    ⟨0x4410, 0x4410, 0x02, 0x02, .u8, .rw, .num 1, .range (0) (2), 2⟩,
    ⟨0x4410, 0x4410, 0x03, 0x03, .u8, .rw, .num 0, .range (0) (127), 2⟩,
    ⟨0x4410, 0x4410, 0x04, 0x04, .u8, .rw, .num 0, .range (0) (2), 2⟩,
    ⟨0x4410, 0x4410, 0x05, 0x05, .u8, .rw, .num 0, .range (0) (1), 2⟩,
    ⟨0x4410, 0x4410, 0x06, 0x06, .u8, .rw, .num 128, .range (0) (255), 2⟩ ]

def objRows09_1 : List ObjRow :=
  [ ⟨0x4410, 0x4410, 0x07, 0x07, .u8, .rw, .num 128, .range (0) (255), 2⟩,
    ⟨0x4410, 0x4410, 0x08, 0x08, .u8, .rw, .num 248, .range (0) (255), 2⟩,
    ⟨0x4410, 0x4410, 0x09, 0x09, .i32, .rw, .num 0, .range (-7) (4), 2⟩,
    ⟨0x4410, 0x4410, 0x0A, 0x0A, .i32, .rw, .num 1, .range (-3) (4), 2⟩,
    ⟨0x4410, 0x4410, 0x0B, 0x0B, .i32, .rw, .num 0, .range (-7) (5), 2⟩,
    ⟨0x4410, 0x4410, 0x0C, 0x0C, .u64, .const, .perPart, .any, 2⟩,
    ⟨0x4420, 0x4420, 0x01, 0x01, .u32, .rw, .num 100, .range (10) (10000), 2⟩,
    ⟨0x4420, 0x4420, 0x02, 0x02, .u32, .rw, .num 100, .range (1) (100000), 2⟩,
    ⟨0x4420, 0x4420, 0x03, 0x03, .u32, .rw, .num 500, .range (1) (1000000000), 2⟩,
    ⟨0x4420, 0x4420, 0x04, 0x04, .bool, .rw, .num 1, .range (0) (1), 2⟩,
    ⟨0x4420, 0x4420, 0x05, 0x05, .u32, .rw, .num 50, .range (1) (1000000), 2⟩,
    ⟨0x4420, 0x4420, 0x06, 0x06, .u8, .rw, .num 16, .range (4) (63), 2⟩,
    ⟨0x4420, 0x4420, 0x07, 0x07, .u8, .ro, .num 0, .range (0) (6), 2⟩,
    ⟨0x4430, 0x4431, 0x01, 0x01, .i32, .ro, .perPart, .any, 2⟩,
    ⟨0x4430, 0x4431, 0x02, 0x02, .i32, .ro, .perPart, .any, 2⟩,
    ⟨0x4430, 0x4431, 0x03, 0x03, .i32, .rw, .num 0, .range (-100000) (1000000), 2⟩,
    ⟨0x4430, 0x4431, 0x04, 0x04, .i32, .rw, .num 0, .range (-100000) (1000000), 2⟩,
    ⟨0x4430, 0x4431, 0x05, 0x05, .i64, .rw, .num 0, .range (-140737488355328) (140737488355328), 2⟩,
    ⟨0x4430, 0x4431, 0x06, 0x06, .i64, .ro, .num 0, .range (0) (9223372036854775807), 2⟩,
    ⟨0x4430, 0x4431, 0x07, 0x07, .i64, .ro, .num 0, .range (-9223372036854775808) (9223372036854775807), 2⟩ ]

def objRows09_2 : List ObjRow :=
  [ ⟨0x4440, 0x4441, 0x01, 0x01, .u32, .ro, .num 0, .range (0) (4294967295), 2⟩,
    ⟨0x4440, 0x4441, 0x02, 0x02, .u32, .ro, .num 0, .range (0) (4294967295), 2⟩,
    ⟨0x4440, 0x4441, 0x03, 0x03, .u32, .ro, .num 0, .range (0) (4294967295), 2⟩,
    ⟨0x4440, 0x4441, 0x04, 0x04, .u32, .ro, .num 0, .range (0) (4294967295), 2⟩,
    ⟨0x4440, 0x4441, 0x05, 0x05, .u32, .ro, .num 0, .range (0) (4294967295), 2⟩,
    ⟨0x4440, 0x4441, 0x06, 0x06, .u32, .ro, .num 0, .range (0) (4294967295), 2⟩,
    ⟨0x4440, 0x4441, 0x07, 0x07, .u32, .ro, .num 0, .range (0) (4294967295), 2⟩,
    ⟨0x4440, 0x4441, 0x08, 0x08, .u32, .ro, .num 0, .range (0) (4294967295), 2⟩,
    ⟨0x4450, 0x4450, 0x01, 0x01, .u16, .ro, .num 0, .range (0) (65535), 2⟩,
    ⟨0x4450, 0x4450, 0x02, 0x02, .u8, .ro, .num 0, .range (0) (1), 2⟩,
    ⟨0x4450, 0x4450, 0x03, 0x03, .time, .ro, .num 0, .any, 2⟩,
    ⟨0x4450, 0x4450, 0x04, 0x04, .i64, .ro, .num 0, .range (-9223372036854775808) (9223372036854775807), 2⟩,
    ⟨0x4450, 0x4450, 0x05, 0x05, .i64, .ro, .num 0, .range (-9223372036854775808) (9223372036854775807), 2⟩,
    ⟨0x4450, 0x4450, 0x06, 0x06, .u64, .ro, .num 0, .any, 2⟩,
    ⟨0x4450, 0x4450, 0x07, 0x07, .u16, .ro, .num 0, .range (0) (65535), 2⟩,
    ⟨0x4470, 0x4470, 0x01, 0x01, .u64, .rw, .num 0, .aligned 4096, 2⟩,
    ⟨0x4470, 0x4470, 0x02, 0x02, .u32, .rw, .num 0, .range (0) (268435456), 2⟩,
    ⟨0x4470, 0x4470, 0x03, 0x03, .u8, .rw, .num 0, .range (0) (2), 2⟩,
    ⟨0x4470, 0x4470, 0x04, 0x04, .u16, .rw, .num 48621, .range (1) (65535), 2⟩,
    ⟨0x4470, 0x4470, 0x05, 0x05, .u32, .rw, .num 1000, .range (10) (3125), 2⟩ ]

def objRows09_3 : List ObjRow :=
  [ ⟨0x4470, 0x4470, 0x06, 0x06, .bool, .wo, .num 0, .range (1) (1), 2⟩,
    ⟨0x4470, 0x4470, 0x07, 0x07, .u8, .ro, .num 0, .range (0) (4), 2⟩ ]

/-- The objects of chapter 09. -/
def objRows09 : List ObjRow :=
  objRows09_0 ++ objRows09_1 ++ objRows09_2 ++ objRows09_3

def objRows10_0 : List ObjRow :=
  [ ⟨0x4800, 0x4800, 0x01, 0x01, .u16, .rwi, .num 0, .range (0) (4095), 2⟩,
    ⟨0x4800, 0x4800, 0x02, 0x02, .u32, .ro, .num 0, .range (0) (262143), 2⟩,
    ⟨0x4810, 0x4813, 0x01, 0x01, .bool, .rw, .num 0, .range (0) (1), 2⟩,
    ⟨0x4810, 0x4813, 0x02, 0x02, .u8, .ro, .num 0, .range (0) (5), 2⟩,
    ⟨0x4810, 0x4813, 0x03, 0x03, .u32, .ro, .num 4294967295, .range (0) (262143), 2⟩,
    ⟨0x4810, 0x4813, 0x04, 0x04, .i64, .ro, .num 0, .range (-9223372036854775808) (9223372036854775807), 2⟩,
    ⟨0x4810, 0x4813, 0x05, 0x05, .i64, .ro, .num 0, .range (-9223372036854775808) (9223372036854775807), 2⟩,
    ⟨0x4810, 0x4813, 0x06, 0x06, .i64, .rw, .num 0, .range (-1099511627776) (1099511627776), 2⟩,
    ⟨0x4810, 0x4813, 0x07, 0x07, .u32, .ro, .num 0, .range (0) (4294967295), 2⟩,
    ⟨0x4810, 0x4813, 0x08, 0x08, .u64, .ro, .num 0, .range (0) (18446744073709551615), 2⟩,
    ⟨0x4810, 0x4813, 0x09, 0x09, .u32, .ro, .num 0, .range (0) (4294967295), 2⟩,
    ⟨0x4810, 0x4813, 0x0A, 0x0A, .u8, .ro, .num 0, .range (0) (32), 2⟩,
    ⟨0x4810, 0x4813, 0x0B, 0x0B, .u32, .ro, .num 0, .range (0) (4294967295), 2⟩,
    ⟨0x4820, 0x4820, 0x01, 0x01, .u16, .rw, .num 0, .range (0) (65535), 2⟩,
    ⟨0x4820, 0x4820, 0x02, 0x02, .u64, .rw, .num 10000000, .range (1000) (1000000000), 2⟩,
    ⟨0x4820, 0x4820, 0x03, 0x03, .bool, .rw, .num 0, .range (0) (1), 2⟩,
    ⟨0x4820, 0x4820, 0x04, 0x04, .u8, .rw, .num 63, .range (1) (63), 2⟩,
    ⟨0x4821, 0x4821, 0x01, 0x01, .u64, .ro, .num 0, .range (0) (18446744073709551615), 2⟩,
    ⟨0x4821, 0x4821, 0x02, 0x0A, .u32, .ro, .num 0, .range (0) (4294967295), 2⟩,
    ⟨0x4822, 0x4822, 0x00, 0x00, .blob, .ro, .zeros, .blob 32, 2⟩ ]

def objRows10_1 : List ObjRow :=
  [ ⟨0x4823, 0x4823, 0x00, 0x00, .blob, .ro, .zeros, .blob 32, 2⟩,
    ⟨0x4830, 0x4830, 0x01, 0x01, .bool, .rw, .num 0, .range (0) (1), 2⟩,
    ⟨0x4830, 0x4830, 0x02, 0x02, .u32, .rw, .num 0, .ipv4Group, 2⟩,
    ⟨0x4830, 0x4830, 0x03, 0x03, .blob, .rw, .zeros, .blob 16, 2⟩,
    ⟨0x4830, 0x4830, 0x04, 0x04, .u8, .rw, .num 1, .range (1) (255), 2⟩,
    ⟨0x4830, 0x4830, 0x05, 0x05, .u8, .rw, .num 0, .range (0) (7), 2⟩,
    ⟨0x4840, 0x4840, 0x01, 0x01, .time, .rw, .num 0, .any, 2⟩,
    ⟨0x4840, 0x4840, 0x02, 0x02, .i32, .rw, .num 0, .range (-1000000000) (1000000000), 2⟩,
    ⟨0x4840, 0x4840, 0x03, 0x03, .u8, .wo, .num 0, .range (0) (15), 2⟩,
    ⟨0x4850, 0x4850, 0x01, 0x01, .u16, .ro, .num 0, .range (0) (65535), 2⟩,
    ⟨0x4850, 0x4850, 0x02, 0x02, .u32, .ro, .num 0, .range (0) (4294967295), 2⟩,
    ⟨0x4850, 0x4850, 0x03, 0x03, .u32, .ro, .num 0, .range (0) (4294967295), 2⟩,
    ⟨0x4860, 0x4860, 0x01, 0x01, .bool, .rw, .num 0, .range (0) (1), 2⟩,
    ⟨0x4860, 0x4860, 0x02, 0x02, .u32, .ro, .num 0, .range (0) (4294967295), 2⟩,
    ⟨0x4860, 0x4860, 0x03, 0x03, .u32, .ro, .num 0, .range (0) (4294967295), 2⟩,
    ⟨0x4880, 0x4880, 0x01, 0x01, .u8, .rw, .num 0, .range (0) (2), 2⟩,
    ⟨0x4880, 0x4880, 0x02, 0x02, .u32, .ro, .num 0, .range (0) (4294967295), 2⟩ ]

/-- The objects of chapter 10. -/
def objRows10 : List ObjRow :=
  objRows10_0 ++ objRows10_1

def objRows11_0 : List ObjRow :=
  [ ⟨0x4C00, 0x4C1F, 0x01, 0x01, .u8, .rw, .num 0, .range (0) (2), 0⟩,
    ⟨0x4C00, 0x4C1F, 0x02, 0x02, .u16, .rw, .gaugeChan, .channel, 0⟩,
    ⟨0x4C00, 0x4C1F, 0x03, 0x03, .u8, .rw, .num 0, .range (0) (2), 0⟩,
    ⟨0x4C00, 0x4C1F, 0x04, 0x04, .u16, .rw, .gaugeChan, .channel, 0⟩,
    ⟨0x4C00, 0x4C1F, 0x05, 0x05, .u8, .rw, .num 1, .range (0) (2), 0⟩,
    ⟨0x4C00, 0x4C1F, 0x06, 0x06, .u8, .rw, .num 1, .range (1) (64), 0⟩,
    ⟨0x4C00, 0x4C1F, 0x07, 0x07, .u8, .rw, .num 0, .range (0) (2), 0⟩,
    ⟨0x4C00, 0x4C1F, 0x08, 0x08, .u64, .rw, .num 1000000, .range (1000) (10000000000), 0⟩,
    ⟨0x4C00, 0x4C1F, 0x09, 0x09, .u8, .rw, .num 0, .range (0) (7), 0⟩,
    ⟨0x4C00, 0x4C1F, 0x0A, 0x0A, .i64, .rw, .num 0, .range (-640000) (640000000000), 0⟩,
    ⟨0x4C00, 0x4C1F, 0x0B, 0x0B, .i64, .rw, .num 64000, .range (-640000) (640000000000), 0⟩,
    ⟨0x4C00, 0x4C1F, 0x0C, 0x0C, .u16, .rw, .num 0, .range (0) (65535), 0⟩,
    ⟨0x4C00, 0x4C1F, 0x0D, 0x0D, .u8, .rw, .num 0, .range (0) (20), 0⟩,
    ⟨0x4C00, 0x4C1F, 0x0E, 0x0E, .bool, .rw, .num 0, .range (0) (1), 0⟩,
    ⟨0x4C00, 0x4C1F, 0x0F, 0x0F, .u32, .rw, .num 0, .range (0) (3600000), 0⟩,
    ⟨0x4C00, 0x4C1F, 0x10, 0x10, .u8, .wo, .num 0, .range (1) (2), 0⟩,
    ⟨0x4C20, 0x4C3F, 0x01, 0x01, .u8, .rw, .num 0, .range (0) (2), 1⟩,
    ⟨0x4C20, 0x4C3F, 0x02, 0x02, .u16, .rw, .gaugeChan, .channel, 1⟩,
    ⟨0x4C20, 0x4C3F, 0x03, 0x03, .u8, .rw, .num 0, .range (0) (2), 1⟩,
    ⟨0x4C20, 0x4C3F, 0x04, 0x04, .u16, .rw, .gaugeChan, .channel, 1⟩ ]

def objRows11_1 : List ObjRow :=
  [ ⟨0x4C20, 0x4C3F, 0x05, 0x05, .u8, .rw, .num 1, .range (0) (2), 1⟩,
    ⟨0x4C20, 0x4C3F, 0x06, 0x06, .u8, .rw, .num 1, .range (1) (64), 1⟩,
    ⟨0x4C20, 0x4C3F, 0x07, 0x07, .u8, .rw, .num 0, .range (0) (2), 1⟩,
    ⟨0x4C20, 0x4C3F, 0x08, 0x08, .u64, .rw, .num 1000000, .range (1000) (10000000000), 1⟩,
    ⟨0x4C20, 0x4C3F, 0x09, 0x09, .u8, .rw, .num 0, .range (0) (7), 1⟩,
    ⟨0x4C20, 0x4C3F, 0x0A, 0x0A, .i64, .rw, .num 0, .range (-640000) (640000000000), 1⟩,
    ⟨0x4C20, 0x4C3F, 0x0B, 0x0B, .i64, .rw, .num 64000, .range (-640000) (640000000000), 1⟩,
    ⟨0x4C20, 0x4C3F, 0x0C, 0x0C, .u16, .rw, .num 0, .range (0) (65535), 1⟩,
    ⟨0x4C20, 0x4C3F, 0x0D, 0x0D, .u8, .rw, .num 0, .range (0) (20), 1⟩,
    ⟨0x4C20, 0x4C3F, 0x0E, 0x0E, .bool, .rw, .num 0, .range (0) (1), 1⟩,
    ⟨0x4C20, 0x4C3F, 0x0F, 0x0F, .u32, .rw, .num 0, .range (0) (3600000), 1⟩,
    ⟨0x4C20, 0x4C3F, 0x10, 0x10, .u8, .wo, .num 0, .range (1) (2), 1⟩,
    ⟨0x4C40, 0x4C5F, 0x01, 0x01, .u8, .ro, .num 0, .range (0) (4), 0⟩,
    ⟨0x4C40, 0x4C5F, 0x02, 0x02, .u32, .ro, .num 0, .range (0) (4294967295), 0⟩,
    ⟨0x4C60, 0x4C7F, 0x01, 0x01, .u8, .ro, .num 0, .range (0) (4), 1⟩,
    ⟨0x4C60, 0x4C7F, 0x02, 0x02, .u32, .ro, .num 0, .range (0) (4294967295), 1⟩,
    ⟨0x4D00, 0x4D1F, 0x01, 0x01, .time, .ro, .num 0, .any, 0⟩,
    ⟨0x4D00, 0x4D1F, 0x02, 0x02, .u16, .ro, .num 0, .any, 0⟩,
    ⟨0x4D00, 0x4D1F, 0x03, 0x03, .u64, .ro, .num 0, .range (0) (2500000000000000), 0⟩,
    ⟨0x4D00, 0x4D1F, 0x04, 0x04, .u64, .ro, .num 0, .range (0) (9223372036854775807), 0⟩ ]

def objRows11_2 : List ObjRow :=
  [ ⟨0x4D00, 0x4D1F, 0x05, 0x05, .u64, .ro, .num 0, .range (0) (281474976710655), 0⟩,
    ⟨0x4D00, 0x4D1F, 0x06, 0x06, .i64, .ro, .num 0, .range (0) (9223372036854775807), 0⟩,
    ⟨0x4D00, 0x4D1F, 0x07, 0x07, .i64, .ro, .num 0, .range (-9223372036854775808) (9223372036854775807), 0⟩,
    ⟨0x4D00, 0x4D1F, 0x08, 0x08, .i64, .ro, .num 0, .range (-9223372036854775808) (9223372036854775807), 0⟩,
    ⟨0x4D00, 0x4D1F, 0x09, 0x09, .i64, .ro, .num 0, .range (-9223372036854775808) (9223372036854775807), 0⟩,
    ⟨0x4D00, 0x4D1F, 0x0A, 0x0A, .u64, .ro, .num 0, .range (0) (9223372036854775807), 0⟩,
    ⟨0x4D00, 0x4D1F, 0x0B, 0x0B, .u32, .ro, .num 0, .range (0) (1048576), 0⟩,
    ⟨0x4D00, 0x4D1F, 0x0C, 0x0C, .u32, .ro, .num 0, .range (0) (1048576), 0⟩,
    ⟨0x4D20, 0x4D3F, 0x01, 0x01, .time, .ro, .num 0, .any, 1⟩,
    ⟨0x4D20, 0x4D3F, 0x02, 0x02, .u16, .ro, .num 0, .any, 1⟩,
    ⟨0x4D20, 0x4D3F, 0x03, 0x03, .u64, .ro, .num 0, .range (0) (2500000000000000), 1⟩,
    ⟨0x4D20, 0x4D3F, 0x04, 0x04, .u64, .ro, .num 0, .range (0) (9223372036854775807), 1⟩,
    ⟨0x4D20, 0x4D3F, 0x05, 0x05, .u64, .ro, .num 0, .range (0) (281474976710655), 1⟩,
    ⟨0x4D20, 0x4D3F, 0x06, 0x06, .i64, .ro, .num 0, .range (0) (9223372036854775807), 1⟩,
    ⟨0x4D20, 0x4D3F, 0x07, 0x07, .i64, .ro, .num 0, .range (-9223372036854775808) (9223372036854775807), 1⟩,
    ⟨0x4D20, 0x4D3F, 0x08, 0x08, .i64, .ro, .num 0, .range (-9223372036854775808) (9223372036854775807), 1⟩,
    ⟨0x4D20, 0x4D3F, 0x09, 0x09, .i64, .ro, .num 0, .range (-9223372036854775808) (9223372036854775807), 1⟩,
    ⟨0x4D20, 0x4D3F, 0x0A, 0x0A, .u64, .ro, .num 0, .range (0) (9223372036854775807), 1⟩,
    ⟨0x4D20, 0x4D3F, 0x0B, 0x0B, .u32, .ro, .num 0, .range (0) (1048576), 1⟩,
    ⟨0x4D20, 0x4D3F, 0x0C, 0x0C, .u32, .ro, .num 0, .range (0) (1048576), 1⟩ ]

def objRows11_3 : List ObjRow :=
  [ ⟨0x4D40, 0x4D5F, 0x01, 0x01, .u32, .ro, .num 0, .range (0) (4294967295), 0⟩,
    ⟨0x4D40, 0x4D5F, 0x02, 0x02, .u32, .ro, .num 0, .range (0) (4294967295), 0⟩,
    ⟨0x4D40, 0x4D5F, 0x03, 0x03, .u32, .ro, .num 0, .range (0) (4294967295), 0⟩,
    ⟨0x4D40, 0x4D5F, 0x04, 0x04, .u32, .ro, .num 0, .range (0) (4294967295), 0⟩,
    ⟨0x4D40, 0x4D5F, 0x05, 0x05, .u32, .ro, .num 0, .range (0) (4294967295), 0⟩,
    ⟨0x4D40, 0x4D5F, 0x06, 0x06, .u32, .ro, .num 0, .range (0) (4294967295), 0⟩,
    ⟨0x4D40, 0x4D5F, 0x07, 0x07, .u32, .ro, .num 0, .range (0) (4294967295), 0⟩,
    ⟨0x4D60, 0x4D7F, 0x01, 0x01, .u32, .ro, .num 0, .range (0) (4294967295), 1⟩,
    ⟨0x4D60, 0x4D7F, 0x02, 0x02, .u32, .ro, .num 0, .range (0) (4294967295), 1⟩,
    ⟨0x4D60, 0x4D7F, 0x03, 0x03, .u32, .ro, .num 0, .range (0) (4294967295), 1⟩,
    ⟨0x4D60, 0x4D7F, 0x04, 0x04, .u32, .ro, .num 0, .range (0) (4294967295), 1⟩,
    ⟨0x4D60, 0x4D7F, 0x05, 0x05, .u32, .ro, .num 0, .range (0) (4294967295), 1⟩,
    ⟨0x4D60, 0x4D7F, 0x06, 0x06, .u32, .ro, .num 0, .range (0) (4294967295), 1⟩,
    ⟨0x4D60, 0x4D7F, 0x07, 0x07, .u32, .ro, .num 0, .range (0) (4294967295), 1⟩ ]

/-- The objects of chapter 11. -/
def objRows11 : List ObjRow :=
  objRows11_0 ++ objRows11_1 ++ objRows11_2 ++ objRows11_3

def objRows12_0 : List ObjRow :=
  [ ⟨0x5000, 0x5000, 0x01, 0x01, .u32, .rw, .num 2, .range (2) (65536), 0⟩,
    ⟨0x5000, 0x5000, 0x02, 0x02, .u16, .rw, .num 0, .range (0) (4095), 0⟩,
    ⟨0x5000, 0x5000, 0x03, 0x03, .u8, .rw, .num 0, .range (0) (2), 0⟩,
    ⟨0x5000, 0x5000, 0x04, 0x04, .u8, .rw, .num 0, .range (0) (1), 0⟩,
    ⟨0x5000, 0x5000, 0x05, 0x05, .u64, .rw, .num 0, .range (0) (10000000000), 0⟩,
    ⟨0x5000, 0x5000, 0x06, 0x06, .blob, .rw, .zeros, .blob 128, 0⟩,
    ⟨0x5000, 0x5000, 0x07, 0x07, .u8, .rw, .num 1, .range (0) (7), 0⟩,
    ⟨0x5000, 0x5000, 0x08, 0x08, .u8, .rw, .num 0, .range (0) (15), 0⟩,
    ⟨0x5000, 0x5000, 0x09, 0x09, .u8, .rw, .num 0, .range (0) (3), 0⟩,
    ⟨0x5000, 0x5000, 0x0A, 0x0A, .u8, .rw, .num 0, .range (0) (1), 0⟩,
    ⟨0x5000, 0x5000, 0x0B, 0x0B, .u16, .rw, .num 0, .range (0) (65535), 0⟩,
    ⟨0x5000, 0x5000, 0x0C, 0x0C, .i64, .rw, .num 0, .range (-1000000000) (1000000000), 0⟩,
    ⟨0x5000, 0x5000, 0x0D, 0x0D, .u32, .rw, .num 1000, .range (200) (100000), 0⟩,
    ⟨0x5000, 0x5000, 0x0E, 0x0E, .i32, .rw, .num 0, .range (0) (1000000), 0⟩,
    ⟨0x5000, 0x5000, 0x0F, 0x0F, .u8, .wo, .num 0, .range (1) (5), 0⟩,
    ⟨0x5001, 0x5001, 0x01, 0x01, .u32, .rw, .num 2, .range (2) (65536), 1⟩,
    ⟨0x5001, 0x5001, 0x02, 0x02, .u16, .rw, .num 0, .range (0) (4095), 1⟩,
    ⟨0x5001, 0x5001, 0x03, 0x03, .u8, .rw, .num 0, .range (0) (2), 1⟩,
    ⟨0x5001, 0x5001, 0x04, 0x04, .u8, .rw, .num 0, .range (0) (1), 1⟩,
    ⟨0x5001, 0x5001, 0x05, 0x05, .u64, .rw, .num 0, .range (0) (10000000000), 1⟩ ]

def objRows12_1 : List ObjRow :=
  [ ⟨0x5001, 0x5001, 0x06, 0x06, .blob, .rw, .zeros, .blob 128, 1⟩,
    ⟨0x5001, 0x5001, 0x07, 0x07, .u8, .rw, .num 1, .range (0) (7), 1⟩,
    ⟨0x5001, 0x5001, 0x08, 0x08, .u8, .rw, .num 0, .range (0) (15), 1⟩,
    ⟨0x5001, 0x5001, 0x09, 0x09, .u8, .rw, .num 0, .range (0) (3), 1⟩,
    ⟨0x5001, 0x5001, 0x0A, 0x0A, .u8, .rw, .num 0, .range (0) (1), 1⟩,
    ⟨0x5001, 0x5001, 0x0B, 0x0B, .u16, .rw, .num 0, .range (0) (65535), 1⟩,
    ⟨0x5001, 0x5001, 0x0C, 0x0C, .i64, .rw, .num 0, .range (-1000000000) (1000000000), 1⟩,
    ⟨0x5001, 0x5001, 0x0D, 0x0D, .u32, .rw, .num 1000, .range (200) (100000), 1⟩,
    ⟨0x5001, 0x5001, 0x0E, 0x0E, .i32, .rw, .num 0, .range (0) (1000000), 1⟩,
    ⟨0x5001, 0x5001, 0x0F, 0x0F, .u8, .wo, .num 0, .range (1) (5), 1⟩,
    ⟨0x5010, 0x5010, 0x01, 0x01, .u8, .ro, .num 0, .range (0) (5), 0⟩,
    ⟨0x5010, 0x5010, 0x02, 0x02, .u8, .ro, .num 0, .range (0) (9), 0⟩,
    ⟨0x5010, 0x5010, 0x03, 0x03, .u16, .ro, .num 0, .range (0) (4095), 0⟩,
    ⟨0x5010, 0x5010, 0x04, 0x04, .u16, .ro, .num 0, .range (0) (4095), 0⟩,
    ⟨0x5010, 0x5010, 0x05, 0x05, .time, .ro, .num 0, .any, 0⟩,
    ⟨0x5010, 0x5010, 0x06, 0x06, .time, .ro, .num 0, .any, 0⟩,
    ⟨0x5010, 0x5010, 0x07, 0x07, .u32, .ro, .num 0, .range (0) (64000), 0⟩,
    ⟨0x5010, 0x5010, 0x08, 0x08, .u16, .ro, .num 0, .range (0) (128), 0⟩,
    ⟨0x5011, 0x5011, 0x01, 0x01, .u8, .ro, .num 0, .range (0) (5), 1⟩,
    ⟨0x5011, 0x5011, 0x02, 0x02, .u8, .ro, .num 0, .range (0) (9), 1⟩ ]

def objRows12_2 : List ObjRow :=
  [ ⟨0x5011, 0x5011, 0x03, 0x03, .u16, .ro, .num 0, .range (0) (4095), 1⟩,
    ⟨0x5011, 0x5011, 0x04, 0x04, .u16, .ro, .num 0, .range (0) (4095), 1⟩,
    ⟨0x5011, 0x5011, 0x05, 0x05, .time, .ro, .num 0, .any, 1⟩,
    ⟨0x5011, 0x5011, 0x06, 0x06, .time, .ro, .num 0, .any, 1⟩,
    ⟨0x5011, 0x5011, 0x07, 0x07, .u32, .ro, .num 0, .range (0) (64000), 1⟩,
    ⟨0x5011, 0x5011, 0x08, 0x08, .u16, .ro, .num 0, .range (0) (128), 1⟩,
    ⟨0x5014, 0x5014, 0x01, 0x01, .u32, .ro, .num 0, .range (0) (4294967295), 0⟩,
    ⟨0x5014, 0x5014, 0x02, 0x02, .u32, .ro, .num 0, .range (0) (4294967295), 0⟩,
    ⟨0x5014, 0x5014, 0x03, 0x03, .u32, .ro, .num 0, .range (0) (4294967295), 0⟩,
    ⟨0x5014, 0x5014, 0x04, 0x04, .u32, .ro, .num 0, .range (0) (4294967295), 0⟩,
    ⟨0x5014, 0x5014, 0x05, 0x05, .u32, .ro, .num 0, .range (0) (4294967295), 0⟩,
    ⟨0x5014, 0x5014, 0x06, 0x06, .u32, .ro, .num 0, .range (0) (4294967295), 0⟩,
    ⟨0x5014, 0x5014, 0x07, 0x07, .u32, .ro, .num 0, .range (0) (4294967295), 0⟩,
    ⟨0x5014, 0x5014, 0x08, 0x08, .u16, .ro, .num 0, .range (0) (4095), 0⟩,
    ⟨0x5014, 0x5014, 0x09, 0x09, .u32, .ro, .num 0, .range (0) (16777215), 0⟩,
    ⟨0x5014, 0x5014, 0x0A, 0x0A, .u32, .ro, .num 0, .range (0) (4294967295), 0⟩,
    ⟨0x5015, 0x5015, 0x01, 0x01, .u32, .ro, .num 0, .range (0) (4294967295), 1⟩,
    ⟨0x5015, 0x5015, 0x02, 0x02, .u32, .ro, .num 0, .range (0) (4294967295), 1⟩,
    ⟨0x5015, 0x5015, 0x03, 0x03, .u32, .ro, .num 0, .range (0) (4294967295), 1⟩,
    ⟨0x5015, 0x5015, 0x04, 0x04, .u32, .ro, .num 0, .range (0) (4294967295), 1⟩ ]

def objRows12_3 : List ObjRow :=
  [ ⟨0x5015, 0x5015, 0x05, 0x05, .u32, .ro, .num 0, .range (0) (4294967295), 1⟩,
    ⟨0x5015, 0x5015, 0x06, 0x06, .u32, .ro, .num 0, .range (0) (4294967295), 1⟩,
    ⟨0x5015, 0x5015, 0x07, 0x07, .u32, .ro, .num 0, .range (0) (4294967295), 1⟩,
    ⟨0x5015, 0x5015, 0x08, 0x08, .u16, .ro, .num 0, .range (0) (4095), 1⟩,
    ⟨0x5015, 0x5015, 0x09, 0x09, .u32, .ro, .num 0, .range (0) (16777215), 1⟩,
    ⟨0x5015, 0x5015, 0x0A, 0x0A, .u32, .ro, .num 0, .range (0) (4294967295), 1⟩,
    ⟨0x5020, 0x5020, 0x01, 0x01, .u16, .rw, .num 64, .range (1) (4096), 0⟩,
    ⟨0x5020, 0x5020, 0x02, 0x02, .i32, .ro, .num 0, .range (0) (100000000), 0⟩,
    ⟨0x5020, 0x5020, 0x03, 0x03, .u16, .ro, .num 0, .range (0) (1023), 0⟩,
    ⟨0x5020, 0x5020, 0x04, 0x04, .u8, .ro, .num 0, .range (0) (15), 0⟩,
    ⟨0x5020, 0x5020, 0x05, 0x05, .u8, .ro, .num 0, .range (0) (4), 0⟩,
    ⟨0x5020, 0x5020, 0x06, 0x06, .i32, .ro, .num 0, .range (-100000000) (100000000), 0⟩,
    ⟨0x5021, 0x5021, 0x01, 0x01, .u16, .rw, .num 64, .range (1) (4096), 1⟩,
    ⟨0x5021, 0x5021, 0x02, 0x02, .i32, .ro, .num 0, .range (0) (100000000), 1⟩,
    ⟨0x5021, 0x5021, 0x03, 0x03, .u16, .ro, .num 0, .range (0) (1023), 1⟩,
    ⟨0x5021, 0x5021, 0x04, 0x04, .u8, .ro, .num 0, .range (0) (15), 1⟩,
    ⟨0x5021, 0x5021, 0x05, 0x05, .u8, .ro, .num 0, .range (0) (4), 1⟩,
    ⟨0x5021, 0x5021, 0x06, 0x06, .i32, .ro, .num 0, .range (-100000000) (100000000), 1⟩,
    ⟨0x5030, 0x5030, 0x01, 0x01, .bool, .rw, .num 0, .range (0) (1), 2⟩,
    ⟨0x5030, 0x5030, 0x02, 0x02, .bool, .wo, .num 0, .range (1) (1), 2⟩ ]

def objRows12_4 : List ObjRow :=
  [ ⟨0x5040, 0x5040, 0x01, 0x01, .u8, .rwi, .num 0, .range (0) (16), 0⟩,
    ⟨0x5040, 0x5040, 0x02, 0x02, .u64, .rw, .num 0, .aligned 64, 0⟩,
    ⟨0x5040, 0x5040, 0x03, 0x03, .u32, .rw, .num 0, .alignedTo 64 1048576, 0⟩,
    ⟨0x5040, 0x5040, 0x04, 0x04, .u32, .rw, .num 0, .alignedTo 64 1048512, 0⟩,
    ⟨0x5040, 0x5040, 0x05, 0x05, .bool, .wo, .num 0, .range (1) (1), 0⟩,
    ⟨0x5040, 0x5040, 0x06, 0x06, .u8, .ro, .num 0, .range (0) (3), 0⟩,
    ⟨0x5040, 0x5040, 0x07, 0x07, .bool, .ro, .num 0, .range (0) (1), 0⟩,
    ⟨0x5041, 0x5041, 0x01, 0x01, .u8, .rwi, .num 0, .range (0) (16), 1⟩,
    ⟨0x5041, 0x5041, 0x02, 0x02, .u64, .rw, .num 0, .aligned 64, 1⟩,
    ⟨0x5041, 0x5041, 0x03, 0x03, .u32, .rw, .num 0, .alignedTo 64 1048576, 1⟩,
    ⟨0x5041, 0x5041, 0x04, 0x04, .u32, .rw, .num 0, .alignedTo 64 1048512, 1⟩,
    ⟨0x5041, 0x5041, 0x05, 0x05, .bool, .wo, .num 0, .range (1) (1), 1⟩,
    ⟨0x5041, 0x5041, 0x06, 0x06, .u8, .ro, .num 0, .range (0) (3), 1⟩,
    ⟨0x5041, 0x5041, 0x07, 0x07, .bool, .ro, .num 0, .range (0) (1), 1⟩,
    ⟨0x5100, 0x510F, 0x00, 0x00, .blob, .rw, .zeros, .blob 4096, 0⟩,
    ⟨0x5110, 0x511F, 0x00, 0x00, .blob, .rw, .zeros, .blob 4096, 1⟩ ]

/-- The objects of chapter 12. -/
def objRows12 : List ObjRow :=
  objRows12_0 ++ objRows12_1 ++ objRows12_2 ++ objRows12_3 ++ objRows12_4

def objRows13_0 : List ObjRow :=
  [ ⟨0x5400, 0x5400, 0x01, 0x01, .u8, .ro, .num 0, .range (0) (3), 2⟩,
    ⟨0x5400, 0x5400, 0x02, 0x02, .u8, .ro, .num 0, .range (0) (3), 2⟩,
    ⟨0x5400, 0x5400, 0x03, 0x03, .bool, .ro, .num 0, .range (0) (1), 2⟩,
    ⟨0x5400, 0x5400, 0x04, 0x04, .u8, .ro, .num 0, .range (0) (8), 2⟩,
    ⟨0x5400, 0x5400, 0x05, 0x05, .u8, .ro, .num 0, .range (0) (4), 2⟩,
    ⟨0x5400, 0x5400, 0x06, 0x06, .u8, .ro, .num 0, .any, 2⟩,
    ⟨0x5400, 0x5400, 0x07, 0x07, .u32, .ro, .num 0, .range (0) (1048576), 2⟩,
    ⟨0x5400, 0x5400, 0x08, 0x08, .u32, .ro, .num 0, .range (0) (1048576), 2⟩,
    ⟨0x5400, 0x5400, 0x09, 0x09, .u32, .ro, .num 0, .range (0) (300000), 2⟩,
    ⟨0x5401, 0x5401, 0x01, 0x01, .u32, .rw, .num 24, .range (1) (8760), 2⟩,
    ⟨0x5401, 0x5401, 0x02, 0x02, .u8, .rw, .num 15, .range (5) (40), 2⟩,
    ⟨0x5401, 0x5401, 0x03, 0x03, .bool, .rw, .num 1, .range (0) (1), 2⟩,
    ⟨0x5401, 0x5401, 0x04, 0x04, .u32, .rw, .num 24, .range (1) (720), 2⟩,
    ⟨0x5401, 0x5401, 0x05, 0x05, .u32, .rw, .num 0, .range (0) (4294967295), 2⟩,
    ⟨0x5410, 0x5417, 0x01, 0x01, .u8, .ro, .num 0, .range (0) (5), 2⟩,
    ⟨0x5410, 0x5417, 0x02, 0x02, .u8, .ro, .num 0, .range (0) (4), 2⟩,
    ⟨0x5410, 0x5417, 0x03, 0x03, .u16, .ro, .num 0, .range (0) (128), 2⟩,
    ⟨0x5410, 0x5417, 0x04, 0x04, .i32, .ro, .num 0, .range (-40000) (125000), 2⟩,
    ⟨0x5410, 0x5417, 0x05, 0x05, .bool, .ro, .num 0, .range (0) (1), 2⟩,
    ⟨0x5410, 0x5417, 0x06, 0x06, .time, .ro, .num 0, .any, 2⟩ ]

def objRows13_1 : List ObjRow :=
  [ ⟨0x5410, 0x5417, 0x07, 0x07, .i32, .ro, .num 0, .range (-40000) (125000), 2⟩,
    ⟨0x5410, 0x5417, 0x08, 0x08, .u8, .ro, .num 0, .range (0) (3), 2⟩,
    ⟨0x5410, 0x5417, 0x09, 0x09, .u8, .ro, .num 228, .any, 2⟩,
    ⟨0x5410, 0x5417, 0x0A, 0x0A, .u8, .ro, .num 0, .range (0) (15), 2⟩,
    ⟨0x5410, 0x5417, 0x0B, 0x0B, .u32, .ro, .num 0, .any, 2⟩,
    ⟨0x5410, 0x5417, 0x0C, 0x0C, .u32, .ro, .num 0, .range (0) (4294967295), 2⟩,
    ⟨0x5420, 0x5427, 0x01, 0x04, .u64, .ro, .num 0, .range (0) (18446744073709551615), 2⟩,
    ⟨0x5420, 0x5427, 0x05, 0x08, .u32, .ro, .num 0, .range (0) (4294967295), 2⟩,
    ⟨0x5420, 0x5427, 0x09, 0x0C, .u32, .ro, .num 0, .range (0) (4294967295), 2⟩,
    ⟨0x5430, 0x5437, 0x01, 0x01, .u64, .ro, .num 0, .range (0) (18446744073709551615), 2⟩,
    ⟨0x5430, 0x5437, 0x02, 0x02, .u64, .ro, .num 0, .range (0) (18446744073709551615), 2⟩,
    ⟨0x5430, 0x5437, 0x03, 0x03, .u64, .ro, .num 0, .range (0) (18446744073709551615), 2⟩,
    ⟨0x5430, 0x5437, 0x04, 0x04, .u32, .ro, .num 0, .range (0) (4294967295), 2⟩,
    ⟨0x5430, 0x5437, 0x05, 0x05, .u8, .ro, .num 0, .range (0) (3), 2⟩,
    ⟨0x5440, 0x5440, 0x01, 0x01, .u32, .ro, .num 0, .range (0) (4294967295), 2⟩,
    ⟨0x5440, 0x5440, 0x02, 0x02, .u32, .ro, .num 0, .range (0) (4294967295), 2⟩,
    ⟨0x5440, 0x5440, 0x03, 0x03, .u32, .ro, .num 0, .range (0) (4294967295), 2⟩,
    ⟨0x5440, 0x5440, 0x04, 0x04, .u8, .ro, .num 0, .range (0) (100), 2⟩,
    ⟨0x5440, 0x5440, 0x05, 0x05, .u32, .ro, .num 0, .range (0) (4294967295), 2⟩,
    ⟨0x5440, 0x5440, 0x06, 0x06, .u32, .ro, .num 0, .range (0) (4294967295), 2⟩ ]

def objRows13_2 : List ObjRow :=
  [ ⟨0x5440, 0x5440, 0x07, 0x07, .u64, .ro, .num 0, .range (0) (18446744073709551615), 2⟩,
    ⟨0x5440, 0x5440, 0x08, 0x08, .u64, .ro, .num 0, .range (0) (18446744073709551615), 2⟩,
    ⟨0x5450, 0x5450, 0x01, 0x01, .u8, .ro, .num 1, .range (1) (255), 2⟩,
    ⟨0x5450, 0x5450, 0x02, 0x02, .u32, .ro, .num 0, .range (0) (4294967295), 2⟩,
    ⟨0x5451, 0x5451, 0x01, 0xFF, .blob, .ro, .zeros, .blob 16, 2⟩ ]

/-- The objects of chapter 13. -/
def objRows13 : List ObjRow :=
  objRows13_0 ++ objRows13_1 ++ objRows13_2

def objRows14_0 : List ObjRow :=
  [ ⟨0x5800, 0x5800, 0x01, 0x01, .bool, .rw, .num 0, .range (0) (1), 2⟩,
    ⟨0x5801, 0x5801, 0x01, 0x01, .u8, .rw, .num 0, .range (0) (5), 2⟩,
    ⟨0x5801, 0x5801, 0x02, 0x02, .u8, .rw, .num 0, .range (0) (1), 2⟩,
    ⟨0x5801, 0x5801, 0x03, 0x03, .u8, .rw, .num 1, .range (0) (1), 2⟩,
    ⟨0x5801, 0x5801, 0x04, 0x04, .u8, .rw, .num 1, .backgrounds, 2⟩,
    ⟨0x5801, 0x5801, 0x05, 0x05, .u64, .rw, .num 18446744073709551615, .any, 2⟩,
    ⟨0x5801, 0x5801, 0x06, 0x06, .bool, .wo, .num 0, .range (1) (1), 2⟩,
    ⟨0x5801, 0x5801, 0x07, 0x07, .u8, .ro, .num 0, .range (0) (4), 2⟩,
    ⟨0x5801, 0x5801, 0x08, 0x08, .u32, .ro, .num 0, .range (0) (4294967295), 2⟩,
    ⟨0x5801, 0x5801, 0x09, 0x09, .u8, .ro, .num 0, .range (0) (64), 2⟩,
    ⟨0x5801, 0x5801, 0x0A, 0x0A, .time, .ro, .num 0, .any, 2⟩,
    ⟨0x5810, 0x5810, 0x01, 0x01, .u64, .ro, .num 0, .any, 0⟩,
    ⟨0x5810, 0x5810, 0x02, 0x02, .u8, .ro, .num 0, .range (0) (64), 0⟩,
    ⟨0x5810, 0x5810, 0x03, 0x03, .blob, .ro, .zeros, .blob 64, 0⟩,
    ⟨0x5810, 0x5810, 0x04, 0x04, .u8, .ro, .num 0, .range (0) (3), 0⟩,
    ⟨0x5811, 0x5811, 0x01, 0x01, .u64, .ro, .num 0, .any, 1⟩,
    ⟨0x5811, 0x5811, 0x02, 0x02, .u8, .ro, .num 0, .range (0) (64), 1⟩,
    ⟨0x5811, 0x5811, 0x03, 0x03, .blob, .ro, .zeros, .blob 64, 1⟩,
    ⟨0x5811, 0x5811, 0x04, 0x04, .u8, .ro, .num 0, .range (0) (3), 1⟩,
    ⟨0x5820, 0x5820, 0x01, 0x01, .u32, .ro, .num 0, .range (0) (4294967295), 2⟩ ]

def objRows14_1 : List ObjRow :=
  [ ⟨0x5820, 0x5820, 0x02, 0x02, .u64, .ro, .num 0, .any, 2⟩,
    ⟨0x5820, 0x5820, 0x03, 0x03, .bool, .rw, .num 1, .range (0) (1), 2⟩,
    ⟨0x5820, 0x5820, 0x04, 0x04, .u32, .rw, .num 10, .range (1) (10000), 2⟩,
    ⟨0x5820, 0x5820, 0x05, 0x05, .u32, .ro, .num 0, .range (0) (4294967295), 2⟩,
    ⟨0x5820, 0x5820, 0x06, 0x06, .u32, .ro, .num 0, .range (0) (4294967295), 2⟩,
    ⟨0x5820, 0x5820, 0x07, 0x07, .u32, .ro, .num 0, .range (0) (4294967295), 2⟩,
    ⟨0x5830, 0x5830, 0x01, 0x01, .u32, .ro, .num 0, .range (0) (4294967295), 2⟩,
    ⟨0x5830, 0x5830, 0x02, 0x02, .u32, .ro, .num 0, .range (0) (4294967295), 2⟩,
    ⟨0x5830, 0x5830, 0x03, 0x03, .u32, .ro, .num 0, .range (0) (4294967295), 2⟩,
    ⟨0x5830, 0x5830, 0x04, 0x04, .u8, .ro, .num 0, .range (0) (4), 2⟩ ]

/-- The objects of chapter 14. -/
def objRows14 : List ObjRow :=
  objRows14_0 ++ objRows14_1

def objRows15_0 : List ObjRow :=
  [ ⟨0x5A00, 0x5A00, 0x01, 0x01, .u8, .rw, .num 0, .range (0) (2), 2⟩,
    ⟨0x5A00, 0x5A00, 0x02, 0x02, .u8, .rw, .num 0, .range (0) (2), 2⟩,
    ⟨0x5A10, 0x5A10, 0x00, 0x00, .blob, .ro, .zeros, .blob 256, 0⟩,
    ⟨0x5A11, 0x5A11, 0x00, 0x00, .blob, .ro, .zeros, .blob 256, 1⟩,
    ⟨0x5A12, 0x5A1B, 0x00, 0x00, .blob, .ro, .zeros, .blob 256, 2⟩,
    ⟨0x5A20, 0x5A20, 0x01, 0x01, .u8, .ro, .num 0, .range (0) (4), 0⟩,
    ⟨0x5A20, 0x5A20, 0x02, 0x02, .u16, .ro, .num 0, .range (0) (640), 0⟩,
    ⟨0x5A20, 0x5A20, 0x03, 0x03, .u8, .ro, .num 0, .range (0) (63), 0⟩,
    ⟨0x5A20, 0x5A20, 0x04, 0x04, .u16, .ro, .num 0, .range (0) (4095), 0⟩,
    ⟨0x5A20, 0x5A20, 0x05, 0x05, .u32, .ro, .num 0, .range (0) (4294967295), 0⟩,
    ⟨0x5A20, 0x5A20, 0x06, 0x06, .u32, .ro, .num 0, .range (0) (4294967295), 0⟩,
    ⟨0x5A20, 0x5A20, 0x07, 0x07, .u32, .ro, .num 0, .range (0) (4294967295), 0⟩,
    ⟨0x5A20, 0x5A20, 0x08, 0x08, .u32, .ro, .num 0, .range (0) (4294967295), 0⟩,
    ⟨0x5A20, 0x5A20, 0x09, 0x09, .i64, .ro, .num 0, .range (-3276800) (3276800), 0⟩,
    ⟨0x5A20, 0x5A20, 0x0A, 0x0A, .time, .ro, .num 0, .any, 0⟩,
    ⟨0x5A20, 0x5A20, 0x0B, 0x0B, .i32, .ro, .num 0, .range (-1000000) (1000000), 0⟩,
    ⟨0x5A21, 0x5A21, 0x01, 0x01, .u8, .ro, .num 0, .range (0) (4), 1⟩,
    ⟨0x5A21, 0x5A21, 0x02, 0x02, .u16, .ro, .num 0, .range (0) (640), 1⟩,
    ⟨0x5A21, 0x5A21, 0x03, 0x03, .u8, .ro, .num 0, .range (0) (63), 1⟩,
    ⟨0x5A21, 0x5A21, 0x04, 0x04, .u16, .ro, .num 0, .range (0) (4095), 1⟩ ]

def objRows15_1 : List ObjRow :=
  [ ⟨0x5A21, 0x5A21, 0x05, 0x05, .u32, .ro, .num 0, .range (0) (4294967295), 1⟩,
    ⟨0x5A21, 0x5A21, 0x06, 0x06, .u32, .ro, .num 0, .range (0) (4294967295), 1⟩,
    ⟨0x5A21, 0x5A21, 0x07, 0x07, .u32, .ro, .num 0, .range (0) (4294967295), 1⟩,
    ⟨0x5A21, 0x5A21, 0x08, 0x08, .u32, .ro, .num 0, .range (0) (4294967295), 1⟩,
    ⟨0x5A21, 0x5A21, 0x09, 0x09, .i64, .ro, .num 0, .range (-3276800) (3276800), 1⟩,
    ⟨0x5A21, 0x5A21, 0x0A, 0x0A, .time, .ro, .num 0, .any, 1⟩,
    ⟨0x5A21, 0x5A21, 0x0B, 0x0B, .i32, .ro, .num 0, .range (-1000000) (1000000), 1⟩,
    ⟨0x5A22, 0x5A2B, 0x01, 0x01, .u8, .ro, .num 0, .range (0) (4), 2⟩,
    ⟨0x5A22, 0x5A2B, 0x02, 0x02, .u16, .ro, .num 0, .range (0) (640), 2⟩,
    ⟨0x5A22, 0x5A2B, 0x03, 0x03, .u8, .ro, .num 0, .range (0) (63), 2⟩,
    ⟨0x5A22, 0x5A2B, 0x04, 0x04, .u16, .ro, .num 0, .range (0) (4095), 2⟩,
    ⟨0x5A22, 0x5A2B, 0x05, 0x05, .u32, .ro, .num 0, .range (0) (4294967295), 2⟩,
    ⟨0x5A22, 0x5A2B, 0x06, 0x06, .u32, .ro, .num 0, .range (0) (4294967295), 2⟩,
    ⟨0x5A22, 0x5A2B, 0x07, 0x07, .u32, .ro, .num 0, .range (0) (4294967295), 2⟩,
    ⟨0x5A22, 0x5A2B, 0x08, 0x08, .u32, .ro, .num 0, .range (0) (4294967295), 2⟩,
    ⟨0x5A22, 0x5A2B, 0x09, 0x09, .i64, .ro, .num 0, .range (-3276800) (3276800), 2⟩,
    ⟨0x5A22, 0x5A2B, 0x0A, 0x0A, .time, .ro, .num 0, .any, 2⟩,
    ⟨0x5A22, 0x5A2B, 0x0B, 0x0B, .i32, .ro, .num 0, .range (-1000000) (1000000), 2⟩,
    ⟨0x5A2C, 0x5A2C, 0x01, 0x01, .u8, .ro, .num 0, .range (0) (4), 2⟩,
    ⟨0x5A2C, 0x5A2C, 0x05, 0x05, .u32, .ro, .num 0, .range (0) (4294967295), 2⟩ ]

def objRows15_2 : List ObjRow :=
  [ ⟨0x5A40, 0x5A40, 0x01, 0x01, .u16, .wo, .num 0, .any, 2⟩ ]

/-- The objects of chapter 15. -/
def objRows15 : List ObjRow :=
  objRows15_0 ++ objRows15_1 ++ objRows15_2

def objRows16_0 : List ObjRow :=
  [ ⟨0x6000, 0x6000, 0x01, 0x01, .u16, .rw, .num 7996, .range (0) (65535), 2⟩,
    ⟨0x6000, 0x6000, 0x02, 0x02, .u16, .rw, .perPart, .range (0) (65535), 2⟩,
    ⟨0x6000, 0x6000, 0x03, 0x03, .u8, .ro, .num 0, .any, 2⟩,
    ⟨0x6000, 0x6000, 0x04, 0x04, .u8, .ro, .num 0, .any, 2⟩,
    ⟨0x6000, 0x6000, 0x05, 0x05, .u8, .ro, .num 0, .range (0) (3), 2⟩,
    ⟨0x6010, 0x6010, 0x01, 0x01, .u32, .ro, .num 0, .range (0) (4294967295), 2⟩,
    ⟨0x6010, 0x6010, 0x02, 0x02, .u32, .ro, .num 0, .range (0) (4294967295), 2⟩,
    ⟨0x6010, 0x6010, 0x03, 0x03, .u32, .ro, .num 0, .range (0) (4294967295), 2⟩,
    ⟨0x6010, 0x6010, 0x04, 0x04, .u32, .ro, .num 0, .range (0) (4294967295), 2⟩,
    ⟨0x6020, 0x6020, 0x01, 0x01, .u32, .ro, .num 0, .range (0) (4294967295), 2⟩,
    ⟨0x6020, 0x6020, 0x02, 0x02, .u32, .ro, .num 0, .range (0) (4294967295), 2⟩,
    ⟨0x6020, 0x6020, 0x03, 0x03, .u32, .ro, .num 0, .range (0) (4294967295), 2⟩,
    ⟨0x6020, 0x6020, 0x04, 0x04, .u32, .ro, .num 0, .range (0) (4294967295), 2⟩,
    ⟨0x6020, 0x6020, 0x05, 0x05, .u32, .ro, .num 0, .range (0) (4294967295), 2⟩,
    ⟨0x6020, 0x6020, 0x06, 0x06, .u32, .ro, .num 0, .range (0) (4294967295), 2⟩,
    ⟨0x6030, 0x6030, 0x01, 0x01, .u16, .rw, .num 0, .range (0) (65535), 2⟩,
    ⟨0x6030, 0x6030, 0x02, 0x02, .bool, .rw, .num 0, .range (0) (1), 2⟩,
    ⟨0x6040, 0x6047, 0x01, 0x01, .u64, .ro, .num 0, .range (0) (18446744073709551615), 2⟩,
    ⟨0x6040, 0x6047, 0x02, 0x02, .u64, .ro, .num 0, .range (0) (18446744073709551615), 2⟩,
    ⟨0x6040, 0x6047, 0x03, 0x03, .u32, .ro, .num 0, .range (0) (4294967295), 2⟩ ]

def objRows16_1 : List ObjRow :=
  [ ⟨0x6040, 0x6047, 0x04, 0x04, .u64, .ro, .num 0, .range (0) (18446744073709551615), 2⟩ ]

/-- The objects of chapter 16. -/
def objRows16 : List ObjRow :=
  objRows16_0 ++ objRows16_1

def objRows17_0 : List ObjRow :=
  [ ⟨0x1000, 0x1000, 0x01, 0x01, .str, .const, .perPart, .any, 2⟩,
    ⟨0x1000, 0x1000, 0x02, 0x02, .str, .const, .perPart, .any, 2⟩,
    ⟨0x1000, 0x1000, 0x03, 0x03, .u16, .const, .perPart, .any, 2⟩,
    ⟨0x1000, 0x1000, 0x04, 0x04, .u8, .const, .perPart, .any, 2⟩,
    ⟨0x1000, 0x1000, 0x05, 0x05, .u8, .const, .perPart, .range (0) (255), 2⟩,
    ⟨0x1000, 0x1000, 0x06, 0x06, .u64, .const, .perPart, .any, 2⟩,
    ⟨0x1000, 0x1000, 0x07, 0x07, .u32, .const, .perPart, .any, 2⟩,
    ⟨0x1000, 0x1000, 0x08, 0x08, .u32, .ro, .num 0, .any, 2⟩,
    ⟨0x1000, 0x1000, 0x09, 0x09, .u8, .ro, .num 0, .range (0) (2), 2⟩,
    ⟨0x1000, 0x1000, 0x0A, 0x0A, .u32, .const, .num 1, .any, 2⟩,
    ⟨0x1100, 0x1100, 0x01, 0x02, .bool, .rw, .num 0, .range (0) (1), 2⟩,
    ⟨0x1100, 0x1100, 0x03, 0x03, .u32, .rw, .num 60000, .range (1000) (3600000), 2⟩,
    ⟨0x1100, 0x1100, 0x04, 0x04, .u16, .const, .num 7168, .any, 2⟩,
    ⟨0x1101, 0x1101, 0x01, 0x01, .u8, .w1, .num 0, .guardMode, 2⟩,
    ⟨0x1110, 0x1113, 0x01, 0x01, .blob, .wo, .zeros, .blob 32, 2⟩,
    ⟨0x1110, 0x1113, 0x02, 0x02, .u16, .rw, .byIdx 0 1, .range (0) (65535), 2⟩,
    ⟨0x1110, 0x1113, 0x03, 0x03, .bool, .rw, .num 0, .range (0) (1), 2⟩,
    ⟨0x1120, 0x1120, 0x01, 0x01, .u64, .ro, .num 0, .range (0) (18446744073709551615), 2⟩,
    ⟨0x1120, 0x1120, 0x02, 0x02, .u32, .ro, .num 0, .range (0) (4294967295), 2⟩,
    ⟨0x1120, 0x1120, 0x03, 0x03, .u32, .ro, .num 0, .range (0) (4294967295), 2⟩ ]

def objRows17_1 : List ObjRow :=
  [ ⟨0x1120, 0x1120, 0x04, 0x04, .u32, .ro, .num 0, .range (0) (4294967295), 2⟩,
    ⟨0x1120, 0x1120, 0x05, 0x05, .u32, .ro, .num 0, .range (0) (4294967295), 2⟩,
    ⟨0x1120, 0x1120, 0x06, 0x06, .u32, .ro, .num 0, .range (0) (4294967295), 2⟩,
    ⟨0x1120, 0x1120, 0x07, 0x07, .u32, .ro, .num 0, .range (0) (4294967295), 2⟩,
    ⟨0x1120, 0x1120, 0x08, 0x08, .u64, .ro, .num 0, .range (0) (18446744073709551615), 2⟩,
    ⟨0x1120, 0x1120, 0x09, 0x09, .u32, .ro, .num 0, .range (0) (4294967295), 2⟩,
    ⟨0x1120, 0x1120, 0x0A, 0x0A, .u32, .ro, .num 0, .range (0) (4294967295), 2⟩,
    ⟨0x1120, 0x1120, 0x0B, 0x0B, .u32, .ro, .num 0, .range (0) (4294967295), 2⟩,
    ⟨0x1120, 0x1120, 0x0C, 0x0C, .u8, .ro, .num 0, .range (0) (64), 2⟩,
    ⟨0x1120, 0x1120, 0x0D, 0x0D, .u32, .ro, .num 0, .range (0) (4294967295), 2⟩,
    ⟨0x1120, 0x1120, 0x0E, 0x0E, .u32, .ro, .num 0, .range (0) (4294967295), 2⟩ ]

/-- The objects of chapter 17. -/
def objRows17 : List ObjRow :=
  objRows17_0 ++ objRows17_1

def objRows19_0 : List ObjRow :=
  [ ⟨0x7000, 0x7000, 0x01, 0x01, .u8, .rw, .num 0, .range (0) (4), 2⟩,
    ⟨0x7000, 0x7000, 0x02, 0x02, .u8, .ro, .num 0, .range (0) (4), 2⟩,
    ⟨0x7000, 0x7000, 0x03, 0x03, .bool, .ro, .num 0, .range (0) (1), 2⟩,
    ⟨0x7001, 0x7001, 0x01, 0x02, .bool, .rw, .num 0, .range (0) (1), 2⟩,
    ⟨0x7001, 0x7001, 0x03, 0x03, .u8, .rw, .num 0, .range (0) (15), 2⟩,
    ⟨0x7002, 0x7002, 0x01, 0x01, .bool, .rw, .num 0, .range (0) (1), 2⟩,
    ⟨0x7002, 0x7002, 0x02, 0x02, .u8, .rw, .num 0, .range (0) (1), 2⟩,
    ⟨0x7010, 0x7010, 0x01, 0x01, .u32, .ro, .num 0, .range (0) (4294967295), 2⟩,
    ⟨0x7010, 0x7010, 0x02, 0x02, .u32, .ro, .num 0, .range (0) (4294967295), 2⟩,
    ⟨0x7010, 0x7010, 0x03, 0x03, .u32, .ro, .num 0, .range (0) (4294967295), 2⟩,
    ⟨0x7020, 0x7020, 0x01, 0x01, .u8, .ro, .num 0, .any, 2⟩,
    ⟨0x7020, 0x7020, 0x02, 0x02, .time, .ro, .num 0, .any, 2⟩,
    ⟨0x7020, 0x7020, 0x03, 0x07, .u32, .ro, .num 0, .range (0) (4294967295), 2⟩,
    ⟨0x7030, 0x7030, 0x01, 0x01, .u32, .ro, .num 0, .range (0) (4000), 2⟩,
    ⟨0x7030, 0x7030, 0x02, 0x02, .u8, .ro, .num 0, .any, 2⟩,
    ⟨0x7030, 0x7030, 0x03, 0x03, .bool, .ro, .num 0, .range (0) (1), 2⟩,
    ⟨0x7030, 0x7030, 0x04, 0x04, .u32, .ro, .num 0, .range (0) (4294967295), 2⟩,
    ⟨0x7040, 0x7040, 0x01, 0x01, .u32, .ro, .num 0, .range (0) (190000), 2⟩ ]

/-- The objects of chapter 19. -/
def objRows19 : List ObjRow :=
  objRows19_0

def objRows20_0 : List ObjRow :=
  [ ⟨0x7400, 0x7400, 0x01, 0x01, .i32, .rw, .perPart, .variantMax, 2⟩,
    ⟨0x7400, 0x7400, 0x02, 0x02, .u32, .rw, .num 350, .range (10) (10000), 2⟩,
    ⟨0x7400, 0x7400, 0x03, 0x03, .u32, .rw, .num 20000, .range (100) (3600000), 2⟩,
    ⟨0x7400, 0x7400, 0x04, 0x04, .i32, .rw, .perPart, .range (60000) (110000), 2⟩,
    ⟨0x7400, 0x7400, 0x05, 0x05, .u64, .ro, .num 0, .range (0) (18446744073709551615), 2⟩,
    ⟨0x7400, 0x7400, 0x06, 0x06, .u32, .rw, .num 60000, .range (1000) (86400000), 2⟩,
    ⟨0x7401, 0x7401, 0x01, 0x02, .i32, .ro, .num 0, .range (-40000) (125000), 2⟩,
    ⟨0x7401, 0x7401, 0x03, 0x03, .i32, .ro, .num 0, .range (-40000) (125000), 1⟩,
    ⟨0x7401, 0x7401, 0x04, 0x04, .i32, .ro, .num 0, .range (-40000) (125000), 2⟩,
    ⟨0x7402, 0x7402, 0x01, 0x03, .u32, .ro, .num 0, .range (0) (4294967295), 2⟩,
    ⟨0x7410, 0x7410, 0x01, 0x01, .time, .ro, .num 0, .any, 2⟩,
    ⟨0x7411, 0x7411, 0x01, 0x01, .time, .ro, .num 0, .any, 1⟩,
    ⟨0x7412, 0x7414, 0x01, 0x01, .time, .ro, .num 0, .any, 2⟩,
    ⟨0x7410, 0x7410, 0x02, 0x02, .u64, .ro, .num 0, .range (0) (18446744073709551615), 2⟩,
    ⟨0x7411, 0x7411, 0x02, 0x02, .u64, .ro, .num 0, .range (0) (18446744073709551615), 1⟩,
    ⟨0x7412, 0x7414, 0x02, 0x02, .u64, .ro, .num 0, .range (0) (18446744073709551615), 2⟩,
    ⟨0x7410, 0x7410, 0x03, 0x03, .u64, .ro, .num 0, .range (0) (18446744073709551615), 2⟩,
    ⟨0x7411, 0x7411, 0x03, 0x03, .u64, .ro, .num 0, .range (0) (18446744073709551615), 1⟩,
    ⟨0x7412, 0x7414, 0x03, 0x03, .u64, .ro, .num 0, .range (0) (18446744073709551615), 2⟩,
    ⟨0x7410, 0x7410, 0x04, 0x04, .u32, .ro, .num 0, .range (0) (4294967295), 2⟩,
    ⟨0x7411, 0x7411, 0x04, 0x04, .u32, .ro, .num 0, .range (0) (4294967295), 1⟩,
    ⟨0x7412, 0x7414, 0x04, 0x04, .u32, .ro, .num 0, .range (0) (4294967295), 2⟩,
    ⟨0x7420, 0x7420, 0x01, 0x01, .u8, .rw, .num 0, .range (0) (1), 2⟩,
    ⟨0x7420, 0x7420, 0x02, 0x02, .u32, .ro, .num 0, .range (0) (4294967295), 2⟩,
    ⟨0x7420, 0x7420, 0x03, 0x03, .time, .ro, .num 0, .any, 2⟩,
    ⟨0x7420, 0x7420, 0x05, 0x05, .u64, .ro, .num 0, .range (0) (18446744073709551615), 2⟩,
    ⟨0x7420, 0x7420, 0x06, 0x06, .u32, .ro, .num 0, .range (0) (4294967295), 2⟩,
    ⟨0x7440, 0x7440, 0x01, 0x01, .u16, .ro, .num 0, .range (0) (64511), 2⟩,
    ⟨0x7440, 0x7440, 0x02, 0x02, .u64, .ro, .num 0, .range (0) (18446744073709551615), 2⟩ ]

def objRows20_1 : List ObjRow :=
  [ ⟨0x7440, 0x7440, 0x03, 0x03, .u16, .ro, .num 0, .range (0) (1024), 2⟩,
    ⟨0x7440, 0x7440, 0x04, 0x04, .u32, .ro, .num 0, .range (0) (4294967295), 2⟩,
    ⟨0x7440, 0x7440, 0x05, 0x05, .u8, .g, .num 0, .range (0) (31), 2⟩,
    ⟨0x7441, 0x7441, 0x01, 0x01, .u16, .rw, .num 0, .range (0) (64511), 2⟩,
    ⟨0x7441, 0x7441, 0x02, 0x02, .u16, .rw, .num 0, .range (0) (1023), 2⟩,
    ⟨0x7448, 0x7448, 0x00, 0x00, .blob, .ro, .zeros, .blob 4096, 2⟩,
    ⟨0x7449, 0x7449, 0x00, 0x00, .blob, .ro, .zeros, .blob 4096, 2⟩,
    ⟨0x7460, 0x7460, 0x01, 0x01, .u8, .ro, .num 0, .range (0) (63), 2⟩,
    ⟨0x7460, 0x7460, 0x02, 0x02, .u32, .ro, .num 0, .range (0) (4294967295), 2⟩,
    ⟨0x7461, 0x7461, 0x00, 0x00, .blob, .ro, .zeros, .blob 2048, 2⟩,
    ⟨0x7470, 0x7470, 0x01, 0x01, .u8, .ro, .num 0, .range (0) (15), 2⟩,
    ⟨0x7471, 0x7471, 0x00, 0x00, .blob, .ro, .zeros, .blob 256, 2⟩ ]

/-- The objects of chapter 20. -/
def objRows20 : List ObjRow :=
  objRows20_0 ++ objRows20_1

/-- The rows of the chapter that R349 allots an index to. -/
def objRowsFor (idx : Nat) : List ObjRow :=
  if 0x1000 ≤ idx ∧ idx ≤ 0x11FF then objRows17 else
  if 0x2000 ≤ idx ∧ idx ≤ 0x27FF then objRows02 else
  if 0x3000 ≤ idx ∧ idx ≤ 0x33FF then objRows03 else
  if 0x3400 ≤ idx ∧ idx ≤ 0x37FF then objRows04 else
  if 0x3800 ≤ idx ∧ idx ≤ 0x38FF then objRows05 else
  if 0x3900 ≤ idx ∧ idx ≤ 0x3BFF then objRows06 else
  if 0x4000 ≤ idx ∧ idx ≤ 0x43FF then objRows08 else
  if 0x4400 ≤ idx ∧ idx ≤ 0x47FF then objRows09 else
  if 0x4800 ≤ idx ∧ idx ≤ 0x4BFF then objRows10 else
  if 0x4C00 ≤ idx ∧ idx ≤ 0x4DFF then objRows11 else
  if 0x5000 ≤ idx ∧ idx ≤ 0x53FF then objRows12 else
  if 0x5400 ≤ idx ∧ idx ≤ 0x57FF then objRows13 else
  if 0x5800 ≤ idx ∧ idx ≤ 0x59FF then objRows14 else
  if 0x5A00 ≤ idx ∧ idx ≤ 0x5BFF then objRows15 else
  if 0x6000 ≤ idx ∧ idx ≤ 0x63FF then objRows16 else
  if 0x7000 ≤ idx ∧ idx ≤ 0x73FF then objRows19 else
  if 0x7400 ≤ idx ∧ idx ≤ 0x77FF then objRows20 else
  []

/-- The table line of an object, if the manual lists it (R345). -/
def objRow (idx sub : Nat) : Option ObjRow :=
  (objRowsFor idx).find? (fun r => decide (r.lo ≤ idx ∧ idx ≤ r.hi ∧ r.slo ≤ sub ∧ sub ≤ r.shi))

end Sys2Proof.Machine
end

