-- ==== Sys2Proof/Machine/Objects.lean ====
section
/-! DEFINITION. Reading and changing the stored values of the dictionary's objects (R345, R346). The store lists an object
only while it differs from its default. -/

namespace Sys2Proof.Machine

/-- The values of the objects that differ from their defaults, by object key. -/
abbrev Store := SMap Val

/-- The value of type `t` that bytes of zeros spell. -/
def zeroOf (t : OType) (r : ORange) : Val :=
  match t, r with
  | .blob, .blob n => .bytes (zeros n)
  | .blob, _ => .bytes []
  | .str, _ => .bytes []
  | _, _ => .num 0

/-- The UTF-8 bytes of a text of the tables. -/
def textBytes (s : String) : List Byte := s.toUTF8.toList.map (fun b => BitVec.ofNat 8 b.toNat)

/-- Defaults of the kind "per part" (assumption 4): identity, factory calibration and the like. -/
def perPartDefault (idx sub : Nat) : Val :=
  if idx = 0x1000 ∧ sub = 1 then .bytes (textBytes "Lemozan Instruments")
  else if idx = 0x1000 ∧ sub = 2 then .bytes (textBytes "SLN-2048-C")
  else if idx = 0x1000 ∧ sub = 3 then .num 2048
  else if idx = 0x1000 ∧ sub = 4 then .num 3
  else if idx = 0x6000 then .num 0x2048
  else if idx = 0x7400 then .num 0
  else if (idx = 0x4400 ∨ idx = 0x4401) ∧ sub = 4 then .num (Config.perPart (objKey idx sub) % 2 ^ 48)
  else .num (Config.perPart (objKey idx sub))

/-- The default of an object under its table line (R345). -/
def dfltVal (r : ObjRow) (idx sub : Nat) : Val :=
  match r.dflt with
  | .num n => .num n
  | .zeros => zeroOf r.typ r.rng
  | .bySub base step first => .num (base + step * (sub - first))
  | .byIdx base step => .num (base + step * (idx - r.lo))
  | .clockSrc => .num (2 * (sub % 4))
  | .gaugeChan => .num (128 * ((idx - 0x4C00) / 4))
  | .perPart => perPartDefault idx sub

/-- The default of a listed object; zero for a pair that no table lists. -/
def objDefault (idx sub : Nat) : Val :=
  match objRow idx sub with
  | some r => dfltVal r idx sub
  | none => .num 0

/-- The stored value of an object. -/
def storeGet (st : Store) (idx sub : Nat) : Val := (mget (objKey idx sub) st).getD (objDefault idx sub)

/-- The stored number of an object. -/
def storeInt (st : Store) (idx sub : Nat) : Int := (storeGet st idx sub).int

/-- The stored number of an object that is never negative. -/
def storeNat (st : Store) (idx sub : Nat) : Nat := (storeInt st idx sub).toNat

/-- A stored BOOL. -/
def storeBool (st : Store) (idx sub : Nat) : Bool := storeInt st idx sub != 0

/-- Store a value; the default removes the entry. -/
def storePut (st : Store) (idx sub : Nat) (v : Val) : Store :=
  if v = objDefault idx sub then mdel (objKey idx sub) st else mput (objKey idx sub) v st

/-- The bits of a numeric type (R346). -/
def typeBits : OType → Nat
  | .bool => 1
  | .u8 => 8
  | .u16 => 16
  | .u32 | .i32 => 32
  | _ => 64

/-- Add to a counter, wrapping at the width of its type. -/
def storeBump (st : Store) (idx sub n : Nat) : Store :=
  let bits := match objRow idx sub with
    | some r => typeBits r.typ
    | none => 64
  storePut st idx sub (.num ((storeNat st idx sub + n) % 2 ^ bits : Nat))

/-- The per-channel array index of R22. -/
def chanIdx (base ch : Nat) : Nat := base + ch / 256

/-- The entry of a per-channel array for a global channel (R22). -/
def chanInt (st : Store) (base ch : Nat) : Int := storeInt st (chanIdx base ch) (ch % 256)

end Sys2Proof.Machine
end

