-- ==== Sys2Proof/Machine/StCapture.lean ====
section
/-! DEFINITION. The state of one capture die: plan, front end, terms, staircase, storage, window, watchkeeper
(chapters 02 to 07). Positions of samples and edges are counted in units of 3.125 ps from t(0), the latch of sample 0. -/

namespace Sys2Proof.Machine

/-! ### The plan, as applied at ARMING -/

/-- A condition with its action set (R72, R74), in the coding of the objects of R91. -/
structure Cond where
  enable : Bool
  sel : Vector Nat 4
  invert : BitVec 4
  table : BitVec 16
  cmpSrc : Nat
  cmpOp : Nat
  cmpVal : Nat
  advance : Option (Fin 16)
  trigger : Bool
  qual : Nat
  cntInc : BitVec 8
  cntRst : BitVec 8
  tmrStart : BitVec 8
  tmrStop : BitVec 8
  tmrRst : BitVec 8
  tow : BitVec 16
  knot : Option (Fin 16)
  trigout : BitVec 2
  wake : Bool
  deriving DecidableEq, Repr

/-- A bus group (R52): its members as die-local channels, bit 0 first. -/
structure BusGroup where
  signed : Bool
  members : List Nat
  deriving DecidableEq, Repr

/-- A pattern term (R51). -/
structure PatternTerm where
  any : Bool
  care : BitVec 1024
  value : BitVec 1024
  deriving DecidableEq, Repr

/-- An edge term (R53): the channels it watches and its kind (0 rising, 1 falling, 2 either). -/
structure EdgeTerm where
  chans : List Nat
  kind : Nat
  deriving DecidableEq, Repr

/-- A range term (R54) with its bounds in the group's signedness. -/
structure RangeTerm where
  group : BusGroup
  low : Int
  high : Int
  outside : Bool
  deriving DecidableEq, Repr

/-- A glitch term (R58). -/
structure GlitchTerm where
  chans : List Nat
  polarity : Nat
  width : Nat
  deriving DecidableEq, Repr

/-- A duration term (R59). `pattern`: its source is the pattern term `src`; otherwise the channel `src`. -/
structure DurTerm where
  pattern : Bool
  src : Nat
  level : Bool
  ended : Bool
  dmin : Nat
  dmax : Nat
  deriving DecidableEq, Repr

/-- A knot-in term (R62). -/
structure KnotTerm where
  mask : BitVec 16
  atTime : Bool
  offset : Int
  deriving DecidableEq, Repr

/-- An enabled envelope group (R104): its number, its table entry and its field bytes. -/
structure EnvGroup where
  g : Nat
  group : BusGroup
  bytes : Nat
  deriving DecidableEq, Repr

/-- The trigger part of a plan: what the evaluators and the staircase hold once loaded (R66, R67, R69). -/
structure Program where
  conds : Vector (List Cond) 16
  patterns : SMap PatternTerm
  edges : SMap EdgeTerm
  ranges : SMap RangeTerm
  glitches : SMap GlitchTerm
  durations : SMap DurTerm
  knotIns : SMap KnotTerm
  trigMode : Vector Nat 4
  towDelay : Bool
  snapMask : BitVec 16
  initQual : Bool
  timersOn : BitVec 8
  recordAll : Bool
  knotOffset : Int
  placeMask : BitVec 16
  placeOffset : Int
  deriving DecidableEq, Repr

/-- A clamp that ARMING makes (R351). -/
structure ClampReq where
  index : Nat
  sub : Nat
  reason : Nat
  requested : Int
  applied : Int
  deriving DecidableEq, Repr

/-- The applied plan of a die (R36, R93 to R95, R104, R122 to R125). Rates are in bytes per second. `clockOf` gives the state clock
of each strand, `clockSrc` and `clockEdge` the source channel and the active edges of each state clock, `clocksUsed` the state clocks
of the strands that capture or hold a channel of a term in use. -/
structure Plan where
  mode : Nat
  state : Bool
  period : Nat
  selected : BitVec 1024
  strands : BitVec 8
  envN : Nat
  envGroups : List EnvGroup
  deep : Bool
  weir : Nat
  depth : Nat
  regionBase : Nat
  regionBarges : Nat
  rate : Rat
  budget : Rat
  clamped : Bool
  coupled : Bool
  clamps : List ClampReq
  program : Program
  clockOf : Vector (Fin 4) 8
  clockSrc : Vector Nat 4
  clockEdge : Vector Nat 4
  clocksUsed : List (Fin 4)
  deriving DecidableEq, Repr

/-! ### Front end and terms -/

/-- The last edge of a channel: its position, whether it was fine-time saturated, and whether it was a channel's first
edge since sample 0 (its start level is then unknown, R56). -/
structure LastEdge where
  pos : Nat
  saturated : Bool
  first : Bool
  deriving DecidableEq, Repr

/-- A pulse that ended in the last sample period (R56): channel, polarity, width and whether its end was saturated. -/
structure Pulse where
  chan : Nat
  high : Bool
  width : Nat
  narrow : Bool
  deriving DecidableEq, Repr

/-- An edge of the last sample period (R33): channel, position, new level, saturation. -/
structure Edge where
  chan : Nat
  pos : Nat
  level : Bool
  saturated : Bool
  deriving DecidableEq, Repr

/-- A level change behind the comparator and the delay line of a channel, or of a TRIGIN input, that no sample has taken yet: its
position (R32, R33). -/
structure Waiting where
  chan : Nat
  pos : Int
  level : Bool
  deriving DecidableEq, Repr

/-- The level history of a pattern term that a duration term watches (R59). -/
structure PatHist where
  value : Bool
  since : Nat
  known : Bool
  endedFor : Option Nat
  deriving DecidableEq, Repr

/-- A run of the eye finder (R38): its mode, reference edges per point, threshold points, their step, the reference channel and
auto-apply, as the objects stood at the accepted start. -/
structure EyeRun where
  deskew : Bool
  edges : Nat
  points : Nat
  step : Nat
  ref : Nat
  auto : Bool
  deriving DecidableEq, Repr

/-- The front end and the term evaluators of a die. `first` marks the present sample as one without history, `restart` the next
one (R47, R410), and `base` is the position of the last such sample. `pins` are the last ball voltages in µV, `ball` the comparators'
levels, `waiting` the changes that their delay lines still hold, `levels` what the present sample reads; `fine` the position of the
last edge that an interpolator measured with fine time (R34). `clocks` are the active edges of each state clock that no sample has
taken, `clkPos` and `clkPrev` the edges of the present and the previous sample (R36, R37). -/
structure FrontEnd where
  pins : SMap Int
  trigPins : Vector Int 4
  ball : BitVec 1024
  trigBall : BitVec 4
  waiting : List Waiting
  trigWaiting : List Waiting
  clocks : Vector (List Nat) 4
  clkPos : Vector Nat 4
  clkPrev : Vector Nat 4
  levels : BitVec 1024
  prev : BitVec 1024
  trigLevels : BitVec 4
  trigPrev : BitVec 4
  trigFine : Vector (Option (Nat × Bool)) 4
  trigLast : Vector (Option Nat) 4
  edges : List Edge
  pulses : List Pulse
  last : SMap LastEdge
  fine : SMap Nat
  pats : SMap PatHist
  towIn : List (BitVec 16 × Nat)
  towNow : BitVec 16
  knotArrived : List (Fin 8 × Nat × BitVec 18)
  knotPending : List (Fin 8 × Qword × BitVec 18)
  knotNow : List (Fin 8 × BitVec 18)
  noFine : BitVec 1024
  eye : Option EyeRun
  first : Bool
  restart : Bool
  base : Nat
  deriving DecidableEq, Repr

/-! ### Staircase -/

/-- A timer of R70: running or not, its value when last started or stopped, and the position of that start. -/
structure Timer where
  running : Bool
  value : Nat
  start : Nat
  deriving DecidableEq, Repr

/-- How a trigger point was committed (R163, TRIGGER source). -/
inductive TrigKind where
  | action | forced | placement
  deriving DecidableEq, Repr

/-- A committed trigger point. -/
structure Trigger where
  sample : Nat
  time : Qword
  kind : TrigKind
  late : Bool
  foundAt : Nat
  deriving DecidableEq, Repr

/-- A deferred advance (R80, R81): its target, the chamber it left, its length in samples, whether a deferred sample has been
evaluated, and the target conditions seen true meanwhile. -/
structure Deferred where
  target : Fin 16
  source : Fin 16
  length : Nat
  begun : Bool
  also : BitVec 8
  deriving DecidableEq, Repr

/-- A placement that waits for its target time (R85). -/
structure Placement where
  target : Qword
  node : BitVec 18
  deriving DecidableEq, Repr

/-- The record that R78 writes, in the fields of R159. -/
structure EventRec where
  before : Nat
  after : Nat
  cond : Nat
  deferral : Nat
  also : BitVec 8
  flags : BitVec 16
  subject : Nat
  time : Qword
  snap : Option Nat
  sourceKind : Nat
  source : Nat
  tfine : Option Nat
  phase : Int
  deriving DecidableEq, Repr

/-- The staircase of a die (chapter 04). `present` are the counters and timers in the present sample before its actions (R73),
`deferrals` the positions of the first and the last sample of each deferral of the convoy, newest first (R81), `entryDue` a record whose
entry snapshot waits for the next state sample (R79), `rephase` a phase offset that the next record carries (R160). -/
structure Stair where
  chamber : Fin 16
  deferred : Option Deferred
  entryWord : Nat
  entries : Nat
  counters : Vector Nat 8
  timers : Vector Timer 8
  saturated : BitVec 16
  atMax : BitVec 16
  qualifier : Bool
  deferrals : List (Nat × Nat)
  present : List Nat
  entryDue : Option EventRec
  rephase : Option Int
  snaps : Nat
  prefillSeen : Bool
  postSeen : Bool
  force : Bool
  placement : Option Placement
  trigger : Option Trigger
  lineOut : Option Trigger
  knotQueue : List Knot
  deriving DecidableEq, Repr

/-! ### Storage -/

/-- One item slot of a barge (R152 to R161). -/
inductive BItem where
  | vec (v : BitVec 128)
  | vecState (v : BitVec 128) (delta : Nat)
  | skip (count : Nat)
  | skipState (count delta : Nat)
  | trans (r : Qword)
  | pair (lo hi : Int)
  | skipPairs (count : Nat)
  | event (r : EventRec)
  | snap (part index : Nat) (values : List Nat)
  | entry (tag : Nat) (value : List Byte)
  deriving DecidableEq, Repr

/-- Barge kinds (R145). -/
inductive BKind where
  | full | fullState | transition | envelope | event | directory
  deriving DecidableEq, Repr

/-- A barge (R144), open or closed; the encoder adds MAGIC, VERSION and the check codes. `itemTime` is the time of its last item. -/
structure Barge where
  kind : BKind
  ewidth : Nat
  esigned : Bool
  stream : Nat
  die : Die
  coupled : Bool
  node : BitVec 18
  convoy : Dword
  anchor : Qword
  itemTime : Qword
  endTime : Qword
  flags : BitVec 32
  period : Nat
  interval : Nat
  xstart : Qword
  xend : Qword
  seq : Nat
  anchorPos : Nat
  endPos : Nat
  firstSample : Nat
  lastSample : Nat
  items : List BItem
  deriving DecidableEq, Repr

/-- What the part keeps of a stored barge beside its bytes: its slot in the ring, the moment it closed, its stream and kind, its
sequence, its times, its sample range, its flags. -/
structure BargeMeta where
  slot : Nat
  closed : Nat
  stream : Nat
  die : Die
  kind : BKind
  seq : Nat
  anchor : Qword
  endTime : Qword
  firstSample : Nat
  lastSample : Nat
  flags : BitVec 32
  deriving DecidableEq, Repr

/-- A missing range that the next barge of a stream and kind carries (R132, R148). -/
structure GapMark where
  xstart : Qword
  xend : Qword
  deriving DecidableEq, Repr

/-- What an item inherits from the sample it belongs to (R147): the sample PLL coasted; the position since which the time base has
been DISCIPLINED throughout. -/
structure ItemState where
  coast : Bool
  disc : Option Nat
  deriving DecidableEq, Repr

/-- A transition record on its way through the encoder (R99, R103): the record, the time and position of its tick, whether a
saturated edge lies in it, the sample in which it is first seen and its state, whether it is a QGAP spacer, and the range that an
overrun lost directly before it. -/
structure EncRec where
  record : Qword
  time : Qword
  pos : Nat
  sat : Bool
  sample : Nat
  state : ItemState
  qgap : Bool
  gap : Option GapMark
  deriving DecidableEq, Repr

/-- A strand or group stream of a die (R95): its open barges, its sequence count and what its next barges owe. `held` are the edges of a
tick that the last sample did not end (R99) and `heldFrom` the levels before them, `cycle` the core cycle up to which the encoder has drained (R103), `written` the position
at which the write share of the home part has taken the stream's last barge (R116). -/
structure Stream where
  fullOpen : Option Barge
  transOpen : Option Barge
  nextSeq : Nat
  gapFull : Option GapMark
  gapTrans : Option GapMark
  freeze : Option GapMark
  lastTick : Nat
  lastStamp : Nat
  skipRun : Nat
  skipAt : Qword
  skipPos : Nat
  skipSample : Nat
  held : List Edge
  heldFrom : BitVec 1024
  cycle : Nat
  written : Nat
  encoder : List EncRec
  discarding : Bool
  lostFrom : Option Qword
  envMin : Option Int
  envMax : Option Int
  envSeen : Bool
  envSat : Bool
  envSkip : Nat
  envSkipAt : Qword
  envSkipPos : Nat
  envSkipSample : Nat
  envAnchor : Qword
  envPos : Nat
  envFirst : Nat
  trigSeq : Option Nat
  deriving DecidableEq, Repr

/-- Where a queued event record stands in the buffer of R109. -/
inductive EvPlace where
  | plain | trigger | reserved
  deriving DecidableEq, Repr

/-- An item in the event buffer (R109): its place, the time, position and number of its sample, and its state. -/
structure EvEntry where
  place : EvPlace
  item : BItem
  time : Qword
  pos : Nat
  sample : Nat
  state : ItemState
  deriving DecidableEq, Repr

/-- The storage stage of a die (chapter 05): its streams by die-local stream id, the event buffer and barge; `cycle` is the core
cycle up to which the event buffer has drained. -/
structure Storage where
  streams : SMap Stream
  events : List EvEntry
  eventsLost : Bool
  eventOpen : Option Barge
  eventSeq : Nat
  eventEnd : Nat
  eventFreeze : Option GapMark
  cycle : Nat
  qualNow : Bool
  deriving DecidableEq, Repr

/-- Window 0 and the deep ring of a die (R128 to R136). While `homeLimit` holds a woken capture to the home part, `homeBusy` is the
position up to which its quadrant's share of bandwidth is taken (R116, R123). `damaged` are the barges known damaged before sealing (R277). Lists are oldest first; slots count 4 KiB units in a ring. -/
structure Window where
  base : Nat
  size : Nat
  reserve : Nat
  next : Nat
  wraps : Nat
  ring : List BargeMeta
  homeLimit : Option Nat
  homeBusy : Nat
  deepNext : Nat
  deepWraps : Nat
  deep : List BargeMeta
  sluicing : Bool
  deepFull : Bool
  dir : List BargeMeta
  win1 : Nat × Nat
  win2 : Nat × Nat
  copy : Option Nat
  damaged : List BargeMeta
  laidMask : BitVec 64
  laidHome : Bool
  deriving DecidableEq, Repr

/-! ### Capture state machine -/

/-- The capture states (R118), coded 0 to 5 in CAPn_STAT.STATE. -/
inductive CapState where
  | idle | arming | prefill | armed | postfill | sealed
  deriving DecidableEq, Repr

/-- End causes (object 3910:07 [63:56]). -/
inductive EndCause where
  | depth | stop | ringFull | clockFault | thermal | reset
  deriving DecidableEq, Repr

/-- A convoy of a die: its id, epoch and start, its progress, its end. In state mode `origin` is the position of t(0) from the opening,
0 until sample 0 is found. `disc` is the position since which the time base has been DISCIPLINED throughout (R147), and `stamps`
are the positions and accumulators of the state samples, newest first. -/
structure Convoy where
  id : Dword
  openAt : Nat
  startEpoch : Dword
  startTime : Qword
  acc : Nat
  nextSample : Nat
  pos : Nat
  lastTime : Qword
  levels0 : BitVec 1024
  storing : Bool
  endCause : EndCause
  lastStored : Nat
  endPos : Nat
  endAcc : Nat
  weirShort : Bool
  coast : Bool
  origin : Nat
  disc : Option Nat
  stamps : List (Nat × Nat)
  deriving DecidableEq, Repr

/-! ### Watchkeeper -/

/-- A watched edge as logged (R114). -/
structure WatchEdge where
  slot : Nat
  time : Qword
  saturated : Bool
  level : Bool
  deriving DecidableEq, Repr

/-- A record of the watch log (R114): its tick, its word, its die-local strand, whether a saturated edge lies in it, the moment it
was written, and since when the time base was then DISCIPLINED. -/
structure LogRec where
  tick : Nat
  word : Qword
  strand : Nat
  sat : Bool
  at_ : Nat
  disc : Option Nat
  deriving DecidableEq, Repr

/-- The watchkeeper of a die (R112 to R116). `log` holds the records of basin window 1, oldest first; `logged` counts
the records written since the watch began. -/
structure Watch where
  running : Bool
  conds : List Cond
  slots : Vector (Option (Fin 1024)) 64
  kinds : Vector Nat 64
  levels : BitVec 64
  edgesNow : BitVec 64
  counter : Nat
  timerOn : Bool
  timer : Nat
  knotNow : BitVec 8
  log : List LogRec
  logged : Nat
  fine : SMap Nat
  lastTick : SMap Nat
  plan : Option Plan
  deriving DecidableEq, Repr

/-- An idle check that runs on a die (R43): when it ends, the channels that a drift check re-trims with the moment of the drift check before
it, and the temperature that an internal deskew is made at. -/
structure IdleCheck where
  ends : Nat
  drift : Option (Nat × Nat)
  deskew : Option Int
  deriving DecidableEq, Repr

/-- What a calibration of a die stores in MRAM (R44): timeword, epoch, temperature; `doneAt` and `extra` give its age, as powered
time since it was done and the unpowered time known since (R42). -/
structure Calibration where
  time : Qword
  epoch : Dword
  tempMc : Int
  valid : Bool
  doneAt : Nat
  extra : Nat
  deriving DecidableEq, Repr

/-- One capture die. `trigRam`: its 16 KiB of trigger RAM (R66). Which code its words carry the spec leaves open; what it does is in
RamCheck (R67). -/
structure DieSt where
  state : CapState
  closing : Bool
  armAt : Nat
  armTo : Nat
  calDue : Bool
  calRunning : Bool
  deskewTemp : Int
  driftAt : Nat
  check : Option IdleCheck
  plan : Plan
  convoy : Convoy
  fe : FrontEnd
  stair : Stair
  store : Storage
  win : Window
  watch : Watch
  trigRam : Memory
  cal : Calibration
  dirAddr : Nat
  deriving DecidableEq, Repr

end Sys2Proof.Machine
end

