-- ==== Sys2Proof/Machine/StClock.lean ====
section
/-! DEFINITION. The state of the PLLs (chapter 15) and of the package's own pins. -/

namespace Sys2Proof.Machine

/-- The states of a PLL (object 5A20+i:01), coded 0 to 4. -/
inductive PllState where
  | off | search | hop | locked | coast
  deriving DecidableEq, Repr

/-- A band-table entry (R309); `used` orders entries for replacement. -/
structure BandEntry where
  n : Nat
  band : Nat
  valid : Bool
  vtune : Nat
  temp : Int
  time : Qword
  used : Nat
  deriving DecidableEq, Repr

/-- One PLL. `loss`: the coast is a loss of lock (true) or of the reference (false). `swap`: a
re-entry on a new source is due, without a coast (R316). `closed`: the loop was closed at that
moment and waits for its lock confirmation. `noRef`: the PLL has no reference. `wanted`: a count asked of the PLL
while it coasted, which it takes after its re-entry (R314). `back`: while a
revalidation searches (R310), the count that the PLL returns to, or none where it was off. -/
structure Pll where
  state : PllState
  n : Nat
  band : Nat
  vtune : Nat
  coastAt : Nat
  loss : Bool
  noRef : Bool
  swap : Bool
  estimateAt : Nat
  closed : Option Nat
  attempts : Nat
  searchDue : Bool
  wanted : Option Nat
  back : Option (Option Nat)
  residual : Int
  estimate : Int
  reentryTime : Qword
  table : List BandEntry
  deriving DecidableEq, Repr

/-- The clocks of the package. `spread` is the FPLL depth in force and `spreadNext` one that waits for the loop to close. -/
structure Clocks where
  plls : Vector Pll 13
  spread : Nat
  spreadNext : Option Nat
  sourceNext : Option Nat
  useCount : Nat
  deriving DecidableEq, Repr

/-- The yarn, TRIGOUT and REFOUT pins (R28 to R30, R89, R307). `refout`: the source that REFOUT repeats, none at high impedance. `trigout` bit p: TRIGOUTp is active;
`pulseEnd`: when its pulse ends; `waiting`: the actions, by
the time at the pin and the end of their pulse, that an action of the other die may still precede. -/
structure Pins where
  yarnDir : Vector (Vector Dword 4) 2
  yarnDrive : Vector (Vector Dword 8) 2
  trigout : BitVec 2
  pulseEnd : Vector (Option Nat) 2
  waiting : Vector (List (Nat × Nat)) 2
  refout : Option Nat
  deriving DecidableEq, Repr

end Sys2Proof.Machine
end

