-- ==== Sys2Proof/Machine/StDeep.lean ====
section
/-! DEFINITION. The state of the deep store (chapter 13) and of the on-chip memories' tests (chapter 14). -/

namespace Sys2Proof.Machine

/-- Channel states of object 5410+c:01, coded 0 to 5. -/
inductive ChanState where
  | absent | nonconforming | inService | training | selfRefresh | failed
  deriving DecidableEq, Repr

/-- One DDR5 channel. `slots` is the rank table (object 5410+c:09), `out` the retired ranks. -/
structure DsChan where
  state : ChanState
  ranks : Nat
  capacity : Nat
  rated : Nat
  tempMc : Int
  doubled : Bool
  hot : Bool
  sensorFails : Nat
  trainedAt : Qword
  trainTemp : Int
  trainResult : Nat
  trainSince : Nat
  slots : Vector (Fin 4) 4
  spare : Option (Fin 4)
  out : BitVec 4
  deriving DecidableEq, Repr

/-- A deep-store request of one group at the head of a port's queue (R279), and whether its channel has granted it (R280). -/
structure DsRequest where
  addr : Nat
  write : Bool
  entered : Nat
  urgency : Nat
  granted : Bool
  deriving DecidableEq, Repr

/-- A migration (R275): the channel, the slot, the rank that leaves it, the spare, and how many groups P7 has copied. At most one runs in a
channel. -/
structure Migration where
  chan : Fin 8
  slot : Fin 4
  rank : Fin 4
  spare : Fin 4
  copied : Nat
  deriving DecidableEq, Repr

/-- The deep store. `recent` lists corrected reads of the last 24 h, as rank (4 × channel + rank) and moment (R275). `mapChans` lists the admitted channels in letter order; `mapRanks` is R and `rankGiB` is S of R265. -/
structure Deep where
  chans : Vector DsChan 8
  mapChans : List (Fin 8)
  mapRanks : Nat
  rankGiB : Nat
  sparing : Bool
  requested : Nat
  running : Nat
  pending : Bool
  deferred : Bool
  changing : Bool
  spareNext : Bool
  clearNext : Bool
  retired : List (Fin 8 × Fin 4)
  migrations : List Migration
  ports : Vector (Option DsRequest) 8
  scrub : Nat
  damageNext : Nat
  rasChan : Fin 8
  rasRank : Fin 4
  recent : List (Nat × Nat)
  deriving DecidableEq, Repr

/-- A running requested test (R299): target 0 to 5, algorithm, mode (true: preserving), backgrounds and bank mask. -/
structure March where
  target : Nat
  sophisticated : Bool
  preserving : Bool
  backgrounds : Nat
  mask : BitVec 64
  since : Nat
  deriving DecidableEq, Repr

/-- The on-chip memories (chapter 14). `bankMask` and `spares` of the basins are kept in MRAM. `port` lists the dwords that the HKC port of the
descriptor RAM wrote at the moment `portAt`, the latest first, with their values before (R294); `flaws` lists the dwords
of that RAM with an ECC error, and whether it is uncorrectable (R295); `stepAt` is when the background test last took a block (R302). -/
structure OnChip where
  bankMask : Vector (BitVec 64) 2
  basinTest : Vector Nat 2
  spares : Vector (SMap Nat) 2
  padSpares : Vector Nat 8
  ramSpares : Nat
  test : Option March
  testStatus : Nat
  block : Nat
  aborts : Nat
  touched : Bool
  unusable : Bool
  port : List (Nat × Nat)
  portAt : Nat
  flaws : List (Nat × Bool)
  stepAt : Nat
  deriving DecidableEq, Repr

end Sys2Proof.Machine
end

