-- ==== Sys2Proof/Machine/StGauge.lean ====
section
/-! DEFINITION. The state of a gauge (chapter 11). Times within a gate or shot are timewords. -/

namespace Sys2Proof.Machine

/-- The states of a gauge (object 4C40+g:01), coded 0 to 4. -/
inductive GaugeState where
  | idle | running | done | aborted | timeout
  deriving DecidableEq, Repr

/-- The settings a gauge took at its start (R234). Windows are in 2^−16 ns. -/
structure GaugeSet where
  mode : Nat
  startChan : Nat
  startEdge : Nat
  stopChan : Nat
  stopEdge : Nat
  prescale : Nat
  source : Nat
  gateNs : Nat
  slot : Nat
  w1 : Int
  w2 : Int
  holdNs : Nat
  shots : Nat
  again : Bool
  timeoutMs : Nat
  deriving DecidableEq, Repr

/-- An open shot (R238): its start time and whether the start stamp was saturated. -/
structure Shot where
  start : Qword
  saturated : Bool
  deriving DecidableEq, Repr

/-- A stop edge (R238): its stamp, whether it is saturated, whether it fell within a window that had paired. -/
structure StopEdge where
  time : Qword
  saturated : Bool
  surplus : Bool
  deriving DecidableEq, Repr

/-- One gauge. `startUnit` and `stopUnit` are the last stamps of the two interpolators; `sum` and `sumSq` gather the results
of the set; `lastWindow` is the window of the shot that paired last; `unsent` are results made while the HKC restarts (R244). -/
structure Gauge where
  state : GaugeState
  set : GaugeSet
  startedAt : Nat
  stamping : Bool
  published : Bool
  gate : Option (Nat × Qword)
  gateEnd : Nat
  flags : BitVec 16
  startUnit : Option Qword
  stopUnit : Option Qword
  prescaled : Nat
  first : Option Qword
  last : Option Qword
  n : Nat
  nLast : Nat
  shot : Option Shot
  shotEnd : Nat
  history : List StopEdge
  lastWindow : Option (Qword × Qword)
  holdStart : Option Qword
  holdStop : Option Qword
  count : Nat
  unresolved : Nat
  sum : Int
  sumSq : Nat
  least : Int
  greatest : Int
  unsent : List (Qword × BitVec 16 × List Int)
  deriving DecidableEq, Repr

end Sys2Proof.Machine
end

