-- ==== Sys2Proof/Machine/StGen.lean ====
section
/-! DEFINITION. The state of a die's pattern generator (chapter 12). -/

namespace Sys2Proof.Machine

/-- The states of R246, coded 0 to 5. -/
inductive GenState where
  | stopped | priming | ready | running | waiting | ending
  deriving DecidableEq, Repr

/-- The end statuses of object 5010+d:02, coded 0 to 9. -/
inductive GenEnd where
  | none | done | stopped | underrun | coast | table | cache | rate | aborted | data
  deriving DecidableEq, Repr

/-- What a WAITING generator waits for (R250). -/
inductive GenWait where
  | knot | syncin
  deriving DecidableEq, Repr

/-- An entry of the segment table (R249). -/
structure GenEntry where
  start : Nat
  target : Fin 4096
  length : Nat
  loops : Nat
  exit : Nat
  cache : Bool
  endless : Bool
  deriving DecidableEq, Repr

/-- A refill read on its way (R253): into the landing buffer or the prefetch buffer, its address and length. -/
structure GenFetch where
  landing : Bool
  addr : Nat
  len : Nat
  deriving DecidableEq, Repr

/-- One generator. `passStart` is the moment of the pass's first sample at the balls; `startAt` a scheduled first sample; `endPass` a stop that takes effect at the pass boundary; `jump` a pending request, true when it was
deferred past this pass. `pre` is the prefetch buffer: the DEEP data of the path from the block that plays on; `land` is the landing
buffer; `fetch` is the entry, the pass and the offset that the prefetcher reads next, `asked` the read on its way; `preBad` and `landBad`
say that the word after a buffer's data was uncorrectable (R253, R255). `played` counts the samples of the pass that stood at the balls so
far, the last of them `held`, one byte for each output yarn, at `lastAt`. -/
structure Gen where
  state : GenState
  endStatus : GenEnd
  yarns : List Nat
  fBase : Nat
  m : Nat
  entry : Fin 4096
  pass : Nat
  passStart : Nat
  startAt : Option Nat
  waitFor : GenWait
  jump : Option Bool
  pre : List Byte
  land : List Byte
  fetch : Option (Fin 4096 × Nat × Nat)
  preBad : Bool
  landBad : Bool
  asked : Option GenFetch
  played : Nat
  held : List Byte
  lastAt : Nat
  endPass : Bool
  startCmd : Bool
  timeTarget : Option Qword
  holdUntil : Nat
  endAfter : GenEnd
  failing : Nat
  t0 : Qword
  t0Hi : Dword
  planned : Nat
  calibrating : Bool
  calAt : Nat
  calibrated : Bool
  loading : Option (Nat × Nat × Nat)
  cacheValid : Bool
  loadStatus : Nat
  deriving DecidableEq, Repr

end Sys2Proof.Machine
end

