-- ==== Sys2Proof/Machine/StHost.lean ====
section
/-! DEFINITION. The state of the host side: endpoint and DMA (chapter 16), dictionary service (17), guard (18),
power (19), health, freeze and black box (20), JTAG (21). -/

namespace Sys2Proof.Machine

/-- The ordering variants of R1. -/
inductive Variant where
  | c2048 | e2048 | c1024
  deriving DecidableEq, Repr

/-! ### Endpoint -/

/-- A descriptor of R328. -/
structure Descriptor where
  haddr : Nat
  daddr : Nat
  len : Nat
  op : Nat
  ctl : Nat
  deriving DecidableEq, Repr

/-- A running DMA job: its descriptor, the bytes asked for and moved, and the status that its checks gave it (R328 to R330). -/
structure DmaJob where
  desc : Descriptor
  requested : Nat
  moved : Nat
  hole : Bool
  verdict : Option Nat
  deriving DecidableEq, Repr

/-- One DMA channel (R327, R343): registers, the ring as read when RUN was set, and the job. `fetching`: a descriptor fetch is
outstanding. -/
structure DmaChan where
  baseLo : Dword
  baseHi : Dword
  size : Nat
  staged : Bool
  run : Bool
  prod : Nat
  cons : Nat
  ringBase : Nat
  ringLog2 : Nat
  ringStaged : Bool
  halted : Bool
  lastErr : Nat
  fetching : Bool
  job : Option DmaJob
  deriving DecidableEq, Repr

/-- What an outstanding read is for; `discard`: its job has ended. -/
inductive TagUse where
  | descriptor
  | data (dsAddr : Nat)
  | discard
  deriving DecidableEq, Repr

/-- An outstanding read request: its tag, channel, use and length (R326). -/
structure TagEntry where
  tag : Nat
  chan : Fin 8
  use : TagUse
  len : Nat
  deriving DecidableEq, Repr

/-- The D-states of R335; D3cold is the package state OFF. -/
inductive DState where
  | d0 | d3hot
  deriving DecidableEq, Repr

/-- The writable bits of configuration space (R322, R323). -/
structure CfgSpace where
  memEnable : Bool
  bme : Bool
  parity : Bool
  serr : Bool
  intxDisable : Bool
  cacheLine : Byte
  intLine : Byte
  bar0 : Qword
  bar2 : Qword
  bar4 : Qword
  pmeEn : Bool
  maxPayload : Nat
  maxRead : Nat
  relaxed : Bool
  extTag : Bool
  tag10 : Bool
  cplTimeoutDisable : Bool
  cplTimeoutValue : Nat
  aspmL1 : Bool
  errEnable : BitVec 4
  aerMask : Dword
  aerSeverity : Dword
  aerCorrMask : Dword
  deriving DecidableEq, Repr

/-- The MSI-X capability, table and PBA (R333, R334). -/
structure Msix where
  enable : Bool
  funcMask : Bool
  mask : BitVec 64
  pba : BitVec 64
  addr : Vector Qword 64
  data : Vector Dword 64
  deriving DecidableEq, Repr

/-- The endpoint. `subsysVendor` and `subsysId`: what the header shows (R324). `aer` logs errors: window offsets, or tags with a cause;
`aerStatus` and `status` are the error bits of AER and of the Status register (R322, R326). `retired` maps retired tags to the end of their second
(R339). `resetWait`: an FLR (`true`) or a hot reset (`false`) waits for completions until the deadline (R339). -/
structure Pcie where
  linkUp : Bool
  rate : Nat
  width : Nat
  cfg : CfgSpace
  msix : Msix
  dstate : DState
  pmeStatus : Bool
  wakeLow : Bool
  resetWait : Option (Bool × Nat)
  tags : List TagEntry
  retired : SMap Nat
  dma : Vector DmaChan 8
  hwinBase : Nat
  subsysVendor : Nat
  subsysId : Nat
  aer : List (List Byte)
  aerStatus : Dword
  status : BitVec 16
  deriving DecidableEq, Repr

/-! ### Dictionary service -/

/-- An item of a frame (R357). -/
structure Item where
  index : Nat
  sub : Nat
  typ : Nat
  istat : Nat
  iflags : Nat
  value : List Byte
  deriving DecidableEq, Repr

/-- A request (R354 to R358): its path, its source (for the tunnel, the position it came from), its header and payload, the key
that authenticated it (R362), and whether its answer is not written because the mailbox was reset meanwhile (R367). -/
structure Request where
  path : Source
  srcAddr : List Byte
  srcPort : Nat
  key : Option (Fin 4)
  frame : List Byte
  silent : Bool
  deriving DecidableEq, Repr

/-- A stored response without its trailer (R355). -/
structure Stored where
  srcAddr : List Byte
  srcPort : Nat
  tag : Nat
  written : Nat
  frame : List Byte
  deriving DecidableEq, Repr

/-- A subscription (R360, R361): `merged` counts the changes since the last notification, the latest at `changedAt`; `lastVal` is
what was last notified. -/
structure Subscription where
  path : Source
  srcAddr : List Byte
  srcPort : Nat
  tag : Nat
  index : Nat
  sub : Nat
  interval : Nat
  renewed : Nat
  merged : Nat
  changedAt : Qword
  lastSent : Option Nat
  lastVal : Val
  deriving DecidableEq, Repr

/-- A replay window: the highest SEQNO accepted for a key and source address, and the numbers seen up to it, bit 0 the highest
(R362). -/
structure Replay where
  key : Fin 4
  srcAddr : List Byte
  highest : Nat
  seen : BitVec 64
  deriving DecidableEq, Repr

/-- A subscription made through the tunnel, at its entry package (R368): whom a NOTIFY from a position goes to. -/
structure Relayed where
  dest : BitVec 6
  tag : Nat
  path : Source
  srcAddr : List Byte
  srcPort : Nat
  deriving DecidableEq, Repr

/-- The dictionary service of the HKC (chapter 17). `serving` is the request taken and not yet answered; `turn` is the path that
is asked first for the next one, in the order mailbox, ETH0, ETH1, tunnel (R354). `mailbox`: a submitted request waits there.
`lost`: a mailbox notification was dropped (R366). -/
structure Dict where
  ethQueue : Vector (List Request) 2
  tunnelQueue : List Request
  mailbox : Bool
  serving : Option Request
  turn : Fin 4
  stored : Vector (List Stored) 2
  subs : List Subscription
  relayed : List Relayed
  replays : List Replay
  authFailAt : Option Qword
  lost : Bool
  deriving DecidableEq, Repr

/-! ### Registers and guard -/

/-- The guard of the register interface (R376 to R384). -/
structure Guard where
  strap : Bool
  sel : Nat
  selWritten : Bool
  keyed : Bool
  unlocked : Option Nat
  pendingWrite : Option (Nat × Dword)
  fails : Dword
  last : Dword
  deriving DecidableEq, Repr

/-- The W1C event registers, one dword each; bits not listed in the chapters stay zero. -/
structure Events where
  gbl : Dword
  grd : Dword
  tb : Dword
  net : Dword
  ptp : Dword
  alp : Dword
  ds : Dword
  clk : Dword
  pwr : Dword
  hlt : Dword
  hdma : Dword
  cap : Vector Dword 2
  pg : Vector Dword 2
  chan : Vector Dword 8
  deriving DecidableEq, Repr

/-- Plain host registers: GBL_ACCESS_ERR, GBL_SCRATCH, HLT_BBMARK, HLT_FRZ.SCOPE, and the held high halves of CAPn_TRIG (R374). -/
structure HostRegs where
  accessErr : Dword
  scratch : Dword
  bbMark : Dword
  frzScope : Bool
  trigHi : Vector Dword 2
  deriving DecidableEq, Repr

/-! ### Power -/

/-- The package power states (R390), in the order of PWR_CTL.REQ. -/
inductive PState where
  | on | standby | retain | watch | off
  deriving DecidableEq, Repr

/-- Why the part is in reset: power-on reset, or a fundamental reset. -/
inductive RstPhase where
  | none
  | powerOn
  | fundamental
  | startup
  deriving DecidableEq, Repr

/-- A power transition in progress (R391): its target, the code of PWR_STAT.WAKE that a return to ON brings, its earliest end, and a
request that waits for it. -/
structure PTransition where
  target : PState
  wake : Nat
  done : Nat
  next : Option (PState × Source)
  deriving DecidableEq, Repr

/-- Power, reset and start-up (chapter 19). `domains` and `idleSince` belong to the strand and hawser domains of R389; `pfwOff`: OFF
was entered by a power-fail warning or a thermal trip; `offWoken`: the wake detector has seen its edge in this OFF; `leaveHeld`: a request to leave OFF that waits for the sensors (R408);
`hkcUp`: the HKC serves; `incDue`: the free-run increment of this start is not loaded yet; `everReady`: READY has been set since the last start. -/
structure Power where
  state : PState
  transition : Option PTransition
  wake : Nat
  lastReset : Nat
  domains : BitVec 44
  idleSince : SMap Nat
  ready : Bool
  everReady : Bool
  phase : RstPhase
  phaseSince : Nat
  perstLow : Bool
  sysrstLow : Bool
  pfwOff : Bool
  offWoken : Bool
  leaveHeld : Option (Straps × HistoryCheck)
  hkcUp : Bool
  incDue : Bool
  dimmPower : Bool
  deriving DecidableEq, Repr

/-! ### Health, freeze and black box -/

/-- A black-box entry (R412), FLAGS and SEQ included. -/
structure BbEntry where
  code : Nat
  sev : Nat
  first : Bool
  late : Bool
  dropped : Bool
  epoch : Dword
  time : Qword
  seq : Nat
  data : List Byte
  boot : Nat
  deriving DecidableEq, Repr

/-- A queued black-box entry with the moment of its detection (R413). -/
structure BbQueued where
  entry : BbEntry
  detected : Nat
  deriving DecidableEq, Repr

/-- A freeze in force (R409): its scope (true: FULL), its cause (true: register) and its time. -/
structure Freeze where
  full : Bool
  byReg : Bool
  timeword : Qword
  epoch : Dword
  since : Nat
  deriving DecidableEq, Repr

/-- A clamp-report entry (R351). -/
structure ClampEntry where
  time : Qword
  index : Nat
  sub : Nat
  reason : Nat
  source : Source
  requested : Int
  applied : Int
  deriving DecidableEq, Repr

/-- An ignore-log entry (R417). -/
structure IgnoreEntry where
  time : Qword
  index : Nat
  sub : Nat
  source : Source
  cause : Nat
  deriving DecidableEq, Repr

/-- Health, freeze, black box, clamp report and ignore log (chapter 20). `ring` and `slots` lie in MRAM. -/
structure Health where
  sensors : Vector Int 20
  hot : Bool
  limitHold : Option Nat
  tripped : Bool
  freeze : Option Freeze
  freezePinLow : Bool
  queue : List BbQueued
  dropPending : Bool
  ring : SMap BbEntry
  slots : SMap BbEntry
  nextRing : Nat
  nextSeq : Nat
  opt : BitVec 5
  clamps : SMap ClampEntry
  nextClamp : Nat
  ignores : SMap IgnoreEntry
  nextIgnore : Nat
  due : Vector (Option Nat) 5
  deriving DecidableEq, Repr

/-! ### MRAM -/

/-- What the HKC keeps in MRAM beside the black box, the calibrations, the band tables and the memory maps (R120, R182, R363,
R400): the last convoy id, the learned ageing rate, the keys with their send sequence;
`saved` is the full time at the last loss of power with TIMESET set and the powered time then, `quartzExtra` the known
unpowered time of the quartz; `present` has a bit for each item of R400 that has been written. -/
structure Mram where
  convoyId : Dword
  learned : Option Int
  keys : Vector (Option (List Byte)) 4
  sendSeq : Vector Nat 4
  saved : Option (Nat × Nat)
  quartzExtra : Nat
  present : BitVec 8
  subsysVendor : Option Nat
  subsysId : Option Nat
  bootCount : Nat
  deriving DecidableEq, Repr

/-! ### JTAG -/

/-- The instructions the TAP may hold (R411, R430). -/
inductive JtagIr where
  | extest | idcode | sample | clamp | highz | extestPulse | bypass | frzSeg | frzRead | bbAddr | bbRead
  deriving DecidableEq, Repr

/-- The TAP (R411, R430). -/
structure Jtag where
  ir : JtagIr
  seg : Nat
  bbIndex : Nat
  deriving DecidableEq, Repr

end Sys2Proof.Machine
end

