-- ==== Sys2Proof/Machine/StKnot.lean ====
section
/-! DEFINITION. The state of the knot engine, the Aelop ports and the management tunnel (chapter 10). -/

namespace Sys2Proof.Machine

/-- The states of an Aelop port (R221), coded 0 to 5. -/
inductive AlpState where
  | disabled | training | up | down | heldDuplicate | heldForeign
  deriving DecidableEq, Repr

/-- What a neighbour last advertised (R220). -/
structure Neighbour where
  node : BitVec 18
  root : BitVec 6
  dist : BitVec 6
  parent : Bool
  credit : Nat
  deriving DecidableEq, Repr

/-- A heartbeat this port sent, with the stamps t1 and t2 of the neighbour's heartbeat that it was the first to echo (R225). -/
structure SentBeat where
  seq : Byte
  sent : Qword
  echoed : Option (Qword × Qword)
  deriving DecidableEq, Repr

/-- A tunnel frame as it leaves a port (R219, R227): source and destination positions, FRAG, and the bytes of its data blocks. -/
structure TunnelOut where
  dest : BitVec 6
  source : BitVec 6
  frag : Nat
  payload : List Byte
  deriving DecidableEq, Repr

/-- The mean delay and offset of 1,024 exchanges, and whether one of them met a coast of the XPLL (R225). -/
structure LinkMeasure where
  delay : Int
  offset : Int
  coasted : Bool
  deriving DecidableEq, Repr

/-- One Aelop port. `tunnelq` holds tunnel frames that wait for CREDIT. `run` counts consecutive good heartbeats; `heard` is the last heartbeat with its arrival stamp, which no heartbeat of this port has echoed while `toEcho` holds;
`measured` holds complete measurements that wait to be published;
`count`, `sumDelay` and `sumOffset` gather the exchanges since the last measurement, `coasted` says that one of them met a coast of
the XPLL. Knots fill the transmitter until `txBusy`; `mean` is the link delay that the servo has adopted. -/
structure AlpPort where
  state : AlpState
  run : Nat
  exchanged : Bool
  lastGood : Nat
  nextBeat : Nat
  seq : Byte
  heard : Option (Byte × Qword × Qword)
  toEcho : Bool
  sent : List SentBeat
  count : Nat
  sumDelay : Int
  sumOffset : Int
  coasted : Bool
  measured : List LinkMeasure
  neighbour : Option Neighbour
  tunnelq : List TunnelOut
  txBusy : Nat
  delay : Int
  offset : Int
  mean : Option Int
  deriving DecidableEq, Repr

/-- A duplicate-cache entry (R215): node id, SEQ and the moment it was written. -/
structure DupEntry where
  node : BitVec 18
  seq : BitVec 16
  written : Nat
  deriving DecidableEq, Repr

/-- The route of an accepted knot that waits for delivery (R214). -/
structure Accepted where
  knot : Knot
  aelop : Bool
  arrived : Nat
  deriving DecidableEq, Repr

/-- A tunnel request of this package that is outstanding (R227): its destination, the ports it left by, the request, the moment it was sent, and
whether it has been found to have reached a package that serves it. -/
structure TunnelAsk where
  dest : BitVec 6
  ports : List (Fin 4)
  req : Request
  since : Nat
  reached : Bool
  deriving DecidableEq, Repr

/-- The knot engine and the Aelop link. `pos` is the position of the NODEID straps; `parts` holds the fragments gathered so far of a tunnelled frame,
by the position they come from (R219). -/
structure Knots where
  pos : BitVec 6
  ports : Vector AlpPort 4
  root : BitVec 6
  dist : BitVec 6
  parent : Option (Fin 4)
  tree : BitVec 4
  cache : List DupEntry
  recent : List (Knot × Nat)
  accepted : List Accepted
  hostKnots : List Knot
  held : List Accepted
  refusedAt : Option Qword
  asks : List TunnelAsk
  parts : List (BitVec 6 × List Byte)
  deriving DecidableEq, Repr

end Sys2Proof.Machine
end

