-- ==== Sys2Proof/Machine/StNet.lean ====
section
/-! DEFINITION. The state of the Ethernet ports, bulk readout and the PTP engine (chapter 09). Full times and offsets are
integers in 2^−16 ns. -/

namespace Sys2Proof.Machine

/-- The role of a PTP port (PTP_STAT.ROLEp), coded 0 to 3. -/
inductive PtpRole where
  | disabled | slave | master | passive
  deriving DecidableEq, Repr

/-- A message type that takes a transmit stamp (R197). -/
inductive TxType where
  | sync | delayReq | pdelayReq | pdelayResp
  deriving DecidableEq, Repr

/-- An entry of the transmit-timestamp queue (R197). -/
structure TxEntry where
  typ : TxType
  seqId : BitVec 16
  stamp : Qword
  deriving DecidableEq, Repr

/-- A grandmaster dataset (R194): what the best master clock algorithm compares, timeTraceable and timeSource, which it does not. -/
structure MasterData where
  gm : Qword
  timeTraceable : Bool
  timeSource : Byte
  priority1 : Nat
  clockClass : Nat
  accuracy : Nat
  variance : Nat
  priority2 : Nat
  steps : Nat
  source : Qword
  sourcePort : Nat
  deriving DecidableEq, Repr

/-- A request for a delay measurement: its sequence, its corrected egress time once the stamp is taken, and for peer delay
the receipt time and the response's ingress time once the two-step response is in. -/
structure DelayAsk where
  seqId : BitVec 16
  sent : Option Int
  peer : Option (Int × Int)
  deriving DecidableEq, Repr

/-- A message that waits for its transmit stamp before its follow-up can go out, with whom it answers and the correction it
carries on (R193, R197). -/
structure PtpAwait where
  typ : TxType
  seqId : BitVec 16
  reqSource : Qword
  reqPort : BitVec 16
  correction : Int
  deriving DecidableEq, Repr

/-- One Ethernet port. `unanswered` counts consecutive delay requests without a response; `mean` is the mean path delay. -/
structure EthPort where
  linkUp : Bool
  role : PtpRole
  txq : List TxEntry
  awaiting : List PtpAwait
  best : Option (MasterData × Nat)
  ask : Option DelayAsk
  unanswered : Nat
  mean : Option Int
  lastSync : Option (Int × Int)
  reqSeq : BitVec 16
  syncSeq : BitVec 16
  annSeq : BitVec 16
  deriving DecidableEq, Repr

/-- The servo states of R199, coded 0 to 6. -/
inductive Servo where
  | off | listen | acquire | locked | pathHold | holdover | measure
  deriving DecidableEq, Repr

/-- The parent of the servo: port and identity. -/
structure Parent where
  port : Fin 2
  data : MasterData
  deriving DecidableEq, Repr

/-- A hold after a path step (R204): its port as the black box numbers it, the measurement that raised it, the old mean, and the measurements since, with how many in
a row lie near the new delay. -/
structure PathHold where
  port : Nat
  raised : Int
  old : Int
  total : Nat
  near : Nat
  deriving DecidableEq, Repr

/-- A two-step Sync that waits for its Follow_Up (R198): port, sender, sequence, corrected ingress time, correction, arrival, and
whether it was stamped in a coast of the XPLL (R313). -/
structure SyncWait where
  port : Fin 2
  source : Qword
  sourcePort : BitVec 16
  seqId : BitVec 16
  t2 : Int
  correction : Int
  arrived : Nat
  coasted : Bool
  deriving DecidableEq, Repr

/-- The last accepted measurement (object 4450, PTP_OFFSET, PTP_MPD, PTP_MSEQ). -/
structure Measured where
  seqId : BitVec 16
  port : Fin 2
  t2 : Qword
  offset : Int
  delay : Int
  gm : Qword
  steps : Nat
  deriving DecidableEq, Repr

/-- A bulk-readout job (R192): its port, destination, job id, next barge and when that is due. -/
structure Bulk where
  port : Fin 2
  dest : List Byte
  destPort : Nat
  job : Nat
  next : Nat
  start : Nat
  count : Nat
  source : Nat
  rate : Nat
  due : Nat
  deriving DecidableEq, Repr

/-- Ethernet and PTP. `syncSeen` is the moment of the last accepted Sync, or of the measurement in its place (R226); `good` counts consecutive accepted Syncs inside the lock threshold. -/
structure Net where
  ports : Vector EthPort 2
  bulk : Option Bulk
  bulkJobs : Nat
  servo : Servo
  parent : Option Parent
  hold : Option PathHold
  waiting : Option SyncWait
  lastSeq : Option (BitVec 16)
  good : Nat
  integral : Int
  syncSeen : Nat
  last : Measured
  offsetHi : Dword
  mseqHeld : Dword
  mpdHi : Dword
  deriving DecidableEq, Repr

end Sys2Proof.Machine
end

