-- ==== Sys2Proof/Machine/StTime.lean ====
section
/-! DEFINITION. The state of the time base (chapter 08). -/

namespace Sys2Proof.Machine

/-- The time-base states (R176), coded 0 to 2. -/
inductive TbState where
  | free | disciplined | holdover
  deriving DecidableEq, Repr

/-- The servo owners (R171), coded 0 to 2. -/
inductive Owner where
  | hkc | host | none
  deriving DecidableEq, Repr

/-- A compare slot (R178): target, a low half that waits for its commit, enable, FIRED and LATE, and whether its next firing is a late one. -/
structure Slot where
  target : Qword
  held : Option Dword
  en : Bool
  fired : Bool
  late : Bool
  lateDue : Bool
  deriving DecidableEq, Repr

/-- A DISCIPLINED period: its start, its end, and the mean increment in it (R182). -/
structure Period where
  from_ : Nat
  to_ : Nat
  mean : Nat
  deriving DecidableEq, Repr

/-- The time base. `acc` is the 80-bit accumulator of R167; `source` the source in use and `wanted` the selected one. `incLo` is a low half that
waits for its commit (R374). `incArea` is the increment summed over the present DISCIPLINED period, in units of `now`, up to `incAt`;
`periods` are the last such periods of 24 h or more (R182). -/
structure TimeBase where
  acc : BitVec 80
  epoch : Dword
  inc : Nat
  incLo : Option Dword
  stepLo : Dword
  stepPend : Option Int
  stepBySrv : Bool
  fstepLo : Dword
  fstepHi : Dword
  fstepAbs : Bool
  timeHi : Dword
  state : TbState
  owner : Owner
  timeset : Bool
  disc : Bool
  watchdog : Option Nat
  slots : Vector Slot 8
  source : Nat
  wanted : Nat
  updatedAt : Nat
  discSince : Option Nat
  incArea : Nat
  incAt : Nat
  periods : List Period
  deriving DecidableEq, Repr

end Sys2Proof.Machine
end

