-- ==== Sys2Proof/Machine/State.lean ====
section
/-! DEFINITION. The whole state of the part, why a command may stop, and the state right after reset. -/

namespace Sys2Proof.Machine

/-- A command that is no command. -/
inductive Fault where
  /-- Raised by the meanings of the PCI Express accesses whose operands no request can carry (an empty or overlong access, an
  offset outside its BAR: `Instr.wf` fails). Safe: the model stops where no hardware behaviour exists. -/
  | illFormed
  deriving DecidableEq, Repr

/-- What the model does not do. -/
inductive Refusal where
  /-- Raised by `exec` for a command whose meaning is not written, by its mnemonic. Safe: nothing is claimed of it. -/
  | notModelled (mnemonic : String)
  deriving DecidableEq, Repr

/-- A message of the PTP engine on a port (R193, R194, R197). Times are in 2^−16 ns since the PTP epoch. -/
inductive PtpOut where
  | sync (seq : BitVec 16)
  | followUp (seq : BitVec 16) (time : Nat)
  | announce (seq : BitVec 16) (data : MasterData)
  | delayReq (seq : BitVec 16)
  | delayResp (seq : BitVec 16) (time : Nat) (correction : Int) (reqSource : Qword) (reqPort : BitVec 16)
  | pdelayReq (seq : BitVec 16)
  | pdelayResp (seq : BitVec 16) (time : Nat) (reqSource : Qword) (reqPort : BitVec 16)
  | pdelayRespFollowUp (seq : BitVec 16) (time : Nat) (correction : Int) (reqSource : Qword) (reqPort : BitVec 16)
  deriving DecidableEq, Repr

/-- How a PTP message travels (R193): in a layer-2 frame of an Ethertype, or over UDP to a multicast group and port. -/
inductive PtpCarrier where
  | layer2 (ethertype : Nat)
  | udp (group : List Byte) (port : Nat)
  deriving DecidableEq, Repr

/-- What every PTP message of a port says of itself (R190, R193): its VLAN (0: untagged), carrier, domain, clock identity and port
number. -/
structure PtpSender where
  vlan : Nat
  carrier : PtpCarrier
  domain : Nat
  clock : Qword
  portNumber : Nat
  deriving DecidableEq, Repr

/-- How a datagram leaves an Ethernet port (R190, R216): destination address, UDP ports, VLAN (0: untagged), and for a knot the 802.1Q
priority of its tag and the multicast hop limit. -/
structure UdpSend where
  dest : List Byte
  srcPort : Nat
  destPort : Nat
  vlan : Nat
  priority : Option Nat
  hops : Option Nat
  deriving DecidableEq, Repr

/-- What the part sends outside. `hostWrite`: a memory write of at most Max_Payload_Size bytes, with its Relaxed Ordering attribute (R321). `stimulus`: from a moment on each listed output yarn of a die drives its bytes, one a period, and then
holds the last (R246); the other yarns are inputs. `member`: a
membership report for a group, IGMPv3 or MLDv2 (R216). `aelop`: a frame of the Aelop link (R219), the seven bytes of its header and its data
blocks. -/
inductive Out where
  | msix (v : Fin 64) (addr : Qword) (data : Dword)
  | pme
  | hostWrite (addr : Nat) (relaxed : Bool) (data : List Byte)
  | hostRead (tag addr len : Nat)
  | completion (data : List Byte)
  | unsupported
  | udp (p : Fin 2) (w : UdpSend) (payload : List Byte)
  | reply (p : Fin 2) (vlan : Nat) (body : FrameBody)
  | member (p : Fin 2) (vlan : Nat) (v6 : Bool) (group : List Byte)
  | ptp (p : Fin 2) (h : PtpSender) (m : PtpOut)
  | aelop (k : Fin 4) (header data : List Byte)
  | trigout (p : Fin 2) (level : Bool) (at_ : Nat)
  | syncout (rise fall : Nat)
  | stimulus (d : Die) (at_ period : Nat) (yarns : List (Nat × List Byte))
  | jtag (bits : Nat) (value : List Byte)
  | refout (source : Option Nat)
  deriving DecidableEq, Repr

/-- The state of the part. `now` counts powered time in units of 3.125 ps; `fresh` numbers the free values drawn so far
(the model's own fields, assumptions 1 and 5). `out` lists what the part has sent, oldest first. `objs` holds the dictionary
objects that differ from their defaults (R345). `pending` is the queue of commands. -/
structure State where
  now : Nat
  fresh : Nat
  pending : List Instr
  out : List Out
  variant : Variant
  objs : Store
  events : Events
  guard : Guard
  host : HostRegs
  pcie : Pcie
  dict : Dict
  power : Power
  health : Health
  mram : Mram
  jtag : Jtag
  tb : TimeBase
  net : Net
  knots : Knots
  gauges : Vector Gauge 64
  gens : Vector Gen 2
  deep : Deep
  chip : OnChip
  clocks : Clocks
  pins : Pins
  dies : Vector DieSt 2
  dsMem : Memory
  basin : Vector Memory 2
  ram : Memory
  deriving DecidableEq, Repr

/-! ### Reset values, unit by unit -/

/-- The function's configuration space after a reset of the function (R337). -/
def CfgSpace.reset : CfgSpace :=
  { memEnable := false, bme := false, parity := false, serr := false, intxDisable := false, cacheLine := 0, intLine := 0,
    bar0 := 0, bar2 := 0, bar4 := 0, pmeEn := false, maxPayload := 0, maxRead := 2, relaxed := true, extTag := false,
    tag10 := false, cplTimeoutDisable := false, cplTimeoutValue := 0, aspmL1 := false, errEnable := 0,
    aerMask := 0, aerSeverity := 0x00462030, aerCorrMask := 0x00002000 }

/-- MSI-X after a reset of the function (R333): disabled, every vector masked, nothing pending. -/
def Msix.reset : Msix :=
  { enable := false, funcMask := false, mask := BitVec.allOnes 64, pba := 0, addr := Vector.replicate 64 0,
    data := Vector.replicate 64 0 }

/-- A DMA channel after reset (R343). -/
def DmaChan.reset : DmaChan :=
  { baseLo := 0, baseHi := 0, size := 4, staged := false, run := false, prod := 0, cons := 0, ringBase := 0, ringLog2 := 4,
    ringStaged := false, halted := false, lastErr := 0, fetching := false, job := none }

/-- The endpoint after power-on reset (R321 to R343). -/
def Pcie.reset : Pcie :=
  { linkUp := false, rate := 0, width := 0, cfg := .reset, msix := .reset, dstate := .d0, pmeStatus := false, wakeLow := false,
    resetWait := none, tags := [], retired := [], dma := Vector.replicate 8 .reset, hwinBase := 0, subsysVendor := 0x1F3C,
    subsysId := 0x2048, aer := [], aerStatus := 0, status := 0 }

/-- The dictionary service with nothing queued (R354 to R362). -/
def Dict.reset : Dict :=
  { ethQueue := Vector.replicate 2 [], tunnelQueue := [], mailbox := false, serving := none, turn := 0,
    stored := Vector.replicate 2 [], subs := [], relayed := [], replays := [], authFailAt := none, lost := false }

/-- The guard after power-on reset (R377). -/
def Guard.reset : Guard :=
  { strap := false, sel := 0, selWritten := false, keyed := false, unlocked := none, pendingWrite := none, fails := 0, last := 0 }

/-- No event bit set. -/
def Events.reset : Events :=
  { gbl := 0, grd := 0, tb := 0, net := 0, ptp := 0, alp := 0, ds := 0, clk := 0, pwr := 0, hlt := 0, hdma := 0,
    cap := Vector.replicate 2 0, pg := Vector.replicate 2 0, chan := Vector.replicate 8 0 }

/-- Power right after the release of power-on reset (R386, R399): start-up has begun. -/
def Power.reset : Power :=
  { state := .on, transition := none, wake := 0, lastReset := 0, domains := 0, idleSince := [], ready := false,
    everReady := false, phase := .startup, phaseSince := 0, perstLow := false, sysrstLow := false, pfwOff := false, offWoken := false,
    leaveHeld := none, hkcUp := false, incDue := true, dimmPower := false }

/-- Health, freeze and black box with nothing recorded (R405 to R417). -/
def Health.reset : Health :=
  { sensors := Vector.replicate 20 0, hot := false, limitHold := none, tripped := false, freeze := none,
    freezePinLow := false, queue := [], dropPending := false, ring := [], slots := [], nextRing := 0, nextSeq := 0,
    opt := 0, clamps := [], nextClamp := 0, ignores := [], nextIgnore := 0, due := Vector.replicate 5 none }

/-- MRAM never written (R400). -/
def Mram.reset : Mram :=
  { convoyId := 0, learned := none, keys := Vector.replicate 4 none, sendSeq := Vector.replicate 4 0,
    saved := none, quartzExtra := 0, present := 0, subsysVendor := none, subsysId := none, bootCount := 1 }

/-- The TAP in Test-Logic-Reset: IDCODE (R430). -/
def Jtag.reset : Jtag := { ir := .idcode, seg := 0, bbIndex := 0 }

/-- A compare slot after reset (R178). -/
def Slot.reset : Slot := { target := 0, held := none, en := false, fired := false, late := false, lateDue := false }

/-- The time base after power-on: timeword 0, epoch 0, FREE, the nominal increment (R169, R171, R187). -/
def TimeBase.reset : TimeBase :=
  { acc := 0, epoch := 0, inc := 0x000A00000000, incLo := none, stepLo := 0, stepPend := none, stepBySrv := false, fstepLo := 0,
    fstepHi := 0, fstepAbs := false, timeHi := 0, state := .free, owner := .hkc, timeset := false, disc := false, watchdog := none,
    slots := Vector.replicate 8 .reset, source := 0, wanted := 0, updatedAt := 0, discSince := none, incArea := 0, incAt := 0, periods := [] }

/-- A disabled Ethernet port. -/
def EthPort.reset : EthPort :=
  { linkUp := false, role := .disabled, txq := [], awaiting := [], best := none, ask := none, unanswered := 0, mean := none, lastSync := none,
    reqSeq := 0, syncSeq := 0, annSeq := 0 }

/-- Both ports disabled, the servo OFF (R207). -/
def Net.reset : Net :=
  { ports := Vector.replicate 2 .reset, bulk := none, bulkJobs := 0, servo := .off, parent := none, hold := none,
    waiting := none, lastSeq := none, good := 0, integral := 0, syncSeen := 0,
    last := { seqId := 0, port := 0, t2 := 0, offset := 0, delay := 0, gm := 0, steps := 0 },
    offsetHi := 0, mseqHeld := 0, mpdHi := 0 }

/-- A disabled Aelop port. -/
def AlpPort.reset : AlpPort :=
  { state := .disabled, run := 0, exchanged := false, lastGood := 0, nextBeat := 0, seq := 0, heard := none, toEcho := false,
    sent := [], count := 0, sumDelay := 0, sumOffset := 0, coasted := false, measured := [], neighbour := none, tunnelq := [], txBusy := 0, delay := 0,
    offset := 0, mean := none }

/-- The knot engine after a reset: no distance until the tree is first computed (R230). -/
def Knots.reset : Knots :=
  { pos := 0, ports := Vector.replicate 4 .reset, root := 0, dist := 0x3F, parent := none, tree := 0, cache := [], recent := [],
    accepted := [], hostKnots := [], held := [], refusedAt := none, asks := [], parts := [] }

/-- A gauge at rest (R245). -/
def Gauge.reset : Gauge :=
  { state := .idle,
    set :=
      { mode := 0, startChan := 0, startEdge := 0, stopChan := 0, stopEdge := 1, prescale := 1, source := 0, gateNs := 1000000,
        slot := 0, w1 := 0, w2 := 0, holdNs := 0, shots := 1, again := false, timeoutMs := 0 },
    startedAt := 0, stamping := false, published := false, gate := none, gateEnd := 0, flags := 0, startUnit := none, stopUnit := none,
    prescaled := 0, first := none, last := none, n := 0, nLast := 0, shot := none, shotEnd := 0, history := [],
    lastWindow := none, holdStart := none, holdStop := none, count := 0, unresolved := 0, sum := 0, sumSq := 0, least := 0,
    greatest := 0, unsent := [] }

/-- A generator at rest (R246). -/
def Gen.reset : Gen :=
  { state := .stopped, endStatus := .none, yarns := [], fBase := 0, m := 2, entry := 0, pass := 0, passStart := 0,
    startAt := none, waitFor := .knot, jump := none, pre := [], land := [], fetch := none, preBad := false,
    landBad := false, asked := none, played := 0, held := [], lastAt := 0, endPass := false, startCmd := false, timeTarget := none,
    holdUntil := 0, endAfter := .none, failing := 0, t0 := 0, t0Hi := 0, planned := 0,
    calibrating := false, calAt := 0, calibrated := false, loading := none, cacheValid := false, loadStatus := 0 }

/-- A channel before its SPD is read (R263). -/
def DsChan.reset : DsChan :=
  { state := .absent, ranks := 0, capacity := 0, rated := 0, tempMc := 0, doubled := false, hot := false, sensorFails := 0,
    trainedAt := 0, trainTemp := 0, trainResult := 0, trainSince := 0, slots := Vector.ofFn (fun i => i), spare := none, out := 0 }

/-- The deep store before start-up builds its map (R265). -/
def Deep.reset : Deep :=
  { chans := Vector.replicate 8 .reset, mapChans := [], mapRanks := 0, rankGiB := 0, sparing := false, requested := 0,
    running := 0, pending := false, deferred := false, changing := false, spareNext := false, clearNext := false, retired := [],
    migrations := [], ports := Vector.replicate 8 none, scrub := 0, damageNext := 1, rasChan := 0, rasRank := 0,
    recent := [] }

/-- The on-chip memories before the start-up tests (R305). -/
def OnChip.reset : OnChip :=
  { bankMask := Vector.replicate 2 0, basinTest := Vector.replicate 2 0, spares := Vector.replicate 2 [],
    padSpares := Vector.replicate 8 0, ramSpares := 0, test := none, testStatus := 0, block := 0, aborts := 0, touched := false,
    unusable := false, port := [], portAt := 0, flaws := [], stepAt := 0 }

/-- A PLL that is off, with an empty band table (R306, R309). -/
def Pll.reset : Pll :=
  { state := .off, n := 0, band := 0, vtune := 0, coastAt := 0, loss := false, noRef := false, swap := false, estimateAt := 0, closed := none,
    attempts := 0, searchDue := false, wanted := none, back := none, residual := 0, estimate := 0, reentryTime := 0, table := [] }

/-- Every PLL off (R320). -/
def Clocks.reset : Clocks :=
  { plls := Vector.replicate 13 .reset, spread := 0, spreadNext := none, sourceNext := none, useCount := 0 }

/-- Every yarn an input at 50 Ω, TRIGOUT inactive, REFOUT at high impedance (R28, R31, R89, R307). -/
def Pins.reset : Pins :=
  { yarnDir := Vector.replicate 2 (Vector.replicate 4 0), yarnDrive := Vector.replicate 2 (Vector.replicate 8 0), trigout := 0,
    pulseEnd := Vector.replicate 2 none, waiting := Vector.replicate 2 [], refout := none }

/-- An empty trigger program. -/
def Program.reset : Program :=
  { conds := Vector.replicate 16 [], patterns := [], edges := [], ranges := [], glitches := [], durations := [], knotIns := [],
    trigMode := Vector.replicate 4 0, towDelay := false, snapMask := 0, initQual := false, timersOn := 0, recordAll := false,
    knotOffset := 0, placeMask := 0, placeOffset := 0 }

/-- No plan applied. -/
def Plan.reset : Plan :=
  { mode := 0, state := false, period := 80, selected := 0, strands := 0, envN := 1, envGroups := [], deep := false, weir := 0,
    depth := 0, regionBase := 0, regionBarges := 0, rate := 0, budget := 0, clamped := false, coupled := false, clamps := [],
    program := .reset, clockOf := Vector.replicate 8 0, clockSrc := Vector.replicate 4 0, clockEdge := Vector.replicate 4 0, clocksUsed := [] }

/-- The front end with every ball at 0 V (DESIGN CHOICE, assumption 6). -/
def FrontEnd.reset : FrontEnd :=
  { pins := [], trigPins := Vector.replicate 4 0, ball := 0, trigBall := 0, waiting := [], trigWaiting := [],
    clocks := Vector.replicate 4 [], clkPos := Vector.replicate 4 0, clkPrev := Vector.replicate 4 0, levels := 0, prev := 0, trigLevels := 0, trigPrev := 0,
    trigFine := Vector.replicate 4 none, trigLast := Vector.replicate 4 none, edges := [], pulses := [], last := [], fine := [],
    pats := [], towIn := [], towNow := 0, knotArrived := [], knotPending := [], knotNow := [], noFine := 0, eye := none, first := true,
    restart := false, base := 0 }

/-- The staircase as every convoy starts it (R69, R70). -/
def Stair.reset : Stair :=
  { chamber := 0, deferred := none, entryWord := 0, entries := 0, counters := Vector.replicate 8 0,
    timers := Vector.replicate 8 { running := false, value := 0, start := 0 }, saturated := 0, atMax := 0, qualifier := false,
    deferrals := [], present := List.replicate 16 0, entryDue := none, rephase := none, snaps := 0, prefillSeen := false, postSeen := false, force := false, placement := none,
    trigger := none, lineOut := none, knotQueue := [] }

/-- The storage stage with nothing open. -/
def Storage.reset : Storage :=
  { streams := [], events := [], eventsLost := false, eventOpen := none, eventSeq := 0, eventEnd := 0, eventFreeze := none,
    cycle := 0, qualNow := false }

/-- Windows of size 0: no convoy has laid the basin out (R128). -/
def Window.reset : Window :=
  { base := 0, size := 0, reserve := 0, next := 0, wraps := 0, ring := [], homeLimit := none, homeBusy := 0, deepNext := 0,
    deepWraps := 0, deep := [], sluicing := false, deepFull := false, dir := [],
    win1 := (0, 0), win2 := (0, 0), copy := none, damaged := [], laidMask := 0, laidHome := false }

/-- No convoy. -/
def Convoy.reset : Convoy :=
  { id := 0, openAt := 0, startEpoch := 0, startTime := 0, acc := 0, nextSample := 0, pos := 0, lastTime := 0, levels0 := 0,
    storing := false, endCause := .depth, lastStored := 0, endPos := 0, endAcc := 0, weirShort := false, coast := false, origin := 0, disc := none, stamps := [] }

/-- The watchkeeper at rest. -/
def Watch.reset : Watch :=
  { running := false, conds := [], slots := Vector.replicate 64 none, kinds := Vector.replicate 64 0, levels := 0, edgesNow := 0,
    counter := 0, timerOn := false, timer := 0, knotNow := 0, log := [], logged := 0, fine := [], lastTick := [], plan := none }

/-- A die after reset: IDLE, its calibration absent (R41, R118). -/
def DieSt.reset : DieSt :=
  { state := .idle, closing := false, armAt := 0, armTo := 0, calDue := false, calRunning := false,
    deskewTemp := 0, driftAt := 0, check := none, plan := .reset, convoy := .reset, fe := .reset, stair := .reset,
    store := .reset, win := .reset, watch := .reset,
    trigRam := [], cal := { time := 0, epoch := 0, tempMc := 0, valid := false, doneAt := 0, extra := 0 },
    dirAddr := 0 }

/-- The machine right after the release of power-on reset: start-up is under way, READY is clear (R386, R399), every object
stands at its default, and no command waits. -/
def State.reset : State :=
  { now := 0, fresh := 0, pending := [], out := [], variant := .c2048, objs := [], events := .reset, guard := .reset,
    host := { accessErr := 0, scratch := 0, bbMark := 0, frzScope := false, trigHi := Vector.replicate 2 (BitVec.allOnes 32) }, pcie := .reset, dict := .reset,
    power := .reset, health := .reset, mram := .reset, jtag := .reset, tb := .reset, net := .reset, knots := .reset,
    gauges := Vector.replicate 64 .reset, gens := Vector.replicate 2 .reset, deep := .reset, chip := .reset, clocks := .reset,
    pins := .reset, dies := Vector.replicate 2 .reset, dsMem := [], basin := Vector.replicate 2 [], ram := [] }

end Sys2Proof.Machine
end

