-- ==== Sys2Proof/Machine/Ops.lean ====
section
/-! DEFINITION. The named operations that every family shares: time, free values, outputs, counters, event bits and interrupt
vectors (R333, R334), the black-box queue (R413), the ignore log (R353) and the clamp report (R351). -/

namespace Sys2Proof.Machine

/-- What a command's meaning answers. -/
abbrev Result := Host.Outcome State Fault Refusal

/-! ### Time (R167) -/

/-- Durations in units of `State.now` (3.125 ps). -/
def ns (n : Nat) : Nat := 320 * n
/-- Microseconds. -/
def us (n : Nat) : Nat := 320000 * n
/-- Milliseconds. -/
def ms (n : Nat) : Nat := 320000000 * n
/-- Seconds. -/
def sec (n : Nat) : Nat := 320000000000 * n

/-- The timeword: bits [79:16] of the accumulator (R167). -/
def TimeBase.timeword (t : TimeBase) : Qword := (t.acc >>> 16).setWidth 64

/-- The timeword now. -/
def State.time (s : State) : Qword := s.tb.timeword

/-- Epoch and timeword as one number, in 2^−16 ns (R169). -/
def State.fullTime (s : State) : Nat := s.tb.epoch.toNat * 2 ^ 64 + s.time.toNat

/-- The full time of a stamp that lies near the present. -/
def State.fullOf (s : State) (stamp : Qword) : Int := (s.fullTime : Int) + (stamp - s.time).toInt

/-- Lexicographic order of lists. -/
def lexLess : List Nat → List Nat → Bool
  | a :: as, b :: bs => decide (a < b) || (decide (a = b) && lexLess as bs)
  | _, _ => false

/-- The time base is DISCIPLINED (R176). -/
def State.disciplined (s : State) : Bool := decide (s.tb.state = .disciplined)

/-! ### Free values (assumption 5) -/

/-- The state after drawing one free value. -/
def State.drawn (s : State) : State := { s with fresh := s.fresh + 1 }
/-- The free number that is next. -/
def State.nextNat (s : State) : Nat := Config.freeNat s.fresh
/-- The free integer that is next. -/
def State.nextInt (s : State) : Int := Config.freeInt s.fresh
/-- The free flag that is next. -/
def State.nextBool (s : State) : Bool := Config.freeBool s.fresh

/-! ### Outputs and objects -/

/-- Send something outside. -/
def State.emit (s : State) (o : Out) : State := { s with out := s.out ++ [o] }

/-- The stored number of an object. -/
def State.objInt (s : State) (idx sub : Nat) : Int := storeInt s.objs idx sub
/-- The stored number of an object that is never negative. -/
def State.objNat (s : State) (idx sub : Nat) : Nat := storeNat s.objs idx sub
/-- A stored BOOL. -/
def State.objBool (s : State) (idx sub : Nat) : Bool := storeBool s.objs idx sub
/-- The subscriptions to an object note a change of it (R361). -/
def Dict.note (d : Dict) (idx sub : Nat) (t : Qword) : Dict :=
  { d with subs := d.subs.map (fun x => if x.index = idx ∧ x.sub = sub then { x with merged := x.merged + 1, changedAt := t } else x) }

/-- Store a value in an object. -/
def State.put (s : State) (idx sub : Nat) (v : Val) : State :=
  if storeGet s.objs idx sub = v then s
  else { s with objs := storePut s.objs idx sub v, dict := s.dict.note idx sub s.time }
/-- Store a number in an object. -/
def State.putNat (s : State) (idx sub : Nat) (n : Nat) : State := s.put idx sub (.num n)
/-- Store an integer in an object. -/
def State.putInt (s : State) (idx sub : Nat) (n : Int) : State := s.put idx sub (.num n)
/-- Add several to a counter object, wrapping at its width. -/
def State.bumpBy (s : State) (idx sub n : Nat) : State :=
  if n = 0 then s else { s with objs := storeBump s.objs idx sub n, dict := s.dict.note idx sub s.time }
/-- Add one to a counter object. -/
def State.bump (s : State) (idx sub : Nat) : State := s.bumpBy idx sub 1
/-- Raise an object to a greatest value. -/
def State.raiseTo (s : State) (idx sub n : Nat) : State := if s.objNat idx sub < n then s.putNat idx sub n else s

/-! ### Interrupt vectors (R333, R334) -/

/-- The function may send MSI-X messages (R334). -/
def Pcie.mayInterrupt (p : Pcie) : Bool :=
  p.cfg.bme && p.msix.enable && !p.msix.funcMask && decide (p.dstate = .d0)

/-- A vector's message may be sent now. -/
def Pcie.maySend (p : Pcie) (v : Fin 64) : Bool := p.mayInterrupt && !p.msix.mask.getLsbD v.val

/-- The pending bit of a vector, set or cleared. -/
def setPending (p : Pcie) (v : Fin 64) (on : Bool) : Pcie :=
  let b := BitVec.ofNat 64 (2 ^ v.val)
  { p with msix := { p.msix with pba := if on then p.msix.pba ||| b else p.msix.pba &&& ~~~b } }

/-- Send a vector's pending message when nothing withholds it (R334). -/
def State.flushVector (s : State) (v : Fin 64) : State :=
  if s.pcie.msix.pba.getLsbD v.val && s.pcie.maySend v then
    { s with pcie := setPending s.pcie v false }.emit (.msix v s.pcie.msix.addr[v] s.pcie.msix.data[v])
  else s

/-- Send every pending message that nothing withholds, lowest vector first. -/
def State.flushAll (s : State) : State := (List.finRange 64).foldl State.flushVector s

/-- A source event of a vector (R334). -/
def State.raise (s : State) (v : Fin 64) : State :=
  if s.pcie.msix.enable then { s with pcie := setPending s.pcie v true }.flushVector v else s

/-! ### Event registers -/

/-- The registers with W1C bits. -/
inductive EvReg where
  | gbl | grd | tb | net | ptp | alp | ds | clk | pwr | hlt | hdma
  | cap (d : Die) | pg (d : Die) | chan (k : Fin 8)
  deriving DecidableEq, Repr

/-- The event bits of a register. -/
def Events.get (e : Events) : EvReg → Dword
  | .gbl => e.gbl
  | .grd => e.grd
  | .tb => e.tb
  | .net => e.net
  | .ptp => e.ptp
  | .alp => e.alp
  | .ds => e.ds
  | .clk => e.clk
  | .pwr => e.pwr
  | .hlt => e.hlt
  | .hdma => e.hdma
  | .cap d => e.cap[d]
  | .pg d => e.pg[d]
  | .chan k => e.chan[k]

/-- The event bits of a register, replaced. -/
def Events.set (e : Events) (r : EvReg) (v : Dword) : Events :=
  match r with
  | .gbl => { e with gbl := v }
  | .grd => { e with grd := v }
  | .tb => { e with tb := v }
  | .net => { e with net := v }
  | .ptp => { e with ptp := v }
  | .alp => { e with alp := v }
  | .ds => { e with ds := v }
  | .clk => { e with clk := v }
  | .pwr => { e with pwr := v }
  | .hlt => { e with hlt := v }
  | .hdma => { e with hdma := v }
  | .cap d => { e with cap := e.cap.set d v }
  | .pg d => { e with pg := e.pg.set d v }
  | .chan k => { e with chan := e.chan.set k v }

/-- The vector that a new bit of a register requests, if any (R333). -/
def vectorOf : EvReg → Option (Fin 64)
  | .hlt => some 0
  | .pwr => some 1
  | .tb => some 6
  | .net => some 7
  | .ptp => some 7
  | .alp => some 8
  | .ds => some 9
  | .clk => some 10
  | .pg d => some (if d = 0 then 11 else 12)
  | .gbl | .grd | .hdma | .cap _ | .chan _ => none

/-- Set event bits; bits that were clear request the register's vector (R333). -/
def State.setEv (s : State) (r : EvReg) (bits : Dword) : State :=
  let old := s.events.get r
  let s' := { s with events := s.events.set r (old ||| bits) }
  if bits &&& ~~~old = 0 then s'
  else match vectorOf r with
    | some v => s'.raise v
    | none => s'

/-- Set one event bit. -/
def State.setEvBit (s : State) (r : EvReg) (i : Nat) : State := s.setEv r (bitIf true i)

/-- A write of 1 clears event bits (W1C). -/
def State.clearEv (s : State) (r : EvReg) (bits : Dword) : State :=
  { s with events := s.events.set r (s.events.get r &&& ~~~bits) }

/-! ### The black-box queue (R412, R413) -/

/-- A drop from the queue: counted, BBDROP set, the next committed entry carries DROPPED (R413). -/
def State.bbDrop (s : State) : State :=
  ({ s with health := { s.health with dropPending := true } }.bump 0x7440 4).setEvBit .hlt 2

/-- The queue without its newest entry of SEV 0 or 1, when it holds one. -/
def dropNewestLow (q : List BbQueued) : Option (List BbQueued) :=
  match q.reverse.findIdx? (fun e => decide (e.entry.sev ≤ 1)) with
  | some i => some (q.reverse.eraseIdx i).reverse
  | none => none

/-- A detected entry as it is queued (R412): 32 bytes of data, the time and epoch of detection. -/
def State.bbEntry (s : State) (code sev : Nat) (data : List Byte) : BbQueued :=
  { entry := { code := code, sev := sev, first := false, late := false, dropped := false, epoch := s.tb.epoch, time := s.time,
               seq := 0, data := fitBytes 32 data, boot := s.mram.bootCount },
    detected := s.now }

/-- An entry of the codes that go to the head of the queue (R413). -/
def BbQueued.urgent (e : BbQueued) : Bool := decide (e.entry.code = 0x0010) || decide (e.entry.code = 0x0015)

/-- The entry into the queue: at its head for POWER_LOST and THERMAL_TRIP, in their order, otherwise at its end (R413). -/
def State.bbPush (s : State) (e : BbQueued) : State :=
  let q := s.health.queue
  let q' := if e.urgent then q.takeWhile BbQueued.urgent ++ e :: q.dropWhile BbQueued.urgent else q ++ [e]
  { s with health := { s.health with queue := q' } }

/-- A black-box entry is detected (R413). -/
def State.bb (s : State) (code sev : Nat) (data : List Byte) : State :=
  let e := s.bbEntry code sev data
  if s.health.queue.length < 64 then s.bbPush e
  else if sev ≤ 1 then s.bbDrop
  else match dropNewestLow s.health.queue with
    | some q => ({ s with health := { s.health with queue := q } }.bbPush e).bbDrop
    | none => s.bbDrop

/-- An optional category is enabled (R415). -/
def State.optional (s : State) (i : Nat) : Bool := s.health.opt.getLsbD i

/-! ### Ignored operations (R353) and clamps (R351) -/

/-- The SOURCE coding of R351. -/
def sourceCode : Source → Nat
  | .mailbox => 0
  | .eth0 => 1
  | .eth1 => 2
  | .tunnel => 3
  | .part => 4
  | .bar0 => 5

/-- The causes of R353. -/
inductive Cause where
  | notIdle | secondW1 | state | owner | power | running | notReady
  deriving DecidableEq, Repr

/-- Their codes (R353). -/
def Cause.code : Cause → Nat
  | .notIdle => 1
  | .secondW1 => 2
  | .state => 3
  | .owner => 4
  | .power => 5
  | .running => 6
  | .notReady => 7

/-- Index and subindex under which a register stands in the logs (R351): offset bits [15:0] and [23:16]. -/
def regLoc (off : Nat) : Nat × Nat := (off % 65536, off / 65536)

/-- An ignored operation: counted in object 1120:0E and logged, GBL_STATUS.IGNORED set, with the optional entry IGNORED_OP
(R353, R383, R415). -/
def State.ignoreOp (s : State) (loc : Nat × Nat) (via : Source) (c : Cause) : State :=
  let e : IgnoreEntry := { time := s.time, index := loc.1, sub := loc.2, source := via, cause := c.code }
  let h := s.health
  let s := { s with health := { h with
    ignores := mput h.nextIgnore e h.ignores, nextIgnore := (h.nextIgnore + 1) % 16 } }.bump 0x1120 0x0E
  let s := s.setEvBit .gbl 10
  if s.optional 1 then s.bb 0x0402 0 (leBytes 2 loc.1 ++ leBytes 1 loc.2 ++ leBytes 1 (sourceCode via) ++ leBytes 1 c.code)
  else s

/-- A clamp: an entry in the clamp report, GBL_STATUS.CLAMPED set, with the optional entry CLAMP (R351, R383, R415). -/
def State.clampOp (s : State) (loc : Nat × Nat) (reason : Nat) (via : Source) (requested applied : Int) : State :=
  let e : ClampEntry :=
    { time := s.time, index := loc.1, sub := loc.2, reason := reason, source := via, requested := requested, applied := applied }
  let h := s.health
  let s := { s with health := { h with
    clamps := mput h.nextClamp e h.clamps, nextClamp := (h.nextClamp + 1) % 64 } }.bump 0x7460 2
  let s := s.setEvBit .gbl 11
  if s.optional 2 then
    s.bb 0x0403 0 (leBytes 2 loc.1 ++ leBytes 1 loc.2 ++ leBytes 1 reason ++ leBytes 1 (sourceCode via) ++ zeros 3
      ++ intBytes 8 requested ++ intBytes 8 applied)
  else s

/-! ### Conditions that several families ask -/

/-- The die has a capture open: sample 0 evaluated and not yet SEALED (R118). -/
def DieSt.isOpen (d : DieSt) : Bool :=
  match d.state with
  | .prefill | .armed | .postfill => true
  | .idle | .arming | .sealed => false

/-- A capture is open on some die, or a die is in ARMING. -/
def State.anyOpen (s : State) : Bool := s.dies[0].isOpen || s.dies[1].isOpen
/-- A die is in ARMING. -/
def State.anyArming (s : State) : Bool := decide (s.dies[0].state = .arming) || decide (s.dies[1].state = .arming)
/-- Some die has a capture open or is in ARMING. -/
def State.anyBusy (s : State) : Bool := s.anyOpen || s.anyArming

/-- Die `d` exists in this variant (R1, R3). -/
def State.hasDie (s : State) (d : Die) : Bool := decide (d = 0) || decide (s.variant ≠ .c1024)

/-- The PCI Express vendor ID of every variant (R1, R322). -/
def vendorId : Nat := 0x1F3C

/-- The PCI Express device ID of the variant (R1, R322). -/
def State.deviceId (s : State) : Nat := if s.variant = .c1024 then 0x1024 else 0x2048

/-- Object 6000:01 (R344): what MRAM keeps, by default the vendor ID. -/
def State.vendorKept (s : State) : Nat := s.mram.subsysVendor.getD vendorId

/-- Object 6000:02 (R344): what MRAM keeps, by default the device ID. -/
def State.idKept (s : State) : Nat := s.mram.subsysId.getD s.deviceId

/-- A full-scope freeze is in force (R409). -/
def State.frozenFull (s : State) : Bool :=
  match s.health.freeze with
  | some f => f.full
  | none => false

/-- The package is ON, out of reset, not leaving ON, and no full-scope freeze stops it (R390, R409). -/
def State.isOn (s : State) : Bool :=
  decide (s.power.state = .on) && decide (s.power.phase = .none) && !s.frozenFull &&
    (match s.power.transition with
      | some t => decide (t.target = .on)
      | none => true)

/-- A freeze of either scope stops the capture dies (R409). -/
def State.frozen (s : State) : Bool := s.health.freeze.isSome

/-- The node id: domain × 64 + position (R218, R230). -/
def State.nodeId (s : State) : BitVec 18 := BitVec.ofNat 18 (s.objNat 0x4800 1 * 64 + s.knots.pos.toNat)

/-- One die changed. -/
def State.withDie (s : State) (d : Die) (f : DieSt → DieSt) : State := { s with dies := vmod s.dies d f }

/-- One generator changed. -/
def State.withGen (s : State) (d : Die) (f : Gen → Gen) : State := { s with gens := vmod s.gens d f }

/-- One gauge changed. -/
def State.withGauge (s : State) (g : Fin 64) (f : Gauge → Gauge) : State := { s with gauges := vmod s.gauges g f }

/-- The generator's interrupt on a change to STOPPED (R333). -/
def pgVector (d : Die) : Fin 64 := if d = 0 then 11 else 12

end Sys2Proof.Machine
end

