-- ==== Sys2Proof/Machine/GuardOps.lean ====
section
/-! DEFINITION. What every BAR0 write meets first: the guard's open sequence (R376 to R381), and the guarded and
complement writes themselves, over a function that applies an accepted value. -/

namespace Sys2Proof.Machine

/-- The mode that the selection and the strap give (R377). -/
def Guard.chosen (g : Guard) : Bool := if g.sel = 0 then g.strap else decide (g.sel = 2)

/-- A guarded sequence is open: a value waits for its complement, or the lock is open (R377). -/
def Guard.isOpen (g : Guard) : Bool := g.pendingWrite.isSome || g.unlocked.isSome

/-- The mode in force follows the selection once no sequence is open (R377). -/
def Guard.settle (g : Guard) : Guard := if g.isOpen then g else { g with keyed := g.chosen }

/-- A guard failure (R380): counted, GRD_LAST, FAIL and GUARDFAIL, and a GUARD_FAIL entry. -/
def State.guardFail (s : State) (cause off : Nat) (value : Dword) (via : Source) : State :=
  let g := s.guard
  let s := { s with guard := { g with fails := g.fails + 1, last := BitVec.ofNat 32 (cause * 2 ^ 24 + off % 2 ^ 24) } }
  let s := (s.setEvBit .grd 8).setEvBit .gbl 12
  s.bb 0x00A0 2 (leBytes 4 (off % 2 ^ 24) ++ leBytes 1 cause ++ leBytes 1 (sourceCode via) ++ leBytes 4 value.toNat)

/-- A BAR0 dword write at `off` arrives: a pending value whose complement it does not address fails as INTERRUPTED (R378,
R380 case 4). -/
def State.interrupt (s : State) (off : Nat) : State :=
  match s.guard.pendingWrite with
  | some (o, v) =>
    if off = o + 4 then s
    else { s with guard := { s.guard with pendingWrite := none }.settle }.guardFail 4 o v .bar0
  | none => s

/-- The function answers memory requests: in D0 with Memory Space Enable (R325, R335). -/
def Pcie.answers (p : Pcie) : Bool := p.cfg.memEnable && decide (p.dstate = .d0)

/-- A BAR0 dword write at `off` whose register has the effect `f`; a function that answers no memory request completes it as
an unsupported request (R325, R335). -/
def State.onBar0 (s : State) (off : Nat) (f : State → State) : State :=
  if s.pcie.answers then f (s.interrupt off) else s.emit .unsupported

/-- The part serves operations that come by `via`: those of the dictionary's paths need the HKC (R20). -/
def State.serves (s : State) (via : Source) : Bool :=
  match via with
  | .bar0 => true
  | .part => true
  | .mailbox | .eth0 | .eth1 | .tunnel => s.power.hkcUp

/-- An operation that comes by `via`; on a path that does not answer it has no effect (R20). -/
def State.onPath (s : State) (via : Source) (f : State → State) : State := if s.serves via then f s else s

/-- An operation that reaches the part through a register at `off` when `via` is BAR0, and by its path otherwise. -/
def State.byPath (s : State) (via : Source) (off : Nat) (f : State → State) : State :=
  if via = .bar0 then s.onBar0 off f else s.onPath via f

/-- An unlock whose 1 ms is over has closed, with TIMEOUT (R379). -/
def State.closeLock (s : State) : State :=
  match s.guard.unlocked with
  | some t => if t < s.now then { s with guard := { s.guard with unlocked := none }.settle }.setEvBit .grd 9 else s
  | none => s

/-- A write of `v` to the guarded register at `off` (R378, R379): pending in paired mode; in keyed mode applied when the lock
is open, which it closes, and LOCKED otherwise. -/
def State.guardedWrite (s : State) (off : Nat) (v : Dword) (apply : Dword → State → State) : State :=
  s.onBar0 off fun s =>
    let s := s.closeLock
    if s.guard.keyed then
      match s.guard.unlocked with
      | some _ => apply v { s with guard := { s.guard with unlocked := none }.settle }
      | none => s.guardFail 1 off v .bar0
    else { s with guard := { s.guard with pendingWrite := some (off, v) } }

/-- A write of `c` to the complement register of the guarded register at `off` (R378 to R380). -/
def State.complementWrite (s : State) (off : Nat) (c : Dword) (apply : Dword → State → State) : State :=
  s.onBar0 (off + 4) fun s =>
    if s.guard.keyed then s
    else match s.guard.pendingWrite with
      | some (o, v) =>
        let s := { s with guard := { s.guard with pendingWrite := none }.settle }
        if o = off ∧ c = ~~~v then apply v s else s.guardFail 3 o c .bar0
      | none => s.guardFail 5 (off + 4) c .bar0

/-- Byte `i` of a byte-enabled access, counted from the dword that holds its first byte, `lead` bytes before it. -/
def enabledByte (bytes : List (Option Byte)) (lead i : Nat) : Option Byte := if i < lead then none else bytes.getD (i - lead) none

/-- The dwords that an access touches, in ascending order, with the value of each that its byte enables cover whole (R371,
R373). -/
def dwordsOf (off : Nat) (bytes : List (Option Byte)) : List (Nat × Option Dword) :=
  let lead := off % 4
  (List.range ((lead + bytes.length + 3) / 4)).map (fun k =>
    (off - lead + 4 * k,
      match enabledByte bytes lead (4 * k), enabledByte bytes lead (4 * k + 1), enabledByte bytes lead (4 * k + 2),
        enabledByte bytes lead (4 * k + 3) with
      | some a, some b, some c, some d => some (d ++ c ++ b ++ a)
      | _, _, _, _ => none))

/-- A partial dword write is dropped and counted in GBL_ACCESS_ERR.PARTIAL, with ACCERR (R373, R383). -/
def State.partialDword (s : State) : State :=
  let e := s.host.accessErr
  { s with host := { s.host with accessErr := (e &&& 0xFFFF0000) ||| ((e + 1) &&& 0xFFFF) } }.setEvBit .gbl 9

/-- A write to the HKC working area is dropped and counted in GBL_ACCESS_ERR.HKCAREA, with ACCERR (R293, R373, R383). -/
def State.hkcAreaDword (s : State) : State :=
  { s with host := { s.host with accessErr := s.host.accessErr + 0x10000 } }.setEvBit .gbl 9

/-- A guarded write as a command brings it: the dword alone, or one 64-bit write with a complement dword (R378). -/
def State.guardForm (s : State) (off : Nat) (v : Dword) (g : GuardForm) (apply : Dword → State → State) : State :=
  match g with
  | .single => s.guardedWrite off v apply
  | .pair c => (s.guardedWrite off v apply).complementWrite off c apply

end Sys2Proof.Machine
end

