-- ==== Sys2Proof/Machine/TimeOps.lean ====
section
/-! DEFINITION. The time base's own operations (chapter 08): the tick, wraps and steps, the states, the free-run rate. -/

namespace Sys2Proof.Machine

/-! ### Powered time and the tick (R168, R394) -/

/-- The quartz runs: the part is out of power-on reset and not in OFF (R386, R394). -/
def State.quartzRuns (s : State) : Bool := decide (s.power.phase ≠ .powerOn) && decide (s.power.state ≠ .off)

/-- Always-on ticks of 10 ns in one tick of the source: ten with a 10 MHz REFIN (R168). -/
def TimeBase.tickLen (t : TimeBase) : Nat := if t.source = 1 then 10 else 1

/-- Add an amount in 2^−32 ns to the accumulator; the epoch follows each carry and borrow, and WRAP records it (R169). -/
def State.addTime (s : State) (amt : Int) : State :=
  let v := (s.tb.acc.toNat : Int) + amt
  let carry := v / 2 ^ 80
  let s' := { s with tb := { s.tb with acc := BitVec.ofInt 80 v, epoch := s.tb.epoch + BitVec.ofInt 32 carry } }
  if carry = 0 then s' else s'.setEvBit .tb 13

/-- A convoy's sample-time accumulator moved by an applied step of `amt` in 2^−16 ns (R175). -/
def stepConvoy (d : DieSt) (amt : Int) : DieSt :=
  if d.isOpen then
    { d with convoy := { d.convoy with
        acc := (((d.convoy.acc : Int) + amt * 65536 * 3200) % (2 ^ 80 * 3200)).toNat } }
  else d

/-- Sample times of open convoys follow an applied step. -/
def State.stepDies (s : State) (amt : Int) : State := { s with dies := s.dies.map (fun d => stepConvoy d amt) }

/-- The optional entry TIME_STEP (R415): kind 0 step, 1 force-step by amount, 2 absolute; source 0 host, 1 built-in servo. -/
def State.bbStep (s : State) (amt : Int) (kind : Nat) (srv : Bool) : State :=
  if s.optional 0 then s.bb 0x0401 0 (intBytes 8 amt ++ leBytes 1 kind ++ leBytes 1 (b2n srv)) else s

/-- Time passes by one source tick: `now` and the increment (R168). -/
def State.plainTick (s : State) : State :=
  { s with now := s.now + 3200 * s.tb.tickLen }.addTime (s.tb.inc * s.tb.tickLen : Nat)

/-- The pending step is added at the tick, counted and recorded (R172, R174). -/
def State.applyStep (s : State) : State :=
  match s.tb.stepPend with
  | none => s
  | some amt =>
    let srv := s.tb.stepBySrv
    let s := ({ s with tb := { s.tb with stepPend := none } }.addTime (amt * 65536)).stepDies amt
    let s := ((s.bump 0x4010 2).put 0x4010 6 (.num s.time.toNat)).putInt 0x4010 7 amt
    s.bbStep amt 0 srv

/-- One tick of the source: the increment, then a pending step (R168, R172). The quartz stands still in power-on reset and in
OFF. -/
def State.tick (s : State) : State := if s.quartzRuns then s.plainTick.applyStep else s

/-! ### States (R176) -/

/-- The known unpowered interval enters the ages once the time is known (R42, R182): the time set less the time saved at the
loss of power, less the powered time since, in units of `now`. -/
def State.knowTime (s : State) : State :=
  match s.mram.saved with
  | none => s
  | some (full, at_) =>
    let gap := (((s.fullTime : Int) - full) * 320 / 65536 - ((s.now : Int) - at_)).toNat
    { s with
      mram := { s.mram with saved := none, quartzExtra := s.mram.quartzExtra + gap }
      dies := s.dies.map (fun d => { d with cal := { d.cal with extra := d.cal.extra + gap } }) }

/-- TB_STAT.TIMESET is set. -/
def State.setTimeset (s : State) : State := if s.tb.timeset then s else { s with tb := { s.tb with timeset := true } }.knowTime

/-- A day, in units of `now`. -/
def day : Nat := sec 86400

/-- The increment's sum up to now (R182). -/
def TimeBase.area (t : TimeBase) (now : Nat) : Nat := t.incArea + t.inc * (now - t.incAt)

/-- A DISCIPLINED period that ends now is kept, with its mean increment, when it lasted 24 h (R182). -/
def TimeBase.endPeriod (t : TimeBase) (now : Nat) : TimeBase :=
  match t.discSince with
  | some a => { t with
      discSince := none
      periods := if a + day ≤ now then
          (t.periods ++ [({ from_ := a, to_ := now, mean := t.area now / (now - a) } : Period)]).drop (t.periods.length - 7)
        else t.periods }
  | none => t

/-- The time base becomes DISCIPLINED, which sets TIMESET (R176). -/
def State.setDisciplined (s : State) : State :=
  if s.tb.state = .disciplined then s
  else { s with tb := { s.tb with state := .disciplined, discSince := some s.now, incArea := 0, incAt := s.now } }.setTimeset

/-- A flag of R243 enters the current result of a running gauge. -/
def Gauge.mark (g : Gauge) (bit : Nat) : Gauge :=
  match g.state with
  | .running => { g with flags := g.flags ||| BitVec.ofNat 16 (2 ^ bit) }
  | .idle | .done | .aborted | .timeout => g

/-- A flag enters the current result of every running gauge. -/
def State.markGauges (s : State) (bit : Nat) : State := { s with gauges := s.gauges.map (fun g => g.mark bit) }

/-- A flag enters the current result of every running gauge of a die: gauges 32d to 32d + 31 (R232). -/
def State.markDieGauges (s : State) (d : Die) (bit : Nat) : State :=
  { s with gauges := Vector.ofFn (fun (i : Fin 64) => if i.val / 32 = d.val then s.gauges[i].mark bit else s.gauges[i]) }

/-- The servo loses what it steered by: LOCKED and PATH_HOLD go to HOLDOVER (R199). -/
def Net.lose (n : Net) : Net :=
  { n with
    servo :=
      match n.servo with
      | .locked => .holdover
      | .pathHold => .holdover
      | x => x
    hold := none
    good := 0 }

/-- A hold ends without an accept or a revert: an entry of phase 3 gives its end (R204; DESIGN CHOICE, assumption 85). -/
def State.dropHold (s : State) : State :=
  match s.net.hold with
  | some h =>
    { s with net := { s.net with hold := none } }.bb 0x0044 1 (leBytes 1 h.port ++ leBytes 1 3 ++ intBytes 8 (h.raised - h.old))
  | none => s

/-- DISCIPLINED to HOLDOVER, with a HOLDOVER entry that carries the cause: its place in R176's list from 0. A servo that
steered goes to HOLDOVER too (R199), and a hold ends. -/
def State.enterHoldover (s : State) (cause : Nat) : State :=
  if s.tb.state = .disciplined then
    let s := s.dropHold
    { s with tb := { s.tb.endPeriod s.now with state := .holdover }, net := s.net.lose }.markGauges 3 |>.bb 0x0040 1 (leBytes 1 cause)
  else s

/-! ### The increment (R171, R183) -/

/-- The least permitted increment, 9.995 ns. -/
def incMin : Nat := 0x0009FEB851EC
/-- The greatest permitted increment, 10.005 ns. -/
def incMax : Nat := 0x000A0147AE14
/-- The nominal increment, 10 ns. -/
def incNominal : Nat := 0x000A00000000

/-- An increment from the next tick on (R171). -/
def State.setInc (s : State) (v : Nat) : State :=
  { s with tb := { s.tb with incArea := s.tb.area s.now, incAt := s.now, inc := v } }

/-- A committed increment outside the range is clamped: INCCLAMP, object 4010:08, a clamp-report entry (R171). -/
def State.commitInc (s : State) (v : Nat) (via : Source) : State :=
  let a := (clampInt incMin incMax v).toNat
  let s := s.setInc a
  if a = v then s
  else ((s.setEvBit .tb 11).bump 0x4010 8).clampOp (regLoc 0x10014) (if v < incMin then 0 else 1) via v a

/-- The age of the quartz: powered time and known unpowered time (R182). -/
def State.quartzAge (s : State) : Nat := s.now + s.mram.quartzExtra

/-- The ageing rate in use and its source (R182): host value under override, learned, factory nominal. -/
def State.ageing (s : State) : Int × Nat :=
  if s.objBool 0x4040 5 then (s.objInt 0x4040 4, 2)
  else match s.mram.learned with
    | some a => (a, 1)
    | none => (clampInt (-100000) 100000 (s.objInt 0x4040 6), 0)

/-- The free-run increment (R183): 10 ns × (1 − y × 10^−9), y in 0.001 ppb from the offset and the age in units of 30 days, rounded
to the nearest 2^−32 ns. -/
def State.freeRunInc (s : State) : Nat :=
  let month : Int := 30 * day
  let y0 := clampInt (-2000000) 2000000 (s.objInt 0x4040 1)
  let num := (incNominal : Int) * (10 ^ 12 * month - y0 * month - s.ageing.1 * s.quartzAge)
  (clampInt incMin incMax (divRound num (10 ^ 12 * month))).toNat

/-- The free-run increment is loaded into TB_INC at start-up (R183, R399 step 2). -/
def State.loadInc (s : State) : State :=
  let s := { s with power := { s.power with incDue := false } }
  if s.tb.state = .free ∧ s.tb.owner ≠ .host then
    let t := s.setInc s.freeRunInc
    { t with tb := { t.tb with updatedAt := s.now } }
  else s

/-- The HKC has read the history within 14 ms of the release of reset; here it loads the increment at that bound (R183; DESIGN CHOICE,
assumption 42). -/
def State.bootInc (s : State) : State :=
  if s.power.incDue ∧ s.power.phase = .startup ∧ s.power.phaseSince + ms 14 ≤ s.now then s.loadInc else s

/-! ### Steps (R172 to R174) -/

/-- The host watchdog starts again at each commit of TB_INC and write of TB_HCTL (R177). -/
def State.feedWatchdog (s : State) : State :=
  let t := s.objNat 0x4000 3
  { s with tb := { s.tb with watchdog := if t = 0 then none else some (s.now + ms t) } }

/-- A step commits (R172, R174): ignored while one is pending, refused beyond the limit, and always under a limit of 0, otherwise
pending. -/
def State.commitStep (s : State) (amt : Int) (via : Source) (srv : Bool) : State :=
  if s.tb.stepPend.isSome then (s.setEvBit .tb 9).ignoreOp (regLoc 0x1001C) via .state
  else if s.objInt 0x4010 1 = 0 ∨ (s.objInt 0x4010 1) * 65536 < amt.natAbs then (s.setEvBit .tb 8).bump 0x4010 3
  else { s with tb := { s.tb with stepPend := some amt, stepBySrv := srv } }

/-- A force-step may apply: no capture open and no die in ARMING (R173). -/
def State.mayForce (s : State) : Bool := !s.anyBusy

/-- An accepted force-step in the next tick (R173, R174): the tick's increment, then the amount, or the load of an absolute
timeword, which leaves the epoch as it is; TIMESET, counts, the FORCE_STEP entry; a pending step is ignored; HOLDOVER, and the built-in servo back to
acquisition. -/
def State.forceStep (s : State) (v : Qword) (abs srv : Bool) : State :=
  let s := if s.tb.stepPend.isSome then
      ({ s with tb := { s.tb with stepPend := none } }.setEvBit .tb 9).ignoreOp (regLoc 0x1001C)
        (if s.tb.stepBySrv then .part else .bar0) .state
    else s
  let t := s.plainTick
  let before := t.time
  let s := if abs then { s with now := t.now } else t
  let amt := if abs then (v - before).toInt else v.toInt
  let s := if abs then { s with tb := { s.tb with acc := v.setWidth 80 <<< 16 } } else s.addTime (amt * 65536)
  let s := (s.setTimeset).bump 0x4010 4
  let s := s.bb 0x0042 1 (leBytes 8 before.toNat ++ leBytes 8 s.time.toNat)
  let s := s.bbStep amt (if abs then 2 else 1) srv
  let s := s.enterHoldover 4
  if s.tb.owner = .hkc ∧ (s.net.servo = .holdover ∨ s.net.servo = .acquire) then
    { s with net := { s.net with servo := .acquire, good := 0 } }
  else s

/-- TB_FSTEP_GO past its guard (R173): applied, or ignored with FSTEPIGN and cause POWER. -/
def State.fstepGo (v : Dword) (s : State) : State :=
  if v.getLsbD 0 && !s.mayForce then ((s.setEvBit .tb 10).bump 0x4010 5).ignoreOp (regLoc 0x10028) .bar0 .power
  else
    let s := { s with tb := { s.tb with fstepAbs := v.getLsbD 1 } }
    if v.getLsbD 0 then s.forceStep (s.tb.fstepHi ++ s.tb.fstepLo) (v.getLsbD 1) false else s

/-- An epoch write (R170): ignored while a capture is open or a die arms, otherwise applied with TIMESET and an entry. -/
def State.writeEpoch (s : State) (v : Dword) (loc : Nat × Nat) (via : Source) : State :=
  if s.anyBusy then s.ignoreOp loc via .power
  else
    let old := s.tb.epoch
    let s := { s with tb := { s.tb with epoch := v } }.setTimeset
    s.bb 0x0041 1 (leBytes 4 old.toNat ++ leBytes 4 v.toNat)

/-! ### Compare slots (R178, R180) -/

/-- The signed distance of a slot's target from the timeword (R178). -/
def State.slotDist (s : State) (k : Fin 8) : Int := (s.tb.slots[k].target - s.time).toInt

/-- One slot changed. -/
def State.withSlot (s : State) (k : Fin 8) (f : Slot → Slot) : State :=
  { s with tb := { s.tb with slots := vmod s.tb.slots k f } }

/-- An enabled slot whose target has already passed fires late in the next tick (R178). -/
def State.judgeSlot (s : State) (k : Fin 8) : State :=
  if s.tb.slots[k].en && decide (s.slotDist k ≤ 0) then s.withSlot k (fun x => { x with lateDue := true }) else s

/-- A slot target commits (R178). -/
def State.commitTarget (s : State) (k : Fin 8) (t : Qword) : State :=
  (s.withSlot k (fun x => { x with target := t, held := none, lateDue := false })).judgeSlot k

/-- A slot is enabled (R178). Enabling an enabled slot changes nothing. -/
def State.enableSlot (s : State) (k : Fin 8) : State :=
  if s.tb.slots[k].en then s else (s.withSlot k (fun x => { x with en := true, lateDue := false })).judgeSlot k

/-- Periods to add until the target lies ahead of the time base (R180): the distance past the target, by whole periods. -/
def periodsPast (past : Nat) (period : Nat) : Nat := past / period + 1

/-- The firing itself, without its function (R178, R180): FIRED, LATE, counts, the interrupt, the next target or EN clear, and
the optional entry SLOT_FIRED. -/
def State.fireSlot (s : State) (k : Fin 8) : State :=
  let x := s.tb.slots[k]
  let idx := 0x4030 + k.val
  let period := s.objNat idx 2 * 65536
  let steps := if period = 0 then 0 else periodsPast (-(s.slotDist k)).toNat period
  let s := s.withSlot k (fun x => { x with
    fired := true
    late := x.late || x.lateDue
    lateDue := false
    en := decide (period ≠ 0)
    target := x.target + BitVec.ofNat 64 (steps * period) })
  let s := s.bump idx 4
  let s := if x.lateDue then s.bump idx 5 else s
  let s := if 1 < steps then s.bumpBy idx 6 (steps - 1) else s
  let s := s.raise ⟨32 + k.val, by omega⟩
  if s.optional 3 then
    s.bb 0x0404 0 (leBytes 1 k.val ++ leBytes 1 (s.objNat idx 1) ++ leBytes 1 (b2n x.lateDue) ++ leBytes 4 (steps - 1)
      ++ leBytes 8 x.target.toNat)
  else s

/-! ### Sources (R184, R185) -/

/-- A running PLL re-enters on the new source, and a coasting one has a reference again (R314, R316). -/
def Pll.onSwap (p : Pll) : Pll :=
  match p.state with
  | .locked => { p with swap := true }
  | .off | .search | .hop | .coast => { p with noRef := false }

/-- What REFOUT repeats (R307, object 5A00:01): the source in use, the quartz, or nothing (high impedance). -/
def State.refoutNow (s : State) : Option Nat :=
  match s.objNat 0x5A00 1 with
  | 1 => some s.tb.source
  | 2 => some 0
  | _ => none

/-- What the part has sent, once a reset or OFF has put REFOUT at high impedance (R307). -/
def State.outAfterReset (s : State) : List Out := if s.pins.refout.isSome then s.out ++ [.refout none] else s.out

/-- REFOUT follows its object and the source in use (R307). -/
def State.driveRefout (s : State) : State :=
  let v := s.refoutNow
  if v = s.pins.refout then s else { s with pins := { s.pins with refout := v } }.emit (.refout v)

/-- A change of source (R184): the measured interval, scaled by the rate, in place of one increment, then a pending step
(R172); object 4001:06 and a
SOURCE_CHANGE entry; the increment loaded unless DISCIPLINED; every running PLL re-enters on the new source (R316). -/
def State.swapSource (s : State) (src : Nat) (interval : Int) (fallback : Bool) : State :=
  let old := s.tb.source
  let s := { s with now := s.now + (interval * 320 / 65536).toNat }.addTime (interval * 65536 * s.tb.inc / incNominal)
  let s := s.applyStep
  let s := { s with
    tb := { s.tb with source := src }
    clocks := { s.clocks with
      sourceNext := none
      plls := s.clocks.plls.map Pll.onSwap } }
  let s := s.driveRefout
  let s := s.putInt 0x4001 6 interval
  let s := s.bb 0x0033 1 (leBytes 1 old ++ leBytes 1 src ++ intBytes 8 interval ++ leBytes 1 (b2n fallback))
  if s.tb.state = .disciplined then s else s.setInc (if src = 0 then s.freeRunInc else incNominal)

/-- Some PLL of index 0 to 11 coasts (R314). -/
def State.anyCoast (s : State) : Bool :=
  (s.clocks.plls.toList.take 12).any (fun p => decide (p.state = .coast))

/-- Both dies are IDLE: the condition of access code RWI (R347). -/
def State.bothIdle (s : State) : Bool := decide (s.dies[0].state = .idle) && decide (s.dies[1].state = .idle)

end Sys2Proof.Machine
end

