-- ==== Sys2Proof/Machine/ClockOps.lean ====
section
/-! DEFINITION. The PLLs' own operations (chapter 15): band tables, starts and stops, coast and re-entry. -/

namespace Sys2Proof.Machine

/-- One PLL changed. -/
def State.withPll (s : State) (i : Fin 13) (f : Pll → Pll) : State :=
  { s with clocks := { s.clocks with plls := vmod s.clocks.plls i f } }

/-- The die temperature in 0.01 °C that an entry of PLL `i` is judged by (R309): the sensor of the PLL's die, sensors 0 to 19
in the order of R405, maxima of hub, die 0 and die 1. -/
def State.pllTemp (s : State) (i : Fin 13) : Int :=
  let base := if i.val = 0 then 4 else if i.val = 1 then 12 else 0
  let n := if i.val ≤ 1 then 8 else 4
  ((s.health.sensors.toList.drop base).take n).foldl max (-40000) / 10

/-- A band-table entry is usable: valid, the same count, within 20 °C (R309). -/
def usableBand (t : List BandEntry) (n : Nat) (temp : Int) : Option BandEntry :=
  t.find? (fun e => e.valid && decide (e.n = n) && decide ((temp - e.temp).natAbs ≤ 2000))

/-- The table with a searched entry: replacing the entry of its count, else appended, else over the entry used least recently
(R309). -/
def putBand (t : List BandEntry) (e : BandEntry) : List BandEntry :=
  if t.any (fun x => x.n == e.n) then t.map (fun x => if x.n = e.n then e else x)
  else if t.length < 16 then t ++ [e]
  else
    let oldest := t.foldl (fun m x => min m x.used) e.used
    t.map (fun x => if x.used = oldest then e else x)

/-- An entry of count `n` is used as the `u`-th use. -/
def BandEntry.touch (n u : Nat) (e : BandEntry) : BandEntry := if e.n = n then { e with used := u } else e

/-- A PLL starts or hops to a count (R308): with a usable entry it locks on the stored band, otherwise it searches. On a
coasting PLL no hop starts: it waits for the re-entry (R314). -/
def State.startPll (s : State) (i : Fin 13) (n : Nat) : State :=
  let p := s.clocks.plls[i]
  if p.state = .coast then s.withPll i (fun p => { p with wanted := if p.n = n then none else some n })
  else if p.state = .locked ∧ p.n = n then s
  else
    match usableBand p.table n (s.pllTemp i) with
    | some e =>
      let u := s.clocks.useCount + 1
      { s with clocks := { s.clocks with useCount := u } }.withPll i (fun p => { p with
        state := .locked, n := n, band := e.band, vtune := e.vtune, residual := 0, closed := none, back := none,
        table := p.table.map (BandEntry.touch n u) })
    | none => s.withPll i (fun p => { p with state := .search, n := n, residual := 0, back := none })

/-- A PLL stops (R16). -/
def State.stopPll (s : State) (i : Fin 13) : State :=
  s.withPll i (fun p => { p with state := .off, residual := 0, closed := none, swap := false, back := none, wanted := none })

/-- The feedback count that a sample period asks of the SPLL (R306). -/
def splLCount (period : Nat) : Nat := if period = 100 then 320 else if period = 128 then 250 else 400

/-- The SPLL of a die. -/
def spll (d : Die) : Fin 13 := ⟨d.val, by omega⟩

/-- The eye finder measures a die. -/
def FrontEnd.eyeRunning (fe : FrontEnd) : Bool := fe.eye.isSome

/-- A user of a die's sample PLL remains (R16): its capture, a calibration or an idle check, the eye finder, its generator, a gauge on it. -/
def State.spllUsed (s : State) (d : Die) : Bool :=
  let x := s.dies[d]
  decide (x.state ≠ .idle ∧ x.state ≠ .sealed) || x.calRunning || x.check.isSome || x.fe.eyeRunning
    || decide (s.gens[d].state ≠ .stopped) || s.gens[d].calibrating
    || (List.finRange 64).any (fun g => decide (g.val / 32 = d.val ∧ s.gauges[g].state = .running))

/-- A PLL runs at its count: locked, or coasting with its output running (R312) and no other count asked of it (R314). -/
def Pll.runs (p : Pll) : Bool :=
  match p.state with
  | .locked => true
  | .coast => p.wanted.isNone
  | .off | .search | .hop => false

/-- A user of the sample PLL starts it (R16). -/
def State.needSpll (s : State) (d : Die) : State :=
  if s.clocks.plls[spll d].runs then s else s.startPll (spll d) 400

/-- The sample PLL of a die stops when no user of it remains (R16). -/
def State.restSpll (s : State) (d : Die) : State := if s.spllUsed d then s else s.stopPll (spll d)

end Sys2Proof.Machine
end

