-- ==== Sys2Proof/Machine/DeepOps.lean ====
section
/-! DEFINITION. The deep store's map, its service state and its shared operations (chapter 13). -/

namespace Sys2Proof.Machine

/-! ### The map (R265, R266) -/

/-- Admitted channels C. -/
def Deep.c (d : Deep) : Nat := d.mapChans.length

/-- The top of map in bytes: C × R × S (R265). -/
def Deep.top (d : Deep) : Nat := d.c * d.mapRanks * d.rankGiB * 2 ^ 30

/-- The channel and rank slot of a barge index (R265). -/
def Deep.place (d : Deep) (b : Nat) : Fin 8 × Fin 4 :=
  (d.mapChans.getD (b % d.c) 0, ⟨b / d.c % d.mapRanks % 4, by omega⟩)

/-- The physical rank that a slot of a channel names. -/
def Deep.rankOf (d : Deep) (c : Fin 8) (slot : Fin 4) : Fin 4 := d.chans[c].slots[slot]

/-- A slot of a channel is in service: its channel is not FAILED and its rank is not retired (R266). -/
def Deep.slotOk (d : Deep) (c : Fin 8) (slot : Fin 4) : Bool :=
  decide (d.chans[c].state ≠ .failed) && !d.chans[c].out.getLsbD (d.rankOf c slot).val

/-- A barge index is in service (R266). -/
def Deep.inService (d : Deep) (b : Nat) : Bool :=
  decide (b * 4096 < d.top) && d.slotOk (d.place b).1 (d.place b).2

/-- A byte address can be reached now: in service, and its channel neither training nor in self-refresh (R286). -/
def Deep.reachable (d : Deep) (addr : Nat) : Bool :=
  d.inService (addr / 4096) && decide (d.chans[(d.place (addr / 4096)).1].state = .inService) && !d.changing

/-- A byte range lies in the in-service deep store. Barges repeat their places after C × R, so that many are judged. -/
def Deep.rangeOk (d : Deep) (addr len : Nat) : Bool :=
  decide (addr + len ≤ d.top) &&
    (decide (len = 0) ||
      (let b := addr / 4096
       let n := (addr + len - 1) / 4096 - b + 1
       (List.range (min n (d.c * d.mapRanks))).all (fun i => d.inService (b + i))))

/-- Rank slots of a channel in service. -/
def Deep.slotsIn (d : Deep) (c : Fin 8) : Nat :=
  ((List.finRange 4).filter (fun k => decide (k.val < d.mapRanks) && d.slotOk c k)).length

/-- In-service capacity in MiB (object 5400:08). -/
def Deep.capacityMiB (d : Deep) : Nat := (d.mapChans.map (fun c => d.slotsIn c * d.rankGiB * 1024)).sum

/-- The ingest figure of a channel in bytes per second: 375/512 of peak at the running speed (R111, R266). -/
def ingestOf (speed : Nat) : Nat :=
  match speed with
  | 1 => 28125000000
  | 2 => 32812500000
  | 3 => 37500000000
  | _ => 0

/-- The ingest sum in bytes per second: each channel's figure by its rank slots in service (R266). -/
def Deep.ingest (d : Deep) : Rat :=
  (d.mapChans.map (fun c => if d.mapRanks = 0 then (0 : Rat) else (ingestOf d.running * d.slotsIn c : Nat) / (d.mapRanks : Rat))).sum

/-- The ingest sum in MB/s (object 5400:09). -/
def Deep.ingestMB (d : Deep) : Nat := (d.ingest / 1000000).floor.toNat

/-- Barges in service of a region that starts at barge `b` and has `n` barges. -/
def Deep.barges (d : Deep) (b n : Nat) : Nat :=
  let m := d.c * d.mapRanks
  if m = 0 then 0
  else
    let good := fun k => ((List.range k).filter (fun i => d.slotOk (d.place (b + i)).1 (d.place (b + i)).2)).length
    n / m * good m + good (n % m)

/-! ### Requests (R279, R282) -/

/-- One channel changed. -/
def State.withChan (s : State) (c : Fin 8) (f : DsChan → DsChan) : State :=
  { s with deep := { s.deep with chans := vmod s.deep.chans c f } }

/-- A port's class (R279). -/
def portClass (p : Fin 8) : Nat :=
  match p.val with
  | 0 => 1
  | 1 => 1
  | 2 => 2
  | 3 => 2
  | 6 => 3
  | 4 => 4
  | 5 => 4
  | _ => 5

/-- A port's latency target in ns (R279). -/
def portTarget (p : Fin 8) : Nat :=
  match p.val with
  | 0 => 1500
  | 1 => 1500
  | 2 => 3000
  | 3 => 3000
  | 6 => 5000
  | 4 => 20000
  | 5 => 40000
  | _ => 200000

/-- The urgency of a request of an age: 1 at half its target, 2 at three quarters, 3 at nine tenths (R279). -/
def urgencyAt (p : Fin 8) (age : Nat) : Nat :=
  let t := ns (portTarget p)
  if 9 * t ≤ 10 * age then 3 else if 3 * t ≤ 4 * age then 2 else if t ≤ 2 * age then 1 else 0

/-- A port's current urgency. -/
def Deep.urgency (d : Deep) (p : Fin 8) : Nat :=
  match d.ports[p] with
  | some r => r.urgency
  | none => 0

/-- Class 5 is refused while any request is at urgency 3 (R281). -/
def Deep.paused (d : Deep) : Bool := (List.finRange 8).any (fun p => decide (d.urgency p = 3))

/-- The channel of an address. -/
def Deep.chanOf (d : Deep) (addr : Nat) : Fin 8 := (d.place (addr / 4096)).1

/-- The request of a port, where it lies on a channel. -/
def Deep.askedOn (d : Deep) (c : Fin 8) (p : Fin 8) : Option DsRequest := d.ports[p].filter (fun r => d.chanOf r.addr == c)

/-- The order in which a channel grants (R280): class, urgency, age, port. -/
def grantKey (p : Fin 8) (r : DsRequest) : List Nat := [portClass p, 3 - r.urgency, r.entered, p.val]

/-- The port whose request a channel grants next: none while one is granted already. -/
def Deep.nextGrant (d : Deep) (c : Fin 8) : Option (Fin 8) :=
  let here := (List.finRange 8).filterMap (fun p => (d.askedOn c p).map (fun r => (p, r)))
  if here.any (fun x => x.2.granted) then none
  else (here.foldl (fun (best : Option (Fin 8 × DsRequest)) x =>
    match best with
    | some b => if lexLess (grantKey x.1 x.2) (grantKey b.1 b.2) then some x else some b
    | none => some x) none).map Prod.fst

/-- A channel grants its next request (R280): one at a time (DESIGN CHOICE, assumption 93). -/
def State.dsGrant (s : State) (c : Fin 8) : State :=
  match s.deep.nextGrant c with
  | some p => { s with deep := { s.deep with ports := s.deep.ports.set p (s.deep.ports[p].map (fun r => { r with granted := true })) } }
  | none => s

/-- A request enters an idle port's queue; a class 5 request is refused and counted while another is at urgency 3 (R281). -/
def State.dsAsk (s : State) (p : Fin 8) (addr : Nat) (write : Bool) : State :=
  if s.deep.ports[p].isSome then s
  else if portClass p = 5 ∧ s.deep.paused then s.bump (0x5430 + p.val) 3
  else
    let r : DsRequest := { addr := addr, write := write, entered := s.now, urgency := 0, granted := false }
    { s with deep := { s.deep with ports := s.deep.ports.set p (some r) } }.dsGrant (s.deep.chanOf addr)

/-- A request of a port leaves its queue: served, delayed beyond its target, the longest latency (R282). Its channel grants the next. -/
def State.dsServed (s : State) (p : Fin 8) : State :=
  match s.deep.ports[p] with
  | none => s
  | some r =>
    let age := s.now - r.entered
    let s := { s with deep := { s.deep with ports := s.deep.ports.set p none } }.bump (0x5430 + p.val) 1
    let s := if ns (portTarget p) < age then s.bump (0x5430 + p.val) 2 else s
    (s.raiseTo (0x5430 + p.val) 4 (age / 320)).dsGrant (s.deep.chanOf r.addr)

/-- `n` groups served on a port without waiting. -/
def State.dsGroups (s : State) (p : Fin 8) (n : Nat) : State := s.bumpBy (0x5430 + p.val) 1 n

/-- An access of `n` groups from an address on a port (R279): the first stands in the port's queue until it completes, unless another does so
already, and the others are served beside it (DESIGN CHOICE, assumption 93). -/
def State.dsAccess (s : State) (p : Fin 8) (addr : Nat) (write : Bool) (n : Nat) : State :=
  if s.deep.ports[p].isSome then s.dsGroups p n else (s.dsAsk p addr write).dsGroups p (n - 1)

/-! ### Damage (R276, R277) -/

/-- An entry of the damage log: a ring of 255 (R277). Causes: 1 uncorrectable read, 2 parity, 3 channel FAILED. -/
def State.damage (s : State) (barge cause : Nat) : State :=
  let k := s.deep.damageNext
  let s := s.put 0x5451 k (.bytes (leBytes 8 (barge % 2 ^ 28 * 4096 + cause) ++ leBytes 8 s.time.toNat))
  { s with deep := { s.deep with damageNext := if k = 255 then 1 else k + 1 } }.bump 0x5450 2

/-- The first barge that a channel holds. -/
def Deep.firstBarge (d : Deep) (c : Fin 8) : Nat := d.mapChans.findIdx (fun x => x == c)

/-- A rank is retired (R276): in MRAM and object 5410+c:0A, RETIRED, counted, a RANK_RETIRED entry. -/
def State.retireRank (s : State) (c : Fin 8) (r : Fin 4) : State :=
  let s := { s with deep := { s.deep with retired := (s.deep.retired ++ [(c, r)]).eraseDups } }
  let s := s.withChan c (fun x => { x with out := x.out ||| BitVec.ofNat 4 (2 ^ r.val) })
  let s := ({ s with mram := { s.mram with present := s.mram.present ||| 64 } }.setEvBit .ds 2).bump 0x5440 5
  s.bb 0x0062 2 (leBytes 1 c.val ++ leBytes 1 r.val)

/-- A channel FAILS (R271): out of service, one damage-log entry, CHFAIL, counted, a CHANNEL_FAILED entry. -/
def State.failChannel (s : State) (c : Fin 8) (property : Nat) : State :=
  let s := s.withChan c (fun x => { x with state := .failed })
  let s := ((s.damage (s.deep.firstBarge c) 3).setEvBit .ds 4).bump 0x5440 6
  s.bb 0x0064 2 (leBytes 1 c.val ++ leBytes 1 property)

end Sys2Proof.Machine
end

