-- ==== Sys2Proof/Machine/Barge.lean ====
section
/-! DEFINITION. The bytes of barges and records (chapter 07): header, check codes, payloads, event records, directory entries. -/

namespace Sys2Proof.Machine

/-! ### Flags (R147, R160) -/

/-- Barge flag bits (R147). -/
def flagCoast : Nat := 0
def flagClockFault : Nat := 1
def flagGap : Nat := 2
def flagCongestion : Nat := 3
def flagFineSat : Nat := 4
def flagFreezeGap : Nat := 5
def flagHoldover : Nat := 6
def flagKnotLate : Nat := 7
def flagWatchLog : Nat := 8
def flagClamped : Nat := 9
def flagQual : Nat := 10

/-- A flag word with one bit set when the condition holds. -/
def withFlag (f : BitVec 32) (bit : Nat) (c : Bool) : BitVec 32 := f ||| bitIf c bit

/-- Event flag bits (R160). -/
def evTrigger : Nat := 0
def evPlacement : Nat := 1
def evForced : Nat := 2
def evPrefillIgnored : Nat := 3
def evPostIgnored : Nat := 4
def evDeferred : Nat := 5
def evKnotDropped : Nat := 6
def evSaturated : Nat := 7
def evEventsLost : Nat := 8
def evKnotLate : Nat := 9
def evRephase : Nat := 10
def evSnapLost : Nat := 11

/-- Event flags with one bit set when the condition holds. -/
def withEv (f : BitVec 16) (bit : Nat) (c : Bool) : BitVec 16 := f ||| (bitIf c bit).setWidth 16

/-! ### Kinds and capacities (R107, R145, R154) -/

/-- The KIND code (R145). -/
def BKind.code : BKind → Nat
  | .full => 0
  | .fullState => 1
  | .transition => 2
  | .envelope => 3
  | .event => 4
  | .directory => 5

/-- The bytes of an envelope field of width code `w` (R145). -/
def fieldBytes (w : Nat) : Nat := 2 ^ w

/-- The bytes of an item slot (R107). -/
def itemBytes (k : BKind) (ewidth : Nat) : Nat :=
  match k with
  | .full => 16
  | .fullState => 18
  | .transition => 8
  | .envelope => 2 * fieldBytes ewidth
  | .event => 32
  | .directory => 1

/-- The item capacity of a barge without QUAL (R107). -/
def capPlain (k : BKind) (ewidth : Nat) : Nat := 4032 / itemBytes k ewidth

/-- The item capacity of a barge with QUAL (R107). -/
def capQual (k : BKind) (ewidth : Nat) : Nat :=
  match k with
  | .full => 250
  | .fullState => 222
  | .transition => 504
  | .envelope => match ewidth with
    | 0 => 1897
    | 1 => 977
    | 2 => 496
    | _ => 250
  | .event => 126
  | .directory => 4032

/-- The length of the item map of a barge with QUAL (R154). -/
def mapLength (k : BKind) (ewidth : Nat) : Nat := 4032 - capQual k ewidth * itemBytes k ewidth

/-! ### Items -/

/-- The bytes of an event record (R159). -/
def EventRec.bytes (r : EventRec) : List Byte :=
  [0x00, BitVec.ofNat 8 (r.before + 16 * r.after), BitVec.ofNat 8 (r.cond + 16 * r.deferral), r.also]
    ++ leBytes 2 r.flags.toNat ++ leBytes 1 r.subject ++ leBytes 1 0 ++ leBytes 8 r.time.toNat
    ++ leBytes 4 (r.snap.getD 0xFFFFFFFF) ++ leBytes 4 (r.source + r.sourceKind * 0x40000)
    ++ leBytes 4 (r.tfine.getD 0xFFFFFFFF) ++ intBytes 4 r.phase

/-- An item of a slot of envelope field width `w` (R152 to R161). -/
def BItem.bytes (w : Nat) : BItem → List Byte
  | .vec v => leBytes 16 v.toNat
  | .vecState v d => leBytes 16 v.toNat ++ leBytes 2 d
  | .skip n => leBytes 6 n ++ zeros 10
  | .skipState n d => leBytes 6 n ++ zeros 10 ++ leBytes 2 d
  | .trans r => leBytes 8 r.toNat
  | .pair lo hi => intBytes (fieldBytes w) lo ++ intBytes (fieldBytes w) hi
  | .skipPairs n => leBytes (2 * fieldBytes w) n
  | .event r => r.bytes
  | .snap part idx vals => leBytes 1 1 ++ leBytes 1 part ++ leBytes 4 idx ++ leBytes 2 0 ++ vals.flatMap (leBytes 6)
  | .entry tag v => leBytes 2 tag ++ leBytes 2 v.length ++ v ++ zeros ((4 - v.length % 4) % 4)

/-- The item is a qualification-gap record (R154). -/
def BItem.isSkip : BItem → Bool
  | .skip _ => true
  | .skipState _ _ => true
  | .skipPairs _ => true
  | _ => false

/-- A bit list as bytes, bit 0 of the first byte first (R154). -/
def mapByte (bits : List Bool) : Nat := (bits.take 8).foldr (fun b n => b2n b + 2 * n) 0

/-- The item map of a list of items (R154). -/
def itemMap : Nat → List Bool → List Byte
  | 0, _ => []
  | n + 1, bits => BitVec.ofNat 8 (mapByte bits) :: itemMap n (bits.drop 8)

/-! ### Barges (R144, R149) -/

/-- The barge holds a qualification gap (R147 QUAL). -/
def Barge.qual (b : Barge) : Bool := b.flags.getLsbD flagQual

/-- The 4,032 payload bytes of a barge. -/
def Barge.payload (b : Barge) : List Byte :=
  let items := b.items.flatMap (BItem.bytes b.ewidth)
  let map := if b.qual && (b.kind == .full || b.kind == .fullState || b.kind == .envelope) then
      itemMap (mapLength b.kind b.ewidth) (b.items.map BItem.isSkip) else []
  fitBytes 4032 (map ++ items)

/-- The header bytes before HCRC (R144). -/
def Barge.header (b : Barge) (pcrc : BitVec 32) : List Byte :=
  leBytes 2 0x5E1B ++ leBytes 1 1
    ++ leBytes 1 (b.kind.code + 16 * b.ewidth + 64 * b2n b.esigned)
    ++ leBytes 1 b.stream ++ leBytes 1 0 ++ leBytes 2 b.items.length
    ++ leBytes 4 (b.node.toNat + 0x40000 * b.die.val + 0x80000 * b2n b.coupled)
    ++ leBytes 4 b.convoy.toNat ++ leBytes 8 b.anchor.toNat ++ leBytes 4 b.flags.toNat
    ++ leBytes 4 b.period ++ leBytes 4 b.interval ++ leBytes 4 pcrc.toNat
    ++ leBytes 8 b.xstart.toNat ++ leBytes 8 b.xend.toNat ++ leBytes 6 b.seq

/-- A barge as stored: header, HCRC and payload, PCRC first and HCRC last (R149). -/
def Barge.bytes (b : Barge) : List Byte :=
  let p := b.payload
  let h := b.header (crc32c p)
  h ++ leBytes 2 (crc16 h).toNat ++ p

/-- A stored barge with a flag bit added and its HCRC renewed. -/
def patchFlagBytes (bs : List Byte) (bit : Nat) : List Byte :=
  let f := leNat ((bs.drop 0x18).take 4)
  let f' := (BitVec.ofNat 32 f ||| bitIf true bit).toNat
  let h := bs.take 0x18 ++ leBytes 4 f' ++ (bs.drop 0x1C).take (0x3E - 0x1C)
  h ++ leBytes 2 (crc16 h).toNat ++ bs.drop 0x40

/-- What the part keeps of a barge beside its bytes; it closed at a moment. -/
def Barge.meta (b : Barge) (slot closed : Nat) : BargeMeta :=
  { slot := slot, closed := closed, stream := b.stream, die := b.die, kind := b.kind, seq := b.seq, anchor := b.anchor,
    endTime := b.endTime, firstSample := b.firstSample, lastSample := b.lastSample, flags := b.flags }

/-- Room for one more item, given whether the barge would carry QUAL. -/
def Barge.room (b : Barge) (qual : Bool) : Bool :=
  decide (b.items.length < if qual then capQual b.kind b.ewidth else capPlain b.kind b.ewidth)

end Sys2Proof.Machine
end

