-- ==== Sys2Proof/Machine/Plan.lean ====
section
/-! DEFINITION. Reading a die's capture plan from its objects, with the checks of ARMING steps 1 and 2 (R45, R48, R52, R55,
R66, R91, R93 to R95, R110, R122, R124, R125). -/

namespace Sys2Proof.Machine

/-! ### Objects of a die -/

/-- The first global channel of a die. -/
def dieBase (d : Die) : Nat := 1024 * d.val

/-- A global channel as a local channel of the die, by the clamp of R10. -/
def localChan (d : Die) (ch : Nat) : Nat :=
  if ch < dieBase d then 0 else if dieBase d + 1023 < ch then 1023 else ch - dieBase d

/-- Bits of a BLOB: bit i of byte b is bit 8b + i (R66). -/
def blobBits (bs : List Byte) : BitVec 1024 := BitVec.ofNat 1024 (leNat bs)

/-- A bus group as the objects give it (R52). -/
def readGroup (st : Store) (d : Die) (g : Nat) : BusGroup :=
  let idx := 0x3100 + 0x40 * d.val + g
  { signed := storeBool st idx 2,
    members := (List.range (storeNat st idx 1)).map (fun i => localChan d (storeNat st idx (0x10 + i))) }

/-- The value of a group for given levels (R52). -/
def groupValue (grp : BusGroup) (levels : BitVec 1024) : Int :=
  let u := grp.members.foldr (fun c n => b2n (levels.getLsbD c) + 2 * n) 0
  if grp.signed then signedOf grp.members.length u else u

/-- A condition from its object index (R91). -/
def readCond (st : Store) (idx : Nat) : Cond :=
  let n := storeNat st idx
  let b := storeBool st idx
  { enable := b 1, sel := #v[n 2, n 3, n 4, n 5], invert := BitVec.ofNat 4 (n 6), table := BitVec.ofNat 16 (n 7),
    cmpSrc := n 8, cmpOp := n 9, cmpVal := n 0x0A,
    advance := if b 0x10 then some (Fin.ofNat 16 (n 0x11)) else none,
    trigger := b 0x12, qual := n 0x13, cntInc := BitVec.ofNat 8 (n 0x14), cntRst := BitVec.ofNat 8 (n 0x15),
    tmrStart := BitVec.ofNat 8 (n 0x16), tmrStop := BitVec.ofNat 8 (n 0x17), tmrRst := BitVec.ofNat 8 (n 0x18),
    tow := BitVec.ofNat 16 (n 0x19),
    knot := if b 0x1A then some (Fin.ofNat 16 (n 0x1B)) else none,
    trigout := BitVec.ofNat 2 (n 0x1C), wake := false }

/-- A condition of chamber W (R113, R117). -/
def readWatchCond (st : Store) (idx : Nat) : Cond :=
  let n := storeNat st idx
  let m := fun (sub : Nat) => if storeBool st idx sub then (1 : BitVec 8) else 0
  { enable := storeBool st idx 1, sel := #v[n 2, n 3, n 4, n 5], invert := BitVec.ofNat 4 (n 6),
    table := BitVec.ofNat 16 (n 7), cmpSrc := n 8, cmpOp := n 9, cmpVal := n 0x0A, advance := none, trigger := false,
    qual := 0, cntInc := m 0x14, cntRst := m 0x15, tmrStart := m 0x16, tmrStop := m 0x17, tmrRst := m 0x18,
    tow := 0, knot := none, trigout := 0, wake := storeBool st idx 0x10 }

/-- The eight conditions of a chamber of a die (R91). -/
def readChamber (st : Store) (d : Die) (k : Nat) : List Cond :=
  (List.range 8).map (fun i => readCond st (0x3400 + 0x100 * d.val + 8 * k + i))

/-- The selectors that the enabled conditions of a die name: the terms in use (R48). -/
def termsInUse (conds : List Cond) : List Nat := conds.flatMap (fun c => if c.enable then c.sel.toList else [])

/-- Some enabled condition names a selector of `[lo, hi]`. -/
def usesRange (use : List Nat) (lo hi : Nat) : Bool := use.any (fun x => decide (lo ≤ x ∧ x ≤ hi))

/-- A pattern term (R51, R66). -/
def readPattern (st : Store) (d : Die) (j : Nat) : PatternTerm :=
  let idx := 0x3000 + 0x40 * d.val + j
  { any := storeNat st idx 1 = 1, care := blobBits (storeGet st idx 2).byteList,
    value := blobBits (storeGet st idx 3).byteList }

/-- The channels of a source that is one channel or one bus group (R53, R58). -/
def readSource (st : Store) (d : Die) (idx : Nat) : List Nat :=
  if storeNat st idx 1 = 0 then [localChan d (storeNat st idx 2)] else (readGroup st d (storeNat st idx 3)).members

/-- An edge term (R53). -/
def readEdge (st : Store) (d : Die) (j : Nat) : EdgeTerm :=
  let idx := 0x3080 + 0x20 * d.val + j
  { chans := readSource st d idx, kind := storeNat st idx 4 }

/-- The representable bounds of a group (R55). -/
def groupBounds (grp : BusGroup) : Int × Int :=
  let w := grp.members.length
  if grp.signed then (-(2 ^ (w - 1) : Int), 2 ^ (w - 1) - 1) else (0, 2 ^ w - 1)

/-- A bound object read in the group's signedness (R54). -/
def readBound (st : Store) (grp : BusGroup) (idx sub : Nat) : Int :=
  let v := storeNat st idx sub
  if grp.signed then signedOf 64 v else v

/-- A range term with its bounds clamped (R54, R55). -/
def readRange (st : Store) (d : Die) (j : Nat) : RangeTerm :=
  let idx := 0x30C0 + 0x10 * d.val + j
  let grp := readGroup st d (storeNat st idx 1)
  let bnd := groupBounds grp
  { group := grp, low := clampInt bnd.1 bnd.2 (readBound st grp idx 3),
    high := clampInt bnd.1 bnd.2 (readBound st grp idx 4), outside := storeNat st idx 2 = 1 }

/-- A glitch term (R58). -/
def readGlitch (st : Store) (d : Die) (j : Nat) : GlitchTerm :=
  let idx := 0x30E0 + 8 * d.val + j
  { chans := readSource st d idx, polarity := storeNat st idx 4, width := storeNat st idx 5 }

/-- A duration term (R59). -/
def readDur (st : Store) (d : Die) (j : Nat) : DurTerm :=
  let idx := 0x30F0 + 8 * d.val + j
  let pat := storeNat st idx 1 = 1
  { pattern := pat, src := if pat then storeNat st idx 3 else localChan d (storeNat st idx 2),
    level := storeNat st idx 4 = 1, ended := storeNat st idx 5 = 1, dmin := storeNat st idx 6, dmax := storeNat st idx 7 }

/-- A knot-in term (R62). -/
def readKnotIn (st : Store) (d : Die) (j : Nat) : KnotTerm :=
  let idx := 0x3210 + 8 * d.val + j
  { mask := BitVec.ofNat 16 (storeNat st idx 1), atTime := storeNat st idx 2 = 1, offset := storeInt st idx 3 }

/-- The bytes of pattern term `j` in the trigger RAM (R66): its care mask, then its value. -/
def patternBytes (st : Store) (d : Die) (j : Nat) : List Byte :=
  let idx := 0x3000 + 0x40 * d.val + j
  fitBytes 128 (storeGet st idx 2).byteList ++ fitBytes 128 (storeGet st idx 3).byteList

/-- A trigger program whose patterns are those of the trigger RAM, as the evaluators load them (R66, R67). -/
def Program.fromRam (ram : Memory) (p : Program) : Program :=
  { p with patterns := p.patterns.map (fun t => (t.1, { t.2 with
    care := blobBits (memReadBlock ram (256 * t.1) 128), value := blobBits (memReadBlock ram (256 * t.1 + 128) 128) })) }

/-- The terms of one kind that are in use, read by number. -/
def readUsed {α : Type} (use : List Nat) (lo count : Nat) (f : Nat → α) : SMap α :=
  ((List.range count).filter (fun j => use.contains (lo + j))).map (fun j => (j, f j))

/-- The trigger program of a die, as its objects stand (R48, R49, R61, R69, R91). -/
def readProgram (st : Store) (d : Die) : Program :=
  let chambers := (List.range 16).map (readChamber st d)
  let use := termsInUse chambers.flatten
  let durs := readUsed use 0x78 8 (readDur st d)
  let patUse := use ++ (durs.filter (fun p => p.2.pattern)).map (fun p => p.2.src)
  let s := 0x3480 + 0x100 * d.val
  { conds := Vector.ofFn (fun (k : Fin 16) => readChamber st d k.val),
    patterns := readUsed patUse 0 64 (readPattern st d), edges := readUsed use 0x40 32 (readEdge st d),
    ranges := readUsed use 0x60 16 (readRange st d), glitches := readUsed use 0x70 8 (readGlitch st d),
    durations := durs, knotIns := readUsed use 0x90 8 (readKnotIn st d),
    trigMode := Vector.ofFn (fun (i : Fin 4) => storeNat st (0x3290 + d.val) (i.val + 1)),
    towDelay := usesRange use 0x80 0x8F,
    snapMask := BitVec.ofNat 16 (storeNat st s 1), initQual := storeBool st s 2,
    timersOn := BitVec.ofNat 8 (storeNat st s 3), recordAll := storeBool st s 4, knotOffset := storeInt st s 5,
    placeMask := BitVec.ofNat 16 (storeNat st s 6), placeOffset := storeInt st s 7 }

/-- The channels of a list lie in a die-local strand. -/
def inStrand (j : Nat) (cs : List Nat) : Bool := cs.any (fun c => decide (c / 128 = j))

/-- A term in use names a channel of a strand (R50). -/
def Program.needsStrand (p : Program) (j : Nat) : Bool :=
  p.patterns.any (fun t => (t.2.care >>> (128 * j)).setWidth 128 != 0) || p.edges.any (fun t => inStrand j t.2.chans) ||
    p.ranges.any (fun t => inStrand j t.2.group.members) || p.glitches.any (fun t => inStrand j t.2.chans) ||
    p.durations.any (fun t => !t.2.pattern && decide (t.2.src / 128 = j))

/-! ### State clocks (R21, R36) -/

/-- The clock-capable channel of a die-local strand: its first (R21). -/
def clockChannel (strand : Nat) : Nat := 128 * strand

/-- The row and column of a channel's ball (R420): sixteen channels to a row, with shield rows after each four. -/
def ballOf (ch : Nat) : Nat × Nat :=
  let i := ch % 128 / 16
  (3 + 10 * (ch / 128 % 8) + i + i / 4, if ch < 1024 then 1 + ch % 16 else 84 - ch % 16)

/-- The state clock of each strand of a die (object 2041). -/
def strandClocks (st : Store) (d : Die) : Vector (Fin 4) 8 := Vector.ofFn (fun j => Fin.ofNat 4 (storeNat st 0x2041 (8 * d.val + j.val)))

/-- The source channel of each state clock of a die (object 2050), die-local. -/
def clockSources (st : Store) (d : Die) : Vector Nat 4 := Vector.ofFn (fun k => clockChannel (storeNat st 0x2050 (4 * d.val + k.val)))

/-- The active edges of each state clock of a die (object 2051): 0 rising, 1 falling, 2 both. -/
def clockEdges (st : Store) (d : Die) : Vector Nat 4 := Vector.ofFn (fun k => storeNat st 0x2051 (4 * d.val + k.val))

/-- The state clocks that some strand uses, lowest strand first: a strand that captures, or holds a channel of an envelope group or of
a term in use. Where no strand is used, the clock of the first. -/
def usedClocks (clockOf : Vector (Fin 4) 8) (strands : BitVec 8) (groups : List EnvGroup) (p : Program) : List (Fin 4) :=
  let js := (List.finRange 8).filter (fun j =>
    strands.getLsbD j.val || groups.any (fun g => inStrand j.val g.group.members) || p.needsStrand j.val)
  match js with
  | [] => [clockOf[0]]
  | js => (js.map (fun j => clockOf[j])).eraseDups

/-! ### Rates (R94, R110) -/

/-- The sample period in units of 3.125 ps: 80n, 100, 128, and 0 in state mode (R144). -/
def periodOf (source div : Nat) : Nat :=
  match source with
  | 0 => 80 * div
  | 1 => 100
  | 2 => 128
  | _ => 0

/-- Samples per second of a sample period. -/
def rateOf (period : Nat) : Rat := 320000000000 / (period : Rat)

/-- The state-clock limit of R36 for an edge mode. -/
def stateRate (edge : Nat) : Rat := if edge = 2 then 3200000000 else 2500000000

/-- The sample rate that sizes a strand: the die's rate, or the state-clock limit (R110). -/
def strandRate (st : Store) (d : Die) (state : Bool) (period j : Nat) : Rat :=
  if state then stateRate (storeNat st 0x2051 (4 * d.val + storeNat st 0x2041 (8 * d.val + j))) else rateOf period

/-- The local channels that are selected for capture (R95). -/
def readSelected (st : Store) (d : Die) : BitVec 1024 :=
  BitVec.ofNat 1024 ((List.range 1024).foldr
    (fun c n => b2n (chanInt st 0x3810 (dieBase d + c) != 0) + 2 * n) 0)

/-- The strands that take part: at least one selected channel (R95). -/
def strandsOf (sel : BitVec 1024) : BitVec 8 :=
  BitVec.ofNat 8 ((List.range 8).foldr (fun j n => b2n ((sel >>> (128 * j)).setWidth 128 != 0) + 2 * n) 0)

/-- The field bytes of an envelope group: its width rounded up to 8, 16, 32 or 64 bits (R104). -/
def envBytes (w : Nat) : Nat := if w ≤ 8 then 1 else if w ≤ 16 then 2 else if w ≤ 32 then 4 else 8

/-- The field width code of R145 for a byte count. -/
def envCode (bytes : Nat) : Nat := if bytes = 1 then 0 else if bytes = 2 then 1 else if bytes = 4 then 2 else 3

/-- The enabled envelope groups of a die (R104). -/
def readEnvGroups (st : Store) (d : Die) : List EnvGroup :=
  let en := storeNat st (0x3800 + d.val) 5
  ((List.range 64).filter (fun g => en.testBit g)).map (fun g =>
    let grp := readGroup st d g
    { g := g, group := grp, bytes := envBytes grp.members.length })

/-- The qualifier of a die can be off: initially, or by an enabled condition (R110). -/
def canBeOff (p : Program) : Bool :=
  !p.initQual || p.conds.toList.flatten.any (fun c => c.enable && decide (c.qual = 2))

/-- A payload rate in barges, with the qualification factor of its kind (R110). -/
def bargeRate (q : Bool) (plain qual : Nat) (payload : Rat) : Rat :=
  payload * 4096 / 4032 * (if q then (plain : Rat) / qual else 1)

/-- The planned write rate of a die's streams (R110), in bytes per second. -/
def plannedRate (st : Store) (d : Die) (mode : Nat) (state : Bool) (period envN : Nat) (strands : BitVec 8)
    (groups : List EnvGroup) (p : Program) : Rat :=
  let q := canBeOff p
  let js := (List.range 8).filter (fun j => strands.getLsbD j)
  let full := fun j => if state then bargeRate q 224 222 (18 * strandRate st d state period j)
    else bargeRate q 252 250 (16 * strandRate st d state period j)
  let act := fun (j : Nat) => storeNat st (0x3808 + d.val) j
  let trans := fun j => bargeRate q 504 504
    (if act j = 0 then (64000000000 : Rat) else 8 * ((act j : Nat) : Rat) * 1000000)
  let r := strandRate st d state period 0
  let env := fun (g : EnvGroup) => bargeRate q (4032 / (2 * g.bytes))
    (capQual .envelope (envCode g.bytes)) (2 * ((g.bytes : Nat) : Rat) * r / ((envN : Nat) : Rat))
  let sum := fun (l : List Rat) => l.foldl (· + ·) 0
  let streams := match mode with
    | 0 => sum (js.map full)
    | 1 => sum (js.map trans)
    | 2 => sum (groups.map env)
    | _ => sum (js.map full) + sum (js.map trans)
  streams + bargeRate false 126 126 (if p.recordAll then 32000000000 else 100000000)

/-! ### Clamps of ARMING -/

/-- The bound clamps of the range terms in use (R55). -/
def rangeClamps (st : Store) (d : Die) (use : List Nat) : List ClampReq :=
  ((List.range 16).filter (fun j => use.contains (0x60 + j))).flatMap (fun j =>
    let idx := 0x30C0 + 0x10 * d.val + j
    let grp := readGroup st d (storeNat st idx 1)
    let bnd := groupBounds grp
    [3, 4].flatMap (fun sub =>
      let v := readBound st grp idx sub
      let a := clampInt bnd.1 bnd.2 v
      if a = v then [] else [{ index := idx, sub := sub, reason := 5, requested := v, applied := a }]))

/-- The deep region of a die as applied (R122, R130): base and size in MiB, after the in-service capacity and the other
die's region, with the clamps made. -/
def regionOf (st : Store) (d : Die) (capMiB : Nat) (otherDie : Option Die) : Nat × Nat × List ClampReq :=
  let idx := 0x3900 + d.val
  let base := storeNat st idx 6
  let size := storeNat st idx 7
  let s1 := if capMiB < base + size then capMiB - base else size
  let c1 := if s1 = size then [] else [{ index := idx, sub := 7, reason := 9, requested := size, applied := s1 : ClampReq }]
  let s2 := match otherDie with
    | some o =>
      let oi := 0x3900 + o.val
      let ob := storeNat st oi 6
      let os := storeNat st oi 7
      if storeNat st oi 1 = 1 ∧ 0 < os ∧ base < ob + os ∧ ob < base + s1 then ob - base else s1
    | none => s1
  let c2 := if s2 = s1 then [] else [{ index := idx, sub := 7, reason := 5, requested := s1, applied := s2 : ClampReq }]
  (base, s2, c1 ++ c2)

/-- The plan of a die before admission (R121 step 1): the objects as they stand, or die 0's shared settings when the
dies are coupled (R11), with the clamps made; those of the shared region are die 0's alone (R139). -/
def readPlan (st : Store) (d : Die) (coupled : Bool) (capMiB : Nat) : Plan × List ClampReq :=
  let lead : Die := if coupled then 0 else d
  let cap := 0x3800 + lead.val
  let win := 0x3900 + lead.val
  let prog := readProgram st d
  let sel := readSelected st d
  let strands := strandsOf sel
  let groups := readEnvGroups st d
  let mode := storeNat st cap 1
  let src := storeNat st cap 2
  let period := periodOf src (storeNat st cap 3)
  let envN := storeNat st cap 4
  let use := termsInUse prog.conds.toList.flatten
  let deepWanted := storeNat st win 1 = 1
  let (base, size, rc) := regionOf st lead capMiB (if coupled then none else some (1 - lead))
  let toBasin : List ClampReq := if deepWanted ∧ size = 0 then
    [{ index := win, sub := 1, reason := 5, requested := 1, applied := 0 }] else []
  let shared := (if deepWanted then rc else []) ++ toBasin
  let clamps := rangeClamps st d use ++ (if d = lead then shared else [])
  let clockOf := strandClocks st d
  ({ mode := mode, state := src = 3, period := period, selected := sel, strands := strands, envN := envN,
     envGroups := groups, deep := deepWanted && decide (0 < size), weir := storeNat st win 2, depth := storeNat st win 3,
     regionBase := base * 1048576, regionBarges := size * 256,
     rate := plannedRate st d mode (src = 3) period envN strands groups prog,
     budget := 0, clamped := !clamps.isEmpty, coupled := coupled, clamps := clamps, program := prog,
     clockOf := clockOf, clockSrc := clockSources st d, clockEdge := clockEdges st d,
     clocksUsed := usedClocks clockOf strands groups prog },
   clamps)

/-! ### Admission (R124, R125) -/

/-- The sample rate r that sizes memory: the die's rate, or the larger state-clock limit of its strands (R110). -/
def planRate (st : Store) (d : Die) (p : Plan) : Rat :=
  if p.state then
    ((List.range 8).filter (fun j => p.strands.getLsbD j)).foldl
      (fun m j => max m (strandRate st d true 0 j)) 2500000000
  else rateOf p.period

/-- What admission checks a plan against. `cb`, `cd`: capacities in bytes; `limit`: the longest admitted record in
samples, when the thermal check sets one (R406). -/
structure AdmitCtx where
  rate : Rat
  p : Rat
  b : Rat
  deep : Bool
  cb : Nat
  cd : Nat
  limit : Option Nat
  deriving DecidableEq, Repr

/-- M(n): the memory of n samples in bytes, whole barges (R124). -/
def memOf (c : AdmitCtx) (n : Nat) : Nat := 4096 * ((c.p * n / c.rate / 4096).ceil).toNat

/-- The plan fits at depths w and q (R124, R406). -/
def fits (c : AdmitCtx) (w q : Nat) : Bool :=
  (match c.limit with
    | some l => decide (w + q + 1 ≤ l)
    | none => true) &&
  (if !c.deep then decide (memOf c (w + q + 1) ≤ c.cb)
   else if c.p ≤ c.b then decide (memOf c (w + q + 1) ≤ c.cd)
   else decide ((memOf c (w + 1) : Rat) + (c.p - c.b) * q / c.rate ≤ c.cb) && decide (memOf c (w + q + 1) ≤ c.cd))

/-- The largest x of `[lo, hi]` for which a downward-closed test holds, by bisection; `lo` is assumed to hold. -/
def bisect (test : Nat → Bool) : Nat → Nat → Nat → Nat
  | 0, lo, _ => lo
  | n + 1, lo, hi =>
    if hi ≤ lo then lo
    else
      let mid := (lo + hi + 1) / 2
      if test mid then bisect test n mid hi else bisect test n lo (mid - 1)

/-- The depths after the clamps of R125: first q down to its minimum, then w down to its minimum; none when the minima
still fail. -/
def admission (c : AdmitCtx) (w q wmin qmin : Nat) : Option (Nat × Nat) :=
  let qlo := min q qmin
  let wlo := min w wmin
  if fits c w q then some (w, q)
  else if fits c w qlo then some (w, bisect (fun x => fits c w x) 64 qlo q)
  else if fits c wlo qlo then some (bisect (fun x => fits c x qlo) 64 wlo w, qlo)
  else none

end Sys2Proof.Machine
end

