-- ==== Sys2Proof/Machine/GenOps.lean ====
section
/-! DEFINITION. The pattern generator's own operations (chapter 12): the segment table, the checks of a prime, endings,
passes and jump requests. -/

namespace Sys2Proof.Machine

/-- Objects and registers of a generator: its command's place in the logs (R351). -/
def genLoc (d : Die) (via : Source) : Nat × Nat :=
  if via = .bar0 then regLoc (0x20A00 + 0x10000 * d.val) else (0x5000 + d.val, 0x0F)

/-- An object of the generator's settings. -/
def State.genNat (s : State) (d : Die) (sub : Nat) : Nat := s.objNat (0x5000 + d.val) sub

/-! ### The segment table (R249) -/

/-- An entry from its 16 bytes (R249). -/
def genEntryOf (bs : List Byte) : GenEntry :=
  let n := leNat bs
  { start := bitsAt 0 48 n, target := BitVec.toFin (BitVec.ofNat 12 (bitsAt 48 12 n)), length := bitsAt 64 32 n,
    loops := bitsAt 96 24 n, exit := bitsAt 120 3 n, cache := n.testBit 123, endless := n.testBit 124 }

/-- Entry `i` of a die's table. -/
def State.genEntry (s : State) (d : Die) (i : Fin 4096) : GenEntry :=
  genEntryOf (((storeGet s.objs (0x5100 + 16 * d.val + i.val / 256) 0).byteList.drop (16 * (i.val % 256))).take 16)

/-- The entry that plays. -/
def State.curEntry (s : State) (d : Die) : GenEntry := s.genEntry d s.gens[d].entry

/-- Where the checks go on from an entry: its TARGET, and its successor when it CONTINUEs (R251). -/
def genNext (i : Fin 4096) (e : GenEntry) : List (Fin 4096) :=
  e.target :: (if !e.endless && decide (e.exit = 0) && decide (i.val < 4095) then [i + 1] else [])

/-- The entries reachable from a worklist, in the order met (R251). -/
def State.genReach (s : State) (d : Die) : Nat → List (Fin 4096) → List (Fin 4096) → List (Fin 4096)
  | 0, _, seen => seen
  | _, [], seen => seen
  | n + 1, i :: rest, seen =>
    if seen.contains i then s.genReach d n rest seen
    else s.genReach d n (rest ++ genNext i (s.genEntry d i)) (seen ++ [i])

/-- The entry that follows the last pass of an entry (R250). -/
def GenEntry.follow (e : GenEntry) (i : Fin 4096) : Option (Fin 4096) :=
  match e.exit with
  | 0 => if i.val = 4095 then none else some (i + 1)
  | 1 => some e.target
  | 2 => some e.target
  | 3 => some e.target
  | _ => none

/-- Bytes of an entry's data with Y output yarns (R247, R249). -/
def GenEntry.bytes (e : GenEntry) (y : Nat) : Nat := e.length * 16 * y

/-- Bytes of the loop cache of a die (R254). -/
def State.cacheBytes (s : State) (d : Die) : Nat := s.objNat (0x5040 + d.val) 1 * 65536

/-- How an entry fails the checks of R251, if it does. -/
def State.entryFault (s : State) (d : Die) (y : Nat) (e : GenEntry) : Option GenEnd :=
  if e.length = 0 then some .table
  else if e.cache then
    if s.gens[d].cacheValid && decide (e.start + e.bytes y ≤ s.cacheBytes d) then none else some .cache
  else if s.deep.rangeOk e.start (e.bytes y) then none else some .table

/-- Samples per second of an output period in units of 3.125 ps. -/
def perSecond (period : Nat) : Nat := 320000000000 / period

/-- The checks of a prime (R251): none when they pass, otherwise the end status and the failing entry. -/
def State.genCheck (s : State) (d : Die) : Option (GenEnd × Nat) :=
  let g := s.gens[d]
  let y := g.yarns.length
  let start := BitVec.toFin (BitVec.ofNat 12 (s.genNat d 2))
  let all := s.genReach d 8193 [start] []
  match all.findSome? (fun i => (s.entryFault d y (s.genEntry d i)).map (fun f => (f, i.val))) with
  | some f => some f
  | none =>
    match all.find? (fun i => !(s.genEntry d i).cache) with
    | some i => if 64000000000 * (g.fBase * g.m) < y * 320000000000 then some (.rate, i.val) else none
    | none => none

/-- The planned refill rate in MB/s: Y × output rate while a DEEP entry is reachable (R253). -/
def State.genPlanned (s : State) (d : Die) : Nat :=
  let g := s.gens[d]
  let start := BitVec.toFin (BitVec.ofNat 12 (s.genNat d 2))
  if (s.genReach d 8193 [start] []).any (fun i => !(s.genEntry d i).cache) then
    g.yarns.length * 320000 / (g.fBase * g.m)
  else 0

/-! ### Priming (R247, R248, R251) -/

/-- The output yarns of a die in ascending order (R247). -/
def State.outputYarns (s : State) (d : Die) : List Nat :=
  (List.range 128).filter (fun b => (s.pins.yarnDir[d].toList.getD (b / 32) 0).getLsbD (b % 32))

/-- f_base as a period: 4 GS/s for divided and state rates, else 3.2 or 2.5 GS/s (R248). -/
def baseOf (source : Nat) : Nat := if source = 1 then 100 else if source = 2 then 128 else 80

/-- The generator is STOPPED. -/
def State.genStopped (s : State) (d : Die) : Bool := decide (s.gens[d].state = .stopped)

/-- f_base that a die's rate source asks for; in a coupled plan die 0's governs (R11, R248). -/
def State.wantedBase (s : State) (d : Die) : Nat := baseOf (s.objNat (0x3800 + (if s.objBool 0x3930 1 then 0 else d.val)) 2)

/-- A generator that is not STOPPED keeps the sample PLL at another f_base than a plan needs (R248). -/
def State.genHolds (s : State) (d : Die) : Bool := !s.genStopped d && decide (s.wantedBase d ≠ s.gens[d].fBase)

/-! ### What the output yarns drive (R30, R246, R247) -/

/-- The levels of a yarn as driven: in pair mode an odd channel is the complement of its even one (R30). -/
def pairByte (pair : Bool) (b : Byte) : Byte := if pair then (b &&& 0x55) ||| ((~~~b &&& 0x55) <<< 1) else b

/-- A byte for a yarn of a die, as its balls show it. -/
def State.yarnByte (s : State) (d : Die) (y : Nat) (b : Byte) : Byte := pairByte (storeBool s.objs 0x2031 (128 * d.val + y)) b

/-- The idle word of a yarn (R66, R246). -/
def State.idleByte (s : State) (d : Die) (y : Nat) : Byte :=
  s.yarnByte d y ((storeGet s.objs (0x5000 + d.val) 6).byteList.getD y 0)

/-- The idle word goes to the output yarns of a die (R30, R246). -/
def State.showIdle (s : State) (d : Die) : State :=
  s.emit (.stimulus d s.now 0 ((s.outputYarns d).map (fun y => (y, [s.idleByte d y]))))

/-- The basin window 2 of a die as bytes of its logical basin (R254, R290): base and size. -/
def State.cacheWindow (s : State) (d : Die) : Nat × Nat :=
  let w := s.dies[d].win.win2
  (w.1 * 4096, w.2 * 4096)

/-- Where byte `k mod 16` of the `j`-th output yarn stands for sample `k` of a segment (R247). -/
def sampleOffset (y j k : Nat) : Nat := k / 16 * (16 * y) + 16 * j + k % 16

/-- The level byte of the `j`-th output yarn in sample `k` of the pass (R247, R253, R254). -/
def State.genByte (s : State) (d : Die) (j k : Nat) : Byte :=
  let g := s.gens[d]
  let e := s.curEntry d
  let y := g.yarns.length
  if e.cache then memRead s.basin[d] ((s.cacheWindow d).1 + e.start + sampleOffset y j k)
  else g.pre.getD (sampleOffset y j k - g.played / 16 * (16 * y)) 0

/-- Output period of a generator. -/
def Gen.period (g : Gen) : Nat := g.fBase * g.m

/-- Samples of a pass of an entry. -/
def GenEntry.samples (e : GenEntry) : Nat := 16 * e.length

/-- Samples of the pass whose data stand in the buffer: a CACHE segment has all (R253 to R255). -/
def State.genHas (s : State) (d : Die) : Nat :=
  let g := s.gens[d]
  let e := s.curEntry d
  let y := g.yarns.length
  if e.cache ∨ y = 0 then e.samples
  else min e.samples (16 * (g.played / 16 + g.pre.length / (16 * y)) + (g.pre.length % (16 * y) - 16 * (y - 1)))

/-- Samples of the pass that are due by now. -/
def State.genDue (s : State) (d : Die) : Nat :=
  let g := s.gens[d]
  if s.now < g.passStart then 0 else min (s.curEntry d).samples ((s.now - g.passStart) / g.period + 1)

/-- The samples that are due and there go to the balls (R250): emitted, the last held, their blocks given up by the buffer. -/
def State.genPlay (s : State) (d : Die) : State :=
  let g := s.gens[d]
  let n := min (s.genDue d) (s.genHas d)
  if g.state ≠ .running ∨ n ≤ g.played then s
  else
    let y := g.yarns.length
    let ks := (List.range (n - g.played)).map (fun i => g.played + i)
    let yarns := (List.range y).map (fun j => (g.yarns.getD j 0, ks.map (fun k => s.yarnByte d (g.yarns.getD j 0) (s.genByte d j k))))
    let drop := if (s.curEntry d).cache then 0 else (n / 16 - g.played / 16) * (16 * y)
    (s.withGen d (fun g => { g with
      played := n, lastAt := g.passStart + (n - 1) * g.period, pre := g.pre.drop drop
      held := yarns.map (fun x => x.2.getLastD 0) })).emit (.stimulus d (g.passStart + g.played * g.period) g.period yarns)

/-- The level byte that an output yarn drives now: the idle word, the sample that plays, or the last one played (R246). None: an
input. -/
def State.yarnLevel (s : State) (d : Die) (y : Nat) : Option Byte :=
  if !(s.outputYarns d).contains y then none
  else
    let g := s.gens[d]
    let j := g.yarns.findIdx (fun x => x == y)
    some (match g.state with
      | .stopped => s.idleByte d y
      | .priming => s.idleByte d y
      | .ready => s.idleByte d y
      | .running =>
        let n := min (s.genDue d) (s.genHas d)
        if s.frozen ∨ n ≤ g.played then g.held.getD j 0 else s.yarnByte d y (s.genByte d j (n - 1))
      | .waiting => g.held.getD j 0
      | .ending => g.held.getD j 0)

/-! ### Refill (R253) -/

/-- The prefetch buffer and the landing buffer. -/
def prefetchBytes : Nat := 262144
/-- The landing buffer. -/
def landingBytes : Nat := 65536

/-- The first DEEP pass on the path from an entry on: its entry, pass and offset. A path that stays in the loop cache has none. -/
def State.genSeek (s : State) (d : Die) : Nat → Fin 4096 → Option (Fin 4096 × Nat × Nat)
  | 0, _ => none
  | n + 1, i =>
    let e := s.genEntry d i
    if !e.cache then some (i, 0, 0)
    else if e.endless then none
    else match e.follow i with
      | none => none
      | some j => s.genSeek d n j

/-- What the prefetcher reads once a pass of an entry is read whole: the path that the exits predict. -/
def State.genAfter (s : State) (d : Die) (i : Fin 4096) (pass : Nat) : Option (Fin 4096 × Nat × Nat) :=
  let e := s.genEntry d i
  if e.endless ∨ pass < e.loops then some (i, pass + 1, 0)
  else match e.follow i with
    | none => none
    | some j => s.genSeek d 4096 j

/-- A read of at most a group, from an address on. -/
def groupFetch (landing : Bool) (addr left : Nat) : GenFetch := { landing := landing, addr := addr, len := min (1024 - addr % 1024) left }

/-- What the landing buffer still lacks of the current entry's TARGET (R253). -/
def State.landingNeed (s : State) (d : Die) : Option GenFetch :=
  let g := s.gens[d]
  let t := s.genEntry d (s.curEntry d).target
  let want := min landingBytes (t.bytes g.yarns.length)
  if t.cache ∨ g.landBad ∨ want ≤ g.land.length then none
  else some (groupFetch true (t.start + g.land.length) (want - g.land.length))

/-- What the prefetch buffer has room for (R253). -/
def State.prefetchNeed (s : State) (d : Die) : Option GenFetch :=
  let g := s.gens[d]
  match g.fetch with
  | none => none
  | some (i, _, off) =>
    let e := s.genEntry d i
    let f := groupFetch false (e.start + off) (e.bytes g.yarns.length - off)
    if g.preBad ∨ prefetchBytes < g.pre.length + f.len then none else some f

/-- The next refill read: the landing buffer comes first (DESIGN CHOICE, assumption 82). Without output yarns nothing is read (R247). -/
def State.genNeed (s : State) (d : Die) : Option GenFetch :=
  if s.gens[d].yarns.isEmpty then none else (s.landingNeed d).or (s.prefetchNeed d)

/-- The QoS port of a generator's refill: P2 or P3 (R253). -/
def genPort (d : Die) : Fin 8 := ⟨2 + d.val, by omega⟩

/-- A state in which the generator refills its buffers (R253). -/
def GenState.refills (g : GenState) : Bool :=
  match g with
  | .priming => true
  | .ready => true
  | .running => true
  | .waiting => true
  | .stopped => false
  | .ending => false

/-- The next refill read of a generator enters its port (R253). -/
def State.genAsk (s : State) (d : Die) : State :=
  if s.gens[d].state.refills ∧ s.gens[d].asked.isNone ∧ s.deep.ports[genPort d].isNone ∧ !s.frozen then
    match s.genNeed d with
    | some f => (s.withGen d (fun g => { g with asked := some f })).dsAsk (genPort d) f.addr false
    | none => s
  else s

/-- Both buffers hold what they can (R251). -/
def State.genFilled (s : State) (d : Die) : Bool := (s.genNeed d).isNone && s.gens[d].asked.isNone

/-- The prefetcher's place after `n` more bytes. -/
def State.genAdvance (s : State) (d : Die) (n : Nat) : Option (Fin 4096 × Nat × Nat) :=
  match s.gens[d].fetch with
  | none => none
  | some (i, pass, off) => if (s.genEntry d i).bytes s.gens[d].yarns.length ≤ off + n then s.genAfter d i pass else some (i, pass, off + n)

/-- A refill read has returned: its data enter their buffer, and an uncorrectable word ends that buffer's data (R253, R255). -/
def State.genTake (s : State) (d : Die) (bad : Bool) : State :=
  match s.gens[d].asked with
  | none => s
  | some f =>
    let data := memReadBlock s.dsMem f.addr f.len
    let next := s.genAdvance d f.len
    s.withGen d (fun g =>
      let g := { g with asked := none }
      if f.landing then if bad then { g with landBad := true } else { g with land := g.land ++ data }
      else if bad then { g with preBad := true } else { g with pre := g.pre ++ data, fetch := next })

/-- A taken jump enters entry `i` (R253): the landing buffer's data play first, and the prefetcher goes on behind them. -/
def State.genLand (s : State) (d : Die) (i : Fin 4096) : State :=
  let e := s.genEntry d i
  let n := s.gens[d].land.length
  let next := if e.cache then s.genSeek d 4096 i else if e.bytes s.gens[d].yarns.length ≤ n then s.genAfter d i 0 else some (i, 0, n)
  s.withGen d (fun g => { g with
    pre := if e.cache then [] else g.land, preBad := !e.cache && g.landBad, fetch := next, asked := none })

/-- L is raised to 200 ns plus one tick at the prime, with a clamp-report entry (R257). -/
def State.clampSync (s : State) (d : Die) : State :=
  let least := 200 + 10 * s.tb.tickLen
  let v := s.genNat d 0x0D
  if v < least then (s.putNat (0x5000 + d.val) 0x0D least).clampOp (0x5000 + d.val, 0x0D) 0 .part v least else s

/-- PRIMING begins: output set, f_base and divider latched, counters zeroed, the sample PLL started, the buffers' reads begun when the checks
pass (R247, R248, R251, R253, R262). -/
def State.genPrime (s : State) (d : Die) (startCmd : Bool) (target : Option Qword) : State :=
  let s := s.clampSync d
  let s := (List.range 10).foldl (fun s i => s.putNat (0x5014 + d.val) (i + 1) 0) s
  let yarns := s.outputYarns d
  let base := s.wantedBase d
  let first := BitVec.toFin (BitVec.ofNat 12 (s.genNat d 2))
  let path := s.genSeek d 4096 first
  let s := s.withGen d (fun g => { g with
    state := .priming, endStatus := .none, yarns := yarns, fBase := base, m := s.genNat d 1, entry := first, pass := 0, jump := none,
    endPass := false, startCmd := startCmd, timeTarget := target, startAt := none, endAfter := .stopped, pre := [], land := [],
    fetch := path, preBad := false, landBad := false, asked := none, played := 0, held := [] })
  let s := (s.putNat (0x5010 + d.val) 8 yarns.length).startPll (spll d) (splLCount base)
  if (s.genCheck d).isNone then s.genAsk d else s

/-- The generator comes to rest: outputs on the idle word, and its vector (R246, R333). -/
def State.genRest (s : State) (d : Die) : State :=
  (((s.withGen d (fun g => { g with
    state := .stopped, startAt := none, jump := none, endPass := false, planned := 0, timeTarget := none, pre := [], land := []
    fetch := none, asked := none })).restSpll d).raise (pgVector d)).showIdle d

/-- A refused start: back to STOPPED with its end status and failing entry (R251). -/
def State.genRefuse (s : State) (d : Die) (e : GenEnd) (entry : Nat) : State :=
  (s.withGen d (fun g => { g with endStatus := e, failing := entry })).genRest d

/-- The timeword of a moment of `now` near the present, at the nominal rate. -/
def State.timeAt (s : State) (t : Nat) : Qword :=
  s.time + BitVec.ofInt 64 (((t : Int) - s.now) * 1024 / 5)

/-- A time from the present timeword on, as a moment of `now` at the nominal rate: the first unit not before it. `d` counts 2^−16 ns. -/
def State.momentOf (s : State) (d : Int) : Int := (s.now : Int) - -(d * 5) / 1024

/-- The first f_base edge at or after a moment. -/
def edgeFrom (period t : Nat) : Nat := (t + period - 1) / period * period

/-- The run starts: the first sample stands at the balls at moment `t` (R251). The landing buffer already holds the start entry's
TARGET. -/
def State.genRun (s : State) (d : Die) (t : Nat) : State :=
  let start := BitVec.toFin (BitVec.ofNat 12 (s.genNat d 2))
  let tw := s.timeAt t
  (s.withGen d (fun g => { g with
    state := .running, entry := start, pass := 0, passStart := t, played := 0, t0 := tw, startAt := none, jump := none,
    endPass := false, startCmd := false, timeTarget := none })).put (0x5010 + d.val) 5 (.num tw.toNat)

/-! ### Endings (R255) -/

/-- The sequence ends at a moment: the outputs hold the last sample played for the hold time from then on, and its time is recorded
(R255). The spec does not say where the hold time starts; here it is where the next sample would stand (DEDUCED, assumption 82). -/
def State.genEnd (s : State) (d : Die) (e : GenEnd) (from_ : Nat) : State :=
  let tw := s.timeAt s.gens[d].lastAt
  (s.withGen d (fun g => { g with
    state := .ending, endStatus := e, holdUntil := from_ + ns (s.genNat d 5), startAt := none, jump := none,
    endPass := false, asked := none })).put (0x5010 + d.val) 6 (.num tw.toNat)

/-- A stop without a sample played, in PRIMING or READY: STOPPED at once (R255). -/
def State.genStopIdle (s : State) (d : Die) (e : GenEnd) : State :=
  (s.withGen d (fun g => { g with endStatus := e })).genRest d

/-- An underrun or DATA ending at the first sample whose data are not there: its place, the count, UNDERRUN, a GEN_UNDERRUN entry and the
interrupt (R255). -/
def State.genFail (s : State) (d : Die) (e : GenEnd) : State :=
  let g := s.gens[d]
  let off := g.played
  let i := 0x5014 + d.val
  let s := s.genEnd d e (g.passStart + off * g.period)
  let s := (((s.putNat i 8 g.entry.val).putNat i 9 g.pass).putNat i 0x0A off).bump i 1
  (s.setEvBit (.pg d) 8).bb 0x0092 2 (leBytes 1 d.val ++ leBytes 2 g.entry.val ++ leBytes 4 g.pass)

/-- What is due is played, and a sample that is due and not there ends the sequence: UNDERRUN, or DATA when its read was uncorrectable
(R255). -/
def State.genSettle (s : State) (d : Die) : State :=
  let s := s.genPlay d
  if s.gens[d].state = .running ∧ s.gens[d].played < s.genDue d then
    s.genFail d (if s.gens[d].preBad then .data else .underrun) else s

/-- A refill read of a generator has completed (R253): its data come too late for samples that are due already. -/
def State.genRefilled (s : State) (d : Die) (bad : Bool) : State := ((s.genSettle d).genTake d bad).genAsk d

/-- A stop under the stop mode (R255, R260), with its end status. -/
def State.genHalt (s : State) (d : Die) (e : GenEnd) : State :=
  let s := s.genSettle d
  let g := s.gens[d]
  match g.state with
  | .priming => s.genStopIdle d e
  | .ready => s.genStopIdle d e
  | .waiting => s.genEnd d e s.now
  | .running =>
    if s.genNat d 4 = 0 ∧ !g.endPass then s.withGen d (fun g => { g with endPass := true, endAfter := e })
    else s.genEnd d e s.now
  | .stopped => s
  | .ending => s

/-! ### Passes and jumps (R250, R252) -/

/-- The length of a pass of an entry. -/
def passLen (g : Gen) (e : GenEntry) : Nat := e.samples * g.period

/-- The moment at which the current pass ends. -/
def State.passEnd (s : State) (d : Die) : Nat := s.gens[d].passStart + passLen s.gens[d] (s.curEntry d)

/-- Entry `i` begins at moment `t`; the landing buffer is read for its TARGET (R253). -/
def State.genEnter (s : State) (d : Die) (i : Fin 4096) (t : Nat) : State :=
  s.withGen d (fun g => { g with
    state := .running, entry := i, pass := 0, passStart := t, played := 0, startAt := none, land := [], landBad := false
    asked := g.asked.filter (fun f => !f.landing) })

/-- What follows the last pass of an entry (R250). -/
def State.genExit (s : State) (d : Die) (e : GenEntry) (t : Nat) : State :=
  let g := s.gens[d]
  match e.exit with
  | 0 => if g.entry.val = 4095 then s.genEnd d .done t else s.genEnter d (g.entry + 1) t
  | 1 => s.genEnter d e.target t
  | 2 => s.withGen d (fun g => { g with state := .waiting, waitFor := .knot, startAt := none })
  | 3 => s.withGen d (fun g => { g with state := .waiting, waitFor := .syncin, startAt := none })
  | _ => s.genEnd d .done t

/-- A pass ends at moment `t` (R250, R252, R255): a stop at the boundary, a jump that is due, another pass, or the exit. -/
def State.genPass (s : State) (d : Die) (t : Nat) : State :=
  let g := s.gens[d]
  let e := s.curEntry d
  if g.endPass then s.genEnd d g.endAfter t
  else if g.jump = some false then
    (((s.withGen d (fun g => { g with jump := none })).bump (0x5014 + d.val) 2).genLand d e.target).genEnter d e.target t
  else
    let s := s.withGen d (fun g => { g with jump := g.jump.map (fun _ => false) })
    if e.endless ∨ g.pass < e.loops then s.withGen d (fun g => { g with pass := g.pass + 1, passStart := t, played := 0 })
    else s.genExit d e t

/-- The bit of object 5000+d:07 that enables a jump source, and its lead E in ns (R252). -/
def jumpLead (tow : Bool) : JumpSource → Nat × Nat
  | .request _ => (0, 1040)
  | .staircase => (1, if tow then 108 else 76)
  | .trigin _ _ => (2, 64)

/-- A jump request whose reference event stands at a moment (R252): ignored, merged, taken at the end of this pass, or deferred to the end
of the next. -/
def State.genJump (s : State) (d : Die) (src : JumpSource) (ref : Nat) : State :=
  let g := s.gens[d]
  let i := 0x5014 + d.val
  let lead := jumpLead s.dies[d].plan.program.towDelay src
  if !(s.genNat d 7).testBit lead.1 then
    match src with
    | .request via => s.ignoreOp (genLoc d via) via .state
    | .staircase => s
    | .trigin _ _ => s
  else
    match g.state with
    | .running =>
      if g.jump.isSome then s.bump i 4
      else if ref + ns lead.2 + 65 * g.period ≤ s.passEnd d then s.withGen d (fun g => { g with jump := some false })
      else ((s.withGen d (fun g => { g with jump := some true })).bump i 3).setEvBit (.pg d) 9
    | .waiting =>
      if g.jump.isSome then s.bump i 4
      else ((s.withGen d (fun g => { g with jump := some false })).bump i 3).setEvBit (.pg d) 9
    | .stopped | .priming | .ready | .ending => s.bump i 5

/-- An edge of a TRIGIN input, latched at a moment: a jump request when it is the chosen edge of the chosen input (R252). -/
def State.genTrigin (s : State) (d : Die) (pin : Fin 4) (rising : Bool) (ref : Nat) : State :=
  if s.genNat d 9 = pin.val ∧ (s.genNat d 0x0A = 0) = rising then s.genJump d (.trigin pin rising) ref else s

/-! ### Starts (R251, R256, R257) -/

/-- A start that carries a target time, from compare-slot function 7 or 8 (R179, R251): ignored unless the start source is
TIME, the generator STOPPED or READY and the package ON. -/
def State.genTimeStart (s : State) (d : Die) (target : Qword) : State :=
  let g := s.gens[d]
  if s.genNat d 3 ≠ 1 ∨ !s.hasDie d then s.ignoreOp (genLoc d .part) .part .state
  else match g.state with
    | .stopped => if s.isOn then s.genPrime d false (some target) else s.ignoreOp (genLoc d .part) .part .power
    | .ready =>
      let at_ := s.momentOf (target - s.time).toInt + us 1
      s.withGen d (fun g => { g with startAt := some (edgeFrom g.fBase (max at_.toNat s.now)), timeTarget := some target })
    | .priming | .running | .waiting | .ending => s.ignoreOp (genLoc d .part) .part .state

/-- From the tick that reads a sync pulse high to the start at t_s − C + L, in units of `now` (R257). t_s lies the stamped phase before the
tick; a calibrated generator takes its stored phase (R259). -/
def State.syncDelay (s : State) (d : Die) (phase : Nat) : Nat :=
  let ph := if s.gens[d].calibrated then s.objNat (0x5020 + d.val) 2 else phase
  ns (s.genNat d 0x0D) - (s.genNat d 0x0E + ph) * 8 / 25

/-- A sync pulse schedules the start of a waiting generator, and a calibrated one publishes its deviation (R257, R259). -/
def State.genSync (s : State) (d : Die) (phase : Nat) : State :=
  let g := s.gens[d]
  let ready := decide (g.state = .ready) && decide (s.genNat d 3 = 2)
  let waits := decide (g.state = .waiting) && decide (g.waitFor = .syncin)
  if (ready || waits) && g.startAt.isNone then
    let s := s.withGen d (fun g => { g with startAt := some (s.now + s.syncDelay d phase) })
    if g.calibrated then
      let dev : Int := (phase : Int) - s.objInt (0x5020 + d.val) 2
      let s := s.putInt (0x5020 + d.val) 6 dev
      if 125 < 2 * dev.natAbs then (s.bump (0x5014 + d.val) 7).setEvBit (.pg d) 11 else s
    else s
  else s

/-- A waiting generator takes an accepted knot of its mask (R256): TARGET begins at the first f_base edge at or after K plus the
offset, or 200 ns after the arrival when that is late. Answers whether the knot was used. -/
def State.genKnot (s : State) (d : Die) (cls : Nat) (k : Qword) : State × Bool :=
  let g := s.gens[d]
  if g.state = .waiting ∧ g.waitFor = .knot ∧ g.startAt.isNone ∧ (s.genNat d 0x0B).testBit cls then
    let off : Int := s.objInt (0x5000 + d.val) 0x0C
    let want := s.momentOf ((k - s.time).toInt + off * 65536)
    let edge := edgeFrom g.fBase want.toNat
    if want < 0 ∨ edge < s.now + ns 200 then
      (((s.withGen d (fun g => { g with startAt := some (s.now + ns 200) })).bump (0x5014 + d.val) 6).setEvBit (.pg d) 10, true)
    else (s.withGen d (fun g => { g with startAt := some edge }), true)
  else (s, false)

/-- A die's sample PLL coasts: its generator ends under the stop mode with status COAST (R260). -/
def State.genCoast (s : State) (d : Die) : State := s.genHalt d .coast

/-- A reset or power loss stops the generator, with status ABORTED when the always-on domain survives, and the yarns go to input (R28,
R260). -/
def State.genAbort (s : State) (d : Die) : State :=
  let s := s.genPlay d
  let s := if (s.outputYarns d).isEmpty then s else s.emit (.stimulus d s.now 0 [])
  s.withGen d (fun g => { Gen.reset with
    endStatus := if g.state = .stopped then g.endStatus else .aborted, cacheValid := g.cacheValid, t0 := g.t0 })

end Sys2Proof.Machine
end

