-- ==== Sys2Proof/Machine/Terms.lean ====
section
/-! DEFINITION. The front end and the trigger terms of one sample (R26, R27, R33, R34, R47 to R65). -/

namespace Sys2Proof.Machine

/-- The rounding of the sample-time accumulator to a timeword (R175). The accumulator counts 2^−32 ns ÷ 3,200. -/
def accTime (acc : Nat) : Qword := BitVec.ofNat 64 ((2 * acc + 209715200) / 419430400)

/-- One sample's place: its number, its position and the previous sample's position after t(0), its latch on the common
clock of the package, its accumulator and its timeword. -/
structure SampleAt where
  s : Nat
  pos : Nat
  prevPos : Nat
  latch : Nat
  prevLatch : Nat
  acc : Nat
  time : Qword
  deriving DecidableEq, Repr

/-- Half-nanovolts in a microvolt. -/
def halfNv (uv : Int) : Int := 2000 * uv

/-- The yarn of a local channel is in pair mode (R27). -/
def pairMode (st : Store) (d : Die) (c : Nat) : Bool := storeBool st 0x2031 (128 * d.val + c / 8)

/-- The threshold T of a channel in half-nanovolts (R26). -/
def thresholdOf (st : Store) (d : Die) (c : Nat) : Int :=
  let code := chanInt st 0x2000 (dieBase d + c)
  if storeInt st 0x2040 (8 * d.val + c / 128) = 1 then code * 1171875 else code * 2343750

/-- The threshold D of a differential pair in half-nanovolts (R27). -/
def pairThreshold (st : Store) (d : Die) (c : Nat) : Int := (chanInt st 0x2000 (dieBase d + c) - 512) * 390625

/-- H/2 of a channel in half-nanovolts (R26). -/
def halfHyst (st : Store) (d : Die) (c : Nat) : Int := chanInt st 0x2010 (dieBase d + c) * 4000000

/-- A comparator with hysteresis: the new level for input `x` (R26). -/
def compare (x t h : Int) (level : Bool) : Bool := if t + h < x then true else if x < t - h then false else level

/-- The level of a channel after a change at its ball (R26, R27). Only the even channel of a pair changes. -/
def channelLevel (st : Store) (d : Die) (pins : SMap Int) (c : Nat) (level : Bool) : Bool :=
  let v := fun i => halfNv ((mget i pins).getD 0)
  if pairMode st d c then
    if c % 2 = 0 then compare (v c - v (c + 1)) (pairThreshold st d c) (halfHyst st d c) level else false
  else compare (v c) (thresholdOf st d c) (halfHyst st d c) level

/-- The channel that a pin change bears on: the even channel of a pair (R27). -/
def carrier (st : Store) (d : Die) (c : Nat) : Nat := if pairMode st d c then c - c % 2 else c

/-- The delay that the objects of a global channel ask for, in steps (R32). -/
def delaySum (st : Store) (ch : Nat) : Int := chanInt st 0x2020 ch + storeInt st 0x2030 (ch / 8)

/-- The delay applied to a global channel, in steps of 15.625 ps (R32). -/
def chanDelay (st : Store) (ch : Nat) : Int := clampInt (-64) 64 (delaySum st ch)

/-- A level word with one channel changed. -/
def setLevel (levels : BitVec 1024) (c : Nat) (v : Bool) : BitVec 1024 :=
  if v then levels ||| BitVec.ofNat 1024 (2 ^ c) else levels &&& ~~~(BitVec.ofNat 1024 (2 ^ c))

/-- Dead time of a TDC interpolator: 1 ns (R34). -/
def deadTime : Nat := 320

/-- A position lies in the dead time after the last fine edge of an interpolator (R34). -/
def inDeadTime (last : Option Nat) (pos : Nat) : Bool :=
  match last with
  | some p => decide (pos < p + deadTime)
  | none => false

/-- An edge at `pos` is fine-time saturated: within 1 ns of the last edge measured with fine time (R34), or the
interpolator's fine time is unavailable (R35). -/
def isSaturated (fe : FrontEnd) (c pos : Nat) : Bool :=
  fe.noFine.getLsbD c || inDeadTime (mget c fe.fine) pos

/-- One edge taken into the front end: interpolator, pulse catcher and level (R33, R34, R56, R57). `prev` is the position at which the
edge's sample period began. A saturated edge lies at that position, and ends a pulse that counts as narrower than 1 ns (R56). Every
pulse that the operand lists is seen, also one under 120 ps, which R57 lets the part miss (DESIGN CHOICE, assumption 14). -/
def takeEdge (fe : FrontEnd) (prev c pos : Nat) (level : Bool) : FrontEnd :=
  let sat := isSaturated fe c pos
  let t := if sat then prev else pos
  let pulse : List Pulse := match mget c fe.last with
    | some l => [{ chan := c, high := !level, width := t - l.pos, narrow := sat }]
    | none => []
  { fe with
    levels := setLevel fe.levels c level
    edges := fe.edges ++ [{ chan := c, pos := pos, level := level, saturated := sat }]
    pulses := fe.pulses ++ pulse
    last := mput c { pos := t, saturated := sat, first := (mget c fe.last).isNone } fe.last
    fine := if sat then fe.fine else mput c pos fe.fine }

/-! ### From the balls to the samplers (R26, R32, R36, R64) -/

/-- A change put in its place among those that wait. -/
def putWaiting (w : Waiting) (l : List Waiting) : List Waiting :=
  l.takeWhile (fun x => decide (x.pos ≤ w.pos)) ++ w :: l.dropWhile (fun x => decide (x.pos ≤ w.pos))

/-- An edge kind takes a change to a level: 0 rising, 1 falling, 2 either. -/
def kindTakes (kind : Nat) (level : Bool) : Bool := decide (kind = 2) || (decide (kind = 0) == level)

/-- An edge of a channel as an active edge of the state clocks it feeds (R36). Every edge that the operand lists is resolved, also beyond
the limits of R36 (DESIGN CHOICE, assumption 14); one before the opening, or not after the last one sampled, samples nothing. -/
def FrontEnd.takeClock (p : Plan) (fresh : Bool) (c : Nat) (pos : Int) (level : Bool) (fe : FrontEnd) : FrontEnd :=
  { fe with clocks := Vector.ofFn (fun (k : Fin 4) =>
      if p.clockSrc[k] = c ∧ kindTakes p.clockEdge[k] level ∧ 0 ≤ pos ∧ (fresh ∨ (fe.clkPos[k] : Int) < pos) then fe.clocks[k] ++ [pos.toNat]
      else fe.clocks[k]) }

/-- A change at a channel's ball (R26, R27, R32): its comparator switches, and the edge enters the channel's delay line. `origin` is the
position of t(0) from the opening, `fresh` says that no sample has been taken. -/
def FrontEnd.takePin (st : Store) (d : Die) (p : Plan) (origin : Nat) (fresh : Bool) (fe : FrontEnd) (x : PinChange) : FrontEnd :=
  let fe := { fe with pins := mput x.chan.val x.uv fe.pins }
  let c := carrier st d x.chan.val
  let new := channelLevel st d fe.pins c (fe.ball.getLsbD c)
  if new = fe.ball.getLsbD c then fe
  else
    let pos := 5 * (x.at_ + chanDelay st (dieBase d + c)) - origin
    let fe := { fe with ball := setLevel fe.ball c new, waiting := putWaiting { chan := c, pos := pos, level := new } fe.waiting }
    if p.state then fe.takeClock p fresh c pos new else fe

/-- The level of a TRIGIN input after a change at its ball (R64): the comparator in the FULL range. -/
def trigInLevel (st : Store) (i : Fin 4) (uv : Int) (level : Bool) : Bool :=
  compare (halfNv uv) (storeInt st 0x3280 (i.val + 1) * 2343750) (storeInt st 0x3281 (i.val + 1) * 4000000) level

/-- A TRIGIN level word with one input changed. -/
def setTrig (levels : BitVec 4) (i : Nat) (v : Bool) : BitVec 4 :=
  if v then levels ||| BitVec.ofNat 4 (2 ^ i) else levels &&& ~~~(BitVec.ofNat 4 (2 ^ i))

/-- A change at a TRIGIN ball (R64), behind the die's own TRIGIN delay (objects 3292, 3293). -/
def FrontEnd.takeTrig (st : Store) (d : Die) (origin : Nat) (fe : FrontEnd) (x : TrigChange) : FrontEnd :=
  let old := fe.trigBall.getLsbD x.pin.val
  let new := trigInLevel st x.pin x.uv old
  let fe := { fe with trigPins := fe.trigPins.set x.pin x.uv }
  if new = old then fe
  else { fe with
    trigBall := setTrig fe.trigBall x.pin.val new
    trigWaiting := putWaiting
      { chan := x.pin.val, pos := 5 * (x.at_ + storeInt st (0x3292 + d.val) (x.pin.val + 1)) - origin, level := new } fe.trigWaiting }

/-- What a core word brings to the balls of a die. -/
def FrontEnd.takeWord (st : Store) (d : Die) (p : Plan) (origin : Nat) (fresh : Bool) (w : CoreWordIn) (fe : FrontEnd) : FrontEnd :=
  w.trig.foldl (FrontEnd.takeTrig st d origin) (w.pins.foldl (FrontEnd.takePin st d p origin fresh) fe)

/-- The positions at which a channel's present and previous samples are taken: the die's own, or in state mode those of its strand's
state clock (R36, R37). -/
def FrontEnd.span (p : Plan) (at_ : SampleAt) (c : Nat) (fe : FrontEnd) : Nat × Nat :=
  if p.state then
    let k := p.clockOf.toList.getD (c / 128) 0
    (fe.clkPos[k], fe.clkPrev[k])
  else (at_.pos, at_.prevPos)

/-- The moment of an edge as the interpolator reports it (R33): the bin of 15.625 ps in its period. An edge whose word came after the
samples of its period counts from the start of the present one. -/
def binned (prev : Nat) (pos : Int) : Nat := prev + (max pos prev - prev).toNat / 5 * 5

/-- A waiting edge reaches the sampler (R33). In a first sample it sets the level and makes no edge (R47). -/
def FrontEnd.sampleEdge (p : Plan) (at_ : SampleAt) (fe : FrontEnd) (w : Waiting) : FrontEnd :=
  if fe.first then { fe with levels := setLevel fe.levels w.chan w.level }
  else
    let prev := (fe.span p at_ w.chan).2
    takeEdge fe prev w.chan (binned prev w.pos) w.level

/-- A waiting TRIGIN edge reaches the sampler (R64): the interpolator has the dead time of R34. -/
def FrontEnd.sampleTrig (at_ : SampleAt) (fe : FrontEnd) (w : Waiting) : FrontEnd :=
  let i := Fin.ofNat 4 w.chan
  let fe := { fe with trigLevels := setTrig fe.trigLevels w.chan w.level }
  if fe.first then fe
  else
    let pos := binned at_.prevPos w.pos
    let sat := inDeadTime fe.trigLast[i] pos
    { fe with
      trigFine := fe.trigFine.set i (some ((pos - at_.prevPos) / 5, sat))
      trigLast := if sat then fe.trigLast else fe.trigLast.set i (some pos) }

/-! ### Terms -/

/-- A pattern term in one sample (R51). -/
def patternTerm (t : PatternTerm) (levels : BitVec 1024) : Bool :=
  if t.any then (~~~(levels ^^^ t.value) &&& t.care) != 0 else ((levels ^^^ t.value) &&& t.care) == 0

/-- A change of one level against an edge kind (R53). -/
def edgeKind (kind : Nat) (old new : Bool) : Bool :=
  match kind with
  | 0 => !old && new
  | 1 => old && !new
  | _ => old != new

/-- An edge term in one sample (R53); false in the first evaluated sample (R47). -/
def edgeTerm (t : EdgeTerm) (fe : FrontEnd) : Bool :=
  !fe.first && t.chans.any (fun c => edgeKind t.kind (fe.prev.getLsbD c) (fe.levels.getLsbD c))

/-- A range term in one sample (R54). -/
def rangeTerm (t : RangeTerm) (levels : BitVec 1024) : Bool :=
  let v := groupValue t.group levels
  if t.outside then decide (v < t.low ∨ t.high < v) else decide (t.low ≤ v ∧ v ≤ t.high)

/-- A glitch term in the sample after the period of its trailing edge (R58). -/
def glitchTerm (t : GlitchTerm) (pulses : List Pulse) : Bool :=
  pulses.any (fun p => t.chans.contains p.chan && (t.polarity == 2 || (p.high == (t.polarity == 0)))
    && (p.narrow || decide (p.width < 5 * t.width)))

/-- The width of a pulse as a duration term judges it: under 1 ns when its trailing edge is saturated (R56). -/
def judgedWidth (p : Pulse) : Nat := if p.narrow then min p.width (deadTime - 1) else p.width

/-- A duration term on a channel (R59). -/
def durChannel (t : DurTerm) (fe : FrontEnd) (pos : Nat) : Bool :=
  if t.ended then
    fe.pulses.any (fun p => p.chan == t.src && p.high == t.level
      && decide (5 * t.dmin ≤ judgedWidth p ∧ judgedWidth p ≤ 5 * t.dmax))
  else
    let start := match mget t.src fe.last with
      | some l => l.pos
      | none => fe.base
    (fe.levels.getLsbD t.src == t.level) && decide (5 * t.dmin ≤ pos - start)

/-- A duration term on a pattern term (R59). -/
def durPattern (t : DurTerm) (h : PatHist) (pos : Nat) : Bool :=
  if t.ended then
    match h.endedFor with
    | some w => (h.value != t.level) && decide (5 * t.dmin ≤ w ∧ w ≤ 5 * t.dmax)
    | none => false
  else (h.value == t.level) && decide (5 * t.dmin ≤ pos - h.since)

/-- A TRIGIN term in one sample (R64). -/
def trigTerm (mode : Nat) (fe : FrontEnd) (i : Nat) : Bool :=
  let now := fe.trigLevels.getLsbD i
  let old := fe.trigPrev.getLsbD i
  match mode with
  | 0 => now
  | 1 => !now
  | 2 => !fe.first && edgeKind 0 old now
  | 3 => !fe.first && edgeKind 1 old now
  | _ => !fe.first && edgeKind 2 old now

/-- The value of the term that a selector names (R49). Reserved selectors read as FALSE. -/
def termValue (p : Program) (fe : FrontEnd) (pos sel : Nat) : Bool :=
  if sel ≤ 0x3F then ((mget sel p.patterns).map (fun t => patternTerm t fe.levels)).getD false
  else if sel ≤ 0x5F then ((mget (sel - 0x40) p.edges).map (fun t => edgeTerm t fe)).getD false
  else if sel ≤ 0x6F then ((mget (sel - 0x60) p.ranges).map (fun t => rangeTerm t fe.levels)).getD false
  else if sel ≤ 0x77 then ((mget (sel - 0x70) p.glitches).map (fun t => glitchTerm t fe.pulses)).getD false
  else if sel ≤ 0x7F then
    match mget (sel - 0x78) p.durations with
    | some t =>
      if t.pattern then ((mget (sel - 0x78) fe.pats).map (fun h => durPattern t h pos)).getD false
      else durChannel t fe pos
    | none => false
  else if sel ≤ 0x8F then fe.towNow.getLsbD (sel - 0x80)
  else if sel ≤ 0x97 then fe.knotNow.any (fun k => k.1.val == sel - 0x90)
  else if sel ≤ 0x9B then trigTerm (p.trigMode.toList.getD (sel - 0x98) 0) fe (sel - 0x98)
  else sel == 0xFF

/-- The history of the pattern term that a duration term watches, one sample on (R59). The time at a level is the distance of two
samples; in state mode, which has no sample period, that of their clock edges (DESIGN CHOICE, assumption 14). -/
def stepPat (p : Program) (fe : FrontEnd) (pos : Nat) (t : DurTerm) (h : Option PatHist) : PatHist :=
  let v := termValue p fe pos t.src
  match h with
  | none => { value := v, since := pos, known := false, endedFor := none }
  | some h =>
    if v = h.value then { h with endedFor := none }
    else { value := v, since := pos, known := true, endedFor := if h.known then some (pos - h.since) else none }

/-- The pattern-term histories of a program, one sample on. -/
def stepPats (p : Program) (fe : FrontEnd) (pos : Nat) : SMap PatHist :=
  (p.durations.filter (fun d => d.2.pattern)).map (fun d => (d.1, stepPat p fe pos d.2 (mget d.1 fe.pats)))

/-- The moment after its latch at which a sample's terms are formed: 20 ns, or 52 ns with the towline delay (R62). -/
def formDelay (p : Program) : Nat := if p.towDelay then 16640 else 6400

/-- A signed difference of timewords is not negative: `t` is at or after `u` (R178). -/
def atOrAfter (t u : Qword) : Bool := decide (0 ≤ (t - u).toInt)

/-- Towline flags and knot-in terms that fall into this sample (R60, R62, R63). Sample 0 takes every flag at or before t(0), and a flag
whose sample the die has already evaluated is dropped: the order of the two dies' core words is the sender's (DESIGN CHOICE,
assumption 14). -/
def takeArrivals (p : Program) (at_ : SampleAt) (fe : FrontEnd) : FrontEnd :=
  let tow := fe.towIn.filter (fun f => decide (f.2 ≤ at_.latch))
  let arr := fe.knotArrived.filter (fun k => decide (k.2.1 < at_.latch + formDelay p))
  let due := fe.knotPending.filter (fun k => atOrAfter at_.time k.2.1)
  { fe with
    towNow := tow.foldl (fun m f => if decide (at_.prevLatch < f.2) || at_.s == 0 then m ||| f.1 else m) 0
    towIn := fe.towIn.filter (fun f => decide (at_.latch < f.2))
    knotNow := arr.map (fun k => (k.1, k.2.2)) ++ due.map (fun k => (k.1, k.2.2))
    knotArrived := fe.knotArrived.filter (fun k => !decide (k.2.1 < at_.latch + formDelay p))
    knotPending := fe.knotPending.filter (fun k => !atOrAfter at_.time k.2.1) }

/-- The front end at one sample: the edges before its latch, then the terms' own history (R33). The first sample of a convoy, and
the first after a thaw, starts without history (R47, R410). -/
def feSample (p : Plan) (at_ : SampleAt) (fe : FrontEnd) : FrontEnd :=
  let first := decide (at_.s = 0) || fe.restart
  let fe := { fe with
    prev := fe.levels, trigPrev := fe.trigLevels, edges := [], pulses := [], first := first, restart := false
    base := if first then at_.pos else fe.base
    last := if first then [] else fe.last
    pats := if first then [] else fe.pats }
  let here := fun (w : Waiting) => decide (w.pos < (fe.span p at_ w.chan).1)
  let trigHere := fun (w : Waiting) => decide (w.pos < at_.pos)
  let now := fe.waiting.filter here
  let trigNow := fe.trigWaiting.filter trigHere
  let fe := { fe with waiting := fe.waiting.filter (fun w => !here w), trigWaiting := fe.trigWaiting.filter (fun w => !trigHere w) }
  let fe := trigNow.foldl (FrontEnd.sampleTrig at_) (now.foldl (FrontEnd.sampleEdge p at_) fe)
  let fe := takeArrivals p.program at_ fe
  { fe with pats := stepPats p.program fe at_.pos }

end Sys2Proof.Machine
end

