-- ==== Sys2Proof/Machine/Staircase.lean ====
section
/-! DEFINITION. The staircase of a die (chapter 04): event records, snapshots, conditions, actions, triggers, and one sample's
evaluation. A `Run` is a die in the midst of a core word, with the effects it has on the rest of the part. -/

namespace Sys2Proof.Machine

/-- An effect of a die's sampling on the rest of the part. -/
inductive Fx where
  | bump (idx sub n : Nat)
  | most (idx sub n : Nat)
  | tow (flags : BitVec 16) (latch : Nat)
  | trigout (pins : BitVec 2) (latch : Nat)
  | lateDeep (addrs : List Nat)
  | trigEdge (pin : Fin 4) (rising : Bool) (latch : Nat)
  | vector (v : Nat)
  | ended (cause : EndCause)
  | blackBox (code sev : Nat) (data : List Byte)
  deriving DecidableEq, Repr

/-- A die in the midst of a core word: the die, its basin bytes, the effects so far, and what stays constant meanwhile. -/
structure Run where
  d : Die
  die : DieSt
  basin : Memory
  fx : List Fx
  node : BitVec 18
  disciplined : Bool
  inc : Nat
  st : Store

/-- The run with its die changed. -/
def Run.withDie (r : Run) (f : DieSt → DieSt) : Run := { r with die := f r.die }

/-- The run with its staircase changed. -/
def Run.withStair (r : Run) (f : Stair → Stair) : Run := { r with die := { r.die with stair := f r.die.stair } }

/-- The run with its storage stage changed. -/
def Run.withStore (r : Run) (f : Storage → Storage) : Run := { r with die := { r.die with store := f r.die.store } }

/-- The run with one more effect. -/
def Run.emit (r : Run) (x : Fx) : Run := { r with fx := r.fx ++ [x] }

/-- A per-convoy count of the staircase (objects 3490, 3590). -/
def Run.count (r : Run) (sub : Nat) : Run := r.emit (.bump (0x3490 + 0x100 * r.d.val) sub 1)

/-! ### Counters and timers (R70, R71, R73) -/

/-- The value at which counters and timers hold (R71). -/
def maxCount : Nat := 2 ^ 48 - 1

/-- A timer's value at a position (R70), held at the maximum (R71). -/
def timerAt (t : Timer) (pos : Nat) : Nat :=
  if t.running then min (t.value + (pos - t.start) / 5) maxCount else t.value

/-- All counters and timers at a position, as a snapshot holds them (R73, R79). -/
def snapValues (s : Stair) (pos : Nat) : List Nat := s.counters.toList ++ s.timers.toList.map (fun t => timerAt t pos)

/-! ### Event records and the buffer of R109 -/

/-- Places of each kind in use. -/
def placesUsed (s : Storage) (p : EvPlace) : Nat := (s.events.filter (fun e => e.1 == p)).length

/-- Unreserved places: 1,024 less the 24 reserved ones (R109). -/
def plainPlaces : Nat := 1000
/-- Trigger places (R109). -/
def triggerPlaces : Nat := 8
/-- Protected places (R109). -/
def protectedPlaces : Nat := 16

/-- Who may use which places (R109): the record that commits the trigger, protected records, any other. -/
inductive EvClass where
  | trigger | guarded | plain
  deriving DecidableEq, Repr

/-- Free places for a class of record. -/
def freePlaces (s : Storage) (c : EvClass) : Nat :=
  match c with
  | .trigger => triggerPlaces - placesUsed s .trigger
  | .guarded => (plainPlaces - placesUsed s .plain) + (protectedPlaces - placesUsed s .reserved)
  | .plain => plainPlaces - placesUsed s .plain

/-- The place a record of a class takes: unreserved first, then the class's own (R109). -/
def placeFor (s : Storage) (c : EvClass) : EvPlace :=
  match c with
  | .trigger => .trigger
  | .guarded => if placesUsed s .plain < plainPlaces then .plain else .reserved
  | .plain => .plain

/-- What an item of the present sample inherits from it (R147). -/
def Run.itemState (r : Run) : ItemState := { coast := r.die.convoy.coast, disc := r.die.convoy.disc }

/-- An item for the event buffer: a record, or a snapshot record that follows one, of sample `s` and time `t`. -/
def Run.evEntry (r : Run) (p : EvPlace) (i : BItem) (t : Qword) (s : Nat) : EvEntry :=
  { place := p, item := i, time := t, pos := r.die.convoy.pos, sample := s, state := r.itemState }

/-- Put one item into the event buffer. -/
def Run.putEvent (r : Run) (c : EvClass) (i : BItem) (t : Qword) (s : Nat) : Run :=
  r.withStore (fun st => { st with events := st.events ++ [r.evEntry (placeFor st c) i t s] })

/-- Put the four records of a snapshot (R161), behind a record of time `t` and sample `s`. -/
def Run.putSnap (r : Run) (c : EvClass) (idx : Nat) (vals : List Nat) (t : Qword) (s : Nat) : Run :=
  (List.range 4).foldl (fun r p => r.putEvent c (.snap p idx ((vals.drop (4 * p)).take 4)) t s) r

/-- A blank event record at a time in a chamber. -/
def blankEvent (time : Qword) (chamber : Nat) : EventRec :=
  { before := chamber, after := chamber, cond := 0xE, deferral := 0, also := 0, flags := 0, subject := 0, time := time,
    snap := none, sourceKind := 0, source := 0, tfine := none, phase := 0 }

/-- Write an event record of sample `s` into the buffer, or discard it and mark EVENTS_LOST (R78, R109). A phase offset that waits goes
into it (R160). -/
def Run.event (r : Run) (c : EvClass) (s : Nat) (e : EventRec) : Run :=
  let st := r.die.store
  if freePlaces st c = 0 then
    (r.withStore (fun st => { st with eventsLost := true })).emit (.bump (0x3824 + r.d.val) 3 1)
  else
    let e := { e with flags := withEv e.flags evEventsLost st.eventsLost }
    let e := match r.die.stair.rephase with
      | some x => { e with flags := withEv e.flags evRephase true, phase := x }
      | none => e
    ((r.putEvent c (.event e) e.time s).withStore (fun st => { st with eventsLost := false })).withStair (fun x =>
      { x with rephase := none })

/-- Write an event record with a snapshot (R79, R109, R161): the snapshot takes a number only when its four records find
room; otherwise the event record carries SNAP_LOST. -/
def Run.eventSnap (r : Run) (c cs : EvClass) (s : Nat) (e : EventRec) (vals : List Nat) : Run :=
  let st := r.die.store
  let taken := if freePlaces st c = 0 then 0 else 1
  let room := if c = cs ∨ c = .plain then freePlaces st cs - taken else freePlaces st cs
  if room < 4 then r.event c s { e with flags := withEv e.flags evSnapLost true, snap := none }
  else
    let idx := r.die.stair.snaps
    let r := r.event c s { e with snap := some idx }
    (r.putSnap cs idx vals e.time s).withStair (fun x => { x with snaps := x.snaps + 1 })

/-! ### Saturation (R71) -/

/-- A counter (0 to 7) or timer (8 to 15) reaches 2^48 − 1: counted. Answers whether it is its first time in the convoy. -/
def Run.saturate (r : Run) (n : Nat) : Run × Bool :=
  ((r.count 7).withStair (fun s => { s with saturated := s.saturated ||| BitVec.ofNat 16 (2 ^ n) }),
    !r.die.stair.saturated.getLsbD n)

/-- A running timer whose value has reached the maximum in this sample (R71): counted once, and its first time in the convoy recorded.
No condition causes that record, so it is one of its own, with COND 0xE (R159). -/
def Run.timerFull (at_ : SampleAt) (r : Run) (i : Fin 8) : Run :=
  let s := r.die.stair
  if s.timers[i].running && decide (timerAt s.timers[i] at_.pos = maxCount) && !s.atMax.getLsbD (8 + i.val) then
    let x := (r.withStair (fun s => { s with atMax := s.atMax ||| BitVec.ofNat 16 (2 ^ (8 + i.val)) })).saturate (8 + i.val)
    if x.2 then
      x.1.event .plain at_.s { blankEvent at_.time s.chamber.val with flags := withEv 0 evSaturated true, subject := 8 + i.val }
    else x.1
  else r

/-! ### Conditions (R72, R77) -/

/-- The comparison part of a condition (R72, R73). -/
def compareHolds (c : Cond) (s : Stair) (pos : Nat) : Bool :=
  if c.cmpSrc = 0 then true
  else
    let v := if c.cmpSrc < 0x20 then s.counters.toList.getD (c.cmpSrc - 0x10) 0
      else (s.timers.toList.map (fun t => timerAt t pos)).getD (c.cmpSrc - 0x20) 0
    match c.cmpOp with
    | 0 => decide (c.cmpVal ≤ v)
    | 1 => decide (v < c.cmpVal)
    | _ => decide (v = c.cmpVal)

/-- The logic part of a condition, from the values of its four terms (R72). -/
def logicHolds (c : Cond) (term : Nat → Bool) : Bool :=
  let a := fun (i : Fin 4) => b2n (term c.sel[i] != c.invert.getLsbD i.val)
  c.table.getLsbD (a 0 + 2 * a 1 + 4 * a 2 + 8 * a 3)

/-- A condition is true in a sample (R72). -/
def condTrue (p : Program) (fe : FrontEnd) (s : Stair) (at_ : SampleAt) (c : Cond) : Bool :=
  c.enable && logicHolds c (termValue p fe at_.pos) && compareHolds c s at_.pos

/-- The mask of the true conditions of a chamber, bit i for condition i. -/
def trueMask (p : Program) (fe : FrontEnd) (s : Stair) (at_ : SampleAt) (k : Fin 16) : Nat :=
  p.conds[k].foldr (fun c n => b2n (condTrue p fe s at_ c) + 2 * n) 0

/-- The lowest bit set of a mask of eight. -/
def lowestBit (m : Nat) : Option Nat := (List.range 8).find? (fun i => m.testBit i)

/-! ### Actions (R74 to R76) -/

/-- Counter actions: reset first, then increment (R75); a counter holds at its maximum (R71). -/
def countAct (c : Cond) (i : Nat) (v : Nat) : Nat :=
  let v := if c.cntRst.getLsbD i then 0 else v
  if c.cntInc.getLsbD i then min (v + 1) maxCount else v

/-- Timer actions: stop, then reset, then start (R75). -/
def timerAct (c : Cond) (i pos : Nat) (t : Timer) : Timer :=
  let t := if c.tmrStop.getLsbD i then { running := false, value := timerAt t pos, start := pos } else t
  let t := if c.tmrRst.getLsbD i then { t with value := 0, start := pos } else t
  if c.tmrStart.getLsbD i && !t.running then { t with running := true, start := pos } else t

/-- The counters that an action set takes to their maximum from below (R71). -/
def newlyMax (c : Cond) (s : Stair) : List Nat :=
  (List.range 8).filter (fun i =>
    let v := s.counters.toList.getD i 0
    decide (countAct c i v = maxCount) && (decide (v ≠ maxCount) || c.cntRst.getLsbD i))

/-- The knot that an action builds (R76, R208). -/
def actionKnot (r : Run) (at_ : SampleAt) (k : Fin 16) : Knot :=
  { cls := k, node := r.node, die := r.d, convoy := r.die.convoy.id, time := at_.time,
    offset := r.die.plan.program.knotOffset, hops := 0, holdover := false, relayed := false, host := false, seq := 0 }

/-- Counter, timer and qualifier actions of a winning condition. Answers the counters that saturate for the first time in the
convoy (R71). -/
def Run.localActions (r : Run) (at_ : SampleAt) (c : Cond) : Run × List Nat :=
  let hit := newlyMax c r.die.stair
  let r := r.withStair (fun s => { s with
    counters := Vector.ofFn (fun (i : Fin 8) => countAct c i.val s.counters[i])
    timers := Vector.ofFn (fun (i : Fin 8) => timerAct c i.val at_.pos s.timers[i])
    atMax := s.atMax &&& ~~~((c.tmrRst.setWidth 16) <<< 8)
    qualifier := match c.qual with
      | 1 => true
      | 2 => false
      | _ => s.qualifier })
  hit.foldl (fun q i => let x := q.1.saturate i; (x.1, if x.2 then q.2 ++ [i] else q.2)) (r, [])

/-- Knot action: into the queue of eight, or dropped and counted (R76). Answers whether it was dropped. -/
def Run.knotAction (r : Run) (at_ : SampleAt) (c : Cond) : Run × Bool :=
  match c.knot with
  | none => (r, false)
  | some k =>
    if r.die.stair.knotQueue.length < 8 then
      (r.withStair (fun s => { s with knotQueue := s.knotQueue ++ [actionKnot r at_ k] }), false)
    else ((r.count 6).emit (.blackBox 0x0051 1 [0xFF]), true)

/-- Towline flags leave the die at the sample's latch, or 32 ns later with the towline delay (R60). -/
def Run.towAction (r : Run) (at_ : SampleAt) (c : Cond) : Run :=
  if c.tow = 0 then r
  else r.emit (.tow c.tow (at_.latch + if r.die.plan.program.towDelay then 10240 else 0))

/-- The latency of a die's TRIGOUT actions: 48 ns, or 80 ns with a towline term in use (R90). -/
def trigoutDelay (p : Program) : Nat := if p.towDelay then 25600 else 15360

/-- TRIGOUT actions reach the pins 48 ns after the sample, or 80 ns with a towline term in use (R89, R90). -/
def Run.trigoutAction (r : Run) (at_ : SampleAt) (c : Cond) : Run :=
  if c.trigout = 0 then r
  else r.emit (.trigout c.trigout (at_.latch + trigoutDelay r.die.plan.program))

/-! ### Trigger points (R82 to R87) -/

/-- The time of sample T − w of a trigger (R134): stamped in state mode, otherwise w sample periods before t(T). -/
def weirTime (d : DieSt) (t : Trigger) : Qword :=
  let w := min d.plan.weir t.sample
  if d.plan.state then
    (((d.convoy.stamps.drop (d.convoy.nextSample - 1 - (t.sample - w))).head?).map (fun x => accTime x.2)).getD d.convoy.startTime
  else t.time - BitVec.ofInt 64 (divRound (w * d.plan.period * 1024) 5)

/-- A trigger point protects a barge (R134): a strand or group barge that holds a sample from T − w on, an event barge that
holds a record from t(T − w) on. Watch-log barges hold no sample. -/
def protects (d : DieSt) (t : Trigger) (m : BargeMeta) : Bool :=
  if m.flags.getLsbD flagWatchLog then false
  else if m.kind = .event then decide (t.sample ≤ d.plan.weir) || atOrAfter m.endTime (weirTime d t)
  else decide (t.sample ≤ m.lastSample + d.plan.weir)

/-- A stored barge is protected once a trigger point is committed (R134). -/
def isProtected (d : DieSt) (m : BargeMeta) : Bool :=
  match d.stair.trigger with
  | some t => protects d t m
  | none => false

/-- The sluice starts at a trigger point (R131): at the oldest barge of window 0 that it protects; older ones are discarded. -/
def startSluice (d : DieSt) (t : Trigger) : Window :=
  if d.plan.deep && !d.win.sluicing then
    { d.win with sluicing := true, ring := d.win.ring.dropWhile (fun m => !protects d t m) }
  else d.win

/-- The largest basin backlog of a die that sluices (R131). -/
def Run.noteBacklog (r : Run) : Run :=
  if r.die.win.sluicing then r.emit (.most (0x3920 + r.d.val) 3 r.die.win.ring.length) else r

/-- A trigger point commits: POSTFILL, and over the trigger line to the other die of a coupled convoy (R83, R87). -/
def Run.setTrigger (r : Run) (t : Trigger) : Run :=
  let r := r.withStair (fun s => { s with trigger := some t, lineOut := if r.die.plan.coupled then some t else none })
  let r := r.withDie (fun d => { d with state := .postfill, win := startSluice d t })
  r.noteBacklog.emit (.vector (4 + r.d.val))

/-- The source fields of a record (R78): the knot's node, the towline flag or the TRIGIN input that a condition names. The record has
one source; of several the model names a true knot-in term, then a towline term, then a TRIGIN term, and of one kind the first by
selector A to D (DESIGN CHOICE, assumption 73). -/
def recordSource (p : Program) (fe : FrontEnd) (at_ : SampleAt) (c : Cond) : Nat × Nat × Option Nat :=
  let sels := c.sel.toList
  match sels.find? (fun x => decide (0x90 ≤ x ∧ x ≤ 0x97) && termValue p fe at_.pos x) with
  | some x => (1, ((fe.knotNow.find? (fun k => k.1.val == x - 0x90)).map (fun k => k.2.toNat)).getD 0, none)
  | none =>
    match sels.find? (fun x => decide (0x80 ≤ x ∧ x ≤ 0x8F)) with
    | some x => (2, x - 0x80, none)
    | none =>
      match sels.find? (fun x => decide (0x98 ≤ x ∧ x ≤ 0x9B)) with
      | some x =>
        let f := (fe.trigFine.toList.getD (x - 0x98) none)
        (3, x - 0x98, match f with
          | some (k, false) => some k
          | _ => none)
      | none => (0, 0, none)

/-- Core words hold samples 16m to 16m + 15 (R69). -/
def wordOf (s : Nat) : Nat := s / 16

/-- Entries already counted into the word of sample `s` (R80). -/
def entriesIn (st : Stair) (s : Nat) : Nat := if st.entryWord = wordOf s then st.entries else 0

/-- How an advance ends: not an advance, an entry in the next sample, or deferred (R74, R80). -/
inductive AdvanceOut where
  | stay
  | enter (k : Fin 16)
  | defer (k : Fin 16)
  deriving DecidableEq, Repr

/-- An action set's advance in sample `s` (R74, R80). -/
def advanceOf (st : Stair) (c : Cond) (s : Nat) : AdvanceOut :=
  match c.advance with
  | none => .stay
  | some k =>
    if k = st.chamber then .stay
    else if entriesIn st (s + 1) < 4 then .enter k else .defer k

/-- The staircase after an advance (R77, R80). -/
def takeAdvance (st : Stair) (s : Nat) (a : AdvanceOut) : Stair :=
  match a with
  | .stay => st
  | .enter k => { st with chamber := k, entryWord := wordOf (s + 1), entries := entriesIn st (s + 1) + 1 }
  | .defer k =>
    let n := 16 * (wordOf (s + 1) + 1) - (s + 1)
    { st with deferred := some { target := k, source := st.chamber, length := n, begun := false, also := 0 } }

/-- The chamber after an advance, as a record names it. -/
def advanceTo (st : Stair) (a : AdvanceOut) : Nat :=
  match a with
  | .stay => st.chamber.val
  | .enter k => k.val
  | .defer k => k.val

/-- The entry is into a chamber of the snapshot mask (R79). A deferred entry takes its snapshot when it executes. -/
def maskedEntry (p : Program) (a : AdvanceOut) : Bool :=
  match a with
  | .enter k => p.snapMask.getLsbD k.val
  | _ => false

/-- The record of a winning condition, without flags (R78). -/
def Run.winRecord (r : Run) (at_ : SampleAt) (win : Nat) (also : BitVec 8) (c : Cond) : EventRec :=
  let src := recordSource r.die.plan.program r.die.fe at_ c
  { blankEvent at_.time r.die.stair.chamber.val with
    cond := win, also := also, sourceKind := src.1, source := src.2.1, tfine := src.2.2 }

/-- A trigger action in PREFILL (R82): nothing of the action set executes. -/
def Run.prefillIgnored (r : Run) (at_ : SampleAt) (win : Nat) (also : BitVec 8) (c : Cond) : Run :=
  let first := !r.die.stair.prefillSeen
  let r := (r.count 3).withStair (fun s => { s with prefillSeen := true })
  if first then r.event .plain at_.s { r.winRecord at_ win also c with flags := withEv 0 evPrefillIgnored true } else r

/-- The record of an entry into a masked chamber, with the entry snapshot (R79): written in the winning sample. In state mode the entry
sample's clock edge is still to come, and the record waits for it (DESIGN CHOICE, assumption 73). -/
def Run.entryRecord (r : Run) (at_ : SampleAt) (e : EventRec) : Run :=
  if r.die.plan.state then r.withStair (fun s => { s with entryDue := some e })
  else r.eventSnap .plain .guarded at_.s e (snapValues r.die.stair (at_.pos + r.die.plan.period))

/-- A record that waits for its entry snapshot is written, at the position of its entry sample (R79). -/
def Run.settleEntry (r : Run) (s pos : Nat) : Run :=
  match r.die.stair.entryDue with
  | some e => (r.withStair (fun x => { x with entryDue := none })).eventSnap .plain .guarded (s - 1) e (snapValues r.die.stair pos)
  | none => r

/-- A winning condition executes its action set (R74 to R79, R82, R83). One record carries every flag of the sample; where several
counters first saturate in it, the one record names the lowest, and each further one has a record of its own (DESIGN CHOICE,
assumption 73). With both a trigger and a masked entry, the TRIGGER record names the chambers too (DESIGN CHOICE, assumption 73). A
trigger action in POSTFILL counts as one after the trigger point also where none was committed (DESIGN CHOICE, assumption 73). -/
def Run.win (r : Run) (at_ : SampleAt) (win : Nat) (also : BitVec 8) (c : Cond) : Run :=
  let p := r.die.plan.program
  if c.trigger && decide (r.die.state = .prefill) then r.prefillIgnored at_ win also c
  else
    let before := r.die.stair
    let rec0 := r.winRecord at_ win also c
    let (r, full) := r.localActions at_ c
    let r := r.towAction at_ c
    let (r, dropped) := r.knotAction at_ c
    let r := r.trigoutAction at_ c
    let commit := c.trigger && decide (r.die.state = .armed) && r.die.stair.trigger.isNone
    let later := c.trigger && !commit
    let firstLater := later && !r.die.stair.postSeen
    let r := if commit then
        r.setTrigger { sample := at_.s, time := at_.time, kind := .action, late := false, foundAt := at_.latch } else r
    let r := if later then (r.count 4).withStair (fun s => { s with postSeen := true }) else r
    let adv := advanceOf before c at_.s
    let r := r.withStair (fun s => takeAdvance s at_.s adv)
    let flags := withEv (withEv (withEv 0 evTrigger commit) evPostIgnored firstLater) evKnotDropped dropped
    let rec1 := { rec0 with
      after := advanceTo before adv, flags := withEv flags evSaturated (!full.isEmpty), subject := full.headD 0 }
    let r := if commit then
        let r := r.eventSnap .trigger .trigger at_.s rec1 before.present
        if maskedEntry p adv then r.entryRecord at_ { rec1 with flags := 0, subject := 0 } else r
      else if maskedEntry p adv then r.entryRecord at_ rec1
      else if decide (adv ≠ .stay) || firstLater || dropped || !full.isEmpty || p.recordAll then r.event .plain at_.s rec1
      else r
    (full.drop 1).foldl (fun r i => r.event .plain at_.s { rec0 with flags := withEv 0 evSaturated true, subject := i }) r

/-- A deferred advance executes in the first sample of the next word (R81): entry, count, snapshot and DEFERRED record. -/
def Run.executeDeferred (r : Run) (at_ : SampleAt) (df : Deferred) : Run :=
  let r := r.withStair (fun s => { s with
    chamber := df.target, deferred := none, entryWord := wordOf at_.s, entries := 1 })
  let r := r.count 2
  let e : EventRec := { blankEvent at_.time df.source.val with
    after := df.target.val, deferral := df.length, also := df.also, flags := withEv 0 evDeferred true }
  r.eventSnap .guarded .guarded at_.s e (snapValues r.die.stair at_.pos)

/-- A forced trigger that falls due in this sample (R84, R86). -/
def Run.forced (r : Run) (at_ : SampleAt) : Run :=
  if !r.die.stair.force then r
  else
    let r := r.withStair (fun s => { s with force := false })
    let e : EventRec := { blankEvent at_.time r.die.stair.chamber.val with cond := 0xF }
    if r.die.state = .prefill then
      let first := !r.die.stair.prefillSeen
      let r := (r.count 3).withStair (fun s => { s with prefillSeen := true })
      if first then r.event .plain at_.s { e with flags := withEv 0 evPrefillIgnored true } else r
    else if r.die.state = .armed ∧ r.die.stair.trigger.isNone then
      let vals := r.die.stair.present
      let r := r.setTrigger { sample := at_.s, time := at_.time, kind := .forced, late := false, foundAt := at_.latch }
      r.eventSnap .trigger .trigger at_.s { e with flags := withEv (withEv 0 evTrigger true) evForced true } vals
    else
      let first := !r.die.stair.postSeen
      let r := (r.count 4).withStair (fun s => { s with postSeen := true })
      if first then r.event .plain at_.s { e with flags := withEv 0 evPostIgnored true } else r

/-- A placement commits at sample `s` and time `t` (R85): trigger point and record with TRIGGER and PLACEMENT. Its snapshot holds the
values of the sample being evaluated (R79). -/
def Run.placed (r : Run) (at_ : SampleAt) (s : Nat) (t : Qword) (node : BitVec 18) (late : Bool) : Run :=
  let vals := r.die.stair.present
  let r := r.withStair (fun x => { x with placement := none })
  let r := r.setTrigger { sample := s, time := t, kind := .placement, late := late, foundAt := at_.latch }
  r.eventSnap .trigger .trigger s { blankEvent t r.die.stair.chamber.val with
    flags := withEv (withEv (withEv 0 evTrigger true) evPlacement true) evKnotLate late,
    sourceKind := 1, source := node.toNat } vals

/-- The sample is the first after a thaw, and the target lay before its own period: in the frozen interval (R410). -/
def Run.targetFrozen (r : Run) (at_ : SampleAt) (target : Qword) : Bool :=
  r.die.fe.first && atOrAfter (at_.time - BitVec.ofNat 64 (r.die.plan.period * 1024 / 5)) target

/-- A pending placement whose target this sample reaches commits, or is dropped when another trigger came first (R85, R86). -/
def Run.pendingPlacement (r : Run) (at_ : SampleAt) : Run :=
  match r.die.stair.placement with
  | none => r
  | some p =>
    if r.die.stair.trigger.isSome then (r.withStair (fun s => { s with placement := none })).count 5
    else if r.die.state = .armed ∧ atOrAfter at_.time p.target then
      let late := r.targetFrozen at_ p.target
      let r := r.placed at_ at_.s at_.time p.node late
      if late then r.emit (.bump 0x4821 0x0A 1) else r
    else r

/-- The newest of some ranges, extended to a position. -/
def extendLast (l : List (Nat × Nat)) (pos : Nat) : List (Nat × Nat) := (((l.head?).map Prod.fst).getD pos, pos) :: l.drop 1

/-- A deferred sample (R81): the target chamber is evaluated without being executed, and the deferral's extent is noted. -/
def Run.deferSample (r : Run) (at_ : SampleAt) (df : Deferred) : Run :=
  let seen := trueMask r.die.plan.program r.die.fe r.die.stair at_ df.target
  r.withStair (fun s => { s with
    deferred := some { df with begun := true, also := df.also ||| BitVec.ofNat 8 seen }
    deferrals := if df.begun then extendLast s.deferrals at_.pos else (at_.pos, at_.pos) :: s.deferrals })

/-- A phase offset that no record of the sample has taken gets one of its own, with COND 0xE (R160). -/
def Run.rephaseAlone (r : Run) (at_ : SampleAt) : Run :=
  if r.die.stair.rephase.isSome then r.event .plain at_.s (blankEvent at_.time r.die.stair.chamber.val) else r

/-- The current chamber's conditions in one sample (R77): the lowest true one executes. -/
def Run.chamberSample (r : Run) (at_ : SampleAt) : Run :=
  let m := trueMask r.die.plan.program r.die.fe r.die.stair at_ r.die.stair.chamber
  match lowestBit m with
  | none => r
  | some w => r.win at_ w (BitVec.ofNat 8 (m - 2 ^ w)) (r.die.plan.program.conds[r.die.stair.chamber].getD w (readCond [] 0))

/-- The sample with its counters and timers as every action before it left them (R73); saturated timers are counted (R71). -/
def Run.presentSample (r : Run) (at_ : SampleAt) : Run :=
  ((List.finRange 8).foldl (Run.timerFull at_) r).withStair (fun s => { s with present := snapValues s at_.pos })

/-- A deferred advance executes in the first sample of a word (R81). -/
def Run.dueDeferral (r : Run) (at_ : SampleAt) : Run :=
  match r.die.stair.deferred with
  | some df => if at_.s % 16 = 0 then r.executeDeferred at_ df else r
  | none => r

/-- One sample of the staircase (R77). The pending placement of the sample commits in its own step
(PENDING_PLACEMENT_COMMIT) or here, whichever comes first. -/
def Run.stairSample (r : Run) (at_ : SampleAt) : Run :=
  let r := ((r.settleEntry at_.s at_.pos).dueDeferral at_).presentSample at_
  let r := match r.die.stair.deferred with
    | some df => r.deferSample at_ df
    | none => r.chamberSample at_
  ((r.forced at_).pendingPlacement at_).rephaseAlone at_

end Sys2Proof.Machine
end

