-- ==== Sys2Proof/Machine/Storage.lean ====
section
/-! DEFINITION. The storage stage of a die and window 0 (chapters 05 and 06): what each sample stores, how barges close,
find room, are dropped, and how the sampling part ends. -/

namespace Sys2Proof.Machine

/-! ### Streams -/

/-- The empty stream. -/
def blankStream : Stream :=
  { fullOpen := none, transOpen := none, nextSeq := 0, gapFull := none, gapTrans := none,
    freeze := none, lastTick := 0, lastStamp := 0, skipRun := 0, skipAt := 0, skipPos := 0, skipSample := 0,
    held := [], heldFrom := 0, cycle := 0, written := 0, encoder := [], discarding := false, lostFrom := none, envMin := none, envMax := none, envSeen := false, envSat := false, envSkip := 0,
    envSkipAt := 0, envSkipPos := 0, envSkipSample := 0, envAnchor := 0, envPos := 0, envFirst := 0, trigSeq := none }

/-- A stream of a die by its stream id. -/
def Run.stream (r : Run) (id : Nat) : Stream := (mget id r.die.store.streams).getD blankStream

/-- The run with one stream changed. -/
def Run.withStream (r : Run) (id : Nat) (f : Stream → Stream) : Run :=
  r.withStore (fun s => { s with streams := mput id (f ((mget id s.streams).getD blankStream)) s.streams })

/-- A fresh barge of a stream, empty, anchored at an instant (R144, R151). -/
def Run.newBarge (r : Run) (kind : BKind) (stream ew : Nat) (signed : Bool) (anchor : Qword) (pos s : Nat) : Barge :=
  let p := r.die.plan
  { kind := kind, ewidth := ew, esigned := signed, stream := stream, die := r.d, coupled := p.coupled, node := r.node,
    convoy := r.die.convoy.id, anchor := anchor, itemTime := anchor, endTime := anchor, flags := withFlag 0 flagClamped p.clamped,
    period := p.period, interval := if kind = .envelope then p.envN - 1 else 0, xstart := 0, xend := 0, seq := 0,
    anchorPos := pos, endPos := pos, firstSample := s, lastSample := s, items := [] }

/-- A span of positions holds a deferred sample (R81, R147 CONGESTION). -/
def meetsDeferral (st : Stair) (lo hi : Nat) : Bool := st.deferrals.any (fun r => decide (lo ≤ r.2 ∧ r.1 < hi))

/-- Where an item lies: its time, its end, its last sample, and the state of that sample. -/
structure ItemAt where
  time : Qword
  endTime : Qword
  endPos : Nat
  s : Nat
  state : ItemState

/-- An item put into a barge, with the flags that it brings (R147). -/
def Run.addItem (r : Run) (b : Barge) (i : BItem) (sat qual : Bool) (x : ItemAt) : Barge :=
  let steady := match x.state.disc with
    | some p => decide (p ≤ b.anchorPos)
    | none => false
  let f := withFlag b.flags flagFineSat sat
  let f := withFlag f flagQual qual
  let f := withFlag f flagCoast x.state.coast
  let f := withFlag f flagHoldover !steady
  let f := withFlag f flagCongestion (meetsDeferral r.die.stair b.anchorPos x.endPos)
  { b with
    items := b.items ++ [i], flags := f, itemTime := x.time, endTime := x.endTime, endPos := x.endPos, lastSample := max b.lastSample x.s }

/-- The barge with the missing ranges it owes (R132, R148). -/
def withGaps (b : Barge) (gap freeze : Option GapMark) : Barge :=
  let b := match gap with
    | some g => { b with flags := withFlag b.flags flagGap true, xstart := g.xstart, xend := g.xend }
    | none => b
  match freeze with
  | some z => { b with
      flags := withFlag b.flags flagFreezeGap true
      xstart := if gap.isSome && atOrAfter z.xstart b.xstart then b.xstart else z.xstart
      xend := if gap.isSome && atOrAfter b.xend z.xend then b.xend else z.xend }
  | none => b

/-! ### Window 0 -/

/-- Barges that window 0 may hold: its size less the directory reserve (R124 C_b). -/
def Window.room (w : Window) : Nat := w.size - w.reserve

/-- Window 0 is circular rather than a backlog queue (R129). -/
def circular (d : DieSt) : Bool := !d.win.sluicing

/-- Window 0 can take one more barge (R129, R132): room is left, or the ring is circular and its oldest barge is free. -/
def hasRoom (d : DieSt) : Bool :=
  let w := d.win
  let limit := match w.homeLimit with
    | some h => min h w.room
    | none => w.room
  decide (w.ring.length < limit) ||
    (circular d && w.homeLimit.isNone && (match w.ring with
      | m :: _ => !isProtected d m
      | [] => false))

/-- The write share of the home part of a woken capture takes a stream's next barge in time: the stream's last one is written (R116, R123).
What "in time" means for one barge is the model's (DESIGN CHOICE, assumption 74). -/
def hasShare (d : DieSt) (st : Stream) : Bool := d.win.homeLimit.isNone || decide (st.written ≤ d.convoy.pos)

/-- 4,096 bytes at a quadrant's 640 GB/s, in units of position (R116, R123). -/
def shareTime : Nat := 2048

/-- The home part's share is taken for one more barge, written or read (R123). -/
def Window.useShare (w : Window) (pos : Nat) : Window :=
  if w.homeLimit.isSome then { w with homeBusy := max w.homeBusy pos + shareTime } else w

/-- Store a closed barge in the next slot of window 0, over the oldest one when the ring is full (R129); without room it goes into
the directory reserve (R135). -/
def Run.storeBarge (r : Run) (b : Barge) : Run :=
  let w := r.die.win.useShare r.die.convoy.pos
  let slot := w.next
  let full := decide (w.room ≤ w.ring.length) && hasRoom r.die
  let wrap := decide (slot + 1 = w.size)
  let ring := (if full then w.ring.drop 1 else w.ring) ++ [b.meta slot (r.die.convoy.openAt + r.die.convoy.pos)]
  let w' := { w with ring := ring, next := if wrap then 0 else slot + 1, wraps := w.wraps + b2n wrap }
  let r := r.withStream b.stream (fun s => { s with written := w.homeBusy })
  Run.noteBacklog { r with
    die := { r.die with win := w' }
    basin := memWriteBlock r.basin ((w.base + slot) * 4096) b.bytes }

/-- The position and the accumulator of a sample that the die has evaluated. -/
def Run.placeOf (r : Run) (last : Nat) : Nat × Nat :=
  let c := r.die.convoy
  let back := c.nextSample - 1 - last
  if r.die.plan.state then c.stamps.getD back (c.pos, c.acc)
  else (c.pos - back * r.die.plan.period, c.acc - back * r.die.plan.period * r.inc)

/-- The sampling part ends with a cause at a sample (R118, R134, R135, R140). -/
def Run.endSampling (r : Run) (cause : EndCause) (last : Nat) : Run :=
  if !r.die.convoy.storing then r
  else
    let x := r.placeOf last
    let r := r.withDie (fun d => { d with
      state := .postfill, closing := true,
      store := { d.store with eventEnd := d.store.eventSeq },
      convoy := { d.convoy with storing := false, endCause := cause, lastStored := last, endPos := x.1, endAcc := x.2 } })
    r.emit (.ended cause)

/-- A barge with the next sequence number of its stream, stored; its stream's first number and trigger barge follow. -/
def Run.acceptBarge (r : Run) (b : Barge) : Run :=
  let st := r.stream b.stream
  let b := { b with seq := st.nextSeq }
  let hit := match r.die.stair.trigger with
    | some t => decide (b.firstSample ≤ t.sample ∧ t.sample ≤ b.lastSample)
    | none => false
  let late := hit && (match r.die.stair.trigger with
    | some t => t.late
    | none => false)
  let b := { b with flags := withFlag b.flags flagKnotLate late }
  let r := r.withStream b.stream (fun s => { s with
    nextSeq := s.nextSeq + 1, trigSeq := if hit then some b.seq else s.trigSeq })
  let r := if b.flags.getLsbD flagGap then r.emit (.bump (0x3920 + r.d.val) 2 1) else r
  r.storeBarge b

/-- A barge that finds no room is dropped whole, and the next barge of its stream and kind owes the range (R132). -/
def Run.dropBarge (r : Run) (b : Barge) : Run :=
  let r := r.emit (.bump (0x3920 + r.d.val) 1 1)
  let join := fun (g : Option GapMark) =>
    some { xstart := (g.map GapMark.xstart).getD b.anchor, xend := b.itemTime }
  r.withStream b.stream (fun s =>
    if b.kind = .transition then { s with gapTrans := join s.gapTrans } else { s with gapFull := join s.gapFull })

/-- The last sample up to which a die's capture is complete when a barge finds no room: the one before its first, and before the
first of every other open barge, which finds none either (R135). -/
def Run.completeTo (r : Run) (b : Barge) : Nat :=
  let open_ := r.die.store.streams.flatMap (fun x => x.2.fullOpen.toList ++ x.2.transOpen.toList)
  (open_.map Barge.firstSample).foldl min b.firstSample - 1

/-- A ring of a BASIN plan that takes no more: every barge in it is protected (R135). -/
def ringStuck (d : DieSt) : Bool :=
  circular d && d.stair.trigger.isSome && d.win.homeLimit.isNone && !d.plan.deep

/-- A strand or group barge closes (R96, R132, R135): stored, or dropped for want of room. A full protected ring of a
BASIN plan ends the sampling part. -/
def Run.closeBarge (r : Run) (b : Barge) : Run :=
  let trans := decide (b.kind = .transition)
  let st := r.stream b.stream
  let b := withGaps b (if trans then st.gapTrans else st.gapFull) st.freeze
  if hasRoom r.die && hasShare r.die st then
    let r := r.withStream b.stream (fun s =>
      if trans then { s with gapTrans := none, freeze := none } else { s with gapFull := none, freeze := none })
    r.acceptBarge b
  else
    let stuck := ringStuck r.die && !hasRoom r.die
    let last := r.completeTo b
    let r := r.dropBarge b
    if stuck then r.endSampling .ringFull last else r

/-- Close the open barge of one kind of a stream, when it holds an item. -/
def Run.closeOpen (r : Run) (id : Nat) (trans : Bool) : Run :=
  let st := r.stream id
  match if trans then st.transOpen else st.fullOpen with
  | none => r
  | some b =>
    let r := r.withStream id (fun s => if trans then { s with transOpen := none } else { s with fullOpen := none })
    if b.items.isEmpty then r else r.closeBarge b

/-- Keep a barge open, or close it when its payload is full (R96). -/
def Run.keepOpen (r : Run) (id : Nat) (trans : Bool) (b : Barge) : Run :=
  let r := r.withStream id (fun s => if trans then { s with transOpen := some b } else { s with fullOpen := some b })
  if b.room b.qual then r else r.closeOpen id trans

/-! ### Full mode (R96, R97, R106) -/

/-- The 128-bit vector of a strand: unselected channels read 0 (R95). -/
def strandVector (levels sel : BitVec 1024) (j : Nat) : BitVec 128 := ((levels &&& sel) >>> (128 * j)).setWidth 128

/-- A run cut into records of at most `max` (R101, R106). -/
def cutRun (max n : Nat) : List Nat := List.replicate (n / max) max ++ (if n % max = 0 then [] else [n % max])

/-- Counts with what went before each. -/
def withBefore : Nat → List Nat → List (Nat × Nat)
  | _, [] => []
  | b, n :: ns => (b, n) :: withBefore (b + n) ns

/-- The delta of a state item at a position from the barge's previous item, in bins (R97, R151). -/
def stateDelta (b : Barge) (last pos : Nat) : Nat := if b.items.isEmpty then 0 else (pos - last) / 5

/-- A time `units` of position after another, at the nominal rate (R12, R151). -/
def timeAfter (t : Qword) (units : Int) : Qword := t + BitVec.ofInt 64 (divRound (units * 1024) 5)

/-- One qualification-gap record of a skipped run: `before` samples of the run lie ahead of its `n` (R106, R155). -/
def Run.putSkip (r : Run) (at_ : SampleAt) (id before n : Nat) : Run :=
  let st := r.stream id
  let p := r.die.plan
  let pos := st.skipPos + before * p.period
  let t := timeAfter st.skipAt (before * p.period)
  let b := st.fullOpen.getD (r.newBarge (if p.state then .fullState else .full) id 0 false t pos (st.skipSample + before))
  let item : BItem := if p.state then .skipState n (stateDelta b st.lastStamp pos) else .skip n
  let r := r.withStream id (fun s => { s with lastStamp := pos })
  r.keepOpen id false (r.addItem b item false true
    { time := t, endTime := if before + n = st.skipRun then at_.time else timeAfter t (n * p.period),
      endPos := if p.state then at_.prevPos else pos + n * p.period, s := st.skipSample + before + n - 1, state := r.itemState })

/-- The skipped run of a full stream ends before the sample `at_`: its gap records go into the barge (R106). -/
def Run.flushSkip (r : Run) (at_ : SampleAt) (id : Nat) : Run :=
  let n := (r.stream id).skipRun
  if n = 0 then r
  else ((withBefore 0 (cutRun maxCount n)).foldl (fun r k => r.putSkip at_ id k.1 k.2) r).withStream id (fun s => { s with skipRun := 0 })

/-- A state barge closes before an item that would need a delta of 65,535 bins or more (R97). -/
def tooFar (p : Plan) (b : Barge) (last pos : Nat) : Bool := p.state && decide (65535 ≤ stateDelta b last pos)

/-- A sample counts as skipped. When a gap begins, a barge that could not take its record closes with the items it holds (R106). -/
def Run.skipSample (r : Run) (at_ : SampleAt) (id : Nat) : Run :=
  let st := r.stream id
  let fresh := decide (st.skipRun = 0)
  let closes := match st.fullOpen with
    | some b => fresh && ((!b.qual && !b.room true) || tooFar r.die.plan b st.lastStamp at_.pos)
    | none => false
  let r := if closes then r.closeOpen id false else r
  r.withStream id (fun s => { s with
    skipRun := s.skipRun + 1
    skipAt := if fresh then at_.time else s.skipAt
    skipPos := if fresh then at_.pos else s.skipPos
    skipSample := if fresh then at_.s else s.skipSample })

/-- A full-mode barge of a strand takes sample s, or the sample counts as skipped (R96, R97, R105, R106). -/
def Run.fullSample (r : Run) (at_ : SampleAt) (nextPos : Nat) (nextTime : Qword) (qual : Bool) (j : Nat) : Run :=
  let id := 8 * r.d.val + j
  let p := r.die.plan
  if !qual then r.skipSample at_ id
  else
    let r := r.flushSkip at_ id
    let sat := r.die.fe.edges.any (fun e => e.saturated && decide (e.chan / 128 = j) && p.selected.getLsbD e.chan)
    let v := strandVector r.die.fe.levels p.selected j
    let st := r.stream id
    let r := if (st.fullOpen.map (fun b => tooFar p b st.lastStamp at_.pos)).getD false then r.closeOpen id false else r
    let st := r.stream id
    let b := st.fullOpen.getD (r.newBarge (if p.state then .fullState else .full) id 0 false at_.time at_.pos at_.s)
    let item : BItem := if p.state then .vecState v (stateDelta b st.lastStamp at_.pos) else .vec v
    let r := r.withStream id (fun s => { s with lastStamp := at_.pos })
    r.keepOpen id false (r.addItem b item sat false
      { time := at_.time, endTime := nextTime, endPos := nextPos, s := at_.s, state := r.itemState })

/-! ### Transition mode (R99 to R103) -/

/-- A transition record word (R156). -/
def transWord (yarn delta changed levels fine : Nat) : Qword :=
  BitVec.ofNat 64 (yarn * 2 ^ 60 + delta * 2 ^ 48 + changed * 2 ^ 40 + levels * 2 ^ 32 + fine)

/-- A spacer of delta D, with QGAP (R157). -/
def spacerWord (delta : Nat) (qgap : Bool) : Qword :=
  BitVec.ofNat 64 (0xF * 2 ^ 60 + delta / 2 ^ 36 % 4096 * 2 ^ 48 + b2n qgap * 2 ^ 36 + delta % 2 ^ 36)

/-- The fine code of an edge at fine value `k` (R100). -/
def fineCode (sat : Bool) (k : Nat) : Nat := if sat then 0xF else if k ≤ 13 then k else 0xE

/-- The tick of a position: 250 ps (R99). -/
def tickOf (pos : Nat) : Nat := pos / 80

/-- The time of a tick near a sample, at the nominal rate (R12, R151). -/
def tickTime (at_ : SampleAt) (tick : Nat) : Qword :=
  at_.time - BitVec.ofInt 64 (divRound (((at_.pos : Int) - 80 * tick) * 1024) 5)

/-- A channel's level differs from the previous sample's. -/
def FrontEnd.changed (fe : FrontEnd) (c : Nat) : Bool := !fe.first && (fe.levels.getLsbD c != fe.prev.getLsbD c)

/-- The edges of selected channels of a strand in time order. In state mode every changed level stands at the stamped clock edge
(R100). -/
def strandEdges (r : Run) (at_ : SampleAt) (j : Nat) : List Edge :=
  let fe := r.die.fe
  let es := if r.die.plan.state then
      ((List.range 128).filter (fun i => fe.changed (128 * j + i))).map (fun i =>
        { chan := 128 * j + i, pos := at_.pos, level := fe.levels.getLsbD (128 * j + i), saturated := false })
    else fe.edges
  es.filter (fun e => decide (e.chan / 128 = j) && r.die.plan.selected.getLsbD e.chan)

/-- In state mode a changed level of a yarn hides the data edge that brought it: it is touched by that edge's saturation (R108). -/
def stateSat (r : Run) (yarn : Nat) : Bool :=
  r.die.plan.state && r.die.fe.edges.any (fun e => e.saturated && decide (e.chan / 8 = yarn) && r.die.fe.changed e.chan)

/-- The record of one yarn in one tick, from its edges there (R99, R100): changed mask, levels after, first fine codes. -/
def yarnRecord (before sel : BitVec 1024) (base : Nat) (es : List Edge) : Nat × Nat × Nat × Bool :=
  (List.range 8).foldr (fun i (acc : Nat × Nat × Nat × Bool) =>
    let ch := base + i
    let mine := es.filter (fun e => e.chan == ch)
    let level := match mine.getLast? with
      | some e => e.level
      | none => before.getLsbD ch && sel.getLsbD ch
    let code := match mine.head? with
      | some e => fineCode e.saturated (e.pos / 5 % 16)
      | none => 0
    (b2n (!mine.isEmpty) + 2 * acc.1, b2n level + 2 * acc.2.1, code + 16 * acc.2.2.1,
      acc.2.2.2 || mine.any (fun e => e.saturated))) (0, 0, 0, false)

/-- Records on their way to a tick, from the stream's last one (R99, R101, R157): spacers of `ds` ticks, each at the tick it reaches, the
last of them with QGAP where a qualification gap begins. -/
def spacers (mk : Nat → Qword → Bool → EncRec) (last : Nat) (ds : List Nat) (qgap : Bool) : List EncRec :=
  (withBefore last ds).zipIdx.map (fun x =>
    let q := qgap && decide (x.2 + 1 = ds.length)
    mk (x.1.1 + x.1.2) (spacerWord x.1.2 q) q)

/-- Put a record into the encoder's elastic buffer, or discard it (R103). Beyond 4,095 ticks a spacer carries the whole delta. The first
record kept after an overrun carries the lost range, which is owed where that record leaves the buffer. -/
def Run.encode (r : Run) (id : Nat) (at_ : SampleAt) (tick : Nat) (word : Nat → Qword) (sat qgap : Bool) : Run :=
  let st := r.stream id
  let t := tickTime at_ tick
  if st.discarding || decide (8192 ≤ st.encoder.length) then
    let r := r.emit (.bump (0x3824 + r.d.val) 1 1)
    if st.discarding then r
    else (r.emit (.bump (0x3824 + r.d.val) 2 1)).withStream id (fun s => { s with discarding := true, lostFrom := some t })
  else
    let delta := tick - st.lastTick
    let state := r.itemState
    let mk := fun (k : Nat) (w : Qword) (q : Bool) =>
      { record := w, time := tickTime at_ k, pos := 80 * k, sat := sat, sample := at_.s, state := state, qgap := q, gap := none : EncRec }
    let recs := if qgap then spacers mk st.lastTick (if delta = 0 then [0] else cutRun maxCount delta) true
      else if delta ≤ 4095 then [mk tick (word delta) false]
      else spacers mk st.lastTick (cutRun maxCount delta) false ++ [mk tick (word 0) false]
    let gap := st.lostFrom.map (fun x => { xstart := x, xend := t - 0x4000 : GapMark })
    let recs := match recs with
      | [] => []
      | e :: rest => { e with gap := gap } :: rest
    r.withStream id (fun s => { s with encoder := s.encoder ++ recs, lastTick := tick, lostFrom := none })

/-- The records that an overrun lost are owed: the open barge closes, and the next transition barge carries the range (R103, R148). -/
def Run.oweOverrun (r : Run) (id : Nat) (g : GapMark) : Run :=
  (r.closeOpen id true).withStream id (fun s => { s with
    gapTrans := some { xstart := (s.gapTrans.map GapMark.xstart).getD g.xstart, xend := g.xend } })

/-- One record out of the encoder into the stream's transition barge (R101, R103). -/
def Run.drainOne (r : Run) (id : Nat) : Run :=
  match (r.stream id).encoder with
  | [] => r
  | e :: rest =>
    let r := r.withStream id (fun s => { s with
      encoder := rest, discarding := s.discarding && decide (4096 < rest.length) })
    let r := match e.gap with
      | some g => r.oweOverrun id g
      | none => r
    let b := (r.stream id).transOpen.getD (r.newBarge .transition id 0 false e.time e.pos e.sample)
    r.keepOpen id true (r.addItem b (.trans e.record) e.sat e.qgap
      { time := e.time, endTime := e.time + 0x4000, endPos := e.pos + 80, s := e.sample, state := e.state })

/-- Up to `n` records out of the encoder. -/
def Run.drain (r : Run) (id : Nat) : Nat → Run
  | 0 => r
  | n + 1 => if (r.stream id).encoder.isEmpty then r else (r.drainOne id).drain id n

/-- Core cycles of 4 ns that a position lies after t(0) (R69, R103). -/
def cycleOf (pos : Nat) : Nat := pos / 1280

/-- The encoder of a strand writes up to 32 records in each core cycle up to a position, at every rate (R103). -/
def Run.drainTo (r : Run) (id pos : Nat) : Run :=
  let n := cycleOf pos - (r.stream id).cycle
  if n = 0 then r else (r.drain id (32 * n)).withStream id (fun s => { s with cycle := cycleOf pos })

/-- Records of one strand from edges in time order, tick by tick and yarn by yarn (R99), with the levels before them. Answers the levels
after. -/
def Run.encodeEdges (r : Run) (at_ : SampleAt) (j : Nat) (es : List Edge) (before : BitVec 1024) : Run × BitVec 1024 :=
  let id := 8 * r.d.val + j
  ((es.map (fun e => tickOf e.pos)).eraseDups).foldl (fun (acc : Run × BitVec 1024) tick =>
    let here := es.filter (fun e => tickOf e.pos == tick)
    let yarns := (List.range 16).filter (fun y => here.any (fun e => e.chan / 8 == 16 * j + y))
    let r' := yarns.foldl (fun (r : Run) y =>
      let x := yarnRecord acc.2 r.die.plan.selected (128 * j + 8 * y) (here.filter (fun e => e.chan / 8 == 16 * j + y))
      r.encode id at_ tick (fun delta => transWord y delta x.1 x.2.1 x.2.2.1) (x.2.2.2 || stateSat r (16 * j + y)) false)
      (acc.1.drainTo id (80 * tick))
    (r', here.foldl (fun l e => setLevel l e.chan e.level) acc.2)) (r, before)

/-- The records of one strand for the period that ends with this sample (R99). A tick that the sample does not end waits, so that a tick
that lies in two periods gives one record per yarn; in state mode, where each clock edge has its own records, none waits. -/
def Run.transPeriod (r : Run) (at_ : SampleAt) (j : Nat) : Run :=
  let id := 8 * r.d.val + j
  let st := r.stream id
  let es := st.held ++ strandEdges r at_ j
  let ended := fun (e : Edge) => r.die.plan.state || decide (80 * tickOf e.pos + 80 ≤ at_.pos)
  let x := r.encodeEdges at_ j (es.filter ended) (if st.held.isEmpty then r.die.fe.prev else st.heldFrom)
  x.1.withStream id (fun s => { s with held := es.filter (fun e => !ended e), heldFrom := x.2 })

/-- The edges that wait for the end of their tick become records: storage pauses or ends there. -/
def Run.flushHeld (r : Run) (at_ : SampleAt) (j : Nat) : Run :=
  let id := 8 * r.d.val + j
  let st := r.stream id
  if st.held.isEmpty then r
  else (r.encodeEdges at_ j st.held st.heldFrom).1.withStream id (fun s => { s with held := [] })

/-- A QGAP spacer at the tick of the first unqualified sample (R157). -/
def Run.qgap (r : Run) (at_ : SampleAt) (j : Nat) : Run :=
  (r.flushHeld at_ j).encode (8 * r.d.val + j) at_ (tickOf at_.pos) (fun _ => 0) false true

/-! ### Envelope mode (R104, R106) -/

/-- Put one item into the envelope barge of a group; a fresh barge is anchored at the item's first sample `first`. -/
def Run.putEnv (r : Run) (g : EnvGroup) (i : BItem) (sat qual : Bool) (pos first : Nat) (x : ItemAt) : Run :=
  let id := 0x40 + g.g
  let b := (r.stream id).fullOpen.getD (r.newBarge .envelope id (envCode g.bytes) g.group.signed x.time pos first)
  r.keepOpen id false (r.addItem b i sat qual x)

/-- The largest count of an envelope gap record (R106). -/
def envSkipMax (g : EnvGroup) : Nat := if g.bytes = 1 then 2 ^ 16 - 1 else if g.bytes = 2 then 2 ^ 32 - 1 else 2 ^ 64 - 1

/-- The skipped intervals of a group become gap records, before the sample `at_` (R106). -/
def Run.flushEnv (r : Run) (at_ : SampleAt) (g : EnvGroup) : Run :=
  let id := 0x40 + g.g
  let st := r.stream id
  let step := r.die.plan.envN * r.die.plan.period
  let r := (withBefore 0 (cutRun (envSkipMax g) st.envSkip)).foldl (fun r (k : Nat × Nat) =>
    let pos := st.envSkipPos + k.1 * step
    let first := st.envSkipSample + k.1 * r.die.plan.envN
    r.putEnv g (.skipPairs k.2) false true pos first
      { time := timeAfter st.envSkipAt (k.1 * step), endTime := timeAfter st.envSkipAt ((k.1 + k.2) * step),
        endPos := pos + k.2 * step, s := min (at_.s - 1) (first + k.2 * r.die.plan.envN - 1), state := r.itemState }) r
  r.withStream id (fun s => { s with envSkip := 0 })

/-- An envelope interval ends: its pair is stored, or it counts as skipped (R104, R106). -/
def Run.endInterval (r : Run) (at_ : SampleAt) (nextPos : Nat) (nextTime : Qword) (g : EnvGroup) : Run :=
  let id := 0x40 + g.g
  let st := r.stream id
  if st.envSeen then
    let r := (r.flushEnv at_ g).putEnv g (.pair (st.envMin.getD 0) (st.envMax.getD 0)) st.envSat false st.envPos st.envFirst
      { time := st.envAnchor, endTime := nextTime, endPos := nextPos, s := at_.s, state := r.itemState }
    r.withStream id (fun s => { s with envSeen := false, envMin := none, envMax := none, envSat := false })
  else
    let fresh := decide (st.envSkip = 0)
    let closes := match st.fullOpen with
      | some b => fresh && !b.qual && !b.room true
      | none => false
    let r := if closes then r.closeOpen id false else r
    r.withStream id (fun s => { s with
      envSkip := s.envSkip + 1
      envSkipAt := if fresh then s.envAnchor else s.envSkipAt
      envSkipPos := if fresh then s.envPos else s.envSkipPos
      envSkipSample := if fresh then s.envFirst else s.envSkipSample
      envSat := false })

/-- One sample of an envelope group (R104, R105, R108). An interval that a freeze cut begins anew with the first sample after it. -/
def Run.envSample (r : Run) (at_ : SampleAt) (nextPos : Nat) (nextTime : Qword) (qual : Bool) (g : EnvGroup) : Run :=
  let id := 0x40 + g.g
  let n := r.die.plan.envN
  let v := groupValue g.group r.die.fe.levels
  let r := if at_.s % n = 0 || r.die.fe.first then
      r.withStream id (fun s => { s with envAnchor := at_.time, envPos := at_.pos, envFirst := at_.s }) else r
  let sat := r.die.fe.edges.any (fun e => e.saturated && g.group.members.contains e.chan)
  let r := r.withStream id (fun s => { s with
    envSat := s.envSat || sat, envSeen := s.envSeen || qual,
    envMin := if qual then some (min ((s.envMin).getD v) v) else s.envMin,
    envMax := if qual then some (max ((s.envMax).getD v) v) else s.envMax })
  if (at_.s + 1) % n = 0 then r.endInterval at_ nextPos nextTime g else r

/-! ### Event barges (R109, R133) -/

/-- An item from the event buffer put into an event barge (R147): event barges never carry CONGESTION, and their range ends with their
last event record, so that a snapshot behind it brings no HOLDOVER. -/
def Run.addEvent (r : Run) (b : Barge) (e : EvEntry) : Barge :=
  let x := match e.item with
    | .event _ => (e.time, e.state)
    | _ => (b.endTime, if b.items.isEmpty then e.state else { e.state with disc := some 0 })
  let b' := r.addItem b e.item false false { time := e.time, endTime := x.1, endPos := e.pos, s := e.sample, state := x.2 }
  { b' with flags := b'.flags &&& ~~~(bitIf true flagCongestion), firstSample := min b.firstSample e.sample }

/-- One item from the event buffer into the event barge. -/
def Run.drainEvent (r : Run) : Run :=
  match r.die.store.events with
  | [] => r
  | e :: rest =>
    let b := r.die.store.eventOpen.getD (r.newBarge .event 0xFF 0 false e.time e.pos e.sample)
    if b.room false then r.withStore (fun s => { s with events := rest, eventOpen := some (r.addEvent b e) }) else r

/-- An event barge closes into window 0 with the next number of stream 0xFF (R133). -/
def Run.storeEventBarge (r : Run) (b : Barge) : Run :=
  let b := withGaps b none r.die.store.eventFreeze
  let b := { b with seq := r.die.store.eventSeq }
  let r := r.withStore (fun s => { s with eventOpen := none, eventSeq := s.eventSeq + 1, eventFreeze := none })
  let hit := match r.die.stair.trigger with
    | some t => decide (b.firstSample ≤ t.sample ∧ t.sample ≤ b.lastSample)
    | none => false
  let r := r.withStream 0xFF (fun s => { s with nextSeq := b.seq + 1, trigSeq := if hit then some b.seq else s.trigSeq })
  r.storeBarge b

/-- A full event barge closes when window 0 has room, or into the reserve once storage has ended; otherwise it waits (R133, R135). -/
def Run.closeEventIfFull (r : Run) : Run :=
  match r.die.store.eventOpen with
  | some b => if !b.room false && (hasRoom r.die || !r.die.convoy.storing) then r.storeEventBarge b else r
  | none => r

/-- Items that an event barge would hold with all that the buffer holds. -/
def eventBacklog (s : Storage) : Nat := ((s.eventOpen.map (fun b => b.items.length)).getD 0) + s.events.length

/-- Up to `n` records out of the event buffer, while window 0 has room (R109, R133). An event barge that needs a barge of a full protected
ring ends the sampling part (R135). -/
def Run.drainEvents (r : Run) : Nat → Run
  | 0 => r
  | n + 1 =>
    if r.die.store.events.isEmpty then r
    else if hasRoom r.die || !r.die.convoy.storing then (r.drainEvent.closeEventIfFull).drainEvents n
    else if ringStuck r.die && decide (126 ≤ eventBacklog r.die.store) then r.endSampling .ringFull (r.die.convoy.nextSample - 1)
    else r

/-- The event barge takes up to `n` records from the buffer, until it closes (R133). -/
def Run.fillEvents (r : Run) : Nat → Run
  | 0 => r
  | n + 1 => if r.die.store.eventOpen.isNone || r.die.store.events.isEmpty then r else (r.drainEvent.closeEventIfFull).fillEvents n

/-- The event buffer writes up to 4 records in each core cycle up to a position (R109). -/
def Run.drainEventsTo (r : Run) (pos : Nat) : Run :=
  let n := cycleOf pos - r.die.store.cycle
  if n = 0 then r else ((r.drainEvents (4 * n)).closeEventIfFull).withStore (fun s => { s with cycle := cycleOf pos })

/-! ### One sample of storage -/

/-- A sample as a strand takes it: in state mode at the active edge of its own state clock (R37). -/
def Run.atStrand (r : Run) (at_ : SampleAt) (j : Nat) : SampleAt :=
  if r.die.plan.state then
    let x := r.die.fe.span r.die.plan at_ (128 * j)
    let acc := ((at_.acc : Int) + ((x.1 : Int) - at_.pos) * r.inc).toNat
    { at_ with pos := x.1, prevPos := x.2, acc := acc, time := accTime acc }
  else at_

/-- The next sample's position and time; in state mode, where they are not known yet, the sample's own. -/
def Run.following (r : Run) (at_ : SampleAt) : Nat × Qword :=
  (at_.pos + r.die.plan.period, accTime (at_.acc + r.die.plan.period * r.inc))

/-- The storage stage of one strand at one sample (R93, R96, R99, R103, R157). -/
def Run.storeStrand (r : Run) (at_ : SampleAt) (qual before : Bool) (j : Nat) : Run :=
  let mode := r.die.plan.mode
  let at_ := r.atStrand at_ j
  let next := r.following at_
  let trans := decide (mode = 1 ∨ mode = 3)
  let r := if trans && before && decide (at_.s ≠ 0) then r.transPeriod at_ j else r
  let r := if trans && !qual && (before || decide (at_.s = 0)) then r.qgap at_ j else r
  let r := if trans then r.drainTo (8 * r.d.val + j) at_.pos else r
  if mode = 0 ∨ mode = 3 then r.fullSample at_ next.1 next.2 qual j else r

/-- The storage stage at one sample (R93, R95, R105): `qual` governs sample s, `before` governed sample s − 1. -/
def Run.storeSample (r : Run) (at_ : SampleAt) (qual before : Bool) : Run :=
  let p := r.die.plan
  let next := r.following at_
  if !r.die.convoy.storing then r
  else if p.mode = 2 then p.envGroups.foldl (fun r g => r.envSample at_ next.1 next.2 qual g) r
  else ((List.range 8).filter (fun j => p.strands.getLsbD j)).foldl (fun r j => r.storeStrand at_ qual before j) r

/-- Sample T + q has been stored, or lies behind: the sampling part ends with DEPTH (R134). -/
def Run.checkDepth (r : Run) (at_ : SampleAt) : Run :=
  match r.die.stair.trigger with
  | some t => if t.sample + r.die.plan.depth ≤ at_.s then r.endSampling .depth at_.s else r
  | none => r

/-- Evaluation of sample w moves the die from PREFILL to ARMED (R118, R126). -/
def Run.prefillEnd (r : Run) (at_ : SampleAt) : Run :=
  if r.die.state = .prefill ∧ r.die.plan.weir ≤ at_.s then r.withDie (fun d => { d with state := .armed }) else r

/-! ### The samples of a core word -/

/-- The next sample of a die in time mode. -/
def Run.nextAt (r : Run) : SampleAt :=
  let c := r.die.convoy
  let step := if c.nextSample = 0 then 0 else r.die.plan.period
  { s := c.nextSample, pos := c.pos + step, prevPos := c.pos, latch := c.openAt + c.pos + step, prevLatch := c.openAt + c.pos,
    acc := c.acc + step * r.inc, time := accTime (c.acc + step * r.inc) }

/-- Every state clock in use has an active edge that no sample has taken. -/
def Run.clocksReady (r : Run) : Bool := r.die.plan.clocksUsed.all (fun k => !r.die.fe.clocks[k].isEmpty)

/-- In state mode the die's own t(s) is the edge of the state clock of its first strand in use; a strand that another state clock
samples takes its sample s at that clock's edge (R36, R47; DESIGN CHOICE, assumption 75). -/
def Run.nextEdge (r : Run) : SampleAt :=
  let c := r.die.convoy
  let k := r.die.plan.clocksUsed.headD 0
  let pos := r.die.fe.clocks[k].headD c.pos
  let acc := c.acc + (pos - c.pos) * r.inc
  { s := c.nextSample, pos := pos, prevPos := c.pos, latch := c.openAt + pos, prevLatch := c.openAt + c.pos, acc := acc, time := accTime acc }

/-- The next sample that a die can take, if it can take one now. -/
def Run.next (r : Run) : Option SampleAt :=
  if r.die.plan.state then (if r.clocksReady then some r.nextEdge else none) else some r.nextAt

/-- A state capture finds its t(0): the earliest of the first active edges of the state clocks in use (R47; DESIGN CHOICE, assumption 75).
Positions count from it. -/
def Run.findStart (r : Run) : Run :=
  if r.die.plan.state && decide (r.die.convoy.nextSample = 0) && r.clocksReady then
    let heads := r.die.plan.clocksUsed.map (fun k => r.die.fe.clocks[k].headD 0)
    let z := heads.foldl min (heads.headD 0)
    let back := fun (w : Waiting) => { w with pos := w.pos - z }
    r.withDie (fun d => { d with
      fe := { d.fe with
        clocks := d.fe.clocks.map (fun l => (l.filter (fun x => decide (z ≤ x))).map (fun x => x - z))
        waiting := d.fe.waiting.map back, trigWaiting := d.fe.trigWaiting.map back }
      convoy :=
        { d.convoy with
          openAt := d.convoy.openAt + z, acc := d.convoy.acc + z * r.inc, endAcc := d.convoy.acc + z * r.inc
          startTime := accTime (d.convoy.acc + z * r.inc), lastTime := accTime (d.convoy.acc + z * r.inc)
          origin := d.convoy.origin + z } })
  else r

/-- The state clocks move on to their next active edges; one that no strand in use has follows the die's own sample. -/
def FrontEnd.tickClocks (p : Plan) (at_ : SampleAt) (fe : FrontEnd) : FrontEnd :=
  let used := fun (k : Fin 4) => p.clocksUsed.contains k
  { fe with
    clkPrev := if at_.s = 0 then Vector.ofFn (fun k => if used k then fe.clocks[k].headD at_.pos else at_.pos) else fe.clkPos
    clkPos := Vector.ofFn (fun k => if used k then fe.clocks[k].headD at_.pos else at_.pos)
    clocks := Vector.ofFn (fun k => if used k then fe.clocks[k].drop 1 else []) }

/-- A die takes a sample: its front end, and where the convoy then stands. -/
def Run.latch (r : Run) (at_ : SampleAt) : Run :=
  let p := r.die.plan
  r.withDie (fun d =>
    let fe := feSample p at_ (if p.state then d.fe.tickClocks p at_ else d.fe)
    { d with
      fe := fe
      convoy :=
        { d.convoy with
          nextSample := at_.s + 1, pos := at_.pos, acc := at_.acc, lastTime := at_.time
          levels0 := if at_.s = 0 then fe.levels else d.convoy.levels0
          disc := if r.disciplined then some (if at_.s = 0 then at_.pos else d.convoy.disc.getD at_.pos) else none
          stamps := if p.state then (at_.pos, at_.acc) :: d.convoy.stamps else d.convoy.stamps } })

/-- The saturated edges of a sample are counted by channel (R34, R108). -/
def Run.countSaturated (r : Run) : Run :=
  ((r.die.fe.edges.filter (fun e => e.saturated)).map (fun e => dieBase r.d + e.chan)).foldl
    (fun r c => r.emit (.bump (chanIdx 0x20B0 c) (c % 256) 1)) r

/-- The edges of the TRIGIN inputs in a sample, for the die's generator (R252). -/
def Run.trigEdges (r : Run) (at_ : SampleAt) : Run :=
  if r.die.fe.first then r
  else (List.finRange 4).foldl (fun r i =>
    let new := r.die.fe.trigLevels.getLsbD i.val
    if new = r.die.fe.trigPrev.getLsbD i.val then r else r.emit (.trigEdge i new at_.latch)) r

/-- One sample of a die: front end, staircase, storage, states (R77, R96, R118, R126, R134). -/
def Run.sample (r : Run) (at_ : SampleAt) : Run :=
  let r := (((r.latch at_).trigEdges at_).countSaturated).prefillEnd at_
  let qual := r.die.stair.qualifier
  let before := r.die.store.qualNow
  let r := (r.stairSample at_).storeSample at_ qual before
  ((r.withStore (fun s => { s with qualNow := qual })).drainEventsTo at_.pos).checkDepth at_

/-- Up to `n` samples, as far as the state clocks allow. -/
def Run.samples (r : Run) : Nat → Run
  | 0 => r
  | n + 1 => match r.next with
    | some at_ => (r.sample at_).samples n
    | none => r

/-- A core word of a die (R69, R77): what reaches its balls, then sixteen samples; in state mode those whose clock edges have come
(DESIGN CHOICE, assumption 75). -/
def Run.coreWord (r : Run) (w : CoreWordIn) : Run :=
  let c := r.die.convoy
  let r := r.withDie (fun d => { d with fe := d.fe.takeWord r.st r.d d.plan c.origin (decide (c.nextSample = 0)) w })
  r.findStart.samples 16

end Sys2Proof.Machine
end

