-- ==== Sys2Proof/Machine/CaptureOps.lean ====
section
/-! DEFINITION. A die's sampling seen from the package (chapters 04 to 06): running a die and applying its effects on the
other die, the pins, the counters and the interrupts; how a capture is sealed. -/

namespace Sys2Proof.Machine

/-- A die of the part, ready to run (R77). -/
def State.toRun (s : State) (d : Die) : Run :=
  { d := d, die := s.dies[d], basin := s.basin[d], fx := [], node := s.nodeId, disciplined := s.disciplined, inc := s.tb.inc,
    st := s.objs }

/-- The other die. -/
def otherDie (d : Die) : Die := if d = 0 then 1 else 0

/-! ### TRIGOUT (R88, R89) -/

/-- A TRIGOUT pin is driven: enabled, the package ON, no reset asserted (R88). -/
def State.trigoutOn (s : State) (p : Fin 2) : Bool := s.objBool (0x3600 + p.val) 1 && s.isOn

/-- A pin takes the actions of a die (R88). -/
def State.trigoutFrom (s : State) (p : Fin 2) (d : Die) : Bool :=
  decide (s.objNat (0x3600 + p.val) 2 = 2) || decide (s.objNat (0x3600 + p.val) 2 = d.val)

/-- The level of a pin by its polarity (R88). -/
def State.trigoutLevel (s : State) (p : Fin 2) (active : Bool) : Bool := active != s.objBool (0x3600 + p.val) 3

/-- The running pulse of a pin is over before a moment: it ends at its own end (R89). -/
def State.pulseOver (s : State) (p : Fin 2) (at_ : Nat) : State :=
  match s.pins.pulseEnd[p] with
  | some e =>
    if e < at_ then
      { s with pins := { s.pins with
        trigout := s.pins.trigout &&& ~~~(BitVec.ofNat 2 (2 ^ p.val)), pulseEnd := s.pins.pulseEnd.set p none } }.emit
          (.trigout p (s.trigoutLevel p false) e)
    else s
  | none => s

/-- A TRIGOUT action reaches a pin: active until the end of its pulse, or the running pulse extended (R89). -/
def State.startPulse (p : Fin 2) (s : State) (x : Nat × Nat) : State :=
  let s := s.pulseOver p x.1
  let was := s.pins.trigout.getLsbD p.val
  let s := { s with pins := { s.pins with
    trigout := s.pins.trigout ||| BitVec.ofNat 2 (2 ^ p.val)
    pulseEnd := s.pins.pulseEnd.set p (some (max x.2 (s.pins.pulseEnd[p].getD 0))) } }
  if was then s else s.emit (.trigout p (s.trigoutLevel p true) x.1)

/-- No sample that a die evaluates from now on can bring a TRIGOUT action to the pins before this moment (R90). -/
def DieSt.pulseFrom (x : DieSt) : Nat :=
  x.convoy.openAt + (if x.convoy.nextSample = 0 then 0 else x.convoy.pos + x.plan.period) + trigoutDelay x.plan.program

/-- No open capture whose actions the pin takes can precede an action at a moment (R88, R90). -/
def State.pulseSure (s : State) (p : Fin 2) (at_ : Nat) : Bool :=
  (List.finRange 2).all (fun d => !(s.dies[d].isOpen && s.trigoutFrom p d) || decide (at_ ≤ s.dies[d].pulseFrom))

/-- The actions that no other can precede reach a pin, in the order of their times there (R89, R90). -/
def State.settlePin (s : State) (p : Fin 2) : State :=
  let sure := s.pins.waiting[p].takeWhile (fun x => s.pulseSure p x.1)
  sure.foldl (State.startPulse p)
    { s with pins := { s.pins with waiting := s.pins.waiting.set p (s.pins.waiting[p].drop sure.length) } }

/-- Both pins. -/
def State.settlePins (s : State) : State := (s.settlePin 0).settlePin 1

/-- A TRIGOUT action of a die is on its way to a pin that takes it (R88, R89). -/
def State.pulse (s : State) (p : Fin 2) (d : Die) (at_ : Nat) : State :=
  if s.trigoutOn p && s.trigoutFrom p d then
    let l := s.pins.waiting[p]
    let x := (at_, at_ + ns (4 * s.objNat (0x3600 + p.val) 4))
    { s with pins := { s.pins with
      waiting := s.pins.waiting.set p (l.takeWhile (fun y => decide (y.1 ≤ x.1)) ++ x :: l.dropWhile (fun y => decide (y.1 ≤ x.1))) } }
  else s

/-- A stored barge at a byte address of its basin gains a flag (R147, R149). -/
def patchFlag (m : Memory) (addr bit : Nat) : Memory := memWriteBlock m addr (patchFlagBytes (memReadBlock m addr 64) bit)

/-! ### The trigger RAM -/

/-- The HKC writes a die's trigger RAM from the objects (R66, R67). -/
def State.loadTrigRam (s : State) (d : Die) : State :=
  s.withDie d (fun x => { x with trigRam := memWriteBlock [] 0 ((List.range 64).flatMap (patternBytes s.objs d)) })

/-! ### Effects of a die -/

/-- Towline flags of die `d` reach the other die, and its own generator's staircase jump source (R60, R252). A die that does
not evaluate samples takes none. -/
def State.towFlags (s : State) (d : Die) (flags : BitVec 16) (latch : Nat) : State :=
  let o := otherDie d
  let s := if s.hasDie o && s.dies[o].isOpen then
      s.withDie o (fun x => { x with fe := { x.fe with towIn := x.fe.towIn ++ [(flags, latch)] } }) else s
  if flags.getLsbD (s.genNat d 8) then s.genJump d .staircase latch else s

/-- The last sample that a die has evaluated. -/
def DieSt.lastSample (d : DieSt) : Nat := d.convoy.nextSample - 1

/-- The other die of a coupled convoy ends with this one, but for DEPTH, which each die reaches by its own samples (R11, R134). -/
def State.endPartner (s : State) (d : Die) (cause : EndCause) : State :=
  if s.dies[d].plan.coupled && decide (cause ≠ .depth) then
    s.withDie (otherDie d) (fun x => if x.isOpen then
      (({ s.toRun (otherDie d) with die := x }).endSampling cause x.lastSample).die else x)
  else s

/-- One effect of die `d` on the rest of the part. -/
def State.applyFx (d : Die) (s : State) (x : Fx) : State :=
  match x with
  | .bump idx sub n => s.bumpBy idx sub n
  | .most idx sub n => s.raiseTo idx sub n
  | .tow flags latch => s.towFlags d flags latch
  | .trigout pins latch =>
    let s := if pins.getLsbD 0 then s.pulse 0 d latch else s
    if pins.getLsbD 1 then s.pulse 1 d latch else s
  | .trigEdge pin rising latch => s.genTrigin d pin rising latch
  | .lateDeep addrs => { s with dsMem := addrs.foldl (fun m a => patchFlag m a flagKnotLate) s.dsMem }
  | .vector v => s.raise (BitVec.toFin (BitVec.ofNat 6 v))
  | .ended cause => s.endPartner d cause
  | .blackBox code sev data => s.bb code sev data

/-- The trigger timeword of a die is published in object 3910:05 when its trigger point is taken (R141). -/
def State.noteTrigTime (s : State) (d : Die) (was now_ : Option Trigger) : State :=
  match now_ with
  | some t => if was = now_ then s else s.put (0x3910 + d.val) 5 (.num t.time.toNat)
  | none => s

/-- Run a die and apply what it did (R77). -/
def State.runDie (s : State) (d : Die) (f : Run → Run) : State :=
  let r := f (s.toRun d)
  ((r.fx.foldl (State.applyFx d) { s with dies := s.dies.set d r.die, basin := s.basin.set d r.basin }).settlePins).noteTrigTime d
    s.dies[d].stair.trigger r.die.stair.trigger

/-! ### Sealing (R134, R140) -/

/-- End the sampling part of a die, and of its partner in a coupled convoy, with a cause (R140, R313). -/
def State.endDie (s : State) (d : Die) (cause : EndCause) : State :=
  if s.dies[d].isOpen then s.runDie d (fun r => r.endSampling cause r.die.lastSample) else s

end Sys2Proof.Machine
end

