-- ==== Sys2Proof/Machine/Operands.lean ====
section
/-! DEFINITION. The values that a write brings to an object: their types and sizes (R346), and the clamp of each field to its
range (R350, R352). -/

namespace Sys2Proof.Machine

/-! ### Types (R346) -/

/-- The type codes of R346. -/
def OType.code : OType → Nat
  | .bool => 0
  | .u8 => 1
  | .u16 => 2
  | .u32 => 3
  | .u64 => 4
  | .i32 => 5
  | .i64 => 6
  | .time => 7
  | .str => 8
  | .blob => 9

/-- The size of a value of a numeric type in bytes; none for STR and BLOB. -/
def OType.size : OType → Option Nat
  | .bool => some 1
  | .u8 => some 1
  | .u16 => some 2
  | .u32 => some 4
  | .i32 => some 4
  | .u64 => some 8
  | .i64 => some 8
  | .time => some 8
  | .str => none
  | .blob => none

/-- The value that bytes of a type spell: little-endian numbers, two's complement for I32 and I64; a BOOL other than 0 is 1. -/
def readVal (t : OType) (bs : List Byte) : Val :=
  match t with
  | .bool => .num (if leNat bs = 0 then 0 else 1)
  | .i32 => .num (signedOf 32 (leNat bs))
  | .i64 => .num (signedOf 64 (leNat bs))
  | .str => .bytes bs
  | .blob => .bytes bs
  | .u8 => .num (leNat bs)
  | .u16 => .num (leNat bs)
  | .u32 => .num (leNat bs)
  | .u64 => .num (leNat bs)
  | .time => .num (leNat bs)

/-- The bytes of a value of a type. -/
def valBytes (t : OType) (v : Val) : List Byte :=
  match t.size, v with
  | some n, .num x => intBytes n x
  | some n, .bytes bs => fitBytes n bs
  | none, .num _ => []
  | none, .bytes bs => bs

/-- The length that a value of a type may have in a write (R346). -/
def lengthOk (t : OType) (n : Nat) : Bool :=
  match t with
  | .str => decide (n ≤ 4096)
  | .blob => decide (n ≤ 4096)
  | .bool => decide (n = 1)
  | .u8 => decide (n = 1)
  | .u16 => decide (n = 2)
  | .u32 => decide (n = 4)
  | .i32 => decide (n = 4)
  | .u64 => decide (n = 8)
  | .i64 => decide (n = 8)
  | .time => decide (n = 8)

/-! ### Ranges (R350, R352) -/

/-- The nearest number of a closed range, with reason BELOW_MIN or ABOVE_MAX. -/
def clampRange (lo hi v : Int) : Int × Option Nat := if v < lo then (lo, some 0) else if hi < v then (hi, some 1) else (v, none)

/-- The nearest member of a set of codes, the lower one on a tie, with reason NOT_IN_SET. -/
def clampSet (codes : List Int) (v : Int) : Int × Option Nat :=
  if codes.contains v then (v, none)
  else (codes.foldl (fun best c => if (c - v).natAbs < (best - v).natAbs then c else best) (codes.headD 0), some 2)

/-- The nearest channel of a die, with reason DIE for a channel of the other die (R10). -/
def clampChannel (d : Nat) (v : Int) : Int × Option Nat :=
  let r := clampRange (1024 * d) (1024 * d + 1023) v
  if r.2.isSome && decide (v < 2048) then (r.1, some 8) else r

/-- The term selectors of R49 that are reserved. -/
def reservedSelector (v : Int) : Bool := decide (0x9C ≤ v ∧ v ≤ 0xFD)

/-- The selectors of chamber W (R113). -/
def watchSelectorOk (v : Int) : Bool := decide (v ≤ 0x7F ∨ (0x90 ≤ v ∧ v ≤ 0x97) ∨ v = 0xFE ∨ v = 0xFF)

/-- The compare sources of a condition (R91). -/
def compareSources : List Int := [0, 0x10, 0x11, 0x12, 0x13, 0x14, 0x15, 0x16, 0x17, 0x20, 0x21, 0x22, 0x23, 0x24, 0x25, 0x26, 0x27]

/-- The admission limit of a variant in m°C (R1, R417). -/
def variantLimit (v : Variant) : Int :=
  match v with
  | .c2048 => 100000
  | .c1024 => 100000
  | .e2048 => 105000

/-- A temperature limit, object 7400:01 or 7400:04: the variant maximum until one is written (R417). Both ranges exclude zero, so a
stored zero stands for that default. -/
def State.tempLimit (s : State) (sub : Nat) : Int :=
  let v := s.objInt 0x7400 sub
  if v = 0 then variantLimit s.variant else v

/-- A number of the range of an object, nearest to the one written, with the clamp's reason. -/
def clampNum (variant : Variant) (r : ObjRow) (v : Int) : Int × Option Nat :=
  match r.rng with
  | .range lo hi => clampRange lo hi v
  | .any => (v, none)
  | .aligned n => if v % n = 0 then (v, none) else (v - v % n, some 3)
  | .alignedTo n hi => if (hi : Int) < v then (hi, some 1) else if v % n = 0 then (v, none) else (v - v % n, some 3)
  | .channel => clampChannel r.die v
  | .slotChannel => if v = 0xFFFF then (v, none) else clampChannel r.die v
  | .selector => if reservedSelector v then (0xFE, some 2) else (v, none)
  | .watchSelector => if watchSelectorOk v then (v, none) else (0xFE, some 2)
  | .compareSource => clampSet compareSources v
  | .watchCompare => clampSet [0, 0x10, 0x20] v
  | .backgrounds => clampSet [1, 4] v
  | .blob _ => (v, none)
  | .ipv4Group => if v = 0 then (v, none) else
      if v < 0x70000000 then (0, some 2) else if v < 0xE0000000 then (0xE0000000, some 2)
      else if 0xEFFFFFFF < v then (0xEFFFFFFF, some 2) else (v, none)
  | .guardMode => if 2 < v then (0, some 2) else (v, none)
  | .codes n => if (n : Int) < v then (0, some 2) else (v, none)
  | .variantMax => clampRange 60000 (variantLimit variant) v

/-- A byte of a UTF-8 character other than its first. -/
def isContinuation (b : Byte) : Bool := b >>> 6 == 2

/-- A string cut to 256 bytes at a character boundary (R350). -/
def cutText (bs : List Byte) : List Byte :=
  let t := bs.take 256
  if isContinuation (bs.getD 256 0) then ((t.reverse.dropWhile isContinuation).drop 1).reverse else t

/-- A byte value fitted to its object: a BLOB to its fixed length, a STR to 256 bytes. -/
def clampBytes (r : ObjRow) (bs : List Byte) : List Byte × Option Nat :=
  match r.typ, r.rng with
  | .blob, .blob n => if bs.length = n then (bs, none) else (fitBytes n bs, some 4)
  | .str, _ => if bs.length ≤ 256 then (bs, none) else (cutText bs, some 4)
  | _, _ => (bs, none)

/-- A written value as it is applied, with the clamp's reason. -/
def clampVal (variant : Variant) (r : ObjRow) (v : Val) : Val × Option Nat :=
  match v with
  | .num x => let c := clampNum variant r x; (.num c.1, c.2)
  | .bytes bs => let c := clampBytes r bs; (.bytes c.1, c.2)

/-- What a clamp-report entry says of a value: the number, or the length of a byte value (R351). -/
def Val.reported : Val → Int
  | .num x => x
  | .bytes bs => bs.length

/-- A field is clamped on its own, with a clamp-report entry where that changes it (R350, R351). -/
def State.clampField (s : State) (r : ObjRow) (idx sub : Nat) (v : Val) (via : Source) : State × Val :=
  let c := clampVal s.variant r v
  match c.2 with
  | some reason => (s.clampOp (idx, sub) reason via v.reported c.1.reported, c.1)
  | none => (s, c.1)

/-- A field is clamped and stored. A pair that no table lists is left alone. -/
def State.writeField (s : State) (idx sub : Nat) (v : Val) (via : Source) : State :=
  match objRow idx sub with
  | some r => let c := s.clampField r idx sub v via; c.1.put idx sub c.2
  | none => s

end Sys2Proof.Machine
end

