-- ==== Sys2Proof/Machine/TimeBase.lean ====
section
/-! DEFINITION. The commands of the time base (chapter 08), compare-slot firing apart. -/

namespace Sys2Proof.Machine

/-- Under another owner than HOST a host write to TB_INC, TB_STEP or TB_HCTL is ignored, with STEPIGN (R171). -/
def State.ownHost (s : State) (off : Nat) (f : State → State) : State :=
  if s.tb.owner = .host then f s else (s.setEvBit .tb 9).ignoreOp (regLoc off) .bar0 .owner

/-- The write of TB_INC_HI: the held low half, or the one in force when none is held, and the new high half commit (R171). -/
def State.writeIncHi (hi : Dword) (s : State) : State :=
  s.ownHost 0x10014 fun s =>
    let lo := s.tb.incLo.getD (BitVec.ofNat 32 s.tb.inc)
    let s := { s with tb := { s.tb with incLo := none } }
    (s.commitInc ((hi.toNat % 65536) * 2 ^ 32 + lo.toNat) .bar0).feedWatchdog

/-- INCREMENT_COMMIT (R171). -/
def execIncrementCommit (hi : Dword) (s : State) : Result := .next (s.onBar0 0x10014 (State.writeIncHi hi))

/-- The write of TB_INC_LO is held until the commit (R171, R374). -/
def State.writeIncLo (lo : Dword) (s : State) : State := s.ownHost 0x10010 fun s => { s with tb := { s.tb with incLo := some lo } }

/-- The write of TB_STEP_LO is held until the commit (R172, R374). -/
def State.writeStepLo (lo : Dword) (s : State) : State := s.ownHost 0x10018 fun s => { s with tb := { s.tb with stepLo := lo } }

/-- The write of TB_STEP_HI commits a host step (R172). -/
def State.writeStepHi (hi : Dword) (s : State) : State :=
  s.ownHost 0x1001C fun s => s.commitStep (hi ++ s.tb.stepLo : Qword).toInt .bar0 false

/-- STEP_COMMIT (R172). -/
def execStepCommit (hi : Dword) (s : State) : Result := .next (s.onBar0 0x1001C (State.writeStepHi hi))

/-- STEP_APPLY (R172): the tick that a pending step enters. -/
def execStepApply (s : State) : Result := .next (if s.tb.stepPend.isSome then s.tick else s)

/-- FORCE_STEP_AMOUNT (R173): TB_FSTEP_GO with GO. -/
def execForceStepAmount (g : GuardForm) (s : State) : Result := .next (s.guardForm 0x10028 1 g State.fstepGo)

/-- FORCE_STEP_ABSOLUTE (R173): TB_FSTEP_GO with GO and ABS. -/
def execForceStepAbsolute (g : GuardForm) (s : State) : Result := .next (s.guardForm 0x10028 3 g State.fstepGo)

/-- Where a setting stands in the logs: the register for BAR0, the object otherwise (R351). -/
def locFor (via : Source) (off idx sub : Nat) : Nat × Nat := if via = .bar0 then regLoc off else (idx, sub)

/-- EPOCH_WRITE (R170). -/
def execEpochWrite (v : Dword) (via : Source) (s : State) : Result :=
  .next (s.byPath via 0x1000C fun s => s.writeEpoch v (locFor via 0x1000C 0x4020 1) via)

/-- The next tick carries out of timeword bit 63 (R169). -/
def State.willWrap (s : State) : Bool := decide (2 ^ 80 ≤ s.tb.acc.toNat + s.tb.inc * s.tb.tickLen)

/-- TIMEWORD_WRAP (R169): the tick in which the accumulator carries. -/
def execTimewordWrap (s : State) : Result := .next (if s.willWrap then s.tick else s)

/-- DISC set under owner HOST: DISCIPLINED, TIMESET (R176). -/
def State.discSet (s : State) : State :=
  s.ownHost 0x10034 fun s => ({ s with tb := { s.tb with disc := true } }.setDisciplined).feedWatchdog

/-- DISC cleared under owner HOST: HOLDOVER (R176). -/
def State.discClear (s : State) : State :=
  s.ownHost 0x10034 fun s =>
    let was := s.tb.disc
    let s := { s with tb := { s.tb with disc := false } }
    (if was then s.enterHoldover 6 else s).feedWatchdog

/-- DISC_SET (R176). -/
def execDiscSet (s : State) : Result := .next (s.onBar0 0x10034 State.discSet)

/-- DISC_CLEAR (R176). -/
def execDiscClear (s : State) : Result := .next (s.onBar0 0x10034 State.discClear)

/-- The host watchdog's time has come with DISC set (R177). -/
def State.watchdogDue (s : State) : Bool :=
  s.tb.disc && decide (s.tb.owner = .host) && (match s.tb.watchdog with
    | some t => decide (t ≤ s.now)
    | none => false)

/-- HOST_WATCHDOG_EXPIRY (R177). -/
def execHostWatchdogExpiry (s : State) : Result :=
  .next (if s.watchdogDue then
    let s := { s with tb := { s.tb with disc := false, watchdog := none } }.enterHoldover 6
    (s.bump 0x4000 4).bb 0x0043 2 []
  else s)

/-- The owner that a code names (R171). -/
def ownerOf (v : Nat) : Owner :=
  match v with
  | 0 => .hkc
  | 1 => .host
  | _ => .none

/-- A port carries PTP: enabled, with the PTP service, and named by the clock type (R189, R193). -/
def State.ptpPort (s : State) (p : Fin 2) : Bool :=
  s.objBool (0x4400 + p.val) 1 && (s.objNat (0x4400 + p.val) 0x0A).testBit 3 &&
    (decide (s.objNat 0x4410 1 = 2) || decide (s.objNat 0x4410 1 = p.val))

/-- The servo has something to do: PTP is enabled on a port, or the Aelop reference is selected (R199, R226). -/
def State.servoWanted (s : State) : Bool := s.ptpPort 0 || s.ptpPort 1 || s.objNat 0x4880 1 != 0

/-- The servo's state when it starts over under an owner (R199). -/
def State.idleServo (s : State) (o : Owner) : Servo := if s.servoWanted then if o = .hkc then .listen else .measure else .off

/-- The HKC commits the free-run increment and records the time of the update (R183). -/
def State.freeRun (s : State) : State :=
  let s := s.setInc s.freeRunInc
  { s with tb := { s.tb with updatedAt := s.now } }.put 0x4040 9 (.num s.time.toNat)

/-- A change of the servo owner (R171, R176). Under NONE the HKC loads the free-run increment, in FREE (R183). -/
def State.writeOwner (s : State) (o : Owner) : State :=
  if s.tb.owner = o then s
  else
    let s := s.enterHoldover 2
    let s := { s with
      tb := { s.tb with owner := o, disc := false, watchdog := none }
      net := { s.net with servo := s.idleServo o, hold := none, good := 0, integral := 0 } }
    if o = .none ∧ s.power.hkcUp ∧ s.tb.state = .free then s.freeRun else s

/-- SERVO_OWNER_WRITE (R171): object 4000:01, clamped to its codes. -/
def execServoOwnerWrite (v : Byte) (via : Source) (s : State) : Result :=
  let a := min v.toNat 2
  .next (s.onPath via fun s =>
    (if a = v.toNat then s else s.clampOp (0x4000, 1) 1 via v.toNat a).writeOwner (ownerOf a))

/-- COMPARE_TARGET_COMMIT (R178): TB_CMPk_LO then TB_CMPk_HI, or object 4030+k:07. -/
def execCompareTargetCommit (k : Fin 8) (t : Qword) (via : Source) (s : State) : Result :=
  .next (s.byPath via (0x10100 + 16 * k.val) fun s =>
    s.byPath via (0x10104 + 16 * k.val) fun s => s.commitTarget k t)

/-- COMPARE_SLOT_ENABLE (R178). -/
def execCompareSlotEnable (k : Fin 8) (via : Source) (s : State) : Result :=
  .next (s.byPath via (0x10108 + 16 * k.val) fun s => s.enableSlot k)

/-- A selected source: RWI, clamped to its codes; the change waits for the first tick of the new source (R184, R316). -/
def State.selectSource (s : State) (v : Nat) (via : Source) : State :=
  if s.bothIdle then
    let a := min v 2
    let s := if a = v then s else s.clampOp (0x4001, 1) 1 via v a
    { s with
      tb := { s.tb with wanted := a }
      clocks := { s.clocks with sourceNext := if a = s.tb.source then none else some a } }
  else s.ignoreOp (0x4001, 1) via .notIdle

/-- SOURCE_SELECT (R184). -/
def execSourceSelect (v : Byte) (via : Source) (s : State) : Result := .next (s.onPath via fun s => s.selectSource v.toNat via)

/-- SOURCE_SWAP (R184): the first tick of the selected source, `interval` after the last tick of the old one (2^−16 ns). While a
PLL coasts the change waits (R314, R316). -/
def execSourceSwap (interval : Int) (s : State) : Result :=
  .next (match s.clocks.sourceNext with
    | some v => if s.anyCoast then s else s.swapSource v interval false
    | none => s)

/-- REFIN_FALLBACK (R185): REFIN has been silent for 200 ns. -/
def execRefinFallback (interval : Int) (s : State) : Result :=
  .next (if s.tb.source = 0 then s
    else
      let s := s.swapSource 0 interval true
      let s := (s.setEvBit .tb 12).bump 0x4001 5
      s.enterHoldover 5)

/-- REFIN_AUTO_RETURN (R185): REFIN has run 10 ms after a fall-back. -/
def execRefinAutoReturn (interval : Int) (s : State) : Result :=
  .next (if s.objBool 0x4001 3 ∧ s.tb.source = 0 ∧ s.tb.wanted ≠ 0 ∧ !s.anyCoast then
    s.swapSource s.tb.wanted interval false else s)

/-- FREE_RUN_UPDATE (R183): 24 h of powered time since the last, in FREE under owner HKC or NONE. -/
def execFreeRunUpdate (s : State) : Result :=
  .next (if s.power.hkcUp ∧ s.tb.state = .free ∧ s.tb.owner ≠ .host ∧ s.tb.updatedAt + day ≤ s.now then s.freeRun else s)

/-- The DISCIPLINED periods of 24 h or more, with the one that still runs (R182). -/
def State.longPeriods (s : State) : List Period := (s.tb.endPeriod s.now).periods

/-- Two periods lie 7 days apart (R182). -/
def Period.apart (a b : Period) : Bool := decide (a.to_ + 7 * day ≤ b.from_)

/-- The rate of the quartz that a mean disciplined increment shows, in 0.001 ppb: inc = 10 ns × (1 − y × 10^−9) (R183). -/
def quartzRate (mean : Nat) : Int := ((incNominal : Int) - mean) * 10 ^ 12 / incNominal

/-- The ageing rate that two periods show, in 0.001 ppb per 30 days: the change of rate from the middle of one to that of the other
(R182; DEDUCED, assumption 83). -/
def ageingOf (a b : Period) : Int :=
  (quartzRate b.mean - quartzRate a.mean) * (60 * day : Nat) / ((b.from_ + b.to_ : Nat) - (a.from_ + a.to_ : Nat) : Int)

/-- AGEING_LEARNED (R182): the HKC learns the ageing rate from two of the qualifying periods, and keeps it in MRAM. -/
def execAgeingLearned (pick : LearnPair) (s : State) : Result :=
  .next (match s.longPeriods[pick.first]?, s.longPeriods[pick.second]? with
    | some a, some b =>
      if s.power.hkcUp && a.apart b then
        { s with mram := { s.mram with learned := some (clampInt (-100000) 100000 (ageingOf a b)), present := s.mram.present ||| 4 } }
      else s
    | _, _ => s)

/-- The low half of a latching pair is read: it latches the high half and the named registers (R374). -/
def State.latchPair (s : State) (p : LatchPair) : State × Dword :=
  match p with
  | .tbTime => ({ s with tb := { s.tb with timeHi := (s.time >>> 32).setWidth 32 } }, s.time.setWidth 32)
  | .capTrig d =>
    if s.hasDie d then
      let t : Qword := BitVec.ofNat 64 (s.objNat (0x3910 + d.val) 5)
      ({ s with host := { s.host with trigHi := s.host.trigHi.set d ((t >>> 32).setWidth 32) } }, t.setWidth 32)
    else (s, 0)
  | .pgT0 d =>
    let t := s.gens[d].t0
    (s.withGen d (fun g => { g with t0Hi := (t >>> 32).setWidth 32 }), t.setWidth 32)
  | .ptpOffset =>
    let v := BitVec.ofInt 64 s.net.last.offset
    ({ s with net := { s.net with
        offsetHi := (v >>> 32).setWidth 32
        mseqHeld := s.net.last.seqId.setWidth 32 ||| fieldAt s.net.last.port.val 16 } }, v.setWidth 32)
  | .ptpMpd =>
    let v := BitVec.ofInt 64 s.net.last.delay
    ({ s with net := { s.net with mpdHi := (v >>> 32).setWidth 32 } }, v.setWidth 32)

/-- LATCHING_PAIR_READ (R374). -/
def execLatchingPairRead (p : LatchPair) (s : State) : Result :=
  .next (if s.pcie.answers then
    let r := s.latchPair p
    r.1.emit (.completion (leBytes 4 r.2.toNat))
  else s.emit .unsupported)

end Sys2Proof.Machine
end

