-- ==== Sys2Proof/Machine/PtpOps.lean ====
section
/-! DEFINITION. The PTP engine and the built-in servo (chapter 09): stamps, roles, delay measurements, offsets. Full times and
offsets are integers in 2^−16 ns. -/

namespace Sys2Proof.Machine

/-! ### Ports and intervals -/

/-- One Ethernet port changed. -/
def State.withPort (s : State) (p : Fin 2) (f : EthPort → EthPort) : State :=
  { s with net := { s.net with ports := vmod s.net.ports p f } }

/-- A logarithmic interval of 2^l s (R193). -/
def logSec (l : Int) : Nat := if 0 ≤ l then sec (2 ^ l.toNat) else sec 1 / 2 ^ (-l).toNat

/-- The Sync interval. -/
def State.syncInterval (s : State) : Nat := logSec (s.objInt 0x4410 9)

/-- The Announce interval. -/
def State.announceInterval (s : State) : Nat := logSec (s.objInt 0x4410 0x0A)

/-- Bytes of an object. -/
def State.objBytes (s : State) (idx sub : Nat) : List Byte := (storeGet s.objs idx sub).byteList

/-- A BLOB of all zeros. -/
def allZero (bs : List Byte) : Bool := bs.all (fun b => b == 0)

/-- A port is enabled with its link up and offers a service (R189): 0 ODP, 1 bulk readout, 2 knots, 3 PTP. -/
def State.ethService (s : State) (p : Fin 2) (i : Nat) : Bool :=
  s.objBool (0x4400 + p.val) 1 && s.net.ports[p].linkUp && (s.objNat (0x4400 + p.val) 0x0A).testBit i

/-- A port hears frames: it is enabled with its link up (R188, R189). -/
def State.ethHears (s : State) (p : Fin 2) : Bool := !s.frozenFull && s.objBool (0x4400 + p.val) 1 && s.net.ports[p].linkUp

/-- A port has an address of a family: IPv4 or IPv6 (R189). -/
def State.hasAddr (s : State) (p : Fin 2) (v6 : Bool) : Bool :=
  if v6 then !allZero (s.objBytes (0x4400 + p.val) 8) else s.objNat (0x4400 + p.val) 5 != 0

/-- A frame that a port hears is counted (R207, object 4402 + p :01). -/
def State.countFrame (s : State) (p : Fin 2) : State := s.bump (0x4402 + p.val) 1

/-- A frame for no service that the port offers is dropped and counted (R189). -/
def State.dropFrame (s : State) (p : Fin 2) : State := s.bump (0x4402 + p.val) 2

/-- The VLAN id of the frames that a port sends and accepts (R190). -/
def State.vlanOf (s : State) (p : Fin 2) : Nat := s.objNat (0x4400 + p.val) 9

/-- A port has what the transport of PTP needs: an address of its family (R189, R193). -/
def State.ptpCarried (s : State) (p : Fin 2) : Bool :=
  match s.objNat 0x4410 4 with
  | 0 => true
  | 1 => s.hasAddr p false
  | _ => s.hasAddr p true

/-- Event messages can leave a port: PTP is enabled and carried there, and the link is up. -/
def State.ptpReady (s : State) (p : Fin 2) : Bool := s.ptpPort p && s.ptpCarried p && s.net.ports[p].linkUp && !s.frozenFull

/-- The engine runs on a port: messages can leave it and the HKC serves (R19, R193). -/
def State.ptpLive (s : State) (p : Fin 2) : Bool := s.ptpReady p && s.power.hkcUp

/-- A PTP message that arrives by itself is a frame like any other (R189): counted, and dropped at a port that does not offer PTP. -/
def State.ptpFrame (s : State) (p : Fin 2) (f : State → State) : State :=
  if s.ethHears p then
    let s := s.countFrame p
    if s.ethService p 3 && s.ptpCarried p then f s else s.dropFrame p
  else s

/-- A message of the part's domain arrives at a live port. -/
def State.ptpHears (s : State) (p : Fin 2) (h : PtpHdr) : Bool := s.ptpLive p && decide (h.domain.toNat = s.objNat 0x4410 3)

/-- The part's clock identity (object 4410:0C). -/
def State.clockId (s : State) : Qword := BitVec.ofNat 64 (s.objNat 0x4410 0x0C)

/-! ### Messages out (R193) -/

/-- An event message, sent to port 319; the others go to port 320. -/
def PtpOut.isEvent : PtpOut → Bool
  | .sync .. | .delayReq .. | .pdelayReq .. | .pdelayResp .. => true
  | .followUp .. | .announce .. | .delayResp .. | .pdelayRespFollowUp .. => false

/-- A message of the peer-delay mechanism, which has a group of its own. -/
def PtpOut.isPeer : PtpOut → Bool
  | .pdelayReq .. | .pdelayResp .. | .pdelayRespFollowUp .. => true
  | .sync .. | .followUp .. | .announce .. | .delayReq .. | .delayResp .. => false

/-- The multicast group of a message: 224.0.1.129 or FF0E::181, for peer delay 224.0.0.107 or FF02::6B. -/
def PtpOut.group (m : PtpOut) (v6 : Bool) : List Byte :=
  match v6, m.isPeer with
  | false, false => [224, 0, 1, 129]
  | false, true => [224, 0, 0, 107]
  | true, false => [0xFF, 0x0E] ++ List.replicate 12 0 ++ [0x01, 0x81]
  | true, true => [0xFF, 0x02] ++ List.replicate 13 0 ++ [0x6B]

/-- The carrier of a message under transport 0 to 2 (object 4410:04). -/
def ptpCarrier (transport : Nat) (m : PtpOut) : PtpCarrier :=
  match transport with
  | 0 => .layer2 0x88F7
  | t => .udp (m.group (decide (t ≠ 1))) (if m.isEvent then 319 else 320)

/-- A message leaves a port with its sender's VLAN, carrier, domain, clock identity and port number. -/
def State.sendPtp (s : State) (p : Fin 2) (m : PtpOut) : State :=
  s.emit (.ptp p
    { vlan := s.vlanOf p, carrier := ptpCarrier (s.objNat 0x4410 4) m, domain := s.objNat 0x4410 3, clock := s.clockId,
      portNumber := p.val + 1 } m)

/-! ### Stamps (R195, R196) -/

/-- The internal ingress and egress latencies in ps of a line mode (true: 10GBASE-R) and FEC (R196). -/
def portLatency (slow : Bool) (fec : Nat) : Int × Int :=
  if slow then if fec = 0 then (58880, 41600) else (225280, 121600)
  else if fec = 0 then (31040, 24576) else if fec = 1 then (112640, 64000) else (266240, 96000)

/-- The internal latencies of a port. -/
def State.latency (s : State) (p : Fin 2) : Int × Int :=
  portLatency (s.objNat (0x4400 + p.val) 2 != 0) (s.objNat (0x4400 + p.val) 3)

/-- Picoseconds as 2^−16 ns, rounded to the nearest. -/
def psUnits (ps : Int) : Int := divRound (ps * 65536) 1000

/-- The corrected ingress time of an MII stamp (R196). -/
def State.ingress (s : State) (p : Fin 2) (stamp : Qword) : Int :=
  s.fullOf stamp - psUnits ((s.latency p).1 + s.objInt (0x4430 + p.val) 3)

/-- The corrected egress time of an MII stamp (R196). -/
def State.egress (s : State) (p : Fin 2) (stamp : Qword) : Int :=
  s.fullOf stamp + psUnits ((s.latency p).2 + s.objInt (0x4430 + p.val) 4)

/-! ### The servo's reference (R199, R226) -/

/-- The servo steers by the Aelop link rather than by PTP (R226). -/
def State.aelopRef (s : State) : Bool :=
  match s.objNat 0x4880 1 with
  | 0 => false
  | 1 => true
  | _ => s.knots.parent.isSome

/-- The servo loses its PTP parent: ACQUIRE has none to acquire, and a hold ends (R199, R202). -/
def Net.noParent (n : Net) : Net :=
  { n with
    hold := none
    good := 0
    integral := 0
    servo :=
      match n.servo with
      | .acquire => .listen
      | .pathHold => .locked
      | x => x }

/-! ### The best master clock (R194) -/

/-- The dataset fields in the order that the algorithm compares them. -/
def MasterData.key (m : MasterData) : List Nat :=
  [m.priority1, m.clockClass, m.accuracy, m.variance, m.priority2, m.gm.toNat, m.steps, m.source.toNat, m.sourcePort]

/-- One dataset is better than another (R194; the standard's comparison, PRESUMED, assumption 8). -/
def MasterData.better (a b : MasterData) : Bool := lexLess a.key b.key

/-- The part's own dataset (R194). -/
def State.ownData (s : State) : MasterData :=
  { gm := s.clockId, timeTraceable := false, timeSource := 0xA0, priority1 := s.objNat 0x4410 6, clockClass := s.objNat 0x4410 8, accuracy := 0xFE,
    variance := Config.perPart (objKey 0x4410 0x0D) % 65536, priority2 := s.objNat 0x4410 7, steps := 0, source := s.clockId,
    sourcePort := 0 }

/-- The best dataset heard, with its port. -/
def State.bestHeard (s : State) : Option (Fin 2 × MasterData) :=
  match s.net.ports[0].best, s.net.ports[1].best with
  | some a, some b => if b.1.better a.1 then some (1, b.1) else some (0, a.1)
  | some a, none => some (0, a.1)
  | none, some b => some (1, b.1)
  | none, none => none

/-- A clock of class 1 to 127 is never a slave (R194; the standard's rule, PRESUMED, assumption 8). -/
def State.neverSlave (s : State) : Bool := decide (1 ≤ s.objNat 0x4410 8) && decide (s.objNat 0x4410 8 ≤ 127)

/-- The parent that the algorithm and the role limit leave (R194). -/
def State.chooseParent (s : State) : Option Parent :=
  match s.objNat 0x4410 2, s.bestHeard with
  | 2, _ => none
  | _, none => none
  | 1, some (p, m) => some { port := p, data := m }
  | _, some (p, m) => if s.neverSlave || s.ownData.better m then none else some { port := p, data := m }

/-- The role of a port under a choice of parent (R194). -/
def State.chooseRole (s : State) (parent : Option Parent) (p : Fin 2) : PtpRole :=
  if !(s.ptpPort p) then .disabled
  else match s.objNat 0x4410 2 with
    | 1 => .slave
    | 2 => .master
    | _ => match parent, s.net.ports[p].best with
      | none, none => .master
      | none, some b => if s.ownData.better b.1 then .master else .passive
      | some q, none => if q.port = p then .slave else .master
      | some q, some b => if q.port = p then .slave else if b.1.gm = q.data.gm then .passive else .master

/-- The same parent: port, sender and grandmaster (R202). -/
def Parent.same (a b : Parent) : Bool :=
  decide (a.port = b.port ∧ a.data.source = b.data.source ∧ a.data.sourcePort = b.data.sourcePort ∧ a.data.gm = b.data.gm)

/-- A waiting two-step Sync is given up: it is not accepted (R198). -/
def State.dropWaiting (s : State) : State :=
  match s.net.waiting with
  | some w => { s with net := { s.net with waiting := none } }.bump (0x4440 + w.port.val) 4
  | none => s

/-- A change of parent: the mean path delay and the integral go, a waiting Sync is not accepted, and a hold ends (R198, R202, R204). -/
def State.newParent (s : State) (parent : Option Parent) : State :=
  let s := s.dropWaiting
  let s := if s.aelopRef then s else s.dropHold
  let n := s.net
  let n := { n with parent := parent, lastSeq := none, ports := n.ports.map (fun x => { x with
    mean := none, lastSync := none, ask := none, unanswered := 0 }) }
  let n := if s.aelopRef then n
    else match parent with
      | none => n.noParent
      | some _ => { n with
          hold := none, good := 0, integral := 0
          servo := match n.servo with
            | .pathHold => .locked
            | x => x }
  { s with net := n }

/-- The algorithm runs: parent and roles (R194, R202). -/
def State.elect (s : State) : State :=
  let parent := s.chooseParent
  let keep := match parent, s.net.parent with
    | some a, some b => a.same b
    | none, none => true
    | _, _ => false
  let s := if keep then { s with net := { s.net with parent := parent } } else s.newParent parent
  { s with net := { s.net with ports := Vector.ofFn (fun p => { s.net.ports[p] with role := s.chooseRole parent p }) } }

/-- Where the servo starts when PTP is enabled, under an owner. -/
def Servo.start (o : Owner) : Servo :=
  match o with
  | .hkc => .listen
  | .host => .measure
  | .none => .measure

/-- The servo's state with PTP enabled somewhere or nowhere (R199). -/
def Servo.settle (v : Servo) (any : Bool) (o : Owner) : Servo := if !any then .off else if v = .off then Servo.start o else v

/-- A port without PTP holds nothing of the engine's. -/
def EthPort.quiet (x : EthPort) : EthPort := { x with best := none, mean := none, ask := none, txq := [], awaiting := [] }

/-- The servo follows the enabling of PTP or of the Aelop reference (R199, R226). A servo of owner HKC that starts over does not do so with
the time base DISCIPLINED. -/
def State.ptpSettle (s : State) : State :=
  let any := s.servoWanted
  let s := if any && decide (s.net.servo = .off) && decide (s.tb.owner = .hkc) then s.enterHoldover 0 else s
  let s := if any then s else s.dropHold
  let s := { s with net := { s.net with
    ports := Vector.ofFn (fun p => if s.ptpPort p then s.net.ports[p] else s.net.ports[p].quiet)
    servo := s.net.servo.settle any s.tb.owner } }
  s.elect

/-! ### The transmit-timestamp queue (R197) -/

/-- The engine takes one entry and completes its message. -/
def State.takeStamp (p : Fin 2) (s : State) (e : TxEntry) : State :=
  let x := s.net.ports[p]
  let t := s.fullOf e.stamp
  match x.awaiting.find? (fun a => a.typ == e.typ && a.seqId == e.seqId) with
  | none =>
    let asked := decide (e.typ = .delayReq ∨ e.typ = .pdelayReq)
    s.withPort p (fun x => { x with ask := x.ask.map (fun a =>
      if asked ∧ a.seqId = e.seqId ∧ a.sent.isNone then { a with sent := some t } else a) })
  | some a =>
    let s := s.withPort p (fun x => { x with awaiting := x.awaiting.filter (fun b => !(b.typ == e.typ && b.seqId == e.seqId)) })
    match a.typ with
    | .sync => s.sendPtp p (.followUp a.seqId t.toNat)
    | .pdelayResp => s.sendPtp p (.pdelayRespFollowUp a.seqId t.toNat a.correction a.reqSource a.reqPort)
    | .delayReq => s
    | .pdelayReq => s

/-- The engine empties the queue while the HKC serves. -/
def State.takeStamps (s : State) (p : Fin 2) : State :=
  if s.power.hkcUp then
    s.net.ports[p].txq.foldl (State.takeStamp p) (s.withPort p (fun x => { x with txq := [] }))
  else s

/-- A sent event message's corrected stamp enters the queue; a 17th is dropped, and its exchange is discarded (R197). -/
def State.queueStamp (s : State) (p : Fin 2) (typ : TxType) (seq : BitVec 16) (mii : Qword) : State :=
  if 16 ≤ s.net.ports[p].txq.length then
    let s := ((s.setEvBit .ptp (9 + p.val)).bump (0x4440 + p.val) 1).bump (0x4440 + p.val) 2
    s.withPort p (fun x => { x with
      awaiting := x.awaiting.filter (fun b => !(b.typ == typ && b.seqId == seq))
      ask := match typ with
        | .delayReq => none
        | .pdelayReq => none
        | _ => x.ask })
  else
    let e : TxEntry := { typ := typ, seqId := seq, stamp := BitVec.ofInt 64 (s.egress p mii) }
    (s.withPort p (fun x => { x with txq := x.txq ++ [e] })).takeStamps p

/-! ### Offsets (R198 to R201) -/

/-- What a rate correction of the proportional-integral loop writes: an open value of the servo (R199, assumption 5), within
±100 ppm of nominal beyond the step limit and ±500 ppm otherwise. -/
def State.steerRate (s : State) (wide : Bool) : State :=
  let span : Int := if wide then 4294967 else 21474836
  let v := clampInt (incNominal - span) (incNominal + span) s.nextInt
  let i := Config.freeInt (s.fresh + 1)
  (({ s with net := { s.net with integral := i } }.drawn).drawn).commitInc v.toNat .part

/-- A measurement is published (R201): object 4450, PTP_OFFSET, PTP_MPD, PTP_MSEQ. -/
def State.publishSync (s : State) (m : Measured) : State :=
  let s := { s with net := { s.net with last := m } }
  let s := ((s.putNat 0x4450 1 m.seqId.toNat).putNat 0x4450 2 m.port.val).put 0x4450 3 (.num m.t2.toNat)
  (((s.putInt 0x4450 4 m.offset).putInt 0x4450 5 m.delay).put 0x4450 6 (.num m.gm.toNat)).putNat 0x4450 7 m.steps

/-- The step limit of object 4010:01 in 2^−16 ns. -/
def State.stepLimit (s : State) : Int := s.objInt 0x4010 1 * 65536

/-- An accepted offset counts towards lock: eight in a row inside the threshold make the servo LOCKED and the time base DISCIPLINED
(R176, R199). -/
def State.countLock (s : State) (offset : Int) : State :=
  let n := if (offset.natAbs : Int) ≤ s.objInt 0x4420 2 * 65536 then s.net.good + 1 else 0
  let s := { s with net := { s.net with good := n } }
  if 8 ≤ n then { s with net := { s.net with servo := .locked } }.setDisciplined else s

/-- ACQUIRE handles an offset (R200). -/
def State.acquire (s : State) (offset : Int) : State :=
  let a : Int := offset.natAbs
  if a ≤ s.objInt 0x4420 3 * 65536 then (s.steerRate false).countLock offset
  else if a ≤ s.stepLimit then (s.commitStep (-offset) .part true).countLock offset
  else if s.mayForce ∧ s.objBool 0x4420 4 then
    let n := ((s.fullTime : Int) - offset) / 65536
    let s := s.writeEpoch (BitVec.ofInt 32 (n / 2 ^ 48)) (0x4020, 1) .part
    s.forceStep (BitVec.ofInt 64 (n % 2 ^ 48 * 65536)) true true
  else ((s.setEvBit .ptp 12).steerRate true).countLock offset

/-- The servo can apply an offset under owner HKC: not beyond the step limit once LOCKED (R200). -/
def State.canApply (s : State) (offset : Int) : Bool :=
  decide (s.net.servo ≠ .locked) || decide ((offset.natAbs : Int) ≤ s.stepLimit)

/-- The built-in servo handles an accepted offset (R199, R200). In PATH_HOLD it neither corrects nor steps (R204). -/
def State.servoOffset (s : State) (offset : Int) : State :=
  match s.net.servo with
  | .listen => { s with net := { s.net with servo := .acquire, good := 0 } }.acquire offset
  | .holdover => { s with net := { s.net with servo := .acquire, good := 0 } }.acquire offset
  | .acquire => s.acquire offset
  | .locked =>
    if (offset.natAbs : Int) ≤ s.objInt 0x4420 3 * 65536 then s.steerRate false else s.commitStep (-offset) .part true
  | .pathHold => s
  | .off => s
  | .measure => s

/-- The servo of owner HKC steers by the Aelop link (R226). -/
def State.linkSteers (s : State) : Bool := decide (s.tb.owner = .hkc) && s.aelopRef

/-- The servo of owner HKC steers by PTP. -/
def State.ptpSteers (s : State) : Bool := decide (s.tb.owner = .hkc) && !s.aelopRef

/-- A later sequenceId (R198). -/
def laterSeq (a b : BitVec 16) : Bool := decide (0 < (a - b).toInt)

/-- The XPLL, which clocks the ports, coasts (R313). -/
def State.xpllCoasts (s : State) : Bool := decide (s.clocks.plls[3].state = .coast)

/-- A Sync of the parent with its times t1 and t2 (R198): accepted or not, published, and handed to the servo. One stamped in a
coast of the XPLL is not accepted (R313). -/
def State.takeSync (s : State) (p : Fin 2) (seq : BitVec 16) (t1 t2 : Int) (coasted : Bool) : State :=
  let s := s.withPort p (fun x => { x with lastSync := some (t1, t2) })
  let later := match s.net.lastSeq with
    | some q => laterSeq seq q
    | none => true
  match s.net.ports[p].mean, s.net.parent with
  | some mean, some parent =>
    let offset := t2 - t1 - mean - s.objInt (0x4430 + p.val) 5
    if later && !coasted && decide (s.net.ports[p].unanswered < 16) && (!s.ptpSteers || s.canApply offset) then
      let s := s.bump (0x4440 + p.val) 3
      let seen := if s.linkSteers then s.net.syncSeen else s.now
      let s := { s with net := { s.net with lastSeq := some seq, syncSeen := seen } }
      let s := s.publishSync
        { seqId := seq, port := p, t2 := BitVec.ofInt 64 t2, offset := offset, delay := mean, gm := parent.data.gm,
          steps := parent.data.steps }
      if s.ptpSteers then s.servoOffset offset else s
    else s.bump (0x4440 + p.val) 4
  | _, _ => s.bump (0x4440 + p.val) 4

/-! ### Delays (R202 to R204) -/

/-- A PATH_STEP entry: phase 0 start, 1 accept, 2 revert, 3 unsettled. -/
def State.bbPath (s : State) (port phase : Nat) (step : Int) : State := s.bb 0x0044 1 (leBytes 1 port ++ leBytes 1 phase ++ intBytes 8 step)

/-- A step of the path delay raises a hold (R203). -/
def State.raiseHold (s : State) (port : Nat) (old v : Int) : State :=
  let s := { s with net := { s.net with servo := .pathHold, hold := some { port := port, raised := v, old := old, total := 0, near := 0 } } }
  (s.setEvBit .ptp 8).bbPath port 0 (v - old)

/-- How a measurement in PATH_HOLD ends or continues the hold (R204). -/
inductive HoldEnd where
  | accept | revert | unsettled | goOn (h : PathHold)
  deriving DecidableEq, Repr

/-- A measurement in PATH_HOLD (R204): `thr` the path-step threshold, `need` the consistent measurements asked for. -/
def PathHold.take (h : PathHold) (v thr : Int) (need : Nat) : HoldEnd :=
  if ((v - h.old).natAbs : Int) ≤ thr then .revert
  else
    let near := if 4 * ((v - h.raised).natAbs : Int) ≤ thr then h.near + 1 else 0
    if need ≤ near then .accept
    else if 64 ≤ h.total + 1 then .unsettled
    else .goOn { h with total := h.total + 1, near := near }

/-- The servo is LOCKED again after a hold. -/
def State.endHold (s : State) : State := { s with net := { s.net with servo := .locked, hold := none } }

/-- A delay measurement against the adopted mean (R203 to R205, R226); `enterHoldover` ends an unsettled hold with its entry. `mine`: the servo steers by this link. Ports 0 and 1 are the
Ethernet ports, which count and publish in their objects; 2 + k is Aelop port k. -/
def State.judgeDelay (s : State) (mine : Bool) (port : Nat) (old : Option Int) (v : Int) (adopt forget : State → State) : State :=
  let thr := s.objInt 0x4420 5 * 65536
  let count := fun (s : State) (sub : Nat) => if port < 2 then s.bump (0x4440 + port) sub else s
  match old, s.net.servo, s.net.hold with
  | some m, .locked, _ => if mine ∧ thr < ((v - m).natAbs : Int) then count (s.raiseHold port m v) 5 else adopt s
  | some _, .pathHold, some h =>
    if !mine then adopt s
    else match h.take v thr (s.objNat 0x4420 6) with
      | .revert => (count s.endHold 8).bbPath port 2 (v - h.old)
      | .accept =>
        let s := adopt s.endHold
        (if port < 2 then s.putInt (0x4430 + port) 7 (v - h.old) else s).bbPath port 1 (v - h.old)
      | .unsettled => (forget s).enterHoldover 0
      | .goOn h' => { s with net := { s.net with hold := some h' } }
  | _, _, _ => adopt s

/-- The parent port (R202). -/
def State.parentOn (s : State) (p : Fin 2) : Bool := s.net.parent.any (fun q => decide (q.port = p))

/-- A delay measurement of an Ethernet port (R198, R202 to R205). -/
def State.takeDelay (s : State) (p : Fin 2) (v : Int) : State :=
  let s := s.withPort p (fun x => { x with unanswered := 0 })
  let mine := s.ptpSteers && s.parentOn p
  s.judgeDelay mine p.val s.net.ports[p].mean v
    (fun s => (s.withPort p (fun x => { x with mean := some v })).putInt (0x4430 + p.val) 6 v)
    (fun s => s.withPort p (fun x => { x with mean := none }))

/-- A request goes out while its predecessor is unanswered: at sixteen in a row on the parent port the delay is lost (R202). -/
def State.missDelay (s : State) (p : Fin 2) : State :=
  if s.net.ports[p].ask.isNone then s
  else
    let n := s.net.ports[p].unanswered + 1
    let s := s.withPort p (fun x => { x with unanswered := n, ask := none })
    if n = 16 ∧ s.parentOn p then ((s.setEvBit .ptp 13).bump (0x4440 + p.val) 6).bb 0x0045 1 (leBytes 1 p.val) else s

end Sys2Proof.Machine
end

