-- ==== Sys2Proof/Machine/KnotOps.lean ====
section
/-! DEFINITION. Knots on their way (chapter 10): their bytes, routes, the checks of R212, delivery and uses, the tree. -/

namespace Sys2Proof.Machine

/-! ### The knot (R208, R209) -/

/-- The bytes of a knot before KCRC. -/
def knotBody (k : Knot) : List Byte :=
  leBytes 2 0x5E1C ++ leBytes 1 1 ++ leBytes 1 k.cls.val ++ leBytes 4 (k.node.toNat + 0x40000 * k.die.val) ++ leBytes 4 k.convoy.toNat
    ++ leBytes 8 k.time.toNat ++ intBytes 4 k.offset ++ leBytes 1 k.hops
    ++ leBytes 1 (b2n k.holdover + 2 * b2n k.relayed + 4 * b2n k.host) ++ leBytes 2 k.seq.toNat ++ leBytes 2 0

/-- The 32 bytes of a knot (R208). -/
def knotBytes (k : Knot) : List Byte := knotBody k ++ leBytes 2 (crc16 (knotBody k)).toNat

/-- A little-endian field of a byte list. -/
def fieldOf (bs : List Byte) (off n : Nat) : Nat := leNat ((bs.drop off).take n)

/-- The knot that 32 bytes spell, or none when MAGIC, VERSION or KCRC fails (R212 step 1). -/
def parseKnot (bs : List Byte) : Option Knot :=
  if bs.length = 32 ∧ fieldOf bs 0 2 = 0x5E1C ∧ fieldOf bs 2 1 = 1 ∧ fieldOf bs 30 2 = (crc16 (bs.take 30)).toNat then
    let f := fieldOf bs 0x19 1
    some
      { cls := Fin.ofNat 16 (fieldOf bs 3 1 % 16), node := BitVec.ofNat 18 (fieldOf bs 4 4), die := Fin.ofNat 2 (fieldOf bs 4 4 / 0x40000),
        convoy := BitVec.ofNat 32 (fieldOf bs 8 4), time := BitVec.ofNat 64 (fieldOf bs 12 8), offset := signedOf 32 (fieldOf bs 0x14 4),
        hops := fieldOf bs 0x18 1, holdover := f.testBit 0, relayed := f.testBit 1, host := f.testBit 2,
        seq := BitVec.ofNat 16 (fieldOf bs 0x1A 2) }
  else none

/-- The knot time K (R209). -/
def knotTime (k : Knot) : Qword := k.time + BitVec.ofInt 64 (k.offset * 65536)

/-- The Aelop domain of a knot's source: node id bits [17:6]. -/
def knotDomain (k : Knot) : Nat := k.node.toNat / 64

/-! ### Ports of the Aelop link -/

/-- One Aelop port changed. -/
def State.withAlp (s : State) (k : Fin 4) (f : AlpPort → AlpPort) : State :=
  { s with knots := { s.knots with ports := vmod s.knots.ports k f } }

/-- The object of an Aelop port. -/
def alpObj (k : Fin 4) : Nat := 0x4810 + k.val

/-- The port is UP (R221). -/
def State.alpUp (s : State) (k : Fin 4) : Bool := decide (s.knots.ports[k].state = .up)

/-- The ports that are tree links (R222). -/
def State.treePorts (s : State) : List (Fin 4) := (List.finRange 4).filter (fun k => s.knots.tree.getLsbD k.val && s.alpUp k)

/-- The time that a knot frame takes: five blocks of 2.64 ns (R219, R223). -/
def knotFrame : Nat := 4224

/-- The header of a frame (R219): TYPE, LENGTH in data blocks of eight bytes, SRC, DST, FRAG, FCRC. -/
def alpHeader (typ : Nat) (source : BitVec 6) (k : Fin 4) (dest : BitVec 6) (frag : Nat) (data : List Byte) : List Byte :=
  leBytes 1 typ ++ leBytes 1 (data.length / 8) ++ leBytes 1 (source.toNat + 64 * k.val) ++ leBytes 1 dest.toNat ++ leBytes 1 frag
    ++ leBytes 2 (crc16 data).toNat

/-- A frame of this package leaves a port: TYPE 1 heartbeat, 2 knot. -/
def State.sendFrame (s : State) (k : Fin 4) (typ : Nat) (data : List Byte) : State :=
  s.emit (.aelop k (alpHeader typ s.knots.pos k 0 0 data) data)

/-- A frame whose FCRC fails, or of a reserved TYPE, is discarded and counted (R219). -/
def State.discardFrame (s : State) (k : Fin 4) : State := s.bump (alpObj k) 0x0B

/-- A knot is queued at a port and sent, or dropped at that port when 32 wait behind the one in transmission (R223). The deepest queue counts the
knot that enters it (DEDUCED, assumption 88). -/
def State.sendAlp (s : State) (k : Fin 4) (kn : Knot) : State :=
  let start := max s.now s.knots.ports[k].txBusy
  let ahead := (start - s.now + knotFrame - 1) / knotFrame
  if 32 < ahead then ((s.setEvBit .alp 8).bump (alpObj k) 9).bb 0x0051 1 (leBytes 1 k.val)
  else
    let s := s.withAlp k (fun p => { p with txBusy := start + knotFrame })
    (s.raiseTo (alpObj k) 0x0A (max 1 ahead)).sendFrame k 2 (knotBytes kn)

/-- Knots sent or forwarded in the last 128 µs, at most 64 (R224). -/
def State.remember (s : State) (kn : Knot) : State :=
  let kept := (s.knots.recent.filter (fun x => decide (s.now < x.2 + us 128))) ++ [(kn, s.now)]
  { s with knots := { s.knots with recent := kept.drop (kept.length - 64) } }

/-! ### Ethernet delivery (R216) -/

/-- A port's IPv4 knot service: an address and a group. -/
def State.knotV4 (s : State) (p : Fin 2) : Bool := s.objNat (0x4400 + p.val) 5 != 0 && s.objNat 0x4830 2 != 0

/-- A port's IPv6 knot service: an address and a group. -/
def State.knotV6 (s : State) (p : Fin 2) : Bool := !allZero (s.objBytes (0x4400 + p.val) 8) && !allZero (s.objBytes 0x4830 3)

/-- A port's knot service over IPv4 or IPv6 is on (R216). -/
def State.knotOver (s : State) (p : Fin 2) (v6 : Bool) : Bool := s.ethService p 2 && if v6 then s.knotV6 p else s.knotV4 p

/-- A port with knot service and a group (R210, R216). -/
def State.knotPort (s : State) (p : Fin 2) : Bool := s.knotOver p false || s.knotOver p true

/-- The knot group of a protocol. -/
def State.knotGroup (s : State) (v6 : Bool) : List Byte := if v6 then s.objBytes 0x4830 3 else (leBytes 4 (s.objNat 0x4830 2)).reverse

/-- A membership report for a protocol's knot group, while its service is on (R216). -/
def State.reportGroup (s : State) (p : Fin 2) (v6 : Bool) : State :=
  if s.knotOver p v6 then s.emit (.member p (s.vlanOf p) v6 (s.knotGroup v6)) else s

/-- The membership reports of a port, when its link comes up or its services or groups change (R216; DESIGN CHOICE, assumption 89). -/
def State.reportGroups (s : State) (p : Fin 2) : State := (s.reportGroup p false).reportGroup p true

/-- A knot's datagram over a protocol whose service is on: its group, the hop limit, and the priority on a tagged port (R216). -/
def State.sendKnotOver (s : State) (p : Fin 2) (kn : Knot) (v6 : Bool) : State :=
  if s.knotOver p v6 then
    s.emit (.udp p
      { dest := s.knotGroup v6, srcPort := 48622, destPort := 48622, vlan := s.vlanOf p,
        priority := if s.vlanOf p = 0 then none else some (s.objNat 0x4830 5), hops := some (s.objNat 0x4830 4) } (knotBytes kn))
  else s

/-- A knot goes out of an Ethernet port, one datagram for each protocol (R216). -/
def State.sendEth (s : State) (p : Fin 2) (kn : Knot) : State := (s.sendKnotOver p kn false).sendKnotOver p kn true

/-! ### The duplicate cache (R215) -/

/-- The life of an entry: 2 × KNOT_ACCEPT. -/
def State.dupLife (s : State) : Nat := ns (2 * s.objNat 0x4820 2)

/-- An unexpired entry of the cache names this knot. -/
def State.isDuplicate (s : State) (kn : Knot) : Bool :=
  s.knots.cache.any (fun e => e.node == kn.node && e.seq == kn.seq && decide (s.now < e.written + s.dupLife))

/-- The knot enters the cache; the oldest of 4,096 entries is evicted and counted (R215). -/
def State.cacheKnot (s : State) (kn : Knot) : State :=
  let full := decide (4096 ≤ s.knots.cache.length)
  let kept := (if full then s.knots.cache.drop 1 else s.knots.cache) ++ [{ node := kn.node, seq := kn.seq, written := s.now }]
  let s := { s with knots := { s.knots with cache := kept } }
  if full then s.bump 0x4821 8 else s

/-! ### Forwarding (R212 step 3, R217, R223) -/

/-- A knot as it is passed on: one hop further. -/
def knotOnward (k : Knot) (relayed : Bool) : Knot := { k with hops := k.hops + 1, relayed := k.relayed || relayed }

/-- Copies on Aelop tree links, counted. -/
def State.forwardAlp (s : State) (ports : List (Fin 4)) (kn : Knot) : State :=
  ports.foldl (fun s k => (s.sendAlp k kn).bump (alpObj k) 8) s

/-- Copies on every Ethernet port with knot service. -/
def State.relayEth (s : State) (kn : Knot) : State := ([0, 1].filter s.knotPort).foldl (fun s p => s.sendEth p kn) s

/-- Forwarding of a received knot (R212 step 3): over the tree, and by a gateway between its domain and Ethernet; not beyond the hop
limit. -/
def State.forward (s : State) (route : KnotRoute) (kn : Knot) : State :=
  let limit := decide (s.objNat 0x4820 4 ≤ kn.hops)
  let gateway := s.objBool 0x4830 1
  let mine := decide (knotDomain kn = s.objNat 0x4800 1)
  match route with
  | .own => s
  | .alp i _ =>
    if limit then s.bump 0x4850 3
    else
      let s := (s.forwardAlp (s.treePorts.filter (fun k => k != i)) (knotOnward kn false)).remember (knotOnward kn false)
      if gateway && mine then s.relayEth (knotOnward kn true) else s
  | .eth _ _ =>
    if !gateway || mine then s
    else if limit then s.bump 0x4850 3
    else (s.forwardAlp s.treePorts (knotOnward kn true)).remember (knotOnward kn true)

/-- A port is powered: in ON, or kept up by object 7001:03 in the low-power states (R228, R393). -/
def State.alpPowered (s : State) (k : Fin 4) : Bool :=
  let kept := (s.objNat 0x7001 3).testBit k.val
  decide (s.power.phase = .none) && !s.frozenFull &&
    (match s.power.state with
      | .on => s.isOn || kept
      | .standby | .retain | .watch => kept
      | .off => false)

/-- A port takes in frames: powered, enabled and not held (R221). -/
def State.alpHears (s : State) (k : Fin 4) : Bool :=
  s.alpPowered k && (match s.knots.ports[k].state with
    | .training | .up | .down => true
    | .disabled | .heldDuplicate | .heldForeign => false)

/-! ### The checks of R212 -/

/-- A refusal at step 5 or 6: counted, KREF, and an entry with the knot when none was written in the 1 s before (R212). -/
def State.refuseKnot (s : State) (bs : List Byte) : State :=
  let s := (s.bump 0x4821 5).setEvBit .alp 9
  let quiet := match s.knots.refusedAt with
    | some t => decide ((s.time - t).toInt < 1000000000 * 65536)
    | none => false
  if quiet then s else { s with knots := { s.knots with refusedAt := some s.time } }.bb 0x0050 1 bs

/-- The routes that deliver within 150 ns (R214): Aelop, and the package's own knots. -/
def routeFast : KnotRoute → Bool
  | .alp _ _ => true
  | .eth _ _ => false
  | .own => true

/-- Steps 4 to 7 of R212. -/
def State.judgeKnot (s : State) (route : KnotRoute) (kn : Knot) (bs : List Byte) : State :=
  if !(s.objNat 0x4820 1).testBit kn.cls.val then s.bump 0x4821 4
  else if kn.holdover && s.objBool 0x4820 3 then s.refuseKnot bs
  else if (s.objNat 0x4820 2 : Int) * 65536 < ((knotTime kn - s.time).toInt.natAbs : Int) then (s.refuseKnot bs).put 0x4822 0 (.bytes bs)
  else
    let s := (s.bump 0x4821 6).put 0x4823 0 (.bytes bs)
    let s := if kn.holdover then s.bump 0x4821 7 else s
    let a : Accepted := { knot := kn, aelop := routeFast route, arrived := s.now }
    { s with knots := { s.knots with accepted := s.knots.accepted ++ [a] } }

/-- A knot reaches the engine by any route: the ordered checks of R212. -/
def State.takeKnot (s : State) (route : KnotRoute) (bs : List Byte) : State :=
  let s := s.bump 0x4821 1
  match parseKnot bs with
  | none => s.bump 0x4821 2
  | some kn =>
    if s.isDuplicate kn then s.bump 0x4821 3
    else ((s.cacheKnot kn).forward route kn).judgeKnot route kn bs

/-- The package sends a knot (R210): the next SEQ, SRC_HOLDOVER, every open route, and its own receive path. -/
def State.sendKnot (s : State) (kn : Knot) : State :=
  let seq := s.objNat 0x4850 1
  let kn := { kn with seq := BitVec.ofNat 16 seq, holdover := !s.disciplined }
  let s := s.putNat 0x4850 1 ((seq + 1) % 65536)
  let none_ := s.treePorts.isEmpty && !s.knotPort 0 && !s.knotPort 1
  let s := if none_ then s.bump 0x4850 2 else (((s.treePorts).foldl (fun s k => s.sendAlp k kn) s).relayEth kn).remember kn
  s.takeKnot .own (knotBytes kn)

/-! ### Uses of an accepted knot (R214) -/

/-- A die's present sample. -/
def Run.here (r : Run) : SampleAt :=
  let c := r.die.convoy
  { s := c.nextSample - 1, pos := c.pos, prevPos := c.pos, latch := c.openAt + c.pos, prevLatch := c.openAt + c.pos, acc := c.acc
    time := c.lastTime }

/-- The time of the sample `k` before the present one: stamped in state mode, otherwise by the period at the present rate (R175). -/
def Run.timeBack (r : Run) (k : Nat) : Qword :=
  if r.die.plan.state then ((r.die.convoy.stamps[k]?).map (fun x => accTime x.2)).getD r.die.convoy.startTime
  else accTime (r.die.convoy.acc - k * r.die.plan.period * r.inc)

/-- How many samples before the present one the first sample at or after a target lies (R85). -/
def Run.backTo (r : Run) (target : Qword) : Nat :=
  if r.die.plan.state then ((r.die.convoy.stamps.takeWhile (fun x => atOrAfter (accTime x.2) target)).length) - 1
  else
    let dist := (r.die.convoy.lastTime - target).toInt.toNat
    let k := dist * 209715200 / (r.die.plan.period * r.inc)
    match [k + 1, k, k - 1].find? (fun j => atOrAfter (r.timeBack j) target) with
    | some j => j
    | none => 0

/-- The oldest retained sample of a die (R126): the earliest first item of its retained strand and group barges. -/
def DieSt.oldest (d : DieSt) : Nat :=
  let kept := (d.win.ring ++ d.win.deep).filter (fun m => decide (m.stream < 0xFE) && !m.flags.getLsbD flagWatchLog) |>.map BargeMeta.firstSample
  let open_ := d.store.streams.flatMap (fun x =>
    (match x.2.fullOpen with
      | some b => [b.firstSample]
      | none => []) ++
    (match x.2.transOpen with
      | some b => [b.firstSample]
      | none => []))
  (kept ++ open_).foldl min (d.convoy.nextSample - 1)

/-- KNOT_LATE in the barges that hold a sample (R214): stored ones in window 0 and in the deep store, with their HCRC, and open ones. -/
def Run.markLate (r : Run) (s : Nat) : Run :=
  let holds := fun (m : BargeMeta) => decide (m.stream < 0xFE ∧ m.firstSample ≤ s ∧ s ≤ m.lastSample)
  let w := r.die.win
  let flag := fun (m : BargeMeta) => if holds m then { m with flags := withFlag m.flags flagKnotLate true } else m
  let mem := (w.ring.filter holds).foldl (fun mem m => patchFlag mem ((w.base + m.slot) * 4096) flagKnotLate) r.basin
  let open_ := fun (b : Barge) =>
    if b.firstSample ≤ s ∧ s ≤ b.lastSample then { b with flags := withFlag b.flags flagKnotLate true } else b
  let seqs := fun (id : Nat) (st : Stream) =>
    { st with
      fullOpen := st.fullOpen.map open_
      transOpen := st.transOpen.map open_
      trigSeq :=
        match (w.ring ++ w.deep).find? (fun m => holds m && m.stream == id) with
        | some m => some m.seq
        | none => st.trigSeq }
  let r := r.withStore (fun x => { x with streams := x.streams.map (fun q => (q.1, seqs q.1 q.2)) })
  let late := w.deep.filter holds
  let r := { r with die := { r.die with win := { w with ring := w.ring.map flag, deep := w.deep.map flag } }, basin := mem }
  if late.isEmpty then r else r.emit (.lateDeep (late.map (fun m => r.die.plan.regionBase + 4096 * m.slot)))

/-- The stored barges that hold the trigger sample, by stream (R163). -/
def Run.noteTrigger (r : Run) (s : Nat) : Run :=
  let w := r.die.win
  let hit := fun (id : Nat) => (w.ring ++ w.deep).find? (fun m => m.stream == id && decide (m.firstSample ≤ s ∧ s ≤ m.lastSample))
  r.withStore (fun x => { x with streams := x.streams.map (fun q => (q.1, { q.2 with
    trigSeq := match hit q.1 with
      | some m => some m.seq
      | none => q.2.trigSeq })) })

/-- A placement with a target at or before the present sample commits (R85, R214): at the first retained sample that reaches the target,
or late at the oldest one. -/
def Run.placeNow (r : Run) (target : Qword) (node : BitVec 18) : Run :=
  let here := r.here
  let back := r.backTo target
  let last := here.s
  let oldest := r.die.oldest
  let s := max (last - back) oldest
  let late := !atOrAfter target (r.timeBack (last - oldest))
  let r := r.placed here s (r.timeBack (last - s)) node late
  if late then (r.emit (.bump 0x4821 0x0A 1)).markLate s else r.noteTrigger s

/-- A knot offered to the placement of a die that evaluates samples (R85). Answers whether it is taken. -/
def Run.place (r : Run) (target : Qword) (node : BitVec 18) : Run × Bool :=
  if r.die.state = .armed ∧ r.die.stair.trigger.isNone then
    if atOrAfter r.die.convoy.lastTime target then (r.placeNow target node, true)
    else match r.die.stair.placement with
      | some p =>
        if atOrAfter target p.target then (r.count 5, false)
        else ((r.withStair (fun x => { x with placement := some { target := target, node := node } })).count 5, true)
      | none => (r.withStair (fun x => { x with placement := some { target := target, node := node } }), true)
  else (r.count 5, false)

/-- A knot offered to one knot-in term of a die that evaluates samples (R62, R63). Answers whether it is taken. Whether the time of an
AT_TIME term has passed when the knot arrives is judged by the timeword of the sample evaluated last (DESIGN CHOICE, assumption 14). -/
def Run.knotTerm (r : Run) (j : Fin 8) (t : KnotTerm) (kn : Knot) (now : Nat) : Run × Bool :=
  let fe := fun (f : FrontEnd → FrontEnd) => r.withDie (fun d => { d with fe := f d.fe })
  let arrive := fun (r : Run) => r.withDie (fun d => { d with fe := { d.fe with knotArrived := d.fe.knotArrived ++ [(j, now, kn.node)] } })
  if !t.mask.getLsbD kn.cls.val then (r, false)
  else if !t.atTime then (arrive r, true)
  else
    let at_ := knotTime kn + BitVec.ofInt 64 (t.offset * 65536)
    if atOrAfter r.die.convoy.lastTime at_ then (arrive (r.emit (.bump (0x3220 + r.d.val) (1 + j.val) 1)), true)
    else if (r.die.fe.knotPending.filter (fun k => decide (k.1 = j))).length < 4 then
      (fe (fun f => { f with knotPending := f.knotPending ++ [(j, at_, kn.node)] }), true)
    else (r.emit (.bump (0x3220 + r.d.val) (9 + j.val) 1), false)

/-- A knot reaches a die that evaluates samples (R214): its knot-in terms, then its placement. -/
def Run.knotUses (r : Run) (kn : Knot) (now : Nat) : Run × Bool :=
  let p := r.die.plan.program
  let q := (List.finRange 8).foldl (fun (q : Run × Bool) j =>
    match mget j.val p.knotIns with
    | some t => let x := q.1.knotTerm j t kn now; (x.1, q.2 || x.2)
    | none => q) (r, false)
  if p.placeMask.getLsbD kn.cls.val then
    let x := q.1.place (knotTime kn + BitVec.ofInt 64 (p.placeOffset * 65536)) kn.node
    (x.1, q.2 || x.2)
  else q

end Sys2Proof.Machine
end

