-- ==== Sys2Proof/Machine/DictOps.lean ====
section
/-! DEFINITION. The dictionary service's own machinery (chapter 17): frames, the mailbox's words, answers, the order of service
and the tunnel's requests (R227, R354 to R368). -/

namespace Sys2Proof.Machine

/-! ### Frames (R356, R357) -/

/-- The operation of a frame: OP [3:0]. -/
def frameOp (f : List Byte) : Nat := fieldOf f 3 1 % 16
/-- The frame is a response or a NOTIFY: OP [7]. -/
def frameBack (f : List Byte) : Bool := (fieldOf f 3 1).testBit 7
/-- STATUS. -/
def frameStatus (f : List Byte) : Nat := fieldOf f 4 1
/-- FLAGS.AUTH. -/
def frameAuth (f : List Byte) : Bool := (fieldOf f 5 1).testBit 0
/-- FLAGS.TUNNEL. -/
def frameTunnel (f : List Byte) : Bool := (fieldOf f 5 1).testBit 1
/-- DEST. -/
def frameDest (f : List Byte) : BitVec 6 := BitVec.ofNat 6 (fieldOf f 6 1)
/-- TAG. -/
def frameTag (f : List Byte) : Nat := fieldOf f 8 4
/-- LENGTH. -/
def frameLength (f : List Byte) : Nat := fieldOf f 12 2
/-- COUNT. -/
def frameCount (f : List Byte) : Nat := fieldOf f 14 2
/-- The payload. -/
def framePayload (f : List Byte) : List Byte := (f.drop 16).take (frameLength f)

/-- MAGIC, VERSION and LENGTH are right (R356). -/
def headerOk (f : List Byte) : Bool :=
  decide (16 ≤ f.length) && decide (fieldOf f 0 2 = 0x5E1E) && decide (fieldOf f 2 1 = 1) && decide (frameLength f ≤ 7168)

/-- The length that a frame's LENGTH and AUTH give it (R356, R362). -/
def frameNeed (f : List Byte) : Nat := 16 + frameLength f + if frameAuth f then 44 else 0

/-- A datagram's length agrees with LENGTH and AUTH (R356). -/
def frameOk (f : List Byte) : Bool := headerOk f && decide (f.length = frameNeed f)

/-- The bytes that pad a value to a multiple of four. -/
def padTo4 (n : Nat) : Nat := (4 - n % 4) % 4

/-- A frame of the part: a response or a NOTIFY (R356). -/
def backFrame (op status tag count : Nat) (payload : List Byte) : List Byte :=
  leBytes 2 0x5E1E ++ leBytes 1 1 ++ leBytes 1 (0x80 + op) ++ leBytes 1 status ++ zeros 3 ++ leBytes 4 tag
    ++ leBytes 2 payload.length ++ leBytes 2 count ++ payload

/-- The bytes of an item (R357). -/
def odpItem (i : Item) : List Byte :=
  leBytes 2 i.index ++ leBytes 1 i.sub ++ leBytes 1 i.typ ++ leBytes 1 i.istat ++ leBytes 1 i.iflags ++ leBytes 2 i.value.length
    ++ i.value ++ zeros (padTo4 i.value.length)

/-- The `n` items that a payload spells, or none where their lengths and LENGTH disagree (R357, R359). -/
def parseItems : Nat → List Byte → Option (List Item)
  | 0, bs => if bs.isEmpty then some [] else none
  | n + 1, bs =>
    let vlen := fieldOf bs 6 2
    let whole := 8 + vlen + padTo4 vlen
    if bs.length < whole then none
    else
      let i : Item :=
        { index := fieldOf bs 0 2, sub := fieldOf bs 2 1, typ := fieldOf bs 3 1, istat := 0, iflags := fieldOf bs 5 1,
          value := (bs.drop 8).take vlen }
      match parseItems n (bs.drop whole) with
      | some rest => some (i :: rest)
      | none => none

/-- The items of a request. -/
def Request.items (r : Request) : Option (List Item) := parseItems (frameCount r.frame) (framePayload r.frame)

/-! ### The mailbox's words (R364, R365) -/

/-- A dword of the descriptor RAM. -/
def State.ramWord (s : State) (off : Nat) : Nat := leNat (memReadBlock s.ram off 4)

/-- Background testing is set and runs: out of reset, in any state but OFF, while the HKC restarts too (R302, R304). -/
def State.backgroundRuns (s : State) : Bool :=
  s.objBool 0x5820 3 && !s.frozenFull && decide (s.power.phase = .none) && decide (s.power.state ≠ .off)

/-- An access touches `len` bytes of the descriptor RAM from `off`: a test of the borrowed block aborts and its data are restored
first (R303). -/
def State.touchRam (s : State) (off len : Nat) : State :=
  let lo := (s.chip.block - 2048) * 256
  if s.backgroundRuns && decide (2048 ≤ s.chip.block) && decide (off < lo + 256 ∧ lo < off + len) && !s.chip.touched then
    { s with chip := { s.chip with touched := true, aborts := s.chip.aborts + 1 } }.bump 0x5820 6
  else s

/-- An ECC error that a read meets: dword number, and whether it cannot be corrected (R295). -/
def State.ramError (s : State) (e : Nat × Bool) : State :=
  if e.2 then (s.bump 0x5830 3).bb 0x0072 2 (leBytes 2 e.1) else s.bump 0x5830 2

/-- A flaw lies in a range of bytes of the descriptor RAM. -/
def flawIn (off len : Nat) (e : Nat × Bool) : Bool := decide (off / 4 ≤ e.1) && decide (4 * e.1 < off + len)

/-- A range of the descriptor RAM holds an uncorrectable dword. -/
def State.spoilt (s : State) (off len : Nat) : Bool := s.chip.flaws.any (fun e => flawIn off len e && e.2)

/-- A read of a range meets its flaws (R295): each is counted, and a corrected dword is written back. -/
def State.meetFlaws (s : State) (off len : Nat) : State :=
  let hit := s.chip.flaws.filter (flawIn off len)
  hit.foldl State.ramError { s with chip := { s.chip with flaws := s.chip.flaws.filter (fun e => !flawIn off len e || e.2) } }

/-- Bytes are stored in the descriptor RAM: the dwords they fill are good again. -/
def State.ramStore (s : State) (off : Nat) (bs : List Byte) : State :=
  { s with
    ram := memWriteBlock s.ram off bs
    chip := { s.chip with flaws := s.chip.flaws.filter (fun e => !flawIn off bs.length e) } }

/-- The HKC reads a range of the descriptor RAM (R295, R303). -/
def State.hkcReads (s : State) (off len : Nat) : State := (s.touchRam off len).meetFlaws off len

/-- The HKC writes bytes into the descriptor RAM (R293, R303). -/
def State.hkcRam (s : State) (off : Nat) (bs : List Byte) : State :=
  let s := s.touchRam off bs.length
  let old := (List.range ((bs.length + 3) / 4)).map (fun i => (off + 4 * i, s.ramWord (off + 4 * i)))
  let port := old ++ (if s.chip.portAt = s.now then s.chip.port else [])
  { s with chip := { s.chip with port := port, portAt := s.now } }.ramStore off bs

/-- MB_REQ. -/
def State.mbReq (s : State) : Nat := s.ramWord 0 % 65536
/-- MB_RSP [15:0]. -/
def State.mbRsp (s : State) : Nat := s.ramWord 4 % 65536

/-- MB_RSP written: sequence and SERVING. -/
def State.setMbRsp (s : State) (seq : Nat) (serving : Bool) : State := s.hkcRam 4 (leBytes 4 (seq % 65536 + 0x10000 * b2n serving))

/-- The HKC takes the mailbox request: SERVING. -/
def State.mbServing (s : State) : State := s.setMbRsp s.mbRsp true

/-- The mailbox is answered (R365): the response, MB_RSP set to MB_REQ with skipped sequences counted, vector 2. -/
def State.mbAnswer (s : State) (f : List Byte) : State :=
  let skipped := (s.mbReq + 65536 - s.mbRsp - 1) % 65536
  let s := if skipped < 32768 then s.bumpBy 0x1120 0x0A skipped else s
  ((s.hkcRam 0x2000 f).setMbRsp s.mbReq false).raise 2

/-- A notification into the mailbox's ring (R366): an entry with vector 2, or a drop when the ring is full. -/
def State.mbNotify (s : State) (idx sub typ merged : Nat) (t : Qword) (value : List Byte) : State :=
  let prod := s.ramWord 8 % 16
  let cons := s.ramWord 12 % 16
  if (prod + 1) % 16 = cons then { s with dict := { s.dict with lost := true } }.bump 0x1120 9
  else
    let cut := decide (16 < value.length)
    let e := leBytes 2 idx ++ leBytes 1 sub ++ leBytes 1 typ ++ leBytes 1 (b2n s.dict.lost + 2 * b2n cut) ++ leBytes 3 merged
      ++ leBytes 8 t.toNat ++ fitBytes 16 (if cut then [] else value)
    let s := { s with dict := { s.dict with lost := false } }.hkcRam (0x3E00 + 32 * prod) e
    ((s.hkcRam 8 (leBytes 4 ((prod + 1) % 16))).bump 0x1120 8).raise 2

/-- The mailbox after FLR, hot reset or link loss (R367): empty and ready; a request taken runs on without an answer, mailbox
subscriptions end. -/
def State.mbReset (s : State) : State :=
  let s := s.setMbRsp s.mbReq false
  let hush := fun (r : Request) => if r.path = .mailbox then { r with silent := true } else r
  { s with
    dict := { s.dict with
      mailbox := false
      serving := s.dict.serving.map hush
      subs := s.dict.subs.filter (fun x => x.path != .mailbox)
      relayed := s.dict.relayed.filter (fun x => x.path != .mailbox) }
    knots := { s.knots with asks := s.knots.asks.map (fun a => { a with req := hush a.req }) } }

/-! ### The trailer (R362) -/

/-- The key ids and enables of the four slots (objects 1110+n). -/
def State.keyUsable (s : State) (n : Fin 4) (id : Nat) : Bool :=
  s.objBool (0x1110 + n.val) 3 && decide (s.objNat (0x1110 + n.val) 2 = id) && s.mram.keys[n].isSome

/-- The trailer for a frame of the part under a key, without the MAC. -/
def State.trailerHead (s : State) (n : Fin 4) : List Byte :=
  leBytes 2 (s.objNat (0x1110 + n.val) 2) ++ zeros 2 ++ leBytes 8 s.mram.sendSeq[n]

/-- A frame with FLAGS.AUTH. -/
def markAuth (f : List Byte) : List Byte := f.set 5 1

/-- An answer under a key: the trailer with the part's own SEQNO, which rises by one (R362). -/
def State.authentic (s : State) (key : Option (Fin 4)) (f : List Byte) : State × List Byte :=
  match key with
  | none => (s, f)
  | some n =>
    let f := markAuth f ++ s.trailerHead n
    let mac := hmac256 (s.mram.keys[n].getD []) f
    ({ s with mram := { s.mram with sendSeq := vmod s.mram.sendSeq n (fun q => q + 1) } }, f ++ mac)

/-! ### The tunnel's frames (R227) -/

/-- Tunnel credits that a frame needs, in 64-byte units. -/
def TunnelOut.units (f : TunnelOut) : Nat := (f.payload.length + 63) / 64

/-- The credits that a port's neighbour last granted. -/
def AlpPort.credit (p : AlpPort) : Nat := (p.neighbour.map Neighbour.credit).getD 0

/-- A neighbour's credits less those used. -/
def AlpPort.use (p : AlpPort) (n : Nat) : AlpPort :=
  { p with neighbour := p.neighbour.map (fun x => { x with credit := x.credit - n }) }

/-- A tunnel frame leaves a port (R219). -/
def State.sendTunnelFrame (s : State) (k : Fin 4) (f : TunnelOut) : State :=
  s.emit (.aelop k (alpHeader 3 f.source k f.dest f.frag f.payload) f.payload)

/-- Waiting tunnel frames leave a port, oldest first, as far as the credits go. -/
def State.drainTunnel (s : State) (k : Fin 4) : Nat → State
  | 0 => s
  | n + 1 =>
    match s.knots.ports[k].tunnelq with
    | [] => s
    | f :: rest =>
      if f.units ≤ s.knots.ports[k].credit then
        ((s.withAlp k (fun p => { p with tunnelq := rest }.use f.units)).sendTunnelFrame k f).drainTunnel k n
      else s

/-- A tunnel frame joins a port's queue. -/
def State.sendTunnelOn (s : State) (f : TunnelOut) (k : Fin 4) : State :=
  let s := s.withAlp k (fun p => { p with tunnelq := p.tunnelq ++ [f] })
  s.drainTunnel k s.knots.ports[k].tunnelq.length

/-- The position of a port's neighbour. -/
def AlpPort.neighbourPos (p : AlpPort) : Option Nat := p.neighbour.map (fun x => x.node.toNat % 64)

/-- The ports towards a position (R227): the tree link to it where it is a neighbour, otherwise every tree link but the one of
arrival. -/
def State.tunnelPorts (s : State) (dest : BitVec 6) (from_ : Option (Fin 4)) : List (Fin 4) :=
  let open_ := s.treePorts.filter (fun k => some k != from_)
  match open_.find? (fun k => s.knots.ports[k].neighbourPos == some dest.toNat) with
  | some k => [k]
  | none => open_

/-- The bytes that one tunnel frame carries: 129 data blocks (R219). -/
def tunnelBlock : Nat := 1032

/-- A frame padded with zeros to whole data blocks. -/
def padBlocks (f : List Byte) : List Byte := f ++ zeros ((8 - f.length % 8) % 8)

/-- The fragments of a frame, numbered from 0 (R219): full ones but for the last (DEDUCED, assumption 90). -/
def fragments (f : List Byte) : List (Nat × List Byte) :=
  let b := padBlocks f
  (List.range ((b.length + tunnelBlock - 1) / tunnelBlock)).map (fun i => (i, (b.drop (i * tunnelBlock)).take tunnelBlock))

/-- A frame towards a position, fragment by fragment. -/
def State.sendTunnel (s : State) (ports : List (Fin 4)) (dest : BitVec 6) (frame : List Byte) : State :=
  let one := fun (s : State) (x : Nat × List Byte) =>
    ports.foldl (fun s k => s.sendTunnelOn { dest := dest, source := s.knots.pos, frag := x.1, payload := x.2 } k) s
  (fragments frame).foldl one s

/-- The tunnel works at this package: enabled, with the HKC serving (R227). -/
def State.tunnelOn (s : State) : Bool := s.objBool 0x4860 1 && s.power.hkcUp

/-! ### Answers (R355, R365, R368) -/

/-- The response store of a port: the last 16, each for 1 s (R355). -/
def State.keep (s : State) (p : Fin 2) (r : Request) (f : List Byte) : State :=
  let e : Stored := { srcAddr := r.srcAddr, srcPort := r.srcPort, tag := frameTag r.frame, written := s.now, frame := f }
  let l := s.dict.stored[p] ++ [e]
  { s with dict := { s.dict with stored := s.dict.stored.set p (l.drop (l.length - 16)) } }

/-- A stored response to a repeated request. -/
def State.storedFor (s : State) (p : Fin 2) (r : Request) : Option (List Byte) :=
  (s.dict.stored[p].find? (fun e => e.srcAddr == r.srcAddr && e.srcPort == r.srcPort && e.tag == frameTag r.frame
    && decide (s.now < e.written + sec 1))).map Stored.frame

/-- A frame goes out of an Ethernet port to a requester, under its key. -/
def State.sendUdp (s : State) (p : Fin 2) (addr : List Byte) (port : Nat) (key : Option (Fin 4)) (f : List Byte) : State :=
  if s.net.ports[p].linkUp then
    let q := s.authentic key f
    q.1.emit (.udp p { dest := addr, srcPort := 48620, destPort := port, vlan := s.vlanOf p, priority := none, hops := none } q.2)
  else s

/-- An answer frame goes back by the path of its request. -/
def State.sendBack (s : State) (r : Request) (f : List Byte) : State :=
  match r.path with
  | .mailbox => if r.silent then s else s.mbAnswer f
  | .eth0 => (s.sendUdp 0 r.srcAddr r.srcPort r.key f).keep 0 r f
  | .eth1 => (s.sendUdp 1 r.srcAddr r.srcPort r.key f).keep 1 r f
  | .tunnel =>
    let dest := BitVec.ofNat 6 (leNat r.srcAddr)
    s.sendTunnel (s.tunnelPorts dest none) dest f
  | .part => s
  | .bar0 => s

/-- A frame status in place of an answer: COUNT 0 (R359). -/
def State.answerStatus (s : State) (r : Request) (status : Nat) : State :=
  s.sendBack r (backFrame (frameOp r.frame) status (frameTag r.frame) 0 [])

/-! ### Requests through the tunnel (R227, R368) -/

/-- A tunnel request ends UNREACHABLE. -/
def State.unreachable (s : State) (r : Request) : State := (s.bump 0x4860 3).answerStatus r 10

/-- A request for another position leaves by the tunnel: BUSY beyond eight outstanding, UNREACHABLE where nothing leads there. -/
def State.tunnelAway (s : State) (r : Request) : State :=
  let dest := frameDest r.frame
  let ports := s.tunnelPorts dest none
  if 8 ≤ s.knots.asks.length then s.answerStatus r 9
  else if !s.tunnelOn || ports.isEmpty then s.unreachable r
  else
    let a : TunnelAsk := { dest := dest, ports := ports, req := r, since := s.now, reached := false }
    let s := { s with knots := { s.knots with asks := s.knots.asks ++ [a] } }
    s.sendTunnel ports dest r.frame

/-- Outstanding tunnel requests that meet a condition end UNREACHABLE. While the HKC restarts, the tunnel stops. -/
def State.endAsks (s : State) (p : TunnelAsk → Bool) : State :=
  if s.power.hkcUp then
    let hit := s.knots.asks.filter p
    hit.foldl (fun s a => s.unreachable a.req) { s with knots := { s.knots with asks := s.knots.asks.filter (fun a => !p a) } }
  else s

/-- A request that has met no answer for 100 µs (R227): UNREACHABLE when it met a DOWN link elsewhere, an absent position or a package whose tunnel
is disabled, which the package's own state does not show: a free value (assumption 91). One that reached its package waits on. -/
def State.judgeAsk (s : State) (a : TunnelAsk) : State :=
  let lost := decide (s.nextNat % 2 = 0)
  let s := s.drawn
  let others := s.knots.asks.erase a
  if lost then { s with knots := { s.knots with asks := others } }.unreachable a.req
  else { s with knots := { s.knots with asks := others ++ [{ a with reached := true }] } }

/-- Outstanding requests that are 100 µs old are judged, while the HKC serves. -/
def State.expireAsks (s : State) : State :=
  if s.power.hkcUp then (s.knots.asks.filter (fun a => !a.reached && decide (a.since + us 100 ≤ s.now))).foldl State.judgeAsk s else s

/-- The subscription behind an answered SUBSCRIBE is remembered, or forgotten at a cancel, at its entry package (R368). -/
def State.noteRelayed (s : State) (a : TunnelAsk) (f : List Byte) : State :=
  if frameOp f = 5 ∧ frameStatus f ≤ 1 then
    let e : Relayed :=
      { dest := a.dest, tag := frameTag f, path := a.req.path, srcAddr := a.req.srcAddr, srcPort := a.req.srcPort }
    let cancel := match a.req.items with
      | some (i :: _) => (leNat i.value).testBit 31
      | _ => false
    let rest := s.dict.relayed.filter (fun x => x != e)
    { s with dict := { s.dict with relayed := if cancel then rest else rest ++ [e] } }
  else s

/-- A response from a position completes the request it answers. -/
def State.tunnelReply (s : State) (from_ : BitVec 6) (f : List Byte) : State :=
  let mine := fun (a : TunnelAsk) => a.dest == from_ && decide (frameTag a.req.frame = frameTag f)
  match s.knots.asks.find? mine with
  | none => s
  | some a =>
    let s := { s with knots := { s.knots with asks := s.knots.asks.erase a } }
    (s.noteRelayed a f).sendBack a.req f

/-- A NOTIFY from a position goes to the subscriber at this entry package (R368). -/
def State.tunnelNotify (s : State) (from_ : BitVec 6) (f : List Byte) : State :=
  match s.dict.relayed.find? (fun x => x.dest == from_ && decide (x.tag = frameTag f)) with
  | none => s
  | some x =>
    match x.path with
    | .eth0 => s.sendUdp 0 x.srcAddr x.srcPort none f
    | .eth1 => s.sendUdp 1 x.srcAddr x.srcPort none f
    | .mailbox =>
      let b := framePayload f
      s.mbNotify (fieldOf b 12 2) (fieldOf b 14 1) (fieldOf b 15 1) (fieldOf b 8 2) (BitVec.ofNat 64 (fieldOf b 0 8))
        ((b.drop 20).take (fieldOf b 18 2))
    | .tunnel => s
    | .part => s
    | .bar0 => s

/-! ### What an answer would hold (R359, TOOBIG) -/

/-- The object of a pair on this part: none where no table lists it or the variant has no such die (R345). -/
def State.objectAt (s : State) (idx sub : Nat) : Option ObjRow :=
  match objRow idx sub with
  | some r => if r.die = 1 ∧ !s.hasDie 1 then none else some r
  | none => none

/-- The listed subindexes of an index, rising. -/
def State.listed (s : State) (idx : Nat) : List Nat := (List.range 256).filter (fun sub => (s.objectAt idx sub).isSome)

/-- The bytes of an object's value. -/
def State.valueSize (s : State) (r : ObjRow) (idx sub : Nat) : Nat :=
  match r.typ.size, r.rng with
  | some n, _ => n
  | none, .blob n => n
  | none, _ => (s.objBytes idx sub).length

/-- A value's part of an answer. -/
def itemSize (n : Nat) : Nat := 8 + n + padTo4 n

/-- The size of the answer to one item. -/
def State.answerSize (s : State) (op : Nat) (i : Item) : Nat :=
  match s.objectAt i.index i.sub with
  | none => 8
  | some r =>
    if op = 5 then 8
    else if op = 1 then if r.acc = .wo then 8 else itemSize (s.valueSize r i.index i.sub)
    else match r.typ, r.acc with
      | .str, _ => itemSize (min i.value.length 256)
      | _, .ro => 8
      | _, .const => 8
      | _, _ => itemSize (s.valueSize r i.index i.sub)

/-- The size of the answer's payload. -/
def State.payloadSize (s : State) (r : Request) (items : List Item) : Nat :=
  match frameOp r.frame, items with
  | 3, i :: _ => ((s.listed i.index).map (fun sub => s.answerSize 1 { i with sub := sub })).sum
  | op, items => (items.map (s.answerSize op)).sum

/-- The payload that a path carries: 7,168 bytes, and on Ethernet what the port's MTU leaves after IP, UDP, header and trailer. -/
def State.payloadRoom (s : State) (r : Request) : Nat :=
  let eth := fun (p : Nat) => min 7168
    (s.objNat (0x4400 + p) 0x0B - (if r.srcAddr.length = 4 then 28 else 48) - 16 - (if r.key.isSome then 44 else 0))
  match r.path with
  | .eth0 => eth 0
  | .eth1 => eth 1
  | _ => 7168

/-- The numbers of items that an operation takes (R358). -/
def countOk (op n : Nat) : Bool :=
  match op with
  | 1 => decide (1 ≤ n ∧ n ≤ 256)
  | 4 => decide (1 ≤ n ∧ n ≤ 64)
  | _ => decide (n = 1)

/-! ### The order of service (R354) -/

/-- A request reaches the front (R358, R359, R368): it leaves by the tunnel, is answered with a frame status, or is taken into
service. A received NOTIFY has no answer. -/
def State.admitRequest (s : State) (r : Request) : State :=
  let op := frameOp r.frame
  let s := if r.path = .mailbox ∧ op ≠ 6 then s.mbServing else s
  if frameTunnel r.frame && frameDest r.frame != s.knots.pos && r.path != .tunnel then s.tunnelAway r
  else if op = 6 then s
  else if op = 0 ∨ 6 < op then s.answerStatus r 12
  else match r.items with
    | none => s.answerStatus r 11
    | some items =>
      if !countOk op items.length then s.answerStatus r 11
      else if s.payloadRoom r < s.payloadSize r items then s.answerStatus r 13
      else { s with dict := { s.dict with serving := some r } }

/-- The request in the mailbox (R364). -/
def State.mailboxRequest (s : State) : Option Request :=
  let f := memReadBlock s.ram 0x100 16
  if headerOk f then
    some { path := .mailbox, srcAddr := [], srcPort := 0, key := none, silent := false,
           frame := memReadBlock s.ram 0x100 (16 + frameLength f) }
  else none

/-- The bytes of the request area that the HKC reads for a request. -/
def State.mailboxLength (s : State) : Nat := 16 + frameLength (memReadBlock s.ram 0x100 16)

/-- The mailbox's request is taken: a malformed frame is dropped without an answer and counted (R356); one that holds an uncorrectable dword counts
as not written (R295). -/
def State.takeMailbox (s : State) : State :=
  let s := { s with dict := { s.dict with mailbox := false } }
  let t := s.hkcReads 0x100 s.mailboxLength
  if s.spoilt 0x100 s.mailboxLength then t
  else match t.mailboxRequest with
    | some r => t.admitRequest r
    | none => t.bump 0x1120 2

/-- A port's oldest request is taken; one that was answered meanwhile is answered from the store (R355). -/
def State.takeEth (s : State) (p : Fin 2) : State :=
  match s.dict.ethQueue[p] with
  | [] => s
  | r :: rest =>
    let s := { s with dict := { s.dict with ethQueue := s.dict.ethQueue.set p rest } }
    match s.storedFor p r with
    | some f => (s.sendUdp p r.srcAddr r.srcPort r.key f).bump 0x1120 7
    | none => s.admitRequest r

/-- The tunnel's oldest request is taken. -/
def State.takeTunnel (s : State) : State :=
  match s.dict.tunnelQueue with
  | [] => s
  | r :: rest => { s with dict := { s.dict with tunnelQueue := rest } }.admitRequest r

/-- A request waits on a path: 0 mailbox, 1 and 2 the Ethernet ports, 3 the tunnel. -/
def State.waits (s : State) (i : Fin 4) : Bool :=
  match i with
  | 0 => s.dict.mailbox
  | 1 => !s.dict.ethQueue[0].isEmpty
  | 2 => !s.dict.ethQueue[1].isEmpty
  | 3 => !s.dict.tunnelQueue.isEmpty

/-- The request of a path is taken; the turn passes on. -/
def State.takeFrom (s : State) (i : Fin 4) : State :=
  let s := { s with dict := { s.dict with turn := i + 1 } }
  match i with
  | 0 => s.takeMailbox
  | 1 => s.takeEth 0
  | 2 => s.takeEth 1
  | 3 => s.takeTunnel

/-- The path whose turn it is, among those where a request waits. -/
def State.nextPath (s : State) : Option (Fin 4) :=
  let t := s.dict.turn
  [t, t + 1, t + 2, t + 3].find? s.waits

/-- While nothing is in service, requests are taken in turn. -/
def State.takeUpTo : Nat → State → State
  | 0, s => s
  | n + 1, s =>
    if !s.power.hkcUp || s.dict.serving.isSome then s
    else match s.nextPath with
      | some i => State.takeUpTo n (s.takeFrom i)
      | none => s

/-- The HKC looks for work. -/
def State.takeNext (s : State) : State :=
  State.takeUpTo (1 + s.dict.ethQueue[0].length + s.dict.ethQueue[1].length + s.dict.tunnelQueue.length) s

/-- MB_REQ has been written (R365): while it differs from MB_RSP, and no request of the mailbox is taken, a request waits. -/
def State.mbSubmit (s : State) : State :=
  if s.mbReq = s.mbRsp ∨ (s.ramWord 4).testBit 16 then s
  else { s with dict := { s.dict with mailbox := true } }.takeNext

/-- A request taken before a restart is answered RESTARTED (R367). -/
def State.restartAnswers (s : State) : State :=
  let old := s.dict.serving.toList ++ s.knots.asks.map TunnelAsk.req
  let s := { s with dict := { s.dict with serving := none }, knots := { s.knots with asks := [] } }
  (old.foldl (fun s r => s.answerStatus r 14) s).takeNext

end Sys2Proof.Machine
end

