-- ==== Sys2Proof/Machine/AlpOps.lean ====
section
/-! DEFINITION. The Aelop ports (chapter 10): the tree, the states of a port, heartbeat exchanges. -/

namespace Sys2Proof.Machine

/-! ### The spanning tree (R222) -/

/-- The advertisement of an UP port's neighbour that has a distance to its root. -/
def State.advert (s : State) (k : Fin 4) : Option Neighbour :=
  if s.alpUp k then
    match s.knots.ports[k].neighbour with
    | some n => if n.dist = 63 then none else some n
    | none => none
  else none

/-- The root: the lowest position among the package's own and those advertised. -/
def State.treeRoot (s : State) : BitVec 6 :=
  (List.finRange 4).foldl (fun r k =>
    match s.advert k with
    | some n => if n.root < r then n.root else r
    | none => r) s.knots.pos

/-- How good a port is as the parent link towards a root: distance, then the neighbour's position, then the port. -/
def State.parentKey (s : State) (root : BitVec 6) (k : Fin 4) : Option (List Nat) :=
  match s.advert k with
  | some n => if n.root = root then some [n.dist.toNat, n.node.toNat % 64, k.val] else none
  | none => none

/-- The parent link towards a root. -/
def State.treeParent (s : State) (root : BitVec 6) : Option (Fin 4) :=
  if root = s.knots.pos then none
  else (List.finRange 4).foldl (fun best k =>
    match best, s.parentKey root k with
    | some b, some key => if lexLess key ((s.parentKey root b).getD []) then some k else some b
    | none, some _ => some k
    | b, none => b) none

/-- The distance over a parent link. -/
def State.treeDist (s : State) (parent : Option (Fin 4)) : BitVec 6 :=
  match parent with
  | none => 0
  | some k => match s.advert k with
    | some n => BitVec.ofNat 6 (min 63 (n.dist.toNat + 1))
    | none => 63

/-- A port is a tree link: the parent link, or marked PARENT by the neighbour. -/
def State.treeLink (s : State) (parent : Option (Fin 4)) (k : Fin 4) : Bool :=
  s.alpUp k && (parent == some k || ((s.knots.ports[k].neighbour.map Neighbour.parent).getD false))

/-- The tree links as a mask. -/
def State.treeMask (s : State) (parent : Option (Fin 4)) : BitVec 4 :=
  (List.finRange 4).foldl (fun (m : BitVec 4) k => if s.treeLink parent k then m ||| BitVec.ofNat 4 (2 ^ k.val) else m) 0

/-- A servo without a parent (R199, R226): LISTEN with the Aelop reference, and where it was still in ACQUIRE; HOLDOVER stays with PTP. -/
def Servo.orphan (v : Servo) (aelop : Bool) : Servo :=
  match v with
  | .off => .off
  | .measure => .measure
  | .acquire => .listen
  | .listen => .listen
  | .locked | .pathHold | .holdover => if aelop then .listen else .holdover

/-- The servo loses what it steered by (R226): HOLDOVER at once, with no measurement and no integral left, and LISTEN while the package has no
parent. -/
def State.servoOrphaned (s : State) : State :=
  let s := s.enterHoldover 0
  let kept := if s.aelopRef then s.knots.parent.isSome else s.net.parent.isSome
  { s with net := { s.net with
    good := 0, integral := 0
    servo := if kept then s.net.servo else s.net.servo.orphan s.aelopRef } }

/-- A change of the parent link (R226): the adopted delays go, and a servo of owner HKC that steers by the link, before or after, loses what it
steered by. -/
def State.parentChange (s : State) (wasRef : Bool) (old new : Option (Fin 4)) : State :=
  if old = new then s
  else
    let s := { s with knots := { s.knots with ports := s.knots.ports.map (fun p => { p with mean := none }) } }
    if (wasRef ∨ s.aelopRef) ∧ s.tb.owner = .hkc then s.servoOrphaned else s

/-- Object 4880:01 is written: another reference of the servo is another parent (R226; DEDUCED, assumption 86). -/
def State.setReference (s : State) (v : Val) : State :=
  let was := s.aelopRef
  let s := (s.put 0x4880 1 v).ptpSettle
  let orphan := s.aelopRef && s.knots.parent.isNone
  if s.tb.owner = .hkc ∧ (was ≠ s.aelopRef ∨ orphan) then s.servoOrphaned else s

/-- Recent knots are sent again on a link that has become a tree link (R224). -/
def State.resend (s : State) (k : Fin 4) : State :=
  (s.knots.recent.filter (fun x => decide (s.now < x.2 + us 128))).foldl (fun s x => s.sendAlp k x.1) s

/-- The tree is computed again (R222, R224, R230): TREECHG, recent knots on new tree links, the servo's parent. -/
def State.retree (s : State) : State :=
  let old := s.knots
  let wasRef := s.aelopRef
  let root := s.treeRoot
  let parent := s.treeParent root
  let dist := s.treeDist parent
  let tree := s.treeMask parent
  if old.root = root ∧ old.parent = parent ∧ old.dist = dist ∧ old.tree = tree then s
  else
    let s := { s with knots := { s.knots with root := root, parent := parent, dist := dist, tree := tree } }.setEvBit .alp 10
    let s := ((List.finRange 4).filter (fun k => tree.getLsbD k.val && !old.tree.getLsbD k.val)).foldl State.resend s
    s.parentChange wasRef old.parent parent

/-! ### The states of a port (R221) -/

/-- What a port forgets when it leaves UP or TRAINING. -/
def AlpPort.clear (p : AlpPort) (st : AlpState) : AlpPort :=
  { p with
    state := st, run := 0, exchanged := false, heard := none, toEcho := false, sent := [], count := 0, sumDelay := 0, sumOffset := 0,
    coasted := false, measured := [], neighbour := none, tunnelq := [], mean := none }

/-- A port's neighbour as its object shows it: all ones for none. -/
def State.noNeighbour (s : State) (k : Fin 4) : State := s.putNat (alpObj k) 3 0xFFFFFFFF

/-- The neighbour's node id on a port. -/
def State.neighbourId (s : State) (k : Fin 4) : Nat :=
  match s.knots.ports[k].neighbour with
  | some n => n.node.toNat
  | none => 0xFFFFFFFF

/-- An UP port goes DOWN (R221): the event, its count, an ALP_DOWN entry, the tree, the tunnel requests through it. -/
def State.alpDown (s : State) (k : Fin 4) : State :=
  if s.alpUp k then
    let id := s.neighbourId k
    let s := ((s.withAlp k (fun p => p.clear .down)).noNeighbour k).setEvBit .alp k.val
    let s := (s.bump (alpObj k) 7).bb 0x0052 1 (leBytes 1 k.val ++ leBytes 4 id)
    (s.retree).endAsks (fun a => a.ports.contains k)
  else s

/-- A port's enable is written (R221): DISABLED to TRAINING, or from any state to DISABLED. -/
def State.alpEnable (s : State) (k : Fin 4) (on : Bool) : State :=
  let s := s.putNat (alpObj k) 1 (b2n on)
  if on then
    if s.knots.ports[k].state = .disabled then (s.withAlp k (fun p => { p with state := .training, nextBeat := s.now })).retree else s
  else
    let s := (s.withAlp k (fun p => p.clear .disabled)).noNeighbour k
    (s.retree).endAsks (fun a => a.ports.contains k)

/-- The package's domain is written: a new one changes the node id, and the HELD states are left for TRAINING (R221). -/
def State.setDomain (s : State) (v : Val) : State :=
  let was := s.nodeId
  let s := s.put 0x4800 1 v
  if s.nodeId = was then s else { s with knots := { s.knots with ports := s.knots.ports.map (fun p =>
    match p.state with
    | .heldDuplicate => p.clear .training
    | .heldForeign => p.clear .training
    | _ => p) } }

/-- A HELD check fails (R221): the event and an ALP_HELD entry with the neighbour's node id. -/
def State.alpHold (s : State) (k : Fin 4) (st : AlpState) (node : BitVec 18) : State :=
  ((s.withAlp k (fun p => p.clear st)).setEvBit .alp (4 + k.val)).bb 0x0053 1 (leBytes 1 k.val ++ leBytes 4 node.toNat)

/-! ### Exchanges (R225) -/

/-- A completed exchange: the link delay and the neighbour's offset, from t1, t2 of the neighbour's heartbeat and t3, t4 of the
answer. -/
def exchange (t1 t2 t3 t4 : Qword) (asym : Int) : Int × Int :=
  let d := divRound ((t2 - t1).toInt + (t4 - t3).toInt) 2
  (d, (t2 - t1).toInt - d - asym)

/-- The exchange that a heartbeat completes, when it is the first to stamp one of this port's that was the next to echo the neighbour. -/
def State.exchangeOf (s : State) (k : Fin 4) (h : Heartbeat) : Option (Int × Int) :=
  match s.knots.ports[k].sent.find? (fun b => b.seq == h.eseq) with
  | some b => match b.echoed with
    | some (t1, t2) => some (exchange t1 t2 b.sent h.trx (s.objInt (alpObj k) 6))
    | none => none
  | none => none

/-- Delay and offset are published (objects 4810+k:04 and :05). -/
def State.publishLink (s : State) (k : Fin 4) (delay offset : Int) : State :=
  ((s.withAlp k (fun p => { p with delay := delay, offset := offset })).putInt (alpObj k) 4 delay).putInt (alpObj k) 5 offset

/-- An exchange enters the sums; the 1,024th completes a measurement, which waits to be published. -/
def AlpPort.gather (p : AlpPort) (x : Int × Int) (coasts : Bool) : AlpPort :=
  let d := p.sumDelay + x.1
  let o := p.sumOffset + x.2
  let c := p.coasted || coasts
  if p.count + 1 = 1024 then
    { p with
      count := 0, sumDelay := 0, sumOffset := 0, coasted := false
      measured := p.measured ++ [{ delay := divRound d 1024, offset := divRound o 1024, coasted := c }] }
  else { p with count := p.count + 1, sumDelay := d, sumOffset := o, coasted := c }

/-- An exchange enters the port: the first one while it trains, afterwards the sums of the next measurement. -/
def State.takeExchange (s : State) (k : Fin 4) (x : Int × Int) : State :=
  match s.knots.ports[k].state with
  | .training => s.withAlp k (fun p => { p with exchanged := true, delay := x.1, offset := x.2 })
  | .up => s.withAlp k (fun p => p.gather x s.xpllCoasts)
  | .disabled | .down | .heldDuplicate | .heldForeign => s

/-- TRAINING ends after sixteen good heartbeats in a row and a first exchange (R221). -/
def State.maybeUp (s : State) (k : Fin 4) : State :=
  let p := s.knots.ports[k]
  if p.state = .training ∧ 16 ≤ p.run ∧ p.exchanged then
    (s.withAlp k (fun p => { p with state := .up, count := 0, sumDelay := 0, sumOffset := 0, coasted := false })).publishLink k
      p.delay p.offset
  else s

/-- A heartbeat with good FCRC on a port in TRAINING, UP or DOWN (R220 to R222, R225, R227). The first one in TRAINING is held to the checks of the
HELD states. -/
def State.goodBeat (s : State) (k : Fin 4) (h : Heartbeat) : State :=
  let n : Neighbour := { node := h.node, root := h.root, dist := h.dist, parent := h.parent, credit := h.credit.toNat }
  let x := s.exchangeOf k h
  let first := s.knots.ports[k].neighbour.isNone
  let s := s.withAlp k (fun p => { p with
    state := if p.state = .down then .training else p.state
    run := p.run + 1, lastGood := s.now, neighbour := some n, heard := some (h.seq, h.ttx, h.arrival), toEcho := true
    sent := p.sent.filter (fun b => b.seq != h.eseq) })
  let s := s.putNat (alpObj k) 3 h.node.toNat
  let train := first && decide (s.knots.ports[k].state = .training)
  if train && h.node == s.nodeId then s.alpHold k .heldDuplicate h.node
  else if train && decide (h.node.toNat / 64 ≠ s.objNat 0x4800 1) then s.alpHold k .heldForeign h.node
  else
    let s := match x with
      | some x => s.takeExchange k x
      | none => s
    let s := (s.maybeUp k).retree
    s.drainTunnel k s.knots.ports[k].tunnelq.length

/-- A heartbeat whose FCRC fails is discarded and counted; the run of good ones ends (R219, R221). -/
def State.badBeat (s : State) (k : Fin 4) : State := (s.discardFrame k).withAlp k (fun p => { p with run := 0 })

/-! ### The Aelop servo (R226) -/

/-- The servo steers by this port's link. -/
def State.alpSteers (s : State) (k : Fin 4) : Bool :=
  s.aelopRef && decide (s.knots.parent = some k) && decide (s.tb.owner = .hkc) && s.power.hkcUp

/-- A measurement of the parent link in the place of an accepted Sync (R226). -/
def State.alpServo (s : State) (k : Fin 4) (delay offset : Int) (coasted : Bool) : State :=
  let mine := s.alpSteers k && !coasted
  let s := s.judgeDelay mine (2 + k.val) s.knots.ports[k].mean delay
    (fun s => s.withAlp k (fun p => { p with mean := some delay })) (fun s => s.withAlp k (fun p => { p with mean := none }))
  if mine && s.canApply offset then
    ({ s with net := { s.net with syncSeen := s.now } }.bump 0x4880 2).servoOffset offset
  else s

/-- A measurement of 1,024 exchanges is published and used (R225). -/
def State.alpMeasure (s : State) (k : Fin 4) (m : LinkMeasure) : State :=
  let s := s.withAlp k (fun p => { p with measured := p.measured.drop 1 })
  (s.publishLink k m.delay m.offset).alpServo k m.delay m.offset m.coasted

/-! ### The tunnel (R227) -/

/-- A tunnelled frame for this package: an answer, a NOTIFY, or a request that joins the tunnel's queue with SOURCE 3 (R368). -/
def State.tunnelHere (s : State) (source : BitVec 6) (bs : List Byte) : State :=
  let f := bs.take (frameNeed bs)
  if !headerOk bs || decide (bs.length < frameNeed bs) then s.bump 0x1120 2
  else if frameBack f then if frameOp f = 6 then s.tunnelNotify source f else s.tunnelReply source f
  else
    let r : Request := { path := .tunnel, srcAddr := leBytes 1 source.toNat, srcPort := 0, key := none, silent := false, frame := f }
    { s with dict := { s.dict with tunnelQueue := s.dict.tunnelQueue ++ [r] } }.takeNext

/-- What has been gathered of the frame that a fragment goes on with: nothing at fragment 0, and none when the fragments before it are missing. -/
def State.partOf (s : State) (f : TunnelFrame) : Option (List Byte) :=
  if f.frag = 0 then some []
  else ((s.knots.parts.find? (fun x => x.1 == f.source)).map Prod.snd).filter (fun b => decide (b.length = f.frag.toNat * tunnelBlock))

/-- A fragment for this package joins those before it, and the last one completes the frame (R219). -/
def State.tunnelFragment (s : State) (f : TunnelFrame) : State :=
  let rest := s.knots.parts.filter (fun x => x.1 != f.source)
  let keep := fun (l : List (BitVec 6 × List Byte)) => { s with knots := { s.knots with parts := l } }
  match s.partOf f with
  | none => keep rest
  | some b =>
    let bs := b ++ f.payload
    if headerOk bs && decide (bs.length < frameNeed bs) && decide (f.payload.length = tunnelBlock) then keep (rest ++ [(f.source, bs)])
    else (keep rest).tunnelHere f.source bs

/-- A tunnel frame is passed on over the tree (R227): the first fragment of a request that finds a way on is counted. -/
def State.tunnelOnward (s : State) (k : Fin 4) (f : TunnelFrame) : State :=
  let ports := s.tunnelPorts f.dest (some k)
  let o : TunnelOut := { dest := f.dest, source := f.source, frag := f.frag.toNat, payload := f.payload }
  let s := ports.foldl (fun s k => s.sendTunnelOn o k) s
  if ports.isEmpty || decide (f.frag ≠ 0) || frameBack f.payload then s else s.bump 0x4860 2

end Sys2Proof.Machine
end

