-- ==== Sys2Proof/Machine/Alp.lean ====
section
/-! DEFINITION. The commands of the Aelop link (chapter 10). -/

namespace Sys2Proof.Machine

/-- The 24 data bytes of a heartbeat (R220). -/
def beatBytes (node : BitVec 18) (root dist : BitVec 6) (parent : Bool) (ttx trx : Qword) (seq eseq : Byte) (credit : Nat) : List Byte :=
  leBytes 4 (node.toNat + 2 ^ 18 * root.toNat + 2 ^ 24 * dist.toNat + 2 ^ 30 * b2n parent) ++ leBytes 8 ttx.toNat ++ leBytes 8 trx.toNat
    ++ [seq, eseq] ++ leBytes 2 credit

/-- A port sends its heartbeat (R220). Its CREDIT is a free value (assumption 5). -/
def State.sendBeat (s : State) (k : Fin 4) (stamp : Qword) : State :=
  let p := s.knots.ports[k]
  let echo := if p.toEcho then p.heard.map (fun h => (h.2.1, h.2.2)) else none
  let beat : SentBeat := { seq := p.seq, sent := stamp, echoed := echo }
  let s := s.withAlp k (fun p => { p with
    seq := p.seq + 1, nextBeat := s.now + us 1, toEcho := false, sent := (p.sent ++ [beat]).drop (p.sent.length - 15) })
  let trx := (p.heard.map (fun h => h.2.2)).getD 0
  let eseq := (p.heard.map (fun h => h.1)).getD 0
  let data := beatBytes s.nodeId s.knots.root s.knots.dist (decide (s.knots.parent = some k)) stamp trx p.seq eseq s.nextNat
  s.drawn.sendFrame k 1 data

/-- HEARTBEAT_SEND (R220): every 1 µs ± 10 ns on an enabled port that is powered. -/
def execHeartbeatSend (k : Fin 4) (stamp : Qword) (s : State) : Result :=
  .next (if s.alpPowered k ∧ s.knots.ports[k].state ≠ .disabled ∧ s.knots.ports[k].nextBeat ≤ s.now + ns 10 then s.sendBeat k stamp else s)

/-- HEARTBEAT_RECEIVE (R219 to R222, R225): an enabled port that is powered and not held. -/
def execHeartbeatReceive (k : Fin 4) (h : Heartbeat) (s : State) : Result :=
  .next (if !s.alpHears k then s else if h.good then s.goodBeat k h else s.badBeat k)

/-- ALP_PORT_ENABLE (R221): a write of object 4810+k:01. -/
def execAlpPortEnable (k : Fin 4) (on : Bool) (via : Source) (s : State) : Result := .next (s.onPath via fun s => s.alpEnable k on)

/-- ALP_PORT_DOWN (R221): 4 µs without a good heartbeat. -/
def execAlpPortDown (k : Fin 4) (s : State) : Result :=
  .next (if !s.frozenFull ∧ s.knots.ports[k].lastGood + us 4 ≤ s.now then s.alpDown k else s)

/-- A lane of a port fails (R218): an UP port goes DOWN, a training one starts over. -/
def State.laneFailure (s : State) (k : Fin 4) : State :=
  match s.knots.ports[k].state with
  | .up => s.alpDown k
  | .training => s.withAlp k (fun p => p.clear .training)
  | _ => s

/-- ALP_LANE_FAILURE (R218). -/
def execAlpLaneFailure (k : Fin 4) (_lane : Fin 2) (s : State) : Result :=
  .next (if s.frozenFull then s else s.laneFailure k)

/-- ALP_MEASUREMENT (R225): after 1,024 exchanges. -/
def execAlpMeasurement (k : Fin 4) (s : State) : Result :=
  .next (match s.knots.ports[k].measured with
    | m :: _ => if !s.frozenFull ∧ s.alpUp k then s.alpMeasure k m else s
    | [] => s)

/-- A frame of a TYPE that R219 reserves. -/
def reservedFrame (f : TunnelFrame) : Bool := !([1, 2, 3].contains f.typ)

/-- TUNNEL_FRAME_RECEIVE (R219, R227, R368): a spoiled frame or one of a reserved TYPE is discarded; a tunnel frame is taken on an UP port, while
the tunnel works here. -/
def execTunnelFrameReceive (k : Fin 4) (f : TunnelFrame) (s : State) : Result :=
  .next (if !s.alpHears k then s
    else if !f.good || reservedFrame f then s.discardFrame k
    else if f.typ = 3 ∧ s.alpUp k ∧ s.tunnelOn then if f.dest = s.knots.pos then s.tunnelFragment f else s.tunnelOnward k f
    else s)

end Sys2Proof.Machine
end

