-- ==== Sys2Proof/Machine/HealthOps.lean ====
section
/-! DEFINITION. The maintenance tasks and their lateness (R17, R404). -/

namespace Sys2Proof.Machine

/-- A task becomes due; one that was due already keeps its first due time (R404). -/
def State.makeDue (s : State) (t : Fin 5) : State :=
  if s.health.due[t].isSome then s else { s with health := { s.health with due := s.health.due.set t (some s.now) } }

/-- A task starts: its time and its lateness are published, and it is no longer due (R404). A task that was not waiting starts
with lateness 0. -/
def State.startTask (s : State) (t : Fin 5) : State :=
  let late := (s.now - s.health.due[t].getD s.now) / ms 1
  let idx := 0x7410 + t.val
  let s := { s with health := { s.health with due := s.health.due.set t none } }
  let s := ((s.put idx 1 (.num s.time.toNat)).putNat idx 2 late).raiseTo idx 3 late
  if s.objNat 0x7400 6 < late then (s.bump idx 4).setEvBit .hlt 5 else s

/-- The front-end task of a die (R404). -/
def dieTask (d : Die) : Fin 5 := ⟨d.val, by omega⟩

end Sys2Proof.Machine
end

