-- ==== Sys2Proof/WellFormed.lean ====
section
/-! DEFINITION. Which commands some sender can give. Only the PCI Express accesses have operands that no request can carry:
an access is neither empty nor longer than a request, stays inside its BAR and does not cross a 4 KiB line (R325, R372). -/

namespace Sys2Proof

/-- An access of `n` bytes at `off` that a request can carry into a window of `size` bytes. -/
def accessOk (off n size : Nat) : Bool :=
  decide (0 < n ∧ n ≤ 4096 ∧ off + n ≤ size ∧ off % 4096 + n ≤ 4096)

/-- The command is one that a sender can give. -/
def Instr.wf : Instr → Bool
  | .windowRead off len => accessOk off.toNat len.toNat (2 ^ 36)
  | .windowWrite off bytes => accessOk off.toNat bytes.length (2 ^ 36)
  | .descriptorRamHostWrite off w => accessOk off.toNat w.bytes.length (2 ^ 16)
  | .descriptorRamHostRead off len _ => accessOk off.toNat len.toNat (2 ^ 16)
  | .registerWrite off bytes => accessOk off.toNat bytes.length (2 ^ 20)
  | .configurationWrite off _ _ => decide (off.toNat % 4 = 0)
  | _ => true

end Sys2Proof
end

