-- ==== Sys2Proof/Machine/Deep.lean ====
section
/-! DEFINITION. The commands of the deep store (chapter 13): speed, training, sensors, requests, errors, sparing, scrub and the
BAR2 window. -/

namespace Sys2Proof.Machine

/-! ### Speed (R267, R270) -/

/-- The rating that every admitted DIMM shares: the lowest rated speed, at most DDR5-6400; 0 without a channel. -/
def Deep.rating (d : Deep) : Nat := if d.mapChans.isEmpty then 0 else d.mapChans.foldl (fun m c => min m d.chans[c].rated) 3

/-- The running speed that a requested one gives: AUTO is the rating (R267). -/
def Deep.speedFor (d : Deep) (req : Nat) : Nat := if req = 0 then d.rating else min req d.rating

/-- A channel is in training. -/
def DsChan.trains (c : DsChan) : Bool := decide (c.state = .training)

/-- A training gathers data on some channel. -/
def Deep.anyTraining (d : Deep) : Bool := d.chans.toList.any DsChan.trains

/-- DS_SPEED past its guard (R267): the request, clamped to the rating; a change is pending until it is allowed. -/
def State.writeSpeed (v : Dword) (s : State) : State :=
  let req := v.toNat % 4
  let s := { s with deep := { s.deep with requested := req } }
  let s := if s.deep.rating < req ∧ s.deep.rating ≠ 0 then s.clampOp (regLoc 0x90010) 9 .bar0 req s.deep.rating else s
  if s.deep.speedFor req = s.deep.running then { s with deep := { s.deep with pending := false, deferred := false } }
  else { s with deep := { s.deep with pending := true } }.makeDue 3

/-- SPEED_CHANGE_REQUEST (R267): a guarded write of DS_SPEED. -/
def execSpeedChangeRequest (v : Dword) (g : GuardForm) (s : State) : Result := .next (s.guardForm 0x90010 v g State.writeSpeed)

/-- A generator with planned refill is out of STOPPED (R267). -/
def Gen.refills (g : Gen) : Bool := decide (g.state ≠ .stopped) && decide (g.planned ≠ 0)

/-- Nothing but a training keeps a speed change from being applied (R20, R267). -/
def State.speedFree (s : State) : Bool := s.power.ready && !s.anyBusy && !s.gens[0].refills && !s.gens[1].refills

/-- The feedback count of the MPLLs at a speed (R306). -/
def mpllCount (speed : Nat) : Nat := if speed = 1 then 480 else if speed = 2 then 560 else 640

/-- A channel of the map goes out of service to train, unless it is FAILED. -/
def DsChan.toTraining (c : DsChan) : DsChan :=
  match c.state with
  | .inService => { c with state := .training }
  | .training => { c with state := .training }
  | .selfRefresh => { c with state := .training }
  | .absent | .nonconforming | .failed => c

/-- The MPLL of a channel. -/
def mpll (c : Fin 8) : Fin 13 := ⟨4 + c.val, by omega⟩

/-- The change is applied: self-refresh, hop of every MPLL, retraining of every channel in parallel (R267). -/
def State.applySpeed (s : State) : State :=
  let s := { s.startTask 3 with deep := { s.deep with
    changing := true, deferred := false, chans := s.deep.chans.map DsChan.toTraining } }
  s.deep.mapChans.foldl (fun s c => s.startPll (mpll c) (mpllCount (s.deep.speedFor s.deep.requested))) s

/-- SPEED_CHANGE_APPLY (R267, R270): a pending change becomes allowed; one that meets a training is deferred. -/
def execSpeedChangeApply (s : State) : Result :=
  .next (if s.deep.pending ∧ !s.deep.changing ∧ s.isOn ∧ s.speedFree then
    if s.deep.anyTraining then
      if s.deep.deferred then s
      else (({ s with deep := { s.deep with deferred := true } }.bump 0x5440 1).setEvBit .ds 5).bb 0x0066 1
        (leBytes 1 (s.deep.speedFor s.deep.requested))
    else s.applySpeed
  else s)

/-- A training ends on a channel: its time, temperature and result; FAILED when it found no working setting (R268, R271). -/
def State.trained (s : State) (r : TrainReport) (c : Fin 8) : State :=
  let bad := r.failed.contains c
  let s := s.withChan c (fun x => { x with
    trainedAt := s.time, trainTemp := x.tempMc, trainSince := s.now, trainResult := if bad then 2 else 1 })
  let s := { s with mram := { s.mram with present := s.mram.present ||| 32 } }
  if bad then s.failChannel c r.property else s.withChan c (fun x => { x with state := .inService })

/-- SPEED_CHANGE_COMPLETE (R267): the channels return to service, and the speed is published. -/
def execSpeedChangeComplete (r : TrainReport) (s : State) : Result :=
  .next (if !s.frozenFull ∧ s.deep.changing then
    let s := { s with deep := { s.deep with
      changing := false, pending := false, running := s.deep.speedFor s.deep.requested } }
    ((s.deep.mapChans.filter (fun c => s.deep.chans[c].trains)).foldl (fun s c => s.trained r c) s).bump 0x5440 2
  else s)

/-! ### Training (R268, R271) -/

/-- A channel's training is due: the interval or the temperature step has passed (R268). -/
def State.trainingDue (s : State) (c : Fin 8) : Bool :=
  let x := s.deep.chans[c]
  decide (x.state = .inService) &&
    (decide (x.trainSince + sec (3600 * s.objNat 0x5401 1) ≤ s.now) ||
      decide (1000 * s.objNat 0x5401 2 < (x.tempMc - x.trainTemp).natAbs))

/-- R17, R20 and R268 leave a training free: between captures, one channel at a time, while the HKC serves. -/
def State.trainingFree (s : State) : Bool := s.isOn && s.power.ready && !s.anyBusy && !s.deep.anyTraining && !s.deep.changing

/-- A training of a channel begins. -/
def State.beginTraining (s : State) (c : Fin 8) : State := (s.startTask 2).withChan c DsChan.toTraining

/-- TRAINING_DUE (R268): a channel's training becomes due, and begins when nothing forbids it; otherwise it waits (R404). -/
def execTrainingDue (c : Fin 8) (s : State) : Result :=
  .next (if s.trainingDue c then if s.trainingFree then s.beginTraining c else s.makeDue 2 else s)

/-- TRAINING_COMPLETE (R268, R270): the result is recorded, and a deferred speed change is applied. -/
def execTrainingComplete (c : Fin 8) (r : TrainReport) (s : State) : Result :=
  .next (if !s.frozenFull ∧ s.deep.chans[c].trains ∧ !s.deep.changing then
    let s := s.trained r c
    if s.deep.deferred ∧ s.deep.pending then s.applySpeed else s
  else s)

/-- A channel whose training is ended by an ARM. -/
def DsChan.abort (c : DsChan) : DsChan :=
  match c.state with
  | .training => { c with state := .inService, trainResult := 3 }
  | .inService | .selfRefresh | .absent | .nonconforming | .failed => c

/-- An ARM ends a training between captures: the previous settings return, the result is ABORTED, and the training stays due
(R268). -/
def State.abortTraining (s : State) : State :=
  if s.deep.anyTraining && !s.deep.changing then
    { s with deep := { s.deep with
        chans := s.deep.chans.map DsChan.abort } }.makeDue 2
  else s

/-! ### Sensors (R272) -/

/-- Add to the packed counts of object 5410+c:0B: doubled entries in [15:0], events above 95 °C in [31:16]. -/
def State.bumpHeat (s : State) (c : Fin 8) (doubled hot : Bool) : State :=
  let v := s.objNat (0x5410 + c.val) 0x0B
  s.putNat (0x5410 + c.val) 0x0B ((v + b2n doubled) % 65536 + 65536 * ((v / 65536 + b2n hot) % 65536))

/-- One channel's reading, or its loss (R272). -/
def State.readDimm (temps : Vector (Option Int) 8) (s : State) (c : Fin 8) : State :=
  let x := s.deep.chans[c]
  if x.state = .absent then s
  else match temps[c] with
    | some t =>
      let dbl := if 85000 < t then true else if t < 83000 then false else x.doubled
      let hot := decide (95000 < t)
      let s := (s.withChan c (fun x => { x with tempMc := t, sensorFails := 0, doubled := dbl, hot := hot })).bumpHeat c
        (dbl && !x.doubled) (hot && !x.hot)
      if hot && !x.hot then (s.setEvBit .ds 6).bb 0x0022 1 (leBytes 1 c.val ++ intBytes 4 t) else s
    | none =>
      let n := x.sensorFails + 1
      let s := (s.withChan c (fun x => { x with sensorFails := n, doubled := x.doubled || decide (3 ≤ n) })).bumpHeat c
        (decide (3 ≤ n) && !x.doubled) false
      if n = 3 then s.bb 0x0023 1 (leBytes 1 c.val ++ intBytes 4 x.tempMc) else s

/-- DIMM_SENSOR_READ (R272): every DIMM's hottest reading, or none where a read fails; the HKC reads. -/
def execDimmSensorRead (temps : Vector (Option Int) 8) (s : State) : Result :=
  .next (if s.power.hkcUp then (List.finRange 8).foldl (State.readDimm temps) s else s)

/-! ### Errors, sparing and retirement (R273 to R277) -/

/-- The barge of an open convoy's deep region that lies at a barge index, if any. -/
def DieSt.deepBarge (d : DieSt) (b : Nat) : Option BargeMeta :=
  if d.isOpen && d.plan.deep then d.win.deep.find? (fun m => d.plan.regionBase / 4096 + m.slot == b) else none

/-- A barge joins the DAMAGED list of a die's open convoy (R277). -/
def DieSt.markDamaged (d : DieSt) (m : BargeMeta) : DieSt :=
  { d with win := { d.win with damaged := d.win.damaged.filter (fun x => x.slot != m.slot) ++ [m] } }

/-- A barge is damaged: known at sealing when it belongs to an open convoy, and in the damage log otherwise (R277). -/
def State.damaged (s : State) (b cause : Nat) : State :=
  match s.dies[0].deepBarge b, s.dies[1].deepBarge b with
  | some m, _ => s.withDie 0 (fun d => d.markDamaged m)
  | none, some m => s.withDie 1 (fun d => d.markDamaged m)
  | none, none => s.damage b cause

/-- A channel's spare is unused while sparing is in effect and none of its ranks migrates (R275). -/
def Deep.spareFree (d : Deep) (c : Fin 8) : Option (Fin 4) :=
  if d.sparing && d.migrations.all (fun m => m.chan != c) then d.chans[c].spare else none

/-- The slot that names a rank of a channel. -/
def Deep.slotOf (d : Deep) (c : Fin 8) (r : Fin 4) : Option (Fin 4) :=
  (List.finRange 4).find? (fun k => decide (k.val < d.mapRanks) && d.rankOf c k == r)

/-- The address of a group of a rank slot, in the order of a migration, oldest address first (R265, R275). -/
def Deep.groupAddr (d : Deep) (m : Migration) : Nat :=
  ((m.copied / 4 * d.mapRanks + m.slot.val) * d.c + d.firstBarge m.chan) * 4096 + m.copied % 4 * 1024

/-- Groups of a rank. -/
def Deep.rankGroups (d : Deep) : Nat := d.rankGiB * 2 ^ 20

/-- P7 asks for the next group of the first migration (R275, R281). -/
def State.migrateNext (s : State) : State :=
  match s.deep.migrations with
  | m :: _ => if m.copied < s.deep.rankGroups then s.dsAsk 7 (s.deep.groupAddr m) false else s
  | [] => s

/-- A migration that was paused goes on once no port sits at urgency 3 (R281). -/
def State.migrateOn (s : State) : State := if s.deep.paused then s else s.migrateNext

/-- A rank with a slot leaves service: it migrates to an unused spare, and is retired when there is none (R275, R276). -/
def State.leaveService (s : State) (c : Fin 8) (r : Fin 4) : State :=
  match s.deep.spareFree c, s.deep.slotOf c r with
  | some sp, some slot =>
    let m : Migration := { chan := c, slot := slot, rank := r, spare := sp, copied := 0 }
    let s := { s with deep := { s.deep with migrations := s.deep.migrations ++ [m] } }
    (s.putNat 0x5440 4 0).migrateNext
  | _, _ => s.retireRank c r

/-- A rank leaves service (R275, R276): retired when its own migration runs, and untouched when it is retired already. -/
def State.rankOut (s : State) (c : Fin 8) (r : Fin 4) : State :=
  let mine := fun (m : Migration) => m.chan == c && m.rank == r
  if s.deep.chans[c].out.getLsbD r.val then s
  else if s.deep.migrations.any mine then
    { s with deep := { s.deep with migrations := s.deep.migrations.filter (fun m => !mine m) } }.retireRank c r
  else s.leaveService c r

/-- A corrected read: counted for its rank; at the proactive threshold within 24 h the rank leaves service (R273, R275). -/
def State.correctedRead (s : State) (c : Fin 8) (r : Fin 4) : State :=
  let key := 4 * c.val + r.val
  let kept := s.deep.recent.filter (fun x => decide (s.now < x.2 + day)) ++ [(key, s.now)]
  let s := { s with deep := { s.deep with recent := kept } }.bump (0x5420 + c.val) (1 + r.val)
  let limit := s.objNat 0x5401 5
  if 0 < limit ∧ limit ≤ (kept.filter (fun x => x.1 == key)).length then s.rankOut c r else s

/-- An uncorrectable read: counted, UE, a DS_UE entry, damage (R273, R277). -/
def State.lostRead (s : State) (b : Nat) (c : Fin 8) (r : Fin 4) : State :=
  let s := (s.bump (0x5420 + c.val) (5 + r.val)).setEvBit .ds 0
  (s.bb 0x0060 2 (leBytes 1 c.val ++ leBytes 1 r.val ++ leBytes 8 b)).damaged b 1

/-- An uncorrectable read other than a migration's: its rank leaves service, too (R275). -/
def State.badRead (s : State) (b : Nat) (c : Fin 8) (r : Fin 4) : State := (s.lostRead b c r).rankOut c r

/-- How a group read of an address ends (R273). An address outside the map has no rank. -/
def State.groupRead (s : State) (addr : Nat) (g : GroupResult) : State :=
  let b := addr / 4096
  if s.deep.top ≤ addr then s
  else
    let p := s.deep.place b
    let r := s.deep.rankOf p.1 p.2
    let s := if g.corrected then s.correctedRead p.1 r else s
    if g.uncorrectable then s.badRead b p.1 r else s

/-- A group of the first migration has been read and is written to the spare (R275): one that the code could not correct as read, its barge
damaged; the progress of object 5440:04; the next group. -/
def State.migrated (s : State) (addr : Nat) (g : GroupResult) : State :=
  match s.deep.migrations with
  | [] => s.groupRead addr g
  | m :: rest =>
    let s := if g.corrected then s.bump (0x5420 + m.chan.val) (1 + m.rank.val) else s
    let s := if g.uncorrectable then s.lostRead (addr / 4096) m.chan m.rank else s
    let n := m.copied + 1
    let s := { s with deep := { s.deep with migrations := { m with copied := n } :: rest } }
    (s.putNat 0x5440 4 (min 100 (100 * n / max s.deep.rankGroups 1))).migrateNext

/-! ### Requests (R279 to R282) -/

/-- DS_REQUEST_COMPLETE (R273, R279, R280, R282): the request of a port that its channel has granted completes. A refill read fills its generator's
buffers (R253), and a migration's goes to the spare (R275). -/
def execDsRequestComplete (p : Fin 8) (g : GroupResult) (s : State) : Result :=
  .next (if s.frozenFull then s else match s.deep.ports[p] with
    | none => s
    | some q =>
      if !q.granted then s else
      let s := s.dsServed p
      let s := if q.write then s else if p = 7 then s.migrated q.addr g else s.groupRead q.addr g
      if p = 2 then s.genRefilled 0 g.uncorrectable else if p = 3 then s.genRefilled 1 g.uncorrectable else s)

/-- DS_PARITY_ERROR (R275): a command or address parity error at a barge; `again`: the one reissue failed too. -/
def execDsParityError (barge : BitVec 28) (again : Bool) (s : State) : Result :=
  let b := barge.toNat
  .next (if s.frozenFull ∨ s.deep.top ≤ 4096 * b then s
  else
    let p := s.deep.place b
    let r := s.deep.rankOf p.1 p.2
    let s := (s.bump (0x5420 + p.1.val) (9 + r.val)).setEvBit .ds 1
    let s := s.bb 0x0061 2 (leBytes 1 p.1.val ++ leBytes 1 r.val ++ leBytes 8 b)
    (if again then s.damaged b 2 else s).rankOut p.1 r)

/-- MIGRATION_DONE (R275): the slot names the spare; `bad` are the barges that the copy found uncorrectable. -/
def execMigrationDone (c : Fin 8) (bad : List (BitVec 28)) (s : State) : Result :=
  .next (if s.frozenFull then s else match s.deep.migrations.find? (fun m => m.chan == c) with
    | none => s
    | some m =>
      let s := bad.foldl (fun s b => s.damaged b.toNat 1) s
      let s := { s with deep := { s.deep with migrations := s.deep.migrations.filter (fun m => m.chan != c) } }
      let s := s.withChan c (fun x => { x with slots := x.slots.set m.slot m.spare, spare := none })
      let s := ((s.dsServed 7).putNat 0x5440 4 100).bump 0x5440 3
      (s.setEvBit .ds 3).bb 0x0063 2 (leBytes 1 c.val ++ leBytes 1 m.rank.val))

/-- URGENCY_RISE (R279, R281): the urgency of a port's waiting request follows its age. -/
def execUrgencyRise (p : Fin 8) (s : State) : Result :=
  .next (if s.frozenFull then s else match s.deep.ports[p] with
    | none => s
    | some q => { s with deep := { s.deep with ports := s.deep.ports.set p (some { q with
        urgency := max q.urgency (urgencyAt p (s.now - q.entered)) }) } })

/-- The next address of patrol scrub: the first group in service from the pointer on, over one round of places (R274). -/
def Deep.scrubNext (d : Deep) : Option Nat :=
  if d.top = 0 then none
  else
    let here := d.scrub % d.top
    if d.inService (here / 4096) then some here
    else ((List.range (d.c * d.mapRanks)).map (fun i => (here / 4096 + 1 + i) * 4096 % d.top)).find? (fun a => d.inService (a / 4096))

/-- PATROL_SCRUB_READ (R274, R281): the next group is read on P7; a corrected group is written back with the same data. While
class 5 is refused the read is not issued and counts as refused. -/
def execPatrolScrubRead (g : GroupResult) (s : State) : Result :=
  .next (if s.objBool 0x5401 3 && s.isOn && !s.deep.changing then
    match s.deep.scrubNext with
    | none => s
    | some a =>
      if s.deep.paused then s.bump 0x5437 3
      else
        let s := { s with deep := { s.deep with scrub := (a + 1024) % s.deep.top } }
        (s.dsGroups 7 1).groupRead a g
  else s)

/-! ### DS_RAS (R276, R287) -/

/-- DS_RAS past its guard (R276): RETIRE acts now; SPARE_EN and CLEAR wait for the next start-up. A rank that the channel does not
have, or that is retired, is not retired again. -/
def State.writeRas (v : Dword) (s : State) : State :=
  let c : Fin 8 := BitVec.toFin (v.setWidth 3)
  let r : Fin 4 := BitVec.toFin ((v >>> 3).setWidth 2)
  let s := { s with deep := { s.deep with
    rasChan := c, rasRank := r, spareNext := v.getLsbD 6, clearNext := s.deep.clearNext || v.getLsbD 7 } }
  if v.getLsbD 5 && decide (r.val < s.deep.chans[c].ranks) && !s.deep.chans[c].out.getLsbD r.val then
    { s with deep := { s.deep with migrations := s.deep.migrations.filter (fun m => !(m.chan == c && m.rank == r)) } }.retireRank c r
  else s

/-- A DS_RAS value. -/
def rasWord (c : Fin 8) (r : Fin 4) (retire spare clear : Bool) : Dword :=
  dw (c.val + 8 * r.val + 32 * b2n retire + 64 * b2n spare + 128 * b2n clear)

/-- RANK_RETIRE (R276): DS_RAS with RETIRE and SPARE_EN as it stands. -/
def execRankRetire (c : Fin 8) (r : Fin 4) (g : GuardForm) (s : State) : Result :=
  .next (s.guardForm 0x90018 (rasWord c r true s.deep.spareNext false) g State.writeRas)

/-- SPARE_ENABLE (R276): DS_RAS with SPARE_EN, CHAN and RANK as they stand. -/
def execSpareEnable (on : Bool) (g : GuardForm) (s : State) : Result :=
  .next (s.guardForm 0x90018 (rasWord s.deep.rasChan s.deep.rasRank false on false) g State.writeRas)

/-- RETIRED_LIST_CLEAR (R276): DS_RAS with CLEAR, the other fields as they stand. -/
def execRetiredListClear (g : GuardForm) (s : State) : Result :=
  .next (s.guardForm 0x90018 (rasWord s.deep.rasChan s.deep.rasRank false s.deep.spareNext true) g State.writeRas)

/-! ### The BAR2 window (R286, R325, R342) -/

/-- The deep-store address of a window offset (R286). -/
def State.windowAddr (s : State) (off : Nat) : Nat := s.pcie.hwinBase * 2 ^ 30 + off

/-- Groups that an access touches. -/
def groupsOf (addr len : Nat) : Nat := (addr + len - 1) / 1024 - addr / 1024 + 1

/-- A window access that met a hole (R286): counted, and on P4 as refused, with WINHOLE. -/
def State.windowHole (s : State) (sub : Nat) : State := ((s.bump 0x5440 sub).bump 0x5434 3).setEvBit .ds 7

/-- WINDOW_READ (R286, R325, R342). -/
def execWindowRead (off : BitVec 36) (len : BitVec 13) (s : State) : Result :=
  if !(Instr.windowRead off len).wf then .fault .illFormed
  else
    let a := s.windowAddr off.toNat
    let n := len.toNat
    .next (if !s.pcie.answers then s.emit .unsupported
    else if s.deep.top ≤ a then (s.bump 0x6010 3).emit .unsupported
    else if s.deep.reachable a then (s.dsAccess 4 a false (groupsOf a n)).emit (.completion (memReadBlock s.dsMem a n))
    else (s.windowHole 7).emit (.completion (List.replicate n 0xFF)))

/-- A write of byte-enabled bytes at an address, dword by dword: whole dwords are stored, partial ones dropped and counted in
object 6010:04 (R325). -/
def State.windowStore (s : State) (a : Nat) (bytes : List (Option Byte)) : State :=
  (dwordsOf a bytes).foldl (fun s d =>
    match d.2 with
    | some v => { s with dsMem := memWriteBlock s.dsMem d.1 (leBytes 4 v.toNat) }
    | none => s.bump 0x6010 4) s

/-- WINDOW_WRITE (R286, R325, R342). -/
def execWindowWrite (off : BitVec 36) (bytes : List (Option Byte)) (s : State) : Result :=
  if !(Instr.windowWrite off bytes).wf then .fault .illFormed
  else
    let a := s.windowAddr off.toNat
    .next (if !s.pcie.answers then s.emit .unsupported
    else if s.deep.top ≤ a then
      { s with pcie := { s.pcie with
        aer := s.pcie.aer ++ [leBytes 8 off.toNat ++ leBytes 2 bytes.length], aerStatus := s.pcie.aerStatus ||| 0x100000 } }.bump 0x6010 2
    else if s.deep.reachable a then (s.dsAccess 4 a true (groupsOf a bytes.length)).windowStore a bytes
    else s.windowHole 8)

/-- The window base switches (R342). -/
def State.writeWindowBase (v : Dword) (s : State) : State :=
  { s with pcie := { s.pcie with hwinBase := v.toNat % 1024 } }.bump 0x6010 1

/-- WINDOW_BASE_WRITE (R342): DS_HWIN_BASE. Every earlier window command has taken effect under the old base. -/
def execWindowBaseWrite (v : Dword) (s : State) : Result := .next (s.onBar0 0x90020 (State.writeWindowBase v))

end Sys2Proof.Machine
end

