-- ==== Sys2Proof/Machine/BasinMap.lean ====
section
/-! DEFINITION. Where the units of a die's logical basin lie in its banks (R289, R290). Bank k of quadrant q has the number 16q + k. The
commands address the basin by logical unit; a destructive test asks this map for the units of its banks (R297). -/

namespace Sys2Proof.Machine

/-- The home quadrant: the highest with a bank in service (R290). -/
def homeQuadrant (mask : BitVec 64) : Nat :=
  if mask >>> 48 != 0 then 3 else if mask >>> 32 != 0 then 2 else if mask >>> 16 != 0 then 1 else 0

/-- In-service banks of a mask. -/
def bankCount (mask : BitVec 64) : Nat := ((List.range 64).filter (fun i => mask.getLsbD i)).length

/-- In-service banks of the home quadrant (R290). -/
def homeBanks (mask : BitVec 64) : Nat :=
  ((List.range 16).filter (fun k => mask.getLsbD (16 * homeQuadrant mask + k))).length

/-- The in-service banks in stripe order: bank k of quadrant q stands at position 4k + q (R290). -/
def stripeBanks (mask : BitVec 64) : List Nat := ((List.range 64).map (fun p => 16 * (p % 4) + p / 4)).filter mask.getLsbD

/-- The in-service banks of the home quadrant in ascending order. -/
def homeBankList (mask : BitVec 64) : List Nat := ((List.range 16).map (fun k => 16 * homeQuadrant mask + k)).filter mask.getLsbD

/-- The bank and slot of a position of the home quadrant (R290). -/
def homePosition (mask : BitVec 64) (p : Nat) : Nat × Nat :=
  ((homeBankList mask).getD (p % homeBanks mask) 0, p / homeBanks mask)

/-- The bank and slot are those of the last `u` positions of the home quadrant, where windows 1 and 2 lie (R290). -/
def inSmallWindows (mask : BitVec 64) (u : Nat) (x : Nat × Nat) : Bool :=
  let b := homeBankList mask
  decide (x.1 ∈ b) && decide (256 * b.length - u ≤ x.2 * b.length + b.idxOf x.1)

/-- The slots of banks, slot by slot. -/
def slotRows (banks : List Nat) : List (Nat × Nat) := (List.range 256).flatMap (fun s => banks.map (fun b => (b, s)))

/-- The places of window 0 in window order, with `u` units in windows 1 and 2: striped at ARMING; the home part and then the stripe of the
other quadrants for a watched die at WATCH entry (R290). -/
def windowPlaces (mask : BitVec 64) (u : Nat) (watched : Bool) : List (Nat × Nat) :=
  if watched then
    (List.range (256 * homeBanks mask - u)).map (homePosition mask) ++
      slotRows ((stripeBanks mask).filter (fun b => decide (b / 16 ≠ homeQuadrant mask)))
  else (slotRows (stripeBanks mask)).filter (fun x => !inSmallWindows mask u x)

/-- The bank and slot of each unit of the logical basin: window 0, then window 1, then window 2 (R290). -/
def basinPlaces (mask : BitVec 64) (u1 u2 : Nat) (watched : Bool) : List (Nat × Nat) :=
  windowPlaces mask (u1 + u2) watched ++
    (List.range (u1 + u2)).map (fun i => homePosition mask (256 * homeBanks mask - (u1 + u2) + i))

end Sys2Proof.Machine
end

