-- ==== Sys2Proof/Machine/Memory.lean ====
section
/-! DEFINITION. The commands of the on-chip memories (chapter 14): the march tests, repair, background testing and the host port
of the descriptor RAM. -/

namespace Sys2Proof.Machine

/-! ### Undefined contents -/

/-- `n` bytes of a memory from `a` on, those that `lost` names with free contents: what a destructive test leaves (R297). -/
def freeCells (lost : Nat → Bool) (m : Memory) (k : Nat) : Nat → Nat → Memory
  | _, 0 => []
  | a, n + 1 =>
    let b := if lost a then Config.freeByte k a else memRead m a
    if b = unlistedByte then freeCells lost m k (a + 1) n else (a, b) :: freeCells lost m k (a + 1) n

/-- The bytes of a die's basin (R289). -/
def basinBytes : Nat := 2 ^ 26

/-- A byte of a die's logical basin lies in a bank of a mask (R290), by the layout in force; where there is none, it may. -/
def State.inBanks (s : State) (d : Die) (mask : BitVec 64) (a : Nat) : Bool :=
  let w := s.dies[d].win
  match (basinPlaces w.laidMask w.win1.2 w.win2.2 w.laidHome)[a / 4096]? with
  | some x => mask.getLsbD x.1
  | none => true

/-- The banks that a destructive test has run over are left undefined (R297). -/
def State.scrambleBasin (s : State) (d : Die) (mask : BitVec 64) : State :=
  { s with basin := s.basin.set d (freeCells (s.inBanks d mask) s.basin[d] s.fresh 0 basinBytes) }.drawn

/-! ### The algorithms (R297) -/

/-- An access of a march element: read or write of the background (false) or its complement (true). -/
inductive MarchOp where
  | r (complement : Bool)
  | w (complement : Bool)
  deriving DecidableEq, Repr

/-- The elements of March C− and March SS, each with whether it visits words downwards. -/
def marchElements (sophisticated : Bool) : List (Bool × List MarchOp) :=
  if sophisticated then
    [(false, [.w false]), (false, [.r false, .r false, .w false, .r false, .w true]),
     (false, [.r true, .r true, .w true, .r true, .w false]), (true, [.r false, .r false, .w false, .r false, .w true]),
     (true, [.r true, .r true, .w true, .r true, .w false]), (false, [.r false])]
  else
    [(false, [.w false]), (false, [.r false, .w true]), (false, [.r true, .w false]), (true, [.r false, .w true]),
     (true, [.r true, .w false]), (false, [.r false])]

/-- Accesses per word of one run. -/
def marchAccesses (sophisticated : Bool) : Nat := ((marchElements sophisticated).map (fun e => e.2.length)).sum

/-- Words of a test that are visited one after another: of the fullest quadrant of the tested banks, otherwise of one bank (R289, R298). -/
def marchWords (target : Nat) (mask : BitVec 64) : Nat :=
  if target ≤ 1 then
    16384 * ((List.range 4).map (fun q => ((List.range 16).filter (fun k => mask.getLsbD (16 * q + k))).length)).foldl max 0
  else 2048

/-- The cycle of the engine of a target: 1.6 ns, 4 ns and 1 ns (R289). -/
def marchCycle (target : Nat) : Nat := if target ≤ 1 then 512 else if target ≤ 3 then 1280 else 320

/-- The least time of a requested test (R297): its accesses, with two more per word in preserving mode. -/
def March.time (m : March) (banks : BitVec 64) : Nat :=
  let perWord := marchAccesses m.sophisticated * m.backgrounds + if m.preserving then 2 else 0
  marchWords m.target (m.mask &&& banks) * perWord * marchCycle m.target

/-! ### Acceptance (R299) -/

/-- The die of a test target, if it belongs to one. -/
def targetDie (t : Nat) : Option Die :=
  match t with
  | 0 => some 0
  | 1 => some 1
  | 2 => some 0
  | 3 => some 1
  | _ => none

/-- A basin test of a die may start (R299). -/
def State.basinTestOk (s : State) (d : Die) (preserving : Bool) : Bool :=
  s.hasDie d && s.isOn && s.genStopped d && s.chip.test.isNone &&
    (match s.dies[d].state with
      | .idle => preserving || !s.gens[d].cacheValid
      | .sealed => preserving
      | .arming => false
      | .prefill => false
      | .armed => false
      | .postfill => false)

/-- The command is accepted for a target and a mode (R299). One requested test runs at a time. -/
def State.testOk (s : State) (target : Nat) (preserving : Bool) : Bool :=
  match target with
  | 0 => s.basinTestOk 0 preserving
  | 1 => s.basinTestOk 1 preserving
  | 2 => s.chip.test.isNone && decide (s.dies[0].state = .idle)
  | 3 => s.chip.test.isNone && s.hasDie 1 && decide (s.dies[1].state = .idle)
  | _ => s.chip.test.isNone

/-- The test starts: status RUNNING, the counts of the last test cleared. -/
def State.beginTest (s : State) (target : Nat) (preserving : Bool) : State :=
  let m : March :=
    { target := target, sophisticated := s.objBool 0x5801 2, preserving := preserving, backgrounds := s.objNat 0x5801 4,
      mask := BitVec.ofNat 64 (s.objNat 0x5801 5), since := s.now }
  ({ s with chip := { s.chip with test := some m, testStatus := 1 } }.putNat 0x5801 8 0).putNat 0x5801 9 0

/-- A requested test (R299): accepted, or REFUSED and counted as an ignored operation. A trigger RAM test is always destructive;
a test of a hub memory preserves. -/
def State.commandTest (s : State) (via : Source) : State :=
  let t := s.objNat 0x5801 1
  let asked := s.objBool 0x5801 3
  let preserving := if t = 2 ∨ t = 3 then false else if 4 ≤ t then true else asked
  if s.testOk t preserving then
    let s := if 4 ≤ t ∧ asked = false then s.clampOp (0x5801, 3) 5 via 0 1 else s
    s.beginTest t preserving
  else { s with chip := { s.chip with testStatus := 4 } }.ignoreOp (0x5801, 6) via .state

/-- A BOOL command takes 1: another value but 0 is 1, and 0 is clamped to it (R346, R350). -/
def State.commandClamp (s : State) (idx sub : Nat) (v : Nat) (via : Source) : State :=
  if v = 0 then s.clampOp (idx, sub) 0 via 0 1 else s

/-- MARCH_TEST_COMMAND (R299): object 5801:06. -/
def execMarchTestCommand (v : Byte) (via : Source) (s : State) : Result :=
  .next (s.onPath via fun s => (s.commandClamp 0x5801 6 v.toNat via).commandTest via)

/-! ### Repair (R300, R301) -/

/-- MRAM holds repair maps (R400). -/
def State.keepMaps (s : State) : State := { s with mram := { s.mram with present := s.mram.present ||| 64 } }

/-- A basin bank leaves the in-service mask; a bank of the home quadrant clears cache valid (R301). -/
def State.basinBankOut (s : State) (d : Die) (bank : Nat) : State :=
  let was := s.chip.bankMask[d]
  let s := { s with chip := { s.chip with bankMask := s.chip.bankMask.set d (was &&& ~~~(BitVec.ofNat 64 (2 ^ bank))) } }.keepMaps
  if bank / 16 = homeQuadrant was then s.withGen d (fun g => { g with cacheValid := false }) else s

/-- A bank leaves service with a BANK_OUT entry (R298, R301): a basin bank shortens its basin, a hub memory makes the part unusable.
Memories are numbered as object 5801:01. -/
def State.bankOut (s : State) (mem : Nat) (f : MarchFault) : State :=
  let s := s.bb 0x0071 2 (leBytes 1 mem ++ leBytes 1 f.bank ++ leBytes 2 f.row)
  match mem with
  | 0 => s.basinBankOut 0 f.bank
  | 1 => s.basinBankOut 1 f.bank
  | _ => { s with chip := { s.chip with unusable := true }, power := { s.power with ready := false } }

/-- Spare rows used in the bank of a memory. -/
def OnChip.used (c : OnChip) (mem bank : Nat) : Nat :=
  match mem with
  | 0 => (mget bank c.spares[0]).getD 0
  | 1 => (mget bank c.spares[1]).getD 0
  | 4 => c.padSpares.toList.getD bank 0
  | _ => c.ramSpares

/-- Spare rows of a bank (R289). -/
def spareLimit (mem : Nat) : Nat := if mem ≤ 1 then 8 else 4

/-- The count of spare rows used in a bank, replaced. -/
def OnChip.setUsed (c : OnChip) (mem bank n : Nat) : OnChip :=
  match mem with
  | 0 => { c with spares := c.spares.set 0 (mput bank n c.spares[0]) }
  | 1 => { c with spares := c.spares.set 1 (mput bank n c.spares[1]) }
  | 4 => { c with padSpares := c.padSpares.set (bank % 8) n }
  | _ => { c with ramSpares := n }

/-- A failing row (R300, R301): mapped to the first spare that passes its retest, with ROW_REPAIRED; without one left its bank
leaves service. Answers whether it was repaired. -/
def State.repairRow (s : State) (mem : Nat) (f : MarchFault) : State × Bool :=
  let n := s.chip.used mem f.bank + f.badSpares + 1
  if n ≤ spareLimit mem then
    (({ s with chip := s.chip.setUsed mem f.bank n }.bb 0x0070 1 (leBytes 1 mem ++ leBytes 1 f.bank ++ leBytes 2 f.row)).keepMaps, true)
  else ({ s with chip := s.chip.setUsed mem f.bank (spareLimit mem) }.bankOut mem f, false)

/-- A fault found in a requested test: repaired and counted, or its bank out and counted (R300, R301). A bank that the run does not
test, or that is out already, has none; the trigger RAM has no spare rows and no bank to leave service. -/
def State.testFault (m : March) (s : State) (f : MarchFault) : State :=
  let tested := match targetDie m.target with
    | some d => decide (m.target ≤ 1) && m.mask.getLsbD f.bank && s.chip.bankMask[d].getLsbD f.bank
    | none => decide (f.bank < 8)
  if tested then
    let r := s.repairRow m.target f
    if r.2 then r.1.bump 0x5801 8 else r.1.bump 0x5801 9
  else s

/-- A test ends with a status (R299, R305). -/
def State.endTest (s : State) (status : Nat) : State :=
  { s with chip := { s.chip with test := none, testStatus := status } }.put 0x5801 0x0A (.num s.time.toNat)

/-- The banks in service of the basin under test. -/
def State.testBanks (s : State) (m : March) : BitVec 64 := if m.target = 1 then s.chip.bankMask[1] else s.chip.bankMask[0]

/-- MARCH_TEST_DONE (R297, R300, R301): once its accesses have had their time: repairs, lost banks, DONE. A destructive basin run leaves the basin undefined; a
trigger RAM is loaded again from the objects (R299). -/
def execMarchTestDone (faults : List MarchFault) (s : State) : Result :=
  .next (match s.chip.test with
    | none => s
    | some m =>
      if s.frozenFull || (s.frozen && decide (m.target ≤ 3)) || decide (s.now < m.since + m.time (s.testBanks m)) then s
      else
      let s := faults.foldl (State.testFault m) s
      let s := match targetDie m.target with
        | some d => if m.target ≤ 1 then if m.preserving then s else s.scrambleBasin d m.mask else s.loadTrigRam d
        | none => s
      s.endTest 2)

/-- A running requested test is ended from outside (R299, R304): ABORTED. A destructive basin run has left the basin undefined. -/
def State.abortTest (s : State) : State :=
  match s.chip.test with
  | none => s
  | some m =>
    let s := match targetDie m.target with
      | some d => if m.target ≤ 1 then if m.preserving then s else s.scrambleBasin d m.mask else s.loadTrigRam d
      | none => s
    s.endTest 3

/-! ### Background testing (R302, R303) -/

/-- Blocks of one pass: 2,048 of the scratchpad, then 256 of the descriptor RAM (R302). -/
def blockCount : Nat := 2304

/-- The next block is borrowed; a pass that ends is counted (R302). -/
def State.nextBlock (s : State) : State :=
  let n := s.chip.block + 1
  let s' := { s with chip := { s.chip with block := n % blockCount, aborts := 0, touched := false } }
  if n = blockCount then s'.bump 0x5820 5 else s'

/-- A failing row of the borrowed block: counted and repaired (R302). -/
def State.blockFault (s : State) (f : MarchFault) : State :=
  ((s.bump 0x5820 7).repairRow (if s.chip.block < 2048 then 4 else 5) f).1

/-- BACKGROUND_TEST_STEP (R302, R303): at a pace interval the borrowed block has been tested, and the next is borrowed. A block whose
step was aborted is retried, and skipped after sixteen aborts in a row. -/
def execBackgroundTestStep (faults : List MarchFault) (s : State) : Result :=
  .next (if s.backgroundRuns ∧ s.chip.stepAt + us (s.objNat 0x5820 4) ≤ s.now then
    let s := { s with chip := { s.chip with stepAt := s.now } }
    if s.chip.touched then
      if 16 ≤ s.chip.aborts then s.nextBlock else { s with chip := { s.chip with touched := false } }
    else (faults.foldl State.blockFault s).nextBlock
  else s)

/-! ### The host port of the descriptor RAM (R293 to R295) -/

/-- The offset of the ODM_ block in BAR0 (R293). -/
def odmBase : Nat := 0x60000

/-- One dword of a host write: whole dwords outside the HKC area are stored and count as BAR0 writes for the guard (R293, R373,
R378); MB_REQ submits the mailbox's request (R365). -/
def State.ramDword (s : State) (d : Nat × Option Dword) : State :=
  match d.2 with
  | none => s.partialDword
  | some v =>
    if 0xC000 ≤ d.1 then s.hkcAreaDword
    else
      let s := (s.interrupt (odmBase + d.1)).touchRam d.1 4
      let s := s.ramStore d.1 (leBytes 4 v.toNat)
      if d.1 = 0 then s.mbSubmit else s

/-- What a dword held before the HKC port wrote it in the cycle of this access, where the access names it as such a dword (R294). The HKC port wrote
it at this very moment; that it was the same cycle, the operand says (assumption 92). -/
def State.clashOld (s : State) (clash : List Nat) (off : Nat) : Option Nat :=
  if s.chip.portAt = s.now ∧ clash.contains off then (s.chip.port.find? (fun x => decide (x.1 = off))).map Prod.snd else none

/-- Both ports write one dword in one cycle (R294): the host's value stands, and different data are counted. -/
def State.ramClash (clash : List Nat) (s : State) (d : Nat × Option Dword) : State :=
  match d.2, s.clashOld clash d.1 with
  | some v, some _ => if v.toNat = s.ramWord d.1 ∨ 0xC000 ≤ d.1 then s else s.bump 0x5830 1
  | _, _ => s

/-- A host write of the ODM_ block, dword by dword. -/
def State.ramWrite (s : State) (off : Nat) (w : RamBytes) : State :=
  let s := (dwordsOf off w.bytes).foldl (fun s d => (s.ramClash w.clash d).ramDword d) s
  { s with chip := { s.chip with flaws := s.chip.flaws ++ w.flaws } }

/-- DESCRIPTOR_RAM_HOST_WRITE (R293, R303). -/
def execDescriptorRamHostWrite (off : BitVec 16) (w : RamBytes) (s : State) : Result :=
  if !(Instr.descriptorRamHostWrite off w).wf then .fault .illFormed
  else .next (if s.pcie.answers then s.ramWrite off.toNat w else s.emit .unsupported)

/-- What the host port reads: the bytes, and zero in the HKC working area (R293). -/
def State.ramRead (s : State) (off len : Nat) : List Byte :=
  (List.range len).map (fun i => if 0xC000 ≤ off + i then 0 else memRead s.ram (off + i))

/-- What the host port reads where the HKC port writes dwords in the same cycle: those as they were before (R294). -/
def State.ramReadWith (s : State) (clash : List Nat) (off len : Nat) : List Byte :=
  let before := fun (m : Memory) (a : Nat) =>
    match s.clashOld clash a with
    | some v => memWriteBlock m a (leBytes 4 v)
    | none => m
  { s with ram := clash.foldl before s.ram }.ramRead off len

/-- DESCRIPTOR_RAM_HOST_READ (R293 to R295): an uncorrectable dword is returned as stored. -/
def execDescriptorRamHostRead (off : BitVec 16) (len : BitVec 13) (met : RamMeets) (s : State) : Result :=
  if !(Instr.descriptorRamHostRead off len met).wf then .fault .illFormed
  else .next (if s.pcie.answers then
    let s := { s with chip := { s.chip with flaws := s.chip.flaws ++ met.ecc } }
    let s := (s.touchRam off.toNat len.toNat).meetFlaws off.toNat len.toNat
    s.emit (.completion (s.ramReadWith met.clash off.toNat len.toNat))
  else s.emit .unsupported)

end Sys2Proof.Machine
end

