-- ==== Sys2Proof/Machine/ArmOps.lean ====
section
/-! DEFINITION. ARMING (R121 to R125): the eye finder's end, the basin windows, the thermal prediction, the deep-store budget
and the admission of a plan. -/

namespace Sys2Proof.Machine

/-! ### The eye finder and its end (R39, R40) -/

/-- The eye finder ends with a status; the threshold codes are those the host wrote (R38, R40). -/
def State.endEye (s : State) (status : Nat) : State :=
  let f := fun (d : DieSt) => { d with fe := { d.fe with eye := none } }
  (((s.withDie 0 f).withDie 1 f).putNat 0x2071 0 status).restSpll 0 |>.restSpll 1

/-- The eye finder runs. -/
def State.eyeRunning (s : State) : Bool := s.dies[0].fe.eyeRunning || s.dies[1].fe.eyeRunning

/-! ### Idle checks (R43) -/

/-- The temperature of a die in m°C: the highest of its sensors (R405). -/
def State.dieTemp (s : State) (d : Die) : Int :=
  ((s.health.sensors.toList.drop (4 + 8 * d.val)).take 8).foldl max (-40000)

/-- An idle check of a die that has run its time ends (R43): re-trims counted, the deskew's temperature kept. -/
def State.endCheck (s : State) (d : Die) : State :=
  match s.dies[d].check with
  | some c =>
    if c.ends ≤ s.now ∧ !s.frozen then
      let s := s.withDie d (fun x => { x with check := none, deskewTemp := c.deskew.getD x.deskewTemp })
      (s.bumpBy 0x2062 0 ((c.drift.map Prod.fst).getD 0)).restSpll d
    else s
  | none => s

/-- An idle check that still runs is broken off (R43): the trims before it stand, and the work is due again from now on (DESIGN CHOICE,
assumption 77). -/
def State.breakCheck (s : State) (d : Die) : State :=
  let s := s.endCheck d
  match s.dies[d].check with
  | some c =>
    ((s.withDie d (fun x => { x with check := none, driftAt := (c.drift.map Prod.snd).getD x.driftAt })).makeDue (dieTask d)).restSpll d
  | none => s

/-! ### Basin windows (R128, R290) -/

/-- The cells of a range moved to another base: the loop cache keeps its place in the banks (R254, R290). -/
def moveCells (m : Memory) (from_ to_ len : Nat) : Memory :=
  if from_ = to_ then m else memWriteBlock m to_ (memReadBlock m from_ len)

/-- The windows of a die's basin are laid out, their wraps counted afresh (R128, R290): window 0 from unit 0, then windows 1
and 2. `home`: the home part alone takes barges for now (R116). -/
def State.layout (s : State) (d : Die) (home : Bool) : State :=
  let mask := s.chip.bankMask[d]
  let total := 256 * bankCount mask
  let u1 := if s.objBool (0x3860 + d.val) 1 then 8 else 0
  let u2 := 16 * s.objNat (0x5040 + d.val) 1
  let size := total - u1 - u2
  let old := s.dies[d].win.win2
  let s := if old.2 = u2 then
      { s with basin := s.basin.set d (moveCells s.basin[d] (old.1 * 4096) ((size + u1) * 4096) (u2 * 4096)) } else s
  s.withDie d (fun x => { x with win := { Window.reset with
    size := size, laidMask := mask, laidHome := home, reserve := 64, win1 := (size, u1), win2 := (size + u1, u2),
    homeLimit := if home then some (256 * homeBanks mask - u1 - u2) else none } })

/-! ### The thermal prediction (R406) -/

/-- The scale of the fixed-point logarithm. -/
def lnScale : Nat := 2 ^ 96

/-- The sum of z^(2k+1) ÷ (2k+1) over `n` terms, z and the sum scaled; `pw` is z^(2k+1). -/
def atanhSum (z : Nat) : Nat → Nat → Nat → Nat
  | 0, _, _ => 0
  | n + 1, k, pw => pw / (2 * k + 1) + atanhSum z n (k + 1) (pw * z / lnScale * z / lnScale)

/-- Twice the inverse hyperbolic tangent of a ÷ b, scaled: the logarithm of (b + a) ÷ (b − a). -/
def lnPart (a b : Nat) : Nat := let z := a * lnScale / b; 2 * atanhSum z 48 0 z

/-- The natural logarithm of n ÷ m, for n ≥ m > 0, scaled. -/
def lnRatio (n m : Nat) : Nat :=
  let k := (n / m).log2
  k * lnPart 1 3 + lnPart (n - m * 2 ^ k) (n + m * 2 ^ k)

/-- The longest time in ns for which the prediction stays at or below the limit; none when unlimited (R406). Powers in mW,
θ in m°C/W, temperatures in m°C, τ in ms. -/
def longest (p p0 theta tau : Nat) (limit tj : Int) : Option Nat :=
  if limit ≤ tj then some 0
  else
    let rise := (p - p0) * theta
    let room := (limit - tj).toNat * 1000
    if rise ≤ room then none else some (tau * 1000000 * lnRatio rise (rise - room) / lnScale)

/-- The hottest sensor's reading (R405). -/
def State.hottest (s : State) : Int :=
  (s.health.sensors.toList.take (if s.variant = .c1024 then 12 else 20)).foldl max (-40000)

/-- The thermal check of ARMING (R406, R407): the predicted power and the longest duration are published. The power model is
the part's own, and its two powers are free values up to 190 W (assumption 5). -/
def State.thermal (s : State) : State × Option Nat :=
  let p0 := s.nextNat % 190001
  let s := s.drawn
  let p := s.nextNat % 190001
  let s := s.drawn.putNat 0x7040 1 p
  let limit := s.tempLimit 1
  let tj := if s.health.limitHold.isSome then max limit s.hottest else s.hottest
  let d := longest p p0 (s.objNat 0x7400 2) (s.objNat 0x7400 3) limit tj
  (s.putNat 0x7400 5 (d.getD (2 ^ 64 - 1)), d)

/-! ### The deep-store budget (R111) -/

/-- The refill rate that a generator takes from the budget: READY, RUNNING or WAITING (R253). -/
def Gen.deducts (g : Gen) : Nat :=
  match g.state with
  | .ready => g.planned
  | .running => g.planned
  | .waiting => g.planned
  | .stopped => 0
  | .priming => 0
  | .ending => 0

/-- The budget in bytes per second: ingest less the readout reserve and the planned refill, never below 0. -/
def State.dsBudget (s : State) : Rat :=
  let refill := s.gens[0].deducts + s.gens[1].deducts
  max 0 (s.deep.ingest - ((s.objNat 0x3820 1 + refill : Nat) : Rat) * 1000000)

/-- What the capture of the other die takes from the budget: one that is open, or past its admission in ARMING. -/
def State.otherRate (s : State) (d : Die) : Rat :=
  match s.dies[otherDie d].state with
  | .idle => 0
  | .sealed => 0
  | .arming | .prefill | .armed | .postfill => s.dies[otherDie d].plan.rate

/-- A rate in MB/s, rounded down. -/
def toMB (r : Rat) : Nat := (r / 1000000).floor.toNat

/-! ### Steps 1 and 2: the plan and its admission (R121, R124, R125, R139) -/

/-- The dies that an ARM to die `d` arms. -/
def State.armSet (s : State) (d : Die) : List Die := if s.objBool 0x3930 1 then [0, 1] else [d]

/-- One clamp of ARMING, made by the part. -/
def State.armClamp (s : State) (c : ClampReq) : State := s.clampOp (c.index, c.sub) c.reason .part c.requested c.applied

/-- The checks' quantities for the plans of the dies armed together (R124, R139). -/
def State.admitCtx (s : State) (plans : List (Die × Plan)) (lead : Plan) (limit : Option Nat) : AdmitCtx :=
  let rate := plans.foldl (fun m x => max m (planRate s.objs x.1 x.2)) 0
  let p := plans.foldl (fun t x => t + x.2.rate) 0
  let b := match plans with
    | [(d, _)] => max 0 (s.dsBudget - s.otherRate d)
    | _ => s.dsBudget
  let ring := (plans.map (fun x => s.dies[x.1].win.room)).foldl min 16384
  { rate := rate, p := p, b := b, deep := lead.deep, cb := 4096 * (ring * plans.length),
    cd := 4096 * (s.deep.barges (lead.regionBase / 4096) lead.regionBarges - 64),
    limit := limit.map (fun d => ((d : Rat) * rate / 1000000000).floor.toNat) }

/-- The depth clamps that admission makes (R125): post-trigger depth first, then the weir. -/
def depthClamps (idx w q w' q' : Nat) : List ClampReq :=
  (if q' = q then [] else [{ index := idx, sub := 3, reason := 6, requested := q, applied := q' }]) ++
    (if w' = w then [] else [{ index := idx, sub := 2, reason := 6, requested := w, applied := w' }])

/-- The plans of the dies armed together, with every clamp of step 1 in the report (R121 step 1). -/
def State.readPlans (s : State) (ds : List Die) : State × List (Die × Plan) :=
  ds.foldl (fun (q : State × List (Die × Plan)) d =>
    let x := readPlan q.1.objs d (decide (ds.length = 2)) q.1.deep.capacityMiB
    (x.2.foldl State.armClamp q.1, q.2 ++ [(d, x.1)])) (s, [])

/-- Admission (R124, R125): the plans with the depths, the clamps and the budget that apply, or none (CAPACITY), as for a basin with no
bank in service (R301). -/
def State.admitPlans (s : State) (ds : List Die) : State × Option (List (Die × Plan)) :=
  let s := ds.foldl (fun s d => s.layout d false) s
  let (s, plans) := s.readPlans ds
  let lead := (plans.headD (0, .reset)).2
  let idx := 0x3900 + (ds.headD 0).val
  let (s, limit) := s.thermal
  let c := s.admitCtx plans lead limit
  let s := s.putNat 0x3820 2 (toMB s.dsBudget)
  let s := plans.foldl (fun s x => s.putNat (0x3822 + x.1.val) 1 (toMB x.2.rate)) s
  if ds.any (fun d => decide (s.chip.bankMask[d] = 0)) then (s, none)
  else match admission c lead.weir lead.depth (s.objNat idx 4) (s.objNat idx 5) with
  | none => (s, none)
  | some (w, q) =>
    let more := depthClamps idx lead.weir lead.depth w q
    let all := plans.flatMap (fun x => x.2.clamps) ++ more
    (more.foldl State.armClamp s, some (plans.map (fun x => (x.1, { x.2 with
      weir := w, depth := q, budget := c.b, clamps := all, clamped := !all.isEmpty }))))

/-! ### ARMING -/

/-- ARMING of a die ends without a convoy (R118, R119): IDLE with a status, and the die's vector. A forced trigger that was held
is an ignored operation (R84). -/
def State.endArming (s : State) (d : Die) (status : Nat) : State :=
  let held := s.dies[d].stair.force
  let s := s.withDie d (fun x => { x with
    state := .idle, stair := { x.stair with force := false } })
  let s := if held then s.ignoreOp (regLoc (0x20910 + 0x10000 * d.val)) .bar0 .state else s
  ((s.putNat (0x3910 + d.val) 3 status).restSpll d).raise (BitVec.toFin (BitVec.ofNat 6 (4 + d.val)))

/-- A die takes its plan and enters ARMING (R118, R121): its sample PLL starts, and a calibration that is due runs, unless a watch
wake forbids it (R115). `took`: the time that steps 1 and 2 and the loads take. -/
def State.beginArming (s : State) (took : Nat) (calibrate : Bool) (s0 : State) (x : Die × Plan) : State :=
  let d := x.1
  let status := if x.2.clamped then 2 else 1
  let n := splLCount x.2.period
  let s1 := s0.startPll (spll d) n
  let run := calibrate && s.dies[d].calDue
  let s1 := if s0.clocks.plls[spll d].n = n then s1 else s1.markDieGauges d 5
  let late := if s1.clocks.plls[spll d].runs then 0 else us 2175
  let s1 := s1.withDie d (fun y => { y with
    state := .arming, closing := false, armAt := s.now, calRunning := y.calRunning || run,
    armTo := s.now + took + (if run then ms 80 else 0) + late, plan := x.2, stair := { y.stair with force := false } })
  let i := 0x3910 + d.val
  let s1 := if run then s1.putNat 0x2061 (5 + d.val) 0 else s1
  ((s1.putNat i 1 x.2.weir).putNat i 2 x.2.depth).putNat i 3 status

/-- An accepted arm request (R121): the eye finder and the idle checks of the dies end (R40, R43), the plan is checked and admitted, and ARMING runs, or ends with CAPACITY. -/
def State.arm (s : State) (ds : List Die) : State :=
  let s := if s.eyeRunning then s.endEye 3 else s
  let s := ds.foldl State.breakCheck s
  let s := s.abortTraining
  let s := match s.chip.test with
    | some m => if m.target ≤ 1 ∧ ds.any (fun d => decide (d.val = m.target)) then s.abortTest else s
    | none => s
  match s.admitPlans ds with
  | (s, none) => ds.foldl (fun s d => s.endArming d 3) s
  | (s, some plans) => plans.foldl (s.beginArming (us 200) true) s

/-- The ARM command (R119), with its place in the logs. One whose plan needs another f_base than a generator that is not STOPPED is ignored
(R248). -/
def State.armCommand (s : State) (d : Die) (loc : Nat × Nat) (via : Source) : State :=
  let ds := s.armSet d
  if !s.hasDie d then s
  else if ds.length = 2 ∧ d = 1 then s.ignoreOp loc via .state
  else if !s.power.ready then s.ignoreOp loc via .notReady
  else if !s.isOn then s.ignoreOp loc via .power
  else if ds.any (fun e => decide (s.dies[e].state ≠ .idle)) then s.ignoreOp loc via .state
  else if ds.any s.genHolds then s.ignoreOp loc via .state
  else s.arm ds

end Sys2Proof.Machine
end

