-- ==== Sys2Proof/Machine/CaptureViews.lean ====
section
/-! DEFINITION. The live objects of the capture dies (chapters 02 to 06): what a read of one gives where it shows state. -/

namespace Sys2Proof.Machine

/-- Whole hours in an interval, as a U32. -/
def hoursIn (t : Nat) : Nat := min (2 ^ 32 - 1) (t / sec 3600)

/-- A number. -/
def valNat (n : Nat) : Option Val := some (.num n)

/-- A flag. -/
def valBool (b : Bool) : Option Val := some (.num (b2n b))

/-- A yarn of a die is an output: CAPn_YDIR_k, mirrored in object 2032 (R31). -/
def State.yarnOut (s : State) (d : Die) (y : Nat) : Bool := (s.pins.yarnDir[d].toList.getD (y / 32) 0).getLsbD (y % 32)

/-- The drive of a yarn of a die: CAPn_YDRV_k, mirrored in object 2033 (R31). -/
def State.yarnDrv (s : State) (d : Die) (y : Nat) : Nat := bitsAt (2 * (y % 16)) 2 (s.pins.yarnDrive[d].toList.getD (y / 16) 0).toNat

/-- The age of a die's calibration in units of `now` (R42). -/
def State.calAge (s : State) (d : Die) : Nat := s.now - s.dies[d].cal.doneAt + s.dies[d].cal.extra

/-- Ages of the calibrations and whether the unpowered time is known (R42). -/
def State.viewAge (s : State) (sub : Nat) : Option Val :=
  match sub with
  | 7 => valNat (hoursIn (s.calAge 0))
  | 8 => valNat (hoursIn (s.calAge 1))
  | 9 => valBool s.tb.timeset
  | _ => none

/-- Base, size and wraps of a window of the basin (R128). -/
def Window.view (w : Window) (k logged : Nat) : Nat × Nat × Nat :=
  match k with
  | 0 => (w.base, w.size, w.wraps)
  | 1 => (w.win1.1, w.win1.2, logged / 4096)
  | 2 => (w.win2.1, w.win2.2, 0)
  | _ => (0, 0, 0)

/-- The windows of the basins (objects 3950 to 395F). -/
def State.viewWindow (s : State) (i sub : Nat) : Option Val :=
  let x := s.dies[Fin.ofNat 2 (i / 8)]
  let v := x.win.view (i % 8) x.watch.logged
  match sub with
  | 1 => valNat v.1
  | 2 => valNat v.2.1
  | 3 => valNat v.2.2
  | _ => none

/-- Capture (chapters 02 to 06). -/
def State.viewCapture (s : State) (idx sub : Nat) : Option Val :=
  match idx with
  | 0x2061 => s.viewAge sub
  | 0x3490 => if sub = 1 then valNat s.dies[0].stair.chamber else none
  | 0x3590 => if sub = 1 then valNat s.dies[1].stair.chamber else none
  | 0x2032 => valBool (s.yarnOut (Fin.ofNat 2 (sub / 128)) (sub % 128))
  | 0x2033 => valNat (s.yarnDrv (Fin.ofNat 2 (sub / 128)) (sub % 128))
  | _ => if 0x3950 ≤ idx ∧ idx < 0x3960 then s.viewWindow (idx - 0x3950) sub else none

end Sys2Proof.Machine
end

