-- ==== Sys2Proof/Machine/SealOps.lean ====
section
/-! DEFINITION. The sluice and the closing part of POSTFILL (R131, R135, R136): what the storage stage still holds, the deep
ring, and the last barge of each stream. -/

namespace Sys2Proof.Machine

/-- The dies of a convoy: both when it is coupled, otherwise the one (R139). -/
def State.convoyDies (s : State) (d : Die) : List Die := if s.dies[d].plan.coupled then [0, 1] else [d]

/-- The die whose deep region and directory a convoy uses: die 0 when it is coupled (R139). -/
def State.leadDie (s : State) (d : Die) : Die := if s.dies[d].plan.coupled then 0 else d

/-! ### The sluice (R130, R131) -/

/-- The byte address of a slot of a deep ring. -/
def Plan.deepAddr (p : Plan) (slot : Nat) : Nat := p.regionBase + slot * 4096

/-- The next slot of a deep region that is in service, from `slot` on, over one round of places (R130, R140). -/
def State.deepSlot (s : State) (p : Plan) (slot : Nat) : Option Nat :=
  ((List.range (s.deep.c * s.deep.mapRanks)).map (fun i => (slot + i) % p.regionBarges)).find?
    (fun x => s.deep.inService (p.deepAddr x / 4096))

/-- The barges that a deep ring may hold: those of its region in service, less the directory reserve (R124). -/
def State.deepRoom (s : State) (p : Plan) : Nat := s.deep.barges (p.regionBase / 4096) p.regionBarges - 64

/-- The oldest barge of a deep ring that the dies `ds` share, from the next slot on. -/
def State.deepOldest (s : State) (ds : List Die) (next n : Nat) : Option BargeMeta :=
  (ds.filterMap (fun d => s.dies[d].win.deep.head?)).foldl (fun (best : Option BargeMeta) m =>
    match best with
    | some b => if (m.slot + n - next) % n < (b.slot + n - next) % n then some m else best
    | none => some m) none

/-- Take the oldest deep barge of a die out of its ring: it is overwritten. -/
def State.deepDrop (s : State) (d : Die) : State :=
  s.withDie d (fun x => { x with win := { x.win with deep := x.win.deep.drop 1 } })

/-- Bytes of a barge written to a slot of the deep ring; the ring moves on (R130). -/
def State.deepPut (s : State) (lead : Die) (slot : Nat) (bytes : List Byte) : State :=
  let p := s.dies[lead].plan
  let w := s.dies[lead].win
  let end_ := decide (slot + 1 = p.regionBarges)
  let s := { s with dsMem := memWriteBlock s.dsMem (p.deepAddr slot) bytes }
  s.withDie lead (fun x => { x with win := { x.win with
    deepNext := if end_ then 0 else slot + 1, deepWraps := w.deepWraps + b2n (end_ || decide (slot < w.deepNext)) } })

/-- The deep ring has no free barge for the sluice of die `d` (R135): its sampling part ends with RING_FULL. -/
def State.deepStop (s : State) (d : Die) : State :=
  let s := s.withDie d (fun x => { x with win := { x.win with deepFull := true } })
  s.endDie d .ringFull

/-- A barge of window 0 of die `d` is copied to a slot of its deep ring, and window 0 keeps the barges `ring`. The read takes its part of
the home part's bandwidth (R123). -/
def State.moveBarge (s : State) (d : Die) (m : BargeMeta) (slot : Nat) (ring : List BargeMeta) : State :=
  let bytes := memReadBlock s.basin[d] ((s.dies[d].win.base + m.slot) * 4096) 4096
  let s := (s.deepPut (s.leadDie d) slot bytes).dsGroups ⟨d.val, by omega⟩ 4
  s.withDie d (fun x => { x with win := { x.win.useShare x.convoy.pos with
    ring := ring, deep := x.win.deep ++ [{ m with slot := slot }] } })

/-- The sluice of die `d` moves its oldest queued barge (R131); none while it has nothing to move, its place cannot be reached, or
the deep ring took no more. -/
def State.sluiceOne (s : State) (d : Die) : Option State :=
  let lead := s.leadDie d
  let ds := s.convoyDies d
  let p := s.dies[lead].plan
  let w := s.dies[d].win
  let next := s.dies[lead].win.deepNext
  match w.ring with
  | [] => none
  | m :: rest =>
    match s.deepSlot p next with
    | none => none
    | some slot =>
      if !w.sluicing || w.deepFull || !s.deep.reachable (p.deepAddr slot) then none
      else
        let held := (ds.map (fun e => s.dies[e].win.deep.length)).sum
        let old := if held < s.deepRoom p then none else s.deepOldest ds next p.regionBarges
        let stuck := match old with
          | some m0 => isProtected s.dies[m0.die] m0
          | none => decide (s.deepRoom p ≤ held)
        if stuck then some (s.deepStop d)
        else
          let s := match old with
            | some m0 => s.deepDrop m0.die
            | none => s
          some (s.moveBarge d m slot rest)

/-- The die of `ds` whose oldest queued barge closed first (R139); of two that closed together, the first in `ds`. -/
def State.nextToMove (s : State) (ds : List Die) : Option Die :=
  let closed := fun (d : Die) => ((s.dies[d].win.ring.head?).map BargeMeta.closed).getD 0
  (ds.filter (fun d => s.dies[d].win.sluicing && !s.dies[d].win.deepFull && !s.dies[d].win.ring.isEmpty)).foldl
    (fun (best : Option Die) d => match best with
      | some b => if closed d < closed b then some d else best
      | none => some d) none

/-- The sluice moves up to `n` barges of the dies `ds`, in closing order (R136, R139). -/
def State.sluiceAll (s : State) (ds : List Die) : Nat → State
  | 0 => s
  | n + 1 => match (s.nextToMove ds).bind s.sluiceOne with
    | some t => t.sluiceAll ds n
    | none => s

/-- An event barge that closed after storage had ended (R135). -/
def DieSt.lateEvent (x : DieSt) (m : BargeMeta) : Bool := decide (m.stream = 0xFF ∧ x.store.eventEnd ≤ m.seq)

/-- Such a barge goes into the directory reserve of the deep ring, ahead of the directory (R135). -/
def State.reserveMove (d : Die) (s : State) (m : BargeMeta) : State :=
  let lead := s.dies[s.leadDie d]
  match s.deepSlot lead.plan lead.win.deepNext with
  | none => s
  | some slot =>
    if s.deep.reachable (lead.plan.deepAddr slot) then
      s.moveBarge d m slot (s.dies[d].win.ring.filter (fun y => decide (y ≠ m)))
    else s

/-- A deep ring that takes no more takes the late event barges of die `d` into its reserve (R135). -/
def State.reserveEvents (s : State) (d : Die) : State :=
  let x := s.dies[d]
  if x.win.sluicing && x.win.deepFull then (x.win.ring.filter x.lateEvent).foldl (State.reserveMove d) s else s

/-! ### Step 1 of R136: the storage stage closes every open barge -/

/-- The end of the convoy's storage as a sample: the instant after the last stored one (R104, R106). -/
def Run.endAt (r : Run) : SampleAt :=
  let c := r.die.convoy
  { s := c.lastStored + 1, pos := c.endPos + r.die.plan.period, prevPos := c.endPos, latch := c.openAt + c.endPos,
    prevLatch := c.openAt + c.endPos, acc := c.endAcc + r.die.plan.period * r.inc,
    time := accTime (c.endAcc + r.die.plan.period * r.inc) }

/-- A strand stream closes before the sample `e`: encoder and skipped run go into its barges, and its open barges close. -/
def Run.closeStrand (e : SampleAt) (r : Run) (id : Nat) : Run :=
  let r := r.flushHeld e (id % 8)
  let r := r.drain id (r.stream id).encoder.length
  let r := r.flushSkip e id
  (r.closeOpen id false).closeOpen id true

/-- A group stream closes before the sample `e`: its shortened last interval (R104), its skipped run (R106), its open barge. -/
def Run.closeGroup (e : SampleAt) (r : Run) (g : EnvGroup) : Run :=
  let id := 0x40 + g.g
  let last := { e with s := e.s - 1 }
  let r := if e.s % r.die.plan.envN = 0 then r else r.endInterval last e.pos e.time g
  (r.flushEnv e g).closeOpen id false

/-- Every strand or group stream of the plan closes, before the sample `e`. -/
def Run.closeStreams (r : Run) (e : SampleAt) : Run :=
  let js := (List.range 8).filter (fun j => r.die.plan.strands.getLsbD j)
  if r.die.plan.mode = 2 then r.die.plan.envGroups.foldl (Run.closeGroup e) r
  else js.foldl (fun r j => r.closeStrand e (8 * r.d.val + j)) r

/-- The final snapshot (R79, R161): its four records stand last in the event stream, behind an entry snapshot or a phase offset that still
waits, and it is kept in objects 34A0. They follow no event record; a barge that begins with them is anchored at the time of the die's
last sample (DESIGN CHOICE, assumption 73). -/
def Run.finalSnap (r : Run) : Run :=
  let c := r.die.convoy
  let r := (r.settleEntry c.nextSample c.pos).rephaseAlone r.here
  let idx := r.die.stair.snaps
  (r.putSnap .trigger idx (snapValues r.die.stair c.pos) c.lastTime (c.nextSample - 1)).withStair (fun st => { st with snaps := st.snaps + 1 })

/-- Event records into event barges after storage has ended: a full barge without room goes into the reserve (R133, R135). -/
def Run.sealEvents (r : Run) : Nat → Run
  | 0 => r
  | n + 1 =>
    let r := match r.die.store.eventOpen with
      | some b => if b.room false then r else r.storeEventBarge b
      | none => r
    if r.die.store.events.isEmpty then r else r.drainEvent.sealEvents n

/-- Step 1 of the closing part (R136). -/
def Run.closeAll (r : Run) : Run :=
  let r := r.closeStreams r.endAt
  let r := r.finalSnap
  let r := r.sealEvents (r.die.store.events.length + 1)
  match r.die.store.eventOpen with
  | some b => r.storeEventBarge b
  | none => r

/-! ### CLOCK_FAULT in the last barges (R140, R147) -/

/-- The end causes whose last barges carry CLOCK_FAULT. -/
def faultCause : EndCause → Bool
  | .clockFault => true
  | .reset => true
  | .depth | .stop | .ringFull | .thermal => false

/-- The kept barges of a die that are the last of their streams. -/
def DieSt.lastBarges (d : DieSt) (m : BargeMeta) : Bool :=
  (d.win.deep ++ d.win.ring).all (fun y => decide (y.stream ≠ m.stream ∨ y.seq ≤ m.seq))

/-- Where the end cause asks for it, the last kept barge of every stream of a die carries CLOCK_FAULT, in window 0 and in the deep
store. -/
def State.markFault (s : State) (d : Die) : State :=
  let x := s.dies[d]
  if !faultCause x.convoy.endCause then s else
  let p := s.dies[s.leadDie d].plan
  let flag := fun (m : BargeMeta) => if x.lastBarges m then { m with flags := withFlag m.flags flagClockFault true } else m
  let basin := (x.win.ring.filter x.lastBarges).foldl
    (fun mem m => patchFlag mem ((x.win.base + m.slot) * 4096) flagClockFault) s.basin[d]
  let ds := (x.win.deep.filter x.lastBarges).foldl (fun mem m => patchFlag mem (p.deepAddr m.slot) flagClockFault) s.dsMem
  { s with basin := s.basin.set d basin, dsMem := ds }.withDie d (fun y => { y with win := { y.win with
    ring := y.win.ring.map flag, deep := y.win.deep.map flag } })

/-- Step 1 of the closing part on a die of a convoy, with its final values published (R79, R136). -/
def State.closeDie (s : State) (d : Die) : State :=
  let vals := snapValues s.dies[d].stair s.dies[d].convoy.pos
  let s := s.runDie d Run.closeAll
  vals.zipIdx.foldl (fun s v => s.putNat (0x34A0 + 0x100 * d.val) (1 + v.2) v.1) s

end Sys2Proof.Machine
end

