-- ==== Sys2Proof/Machine/DirOps.lean ====
section
/-! DEFINITION. The convoy directory (R137, R162 to R164): its entries, its barges, its place after the convoy's last barge. -/

namespace Sys2Proof.Machine

/-! ### Object records (R164) -/

/-- An object record: index, subindex, type code, value. -/
def objRecord (t : OType) (idx sub : Nat) (v : Val) : List Byte :=
  let body := match t.size with
    | some _ => valBytes t v
    | none => leBytes 2 v.byteList.length ++ v.byteList
  leBytes 2 idx ++ leBytes 1 sub ++ leBytes 1 t.code ++ body

/-- An object is part of a plan: it has a value that reads (R163). A write-only object has none. -/
def OAcc.isPlan : OAcc → Bool
  | .rw => true
  | .rwi => true
  | .g => true
  | .const => true
  | .ro => true
  | .wo | .w1 => false

/-- The object ranges of the PLAN entry (R163). -/
def planIndex (i : Nat) : Bool :=
  decide ((0x2000 ≤ i ∧ i ≤ 0x27FF) ∨ (0x3000 ≤ i ∧ i ≤ 0x37FF) ∨ (0x3800 ≤ i ∧ i ≤ 0x39FF))

/-- A value as ARMING applied it: the clamps of the plan stand over the object (R137, R163). -/
def appliedVal (clamps : List ClampReq) (idx sub : Nat) (v : Val) : Val :=
  match clamps.reverse.find? (fun c => decide (c.index = idx ∧ c.sub = sub)) with
  | some c => .num c.applied
  | none => v

/-- The object whose value governs: in a coupled plan those of die 0 stand for the mode, the rate, the destination, the depths and the
region of die 1 (R11). -/
def governing (coupled : Bool) (idx sub : Nat) : Nat :=
  if coupled && (decide (idx = 0x3801 ∧ sub ≤ 4) || decide (idx = 0x3901)) then idx - 1 else idx

/-- The table lines of the plan objects of some dies and of the package. -/
def planRows (dies : List Nat) : List ObjRow :=
  (objRows02 ++ objRows03 ++ objRows04 ++ objRows05 ++ objRows06).filter
    (fun r => r.acc.isPlan && planIndex r.lo && (decide (r.die = 2) || dies.contains r.die))

/-- The records of one table line. -/
def State.rowRecords (s : State) (coupled : Bool) (clamps : List ClampReq) (r : ObjRow) : List (List Byte) :=
  (List.range (r.hi - r.lo + 1)).flatMap (fun i => (List.range (r.shi - r.slo + 1)).map (fun j =>
    let idx := r.lo + i
    let sub := r.slo + j
    let from_ := governing coupled idx sub
    let v := (s.viewCapture from_ sub).getD (storeGet s.objs from_ sub)
    objRecord r.typ idx sub (appliedVal clamps from_ sub v)))

/-- The records of the PLAN entries: every plan object as applied, with the applied depths of object 3910 (R163). -/
def State.planRecords (s : State) (ds : List Die) (coupled : Bool) (clamps : List ClampReq) : List (List Byte) :=
  (planRows (ds.map Fin.val)).flatMap (s.rowRecords coupled clamps) ++
    ds.flatMap (fun d => [1, 2].map (fun sub => objRecord .u64 (0x3910 + d.val) sub (storeGet s.objs (0x3910 + d.val) sub)))

/-- A counter's record. -/
def State.countRecord (s : State) (x : Nat × Nat) : List Byte :=
  let t := match objRow x.1 x.2 with
    | some r => r.typ
    | none => .u32
  objRecord t x.1 x.2 (storeGet s.objs x.1 x.2)

/-- The records of the COUNTERS entries of a die (R137, R163). -/
def State.countRecords (s : State) (d : Die) : List (List Byte) :=
  (([2, 3, 4, 5, 6, 7].map (fun k => (0x3490 + 0x100 * d.val, k))) ++ ([1, 2, 3].map (fun k => (0x3824 + d.val, k)))
    ++ ([1, 2].map (fun k => (0x3920 + d.val, k)))).map s.countRecord

/-- Pieces gathered into values of at most `max` bytes, in order. -/
def gather (max : Nat) : List (List Byte) → List Byte → List (List Byte)
  | [], cur => if cur.isEmpty then [] else [cur]
  | p :: ps, cur => if cur.length + p.length ≤ max then gather max ps (cur ++ p) else cur :: gather max ps p

/-- Entries of one tag from a list of pieces (R162): continued where one entry is too long. -/
def listEntries (tag : Nat) (pieces : List (List Byte)) : List BItem := (gather 4028 pieces []).map (BItem.entry tag)

/-! ### The entries (R163) -/

/-- The metas of a stream of a die that are retained, oldest first. -/
def DieSt.kept (d : DieSt) (id : Nat) : List BargeMeta := (d.win.deep ++ d.win.ring).filter (fun m => decide (m.stream = id))

/-- A stream starts later than the weir asks (R127). -/
def DieSt.shortStream (d : DieSt) (id : Nat) : Bool :=
  match d.stair.trigger, (d.kept id).find? (fun m => !m.flags.getLsbD flagWatchLog) with
  | some t, some m => decide (id < 0xFE ∧ t.sample < m.firstSample + d.plan.weir)
  | _, _ => false

/-- The streams of a die's plan: its strands or its groups, and the event stream (R95, R104, R109). -/
def DieSt.planStreams (d : DieSt) (die : Die) : List Nat :=
  (if d.plan.mode = 2 then d.plan.envGroups.map (fun g => 0x40 + g.g)
    else ((List.range 8).filter (fun j => d.plan.strands.getLsbD j)).map (fun j => 8 * die.val + j)) ++ [0xFF]

/-- The streams of a die in ascending order: those of its plan, and those with a watch log (R114, R163). -/
def DieSt.streamIds (d : DieSt) (die : Die) : List Nat :=
  (List.range 256).filter (fun id => decide (id ≠ 0xFE) && ((d.planStreams die).contains id || !(d.kept id).isEmpty))

/-- Some stream of a die starts late (R127). -/
def DieSt.weirIsShort (d : DieSt) : Bool := (List.range 256).any d.shortStream

/-- A STREAM entry: its SEQ range runs over all retained barges, wherever they stand (R136, R137). A stream without a retained barge gives
0 as its first SEQ, all ones as its last and as its start (DESIGN CHOICE, assumption 76). -/
def DieSt.streamEntry (d : DieSt) (die : Die) (id : Nat) : BItem :=
  let ms := d.kept id
  let log := ms.any (fun m => m.flags.getLsbD flagWatchLog)
  let seqs := ms.map BargeMeta.seq
  let none_ := 2 ^ 64 - 1
  let first := seqs.foldl min (seqs.headD 0)
  let last := seqs.foldl max (seqs.headD none_)
  let trig := match mget id d.store.streams with
    | some st => st.trigSeq
    | none => none
  let start := ((ms.find? (fun m => !m.flags.getLsbD flagWatchLog)).map BargeMeta.anchor).getD (BitVec.allOnes 64)
  .entry 4 (leBytes 1 id ++ leBytes 1 die.val ++ leBytes 1 (b2n (d.shortStream id) + 2 * b2n log) ++ zeros 1 ++ leBytes 8 first
    ++ leBytes 8 last ++ leBytes 8 (trig.getD none_) ++ leBytes 8 start.toNat)

/-- A RING entry: its number, wraps, base, size, the address of the oldest retained barge, the last write address. -/
def ringEntry (n wraps base slots next : Nat) (ms : List BargeMeta) : BItem :=
  let addr := fun (k : Nat) => base + k * 4096
  let last := if slots = 0 then 0 else (next + slots - 1) % slots
  .entry 5 (leBytes 1 n ++ zeros 3 ++ leBytes 4 wraps ++ leBytes 8 base ++ leBytes 8 (slots * 4096)
    ++ leBytes 8 (addr (((ms.head?).map BargeMeta.slot).getD next)) ++ leBytes 8 (addr last))

/-- The RING entries of a convoy: window 0 of each die, and the deep region of a DEEP convoy. -/
def State.ringEntries (s : State) (ds : List Die) (lead : Die) : List BItem :=
  let p := s.dies[lead].plan
  let l := s.dies[lead].win
  ds.map (fun d => let w := s.dies[d].win; ringEntry d.val w.wraps (w.base * 4096) w.size w.next w.ring) ++
    (if p.deep then [ringEntry (2 + lead.val) l.deepWraps p.regionBase p.regionBarges l.deepNext
      (s.deepOldest ds l.deepNext p.regionBarges).toList] else [])

/-- The code of an end cause (object 3910:07). -/
def EndCause.code : EndCause → Nat
  | .depth => 0
  | .stop => 1
  | .ringFull => 2
  | .clockFault => 3
  | .thermal => 4
  | .reset => 5

/-- The TRIGGER entry. -/
def triggerEntry (t : Option Trigger) (short : Bool) : BItem :=
  match t with
  | some t =>
    let src := match t.kind with
      | .action => 0
      | .forced => 1
      | .placement => 2
    .entry 3 (leBytes 8 t.time.toNat ++ leBytes 6 t.sample ++ leBytes 1 src ++ leBytes 1 (b2n short + 2 * b2n t.late))
  | none => .entry 3 (List.replicate 15 0xFF ++ leBytes 1 (b2n short))

/-- The FLAGCOUNT entry of a die: its retained barges by flag bit. -/
def DieSt.flagEntry (d : DieSt) (die : Die) : BItem :=
  let ms := d.win.deep ++ d.win.ring
  .entry 7 (leBytes 1 die.val ++ zeros 7 ++ (List.range 16).flatMap (fun i =>
    leBytes 8 ((ms.filter (fun m => m.flags.getLsbD i)).length)))

/-- The end time of a convoy: that of its last stored sample. -/
def DieSt.endTime (d : DieSt) : Qword := accTime d.convoy.endAcc

/-- The directory's entries in ascending tag order, without END. -/
def State.dirEntries (s : State) (ds : List Die) (lead : Die) : List BItem :=
  let l := s.dies[lead]
  let c := l.convoy
  let epochEnd := if s.time.toNat < l.endTime.toNat then s.tb.epoch - 1 else s.tb.epoch
  let short := ds.any (fun d => s.dies[d].weirIsShort)
  let mask := (ds.map (fun d => 2 ^ d.val)).sum
  [.entry 1 (leBytes 4 s.nodeId.toNat ++ leBytes 4 c.id.toNat ++ leBytes 4 c.startEpoch.toNat ++ leBytes 4 epochEnd.toNat
      ++ leBytes 1 mask ++ leBytes 1 (b2n l.plan.coupled) ++ leBytes 1 1 ++ zeros 1),
   .entry 2 (leBytes 8 c.startTime.toNat ++ leBytes 8 l.endTime.toNat ++ leBytes 1 c.endCause.code ++ zeros 1
      ++ leBytes 6 c.lastStored),
   triggerEntry l.stair.trigger short] ++
  ds.flatMap (fun d => (s.dies[d].streamIds d).map (s.dies[d].streamEntry d)) ++ s.ringEntries ds lead ++
  ds.map (fun d => .entry 6 (leBytes 1 d.val ++ zeros 3 ++ leBytes 128 (s.dies[d].convoy.levels0 &&& s.dies[d].plan.selected).toNat)) ++
  ds.map (fun d => s.dies[d].flagEntry d) ++
  listEntries 8 (ds.flatMap (fun d => s.dies[d].win.damaged.map (fun m =>
    leBytes 8 (m.stream + 256 * m.die.val + 65536 * m.seq)))) ++
  listEntries 9 (ds.flatMap s.countRecords) ++ listEntries 0xA (s.planRecords ds l.plan.coupled l.plan.clamps) ++
  listEntries 0xB (l.plan.clamps.map (fun x =>
    leBytes 2 x.index ++ leBytes 1 x.sub ++ leBytes 1 x.reason ++ intBytes 8 x.requested ++ intBytes 8 x.applied))

/-! ### The chain (R162) -/

/-- Entries packed into barges of 4,032 payload bytes, none spanning two. -/
def packEntries : List BItem → List BItem → Nat → List (List BItem)
  | [], cur, _ => [cur]
  | i :: is, cur, used =>
    let n := (BItem.bytes 0 i).length
    if used + n ≤ 4032 then packEntries is (cur ++ [i]) (used + n) else cur :: packEntries is [i] n

/-- The directory's barges, in order. -/
def State.dirBarges (s : State) (ds : List Die) (lead : Die) : List Barge :=
  let l := s.dies[lead]
  let lists := packEntries (s.dirEntries ds lead ++ [.entry 0xFFFF []]) [] 0
  let fault := faultCause l.convoy.endCause
  lists.zipIdx.map (fun x =>
    { kind := .directory, ewidth := 0, esigned := false, stream := 0xFE, die := lead, coupled := l.plan.coupled,
      node := s.nodeId, convoy := l.convoy.id, anchor := l.endTime, itemTime := l.endTime, endTime := l.endTime,
      flags := withFlag (withFlag 0 flagClamped l.plan.clamped) flagClockFault (fault && decide (x.2 + 1 = lists.length)),
      period := l.plan.period, interval := 0, xstart := 0, xend := 0, seq := x.2, anchorPos := 0, endPos := 0,
      firstSample := 1, lastSample := 0, items := x.1 })

/-- One directory barge, after the last barge of the destination ring (R136 step 3). -/
def State.putDir (lead : Die) (s : State) (b : Barge) : State :=
  let w := s.dies[lead].win
  if s.dies[lead].plan.deep then
    match s.deepSlot s.dies[lead].plan w.deepNext with
    | none => s
    | some slot => (s.deepPut lead slot b.bytes).withDie lead (fun x => { x with win := { x.win with dir := x.win.dir ++ [b.meta slot s.now] } })
  else
    let slot := w.next
    let wrap := decide (slot + 1 = w.size)
    { s with basin := s.basin.set lead (memWriteBlock s.basin[lead] ((w.base + slot) * 4096) b.bytes) }.withDie lead (fun x =>
      { x with win := { x.win with
        next := if wrap then 0 else slot + 1, wraps := w.wraps + b2n wrap, dir := x.win.dir ++ [b.meta slot s.now] } })

/-- The byte address of the directory: its first barge (object 3910:06). -/
def State.dirAddr (s : State) (lead : Die) : Nat :=
  let x := s.dies[lead]
  let slot := ((x.win.dir.head?).map BargeMeta.slot).getD 0
  if x.plan.deep then x.plan.deepAddr slot else (x.win.base + slot) * 4096

/-- A die of a sealed convoy enters SEALED (R136 step 4): its objects, its register fields, its sample PLL. -/
def State.sealDie (addr : Nat) (short : Bool) (s : State) (d : Die) : State :=
  let c := s.dies[d].convoy
  let s := (s.putNat (0x3910 + d.val) 6 addr).putNat (0x3910 + d.val) 7 (c.endCause.code * 2 ^ 56 + c.lastStored)
  let s := s.withDie d (fun x => { x with
    state := .sealed, closing := false, dirAddr := addr, convoy := { x.convoy with weirShort := short } })
  s.restSpll d

/-- Steps 3 and 4 of R136: the directory, SEALED, vector 3, the optional CONVOY_EVENT entry (R415). -/
def State.sealConvoy (s : State) (ds : List Die) (lead : Die) : State :=
  let short := ds.any (fun d => s.dies[d].weirIsShort)
  let s := (s.dirBarges ds lead).foldl (State.putDir lead) s
  let addr := s.dirAddr lead
  let s := ds.foldl (State.sealDie addr short) s
  let c := s.dies[lead].convoy
  let mask := (ds.map (fun d => 2 ^ d.val)).sum
  let s := if s.optional 4 then
      s.bb 0x0405 0 (leBytes 1 1 ++ leBytes 1 mask ++ leBytes 4 c.id.toNat ++ leBytes 1 c.endCause.code
        ++ leBytes 1 (s.objNat (0x3910 + lead.val) 3)) else s
  s.raise 3

end Sys2Proof.Machine
end

