-- ==== Sys2Proof/Machine/WatchOps.lean ====
section
/-! DEFINITION. The watchkeeper's log (R112 to R114): how an edge becomes a record, and how the log becomes barges. -/

namespace Sys2Proof.Machine

/-- The dead time of a detector: 2 ns in 2^−16 ns (R112, R114). -/
def watchDead : Nat := 131072

/-- An edge is closer than 2 ns to the last edge of its channel that was stamped with fine time (R114). -/
def Watch.saturated (w : Watch) (c : Nat) (t : Qword) : Bool :=
  match mget c w.fine with
  | some l => decide ((t - BitVec.ofNat 64 l).toNat < watchDead)
  | none => false

/-- The tick of a timeword on its own 250 ps grid (R114). -/
def watchTick (t : Qword) : Nat := t.toNat / 16384

/-- The fine code of a watched edge: a multiple of 4, or 0xF (R114). -/
def watchCode (sat : Bool) (t : Qword) : Nat := if sat then 0xF else t.toNat % 16384 / 4096 * 4

/-- The watched levels of a yarn: the slots' levels at their channels. -/
def Watch.yarnLevels (w : Watch) (yarn : Nat) : Nat :=
  (List.range 8).foldr (fun i n =>
    b2n ((List.finRange 64).any (fun k => w.levels.getLsbD k.val && (match w.slots[k] with
      | some c => decide (c.val = 8 * yarn + i)
      | none => false))) + 2 * n) 0

/-- A record word with one more channel changed: its fine code is the first edge's. -/
def mergeEdge (word : Qword) (i levels code : Nat) : Qword :=
  let had := word.getLsbD (40 + i)
  let w := word &&& ~~~(BitVec.ofNat 64 (0xFF * 2 ^ 32))
  let w := w ||| BitVec.ofNat 64 (2 ^ (40 + i) + levels * 2 ^ 32)
  if had then w else w ||| BitVec.ofNat 64 (code * 2 ^ (4 * i))

/-- A change of the log: the watch after it, the overwritten records it makes, and the places of basin window 1 that it writes. -/
structure LogStep where
  watch : Watch
  lost : Nat
  writes : List (Nat × Qword)

/-- The log with records more: it keeps the newest 4,096, record n of the watch at place n mod 4,096. -/
def Watch.append (w : Watch) (es : List LogRec) : LogStep :=
  let all := w.log ++ es
  let excess := all.length - 4096
  { watch := { w with log := all.drop excess, logged := w.logged + es.length }, lost := excess
    writes := es.zipIdx.map (fun x => ((w.logged + x.2) % 4096, x.1.word)) }

/-- A record of the log changed in its place. -/
def Watch.replace (w : Watch) (old new : LogRec) : LogStep :=
  let i := w.log.findIdx (fun e => decide (e = old))
  { watch := { w with log := w.log.set i new }, lost := 0, writes := [((w.logged - w.log.length + i) % 4096, new.word)] }

/-- An edge into the log (R99, R100, R101, R114), at a moment, with the time base DISCIPLINED since `disc`: merged into the record of its
yarn and tick, or a record of its own behind spacers where more than 4,095 ticks have passed in its stream. -/
def Watch.logEdge (w : Watch) (c : Nat) (t : Qword) (sat : Bool) (now : Nat) (disc : Option Nat) : LogStep :=
  let tick := watchTick t
  let j := c / 128
  let y := c / 8 % 16
  let code := watchCode sat t
  let levels := w.yarnLevels (c / 8)
  let same := fun (e : LogRec) => decide (e.tick = tick ∧ e.strand = j ∧ e.word.toNat / 2 ^ 60 = y ∧ e.word.toNat / 2 ^ 40 % 256 ≠ 0)
  let w := { w with fine := if sat then w.fine else mput c t.toNat w.fine }
  match w.log.find? same with
  | some e => w.replace e { e with word := mergeEdge e.word (c % 8) levels code, sat := e.sat || sat }
  | none =>
    let last := (mget j w.lastTick).getD tick
    let delta := tick - last
    let mk := fun (k : Nat) (word : Qword) (x : Bool) => { tick := k, word := word, strand := j, sat := x, at_ := now, disc := disc : LogRec }
    let gaps := if delta ≤ 4095 then [] else
      (withBefore last (cutRun maxCount delta)).map (fun x => mk (x.1 + x.2) (spacerWord x.2 false) false)
    let word := transWord y (if delta ≤ 4095 then delta else 0) (2 ^ (c % 8)) levels (code * 2 ^ (4 * (c % 8)))
    { w with lastTick := mput j tick w.lastTick }.append (gaps ++ [mk tick word sat])

/-- A record word with another delta, or without one for the first of a stream (R151). -/
def noDelta (word : Qword) : Qword := word &&& ~~~(BitVec.ofNat 64 (0xFFF * 2 ^ 48))

/-- A record is a spacer: its changed mask is 0 (R101). -/
def isSpacer (word : Qword) : Bool := decide (word.toNat / 2 ^ 40 % 256 = 0)

/-- The time base was DISCIPLINED from the first of some records to the last (R147). -/
def steadyLog (es : List LogRec) : Bool :=
  match es.head? with
  | some a => es.all (fun e => match e.disc with
    | some p => decide (p ≤ a.at_)
    | none => false)
  | none => false

/-- Up to 504 records as one watch-log barge of a stream (R114, R147, R156). -/
def Run.logBarge (r : Run) (id : Nat) (es : List LogRec) : Barge :=
  let t := fun (e : LogRec) => BitVec.ofNat 64 (e.tick * 16384)
  let a := ((es.head?).map t).getD 0
  let z := ((es.getLast?).map t).getD 0
  let b := r.newBarge .transition id 0 false a 0 1
  { b with
    itemTime := z, endTime := z + 0x4000, lastSample := 0, items := es.map (fun e => .trans e.word)
    flags := withFlag (withFlag (withFlag b.flags flagWatchLog true) flagFineSat (es.any LogRec.sat)) flagHoldover !(steadyLog es) }

/-- Lists of at most `n` entries. -/
def chunks (n : Nat) : Nat → List LogRec → List (List LogRec)
  | 0, _ => []
  | fuel + 1, es => if es.isEmpty then [] else es.take n :: chunks n fuel (es.drop n)

/-- The log of one strand into its stream, ahead of its capture barges (R114): the first record has delta 0, and spacers that
lead the log fall away. -/
def Run.packStrand (r : Run) (j : Nat) : Run :=
  let id := 8 * r.d.val + j
  let es := (r.die.watch.log.filter (fun e => decide (e.strand = j))).dropWhile (fun e => isSpacer e.word)
  let es := match es with
    | e :: rest => { e with word := noDelta e.word } :: rest
    | [] => []
  (chunks 504 9 es).foldl (fun r c => r.acceptBarge (r.logBarge id c)) r

/-- The watch log is packed and stops when the convoy opens (R114). Packing is no write of the capture and takes none of the home part's
write share (DESIGN CHOICE, assumption 74). -/
def Run.packLog (r : Run) : Run :=
  let r := (List.range 8).foldl Run.packStrand r
  (r.withDie (fun d => { d with
    watch := { d.watch with running := false, log := [] }, win := { d.win with homeBusy := 0 } })).withStore (fun s => { s with
      streams := s.streams.map (fun x => (x.1, { x.2 with written := 0 })) })

end Sys2Proof.Machine
end

