-- ==== Sys2Proof/Machine/Capture.lean ====
section
/-! DEFINITION. The commands of a capture (chapters 04 and 06): core words, triggers, arming, opening, stopping, the sluice, sealing,
release. -/

namespace Sys2Proof.Machine

/-- The BAR0 offset of a register of die `d` (R31, R372). -/
def capReg (d : Die) (off : Nat) : Nat := 0x20000 + 0x10000 * d.val + off

/-- The vector of a capture die (R333). -/
def capVector (d : Die) : Fin 64 := if d = 0 then 4 else 5

/-- A die evaluates samples: its capture is open and no freeze stops it (R118, R409). -/
def State.evaluates (s : State) (d : Die) : Bool := s.dies[d].isOpen && !s.frozen

/-! ### Samples and what falls due in them -/

/-- CORE_WORD (R77): sixteen samples of a die that evaluates. -/
def execCoreWord (d : Die) (w : CoreWordIn) (s : State) : Result :=
  .next (if s.evaluates d then s.runDie d (fun r => r.coreWord w) else s)

/-- DEFERRED_ADVANCE_EXECUTE (R81): the pending chamber is entered in the first sample of the next word. In state mode that
sample's time is its clock edge's, so CORE_WORD executes it. -/
def execDeferredAdvanceExecute (d : Die) (s : State) : Result :=
  let x := s.dies[d]
  .next (match x.stair.deferred with
    | some df =>
      if s.evaluates d && !x.plan.state && decide (x.convoy.nextSample % 16 = 0) then
        s.runDie d (fun r => r.executeDeferred r.nextAt df) else s
    | none => s)

/-- TIMER_SATURATION (R71): a running timer reaches its maximum in the next sample. CORE_WORD counts one that this command has not; in state
mode, where the next sample's time is its clock edge's, it alone does. -/
def execTimerSaturation (d : Die) (t : Fin 8) (s : State) : Result :=
  .next (if s.evaluates d && !s.dies[d].plan.state then s.runDie d (fun r => Run.timerFull r.nextAt r t) else s)

/-- TRIGOUT_PULSE_END (R89): the pin returns to its inactive level once the end of its pulse has come, unless an action
that still waits extends it. -/
def execTrigoutPulseEnd (p : Fin 2) (s : State) : Result :=
  let t := s.settlePin p
  .next (if t.pins.waiting[p].any (fun x => decide (x.1 ≤ t.pins.pulseEnd[p].getD 0)) then t else t.pulseOver p (s.now + 1))

/-- EVENT_BARGE_CLOSE (R133, R135): a full event barge closes when a barge is free, or into the reserve after storage. -/
def execEventBargeClose (d : Die) (s : State) : Result :=
  let x := s.dies[d]
  .next (if s.evaluates d && decide (126 ≤ eventBacklog x.store) && (hasRoom x || !x.convoy.storing) then
    s.runDie d (fun r => (r.closeEventIfFull).fillEvents 126) else s)

/-- A forced trigger is asked for (R84): held in ARMING, due at the next sample of an open capture, otherwise ignored. -/
def State.forceTrigger (s : State) (d : Die) (loc : Nat × Nat) (via : Source) : State :=
  if !s.hasDie d then s
  else if s.dies[d].isOpen ∨ s.dies[d].state = .arming then
    s.withDie d (fun x => { x with stair := { x.stair with force := true } })
  else s.ignoreOp loc via .state

/-- FORCE_TRIGGER (R84): CAPn_STC_FORCE.FORCE. -/
def execForceTrigger (d : Die) (s : State) : Result :=
  .next (s.onBar0 (capReg d 0x910) (fun s => s.forceTrigger d (regLoc (capReg d 0x910)) .bar0))

/-- PENDING_PLACEMENT_COMMIT (R85): the die's present sample has reached the target of its pending placement. -/
def execPendingPlacementCommit (d : Die) (s : State) : Result :=
  let x := s.dies[d]
  .next (match x.stair.placement with
    | some p =>
      if s.evaluates d && decide (0 < x.convoy.nextSample) && atOrAfter x.convoy.lastTime p.target then
        s.runDie d (fun r => r.pendingPlacement r.here) else s
    | none => s)

/-! ### Coupled dies (R87) -/

/-- A trigger taken over the trigger line: its sample by the receiving die's own count. -/
def Run.adopt (r : Run) (t : Trigger) : Run :=
  let last := r.die.lastSample
  let k := min (r.backTo t.time) last
  let s := if r.die.plan.state then last - k else t.sample
  let t := { t with sample := s }
  let r := r.withStair (fun x => { x with trigger := some t, lineOut := none, placement := none })
  let r := r.withDie (fun d => { d with state := .postfill, win := startSluice d t })
  r.noteBacklog.noteTrigger s

/-- A die's own later trigger is ignored in favour of the shared one (R83, R87). -/
def Run.giveWay (r : Run) (t : Trigger) : Run :=
  let first := !r.die.stair.postSeen
  let r := ((r.count 4).withStair (fun x => { x with postSeen := true })).adopt t
  if first then
    r.event .plain r.die.lastSample { blankEvent r.die.convoy.lastTime r.die.stair.chamber.val with flags := withEv 0 evPostIgnored true }
  else r

/-- A die that held a placement drops it when a trigger over the line comes first (R85). -/
def Run.dropPlacement (r : Run) : Run :=
  if r.die.stair.placement.isSome then (r.withStair (fun x => { x with placement := none })).count 5 else r

/-- TRIGGER_LINE_ARRIVAL (R87): die `d` takes the other die's commit. The earlier trigger stands; die 0's prevails in a tie. -/
def execTriggerLineArrival (d : Die) (s : State) : Result :=
  let o := otherDie d
  let x := s.dies[d]
  .next (match s.dies[o].stair.lineOut with
    | some t =>
      if !s.evaluates d || !x.plan.coupled || decide (s.now < t.foundAt + ns 32) then s
      else
        let s := s.withDie o (fun y => { y with stair := { y.stair with lineOut := none } })
        match x.stair.trigger with
        | none => (s.runDie d (fun r => r.dropPlacement.adopt t)).raise (capVector d)
        | some own =>
          let mine := (own.time - t.time).toInt
          if 0 < mine ∨ (mine = 0 ∧ d = 1) then s.runDie d (fun r => r.giveWay t) else s
    | none => s)

/-! ### Arming and opening (R119 to R121) -/

/-- ARM (R119): CAPn_CTL.ARM. -/
def execArm (d : Die) (s : State) : Result :=
  .next (s.onBar0 (capReg d 0x100) (fun s => s.armCommand d (regLoc (capReg d 0x100)) .bar0))

/-- What the trigger-RAM check of a die found (R67): corrected errors counted, and for an uncorrectable one the RAM rewritten from the
objects, counted and recorded. -/
def State.ramFound (s : State) (d : Die) (r : RamCheck) : State :=
  let reload := fun (s : State) => ((s.loadTrigRam d).bump (0x32F0 + d.val) 3).bb 0x0073 2 (leBytes 1 d.val)
  let s := s.bumpBy (0x32F0 + d.val) 2 r.corrected
  match r.load with
  | .clean => s
  | .reloaded => reload s
  | .failed => reload s

/-- The next convoy id (R120). -/
def nextConvoyId (last : Dword) : Dword := if last + 1 = 0 then 1 else last + 1

/-- The channels whose levels the present voltages decide: those that have changed, and those of pair-mode yarns. -/
def levelChannels (st : Store) (d : Die) (pins : SMap Int) : List Nat :=
  pins.map (fun p => carrier st d p.1) ++
    ((List.range 128).filter (fun y => storeBool st 0x2031 (128 * d.val + y))).flatMap (fun y => [8 * y, 8 * y + 2, 8 * y + 4, 8 * y + 6])

/-- The odd channels of the pair-mode yarns of a die, which read 0 in every sample (R27). -/
def oddMask (st : Store) (d : Die) : BitVec 1024 :=
  ((List.range 128).filter (fun y => storeBool st 0x2031 (128 * d.val + y))).foldl
    (fun m y => m ||| BitVec.ofNat 1024 (0xAA * 2 ^ (8 * y))) 0

/-- The front end of a die as its convoy opens: levels as its comparators stand, no history (R47). -/
def openFront (st : Store) (d : Die) (fe : FrontEnd) : FrontEnd :=
  let levels := (levelChannels st d fe.pins).foldl (fun l c => setLevel l c (channelLevel st d fe.pins c (l.getLsbD c))) fe.ball
  let levels := levels &&& ~~~oddMask st d
  let trig := (List.finRange 4).foldl (fun (l : BitVec 4) i =>
    setTrig l i.val (trigInLevel st i fe.trigPins[i] (l.getLsbD i.val))) fe.trigBall
  { FrontEnd.reset with
    pins := fe.pins, trigPins := fe.trigPins, ball := levels, trigBall := trig, levels := levels, prev := levels, trigLevels := trig,
    trigPrev := trig, noFine := fe.noFine }

/-- The staircase as a convoy starts it (R69, R70); a held forced trigger is due in sample 0 (R84). -/
def openStair (p : Program) (force : Bool) : Stair :=
  { Stair.reset with
    qualifier := p.initQual, force := force
    timers := Vector.ofFn (fun (i : Fin 8) => { running := p.timersOn.getLsbD i.val, value := 0, start := 0 }) }

/-- The objects of a die's convoy as its open leaves them (R91, R141). -/
def State.openObjects (s : State) (d : Die) (id : Dword) (delay : Bool) : State :=
  let i := 0x3910 + d.val
  let s := (s.putNat i 4 id.toNat).put i 5 (.num (2 ^ 64 - 1))
  let s := [6, 7, 8].foldl (fun s k => s.putNat i k 0) s
  let s := [1, 2, 3].foldl (fun s k => s.putNat (0x3920 + d.val) k 0) s
  let s := [2, 3, 4, 5, 6, 7].foldl (fun s k => s.putNat (0x3490 + 0x100 * d.val) k 0) s
  s.putNat (0x32F0 + d.val) 1 (b2n delay)

/-- A die's convoy opens (R118, R121 step 6). `thin`: the convoy's planned rate is within its budget, so that a DEEP convoy
sluices throughout (R131). -/
def State.openDie (s : State) (id : Dword) (thin : Bool) (d : Die) : State :=
  let x := s.dies[d]
  let p := x.plan
  let acc := s.tb.acc.toNat * 3200
  let t0 := accTime acc
  let s := s.openObjects d id p.program.towDelay
  let s := s.withDie d (fun y => { y with
    state := if p.weir = 0 then .armed else .prefill
    closing := false
    plan := { p with program := p.program.fromRam y.trigRam }
    fe := openFront s.objs d y.fe
    stair := openStair p.program y.stair.force
    store := { Storage.reset with qualNow := p.program.initQual }
    win := { y.win with sluicing := p.deep && thin }
    convoy :=
      { Convoy.reset with
        id := id, openAt := s.now, startEpoch := s.tb.epoch, startTime := t0, acc := acc, lastTime := t0, storing := true
        endAcc := acc, coast := decide (s.clocks.plls[spll d].state = .coast) } })
  let s := if x.watch.running then s.runDie d Run.packLog else s
  s.raise (capVector d)

/-- The convoy of the dies `ds` opens (R120, R121): its id, its dies, the CLAMPED_PLAN entry, the optional CONVOY_EVENT entry. -/
def State.openConvoy (s : State) (ds : List Die) (lead : Die) : State :=
  let id := nextConvoyId s.mram.convoyId
  let s := { s with mram := { s.mram with convoyId := id, present := s.mram.present ||| 16 } }
  let rate := ds.foldl (fun t d => t + s.dies[d].plan.rate) 0
  let p := s.dies[lead].plan
  let s := ds.foldl (fun s d => s.openDie id (decide (rate ≤ p.budget)) d) s
  let s := if p.clamped then s.bb 0x0090 1 (leBytes 1 lead.val ++ leBytes 4 id.toNat ++ leBytes 1 (min 255 p.clamps.length)) else s
  if s.optional 4 then
    s.bb 0x0405 0 (leBytes 1 0 ++ leBytes 1 ((ds.map (fun d => 2 ^ d.val)).sum) ++ leBytes 4 id.toNat ++ leBytes 1 0
      ++ leBytes 1 (s.objNat (0x3910 + lead.val) 3))
  else s

/-- ARMING of a die has run its course: its time has passed, its calibration is done, its sample PLL runs (R121). -/
def State.armReady (s : State) (d : Die) : Bool :=
  let x := s.dies[d]
  decide (x.state = .arming) && !x.calRunning && decide (x.armTo ≤ s.now) && s.clocks.plls[spll d].runs

/-- CONVOY_OPEN (R67, R121): the trigger RAMs are loaded, `ram` by die, and the convoy opens, or ARMING ends with TERM_FAULT. -/
def execConvoyOpen (d : Die) (ram : Vector RamCheck 2) (s : State) : Result :=
  let ds := s.convoyDies d
  .next (if ds.head? = some d ∧ ds.all s.armReady ∧ !s.frozen then
    let s := ds.foldl (fun s e => s.ramFound e ram[e]) s
    if ds.any (fun e => decide (ram[e].load = .failed)) then ds.foldl (fun s e => s.endArming e 4) s else s.openConvoy ds d
  else s)

/-- A stop (R119): ARMING ends with STOPPED, an open capture's storage ends; coupled dies stop together (R139). -/
def State.captureStop (s : State) (d : Die) (loc : Nat × Nat) (via : Source) : State :=
  if !s.hasDie d then s
  else if s.dies[d].state = .arming then (s.convoyDies d).foldl (fun s e => s.endArming e 5) s
  else if s.dies[d].isOpen then (s.convoyDies d).foldl (fun s e => s.endDie e .stop) s
  else s.ignoreOp loc via .state

/-- STOP (R119): CAPn_CTL.STOP. -/
def execStop (d : Die) (s : State) : Result :=
  .next (s.onBar0 (capReg d 0x100) (fun s => s.captureStop d (regLoc (capReg d 0x100)) .bar0))

/-- A die gives up its sealed convoy (R119): IDLE, its basin barges freed. -/
def State.releaseDie (s : State) (d : Die) : State :=
  s.withDie d (fun x => { x with
    state := .idle, win := { x.win with ring := [], deep := [], dir := [], copy := none, damaged := [], sluicing := false, deepFull := false } })

/-- A release (R119, R139). -/
def State.releaseCommand (s : State) (d : Die) (loc : Nat × Nat) (via : Source) : State :=
  if !s.hasDie d then s
  else if s.dies[d].state = .sealed then (s.convoyDies d).foldl State.releaseDie s
  else s.ignoreOp loc via .state

/-- RELEASE (R119): CAPn_CTL.RELEASE. -/
def execRelease (d : Die) (s : State) : Result :=
  .next (s.onBar0 (capReg d 0x100) (fun s => s.releaseCommand d (regLoc (capReg d 0x100)) .bar0))

/-! ### The sluice and sealing (R131, R136, R138) -/

/-- SLUICE_COPY (R131): the oldest queued barge moves when its place can be reached. -/
def execSluiceCopy (d : Die) (s : State) : Result :=
  .next (if s.evaluates d then (s.sluiceOne d).getD s else s)

/-- The backlog of a die is out of window 0, or stays there because the deep ring takes no more (R136 step 2). -/
def State.drained (s : State) (d : Die) : Bool :=
  let w := s.dies[d].win
  !w.sluicing || w.ring.isEmpty || w.deepFull

/-- A die that never sluiced because no trigger came moves its whole ring in the closing part (R131, R136 step 2). -/
def State.sluiceBegin (s : State) (d : Die) : State :=
  s.withDie d (fun x => { x with win := { x.win with sluicing := x.plan.deep } })

/-- CONVOY_SEALED (R136): the closing part runs to its end. While the sluice cannot move the backlog, it does not end. -/
def execConvoySealed (d : Die) (s : State) : Result :=
  let ds := s.convoyDies d
  let lead := s.leadDie d
  .next (if d = lead ∧ !s.frozen ∧ ds.all (fun e => decide (s.dies[e].state = .postfill) && s.dies[e].closing) then
    let t := ds.foldl State.closeDie s
    let t := ds.foldl State.sluiceBegin t
    let t := t.sluiceAll ds (ds.foldl (fun n e => n + t.dies[e].win.ring.length + 1) 0)
    let t := ds.foldl State.reserveEvents t
    let t := ds.foldl State.markFault t
    if ds.all t.drained then t.sealConvoy ds lead else s
  else s)

/-- A sealed convoy's barges in the basin: those of its rings in closing order, then its directory. -/
def State.convoyBarges (s : State) (ds : List Die) : List (Die × BargeMeta) :=
  ds.flatMap (fun d => s.dies[d].win.ring.map (fun m => (d, m))) ++ ds.flatMap (fun d => s.dies[d].win.dir.map (fun m => (d, m)))

/-- The region of a die as its objects stand (R130), in barges: its first and its number. -/
def State.regionNow (s : State) (d : Die) : Nat × Nat := (s.objNat (0x3900 + d.val) 6 * 256, s.objNat (0x3900 + d.val) 7 * 256)

/-- SLUICE_SEALED_CONVOY (R138): object 3940 or 3941. -/
def execSluiceSealedConvoy (d : Die) (via : Source) (s : State) : Result :=
  let ds := s.convoyDies d
  let r := s.regionNow d
  let ok := decide (s.dies[d].state = .sealed) && !s.dies[d].plan.deep && s.dies[d].win.copy.isNone
    && decide ((s.convoyBarges ds).length ≤ s.deep.barges r.1 r.2) && !s.objBool (0x3910 + d.val) 8
    && (ds.contains (otherDie d) || !s.dies[otherDie d].isOpen)
  .next (s.onPath via fun s => if !s.hasDie d then s
    else if ok then s.withDie d (fun x => { x with win := { x.win with copy := some r.1 } })
    else s.ignoreOp (0x3940 + d.val, 1) via .state)

/-- Barges copied in order to the places in service from barge index `at_` on. -/
def State.copyBarges (s : State) : List (Die × BargeMeta) → Nat → State
  | [], _ => s
  | (d, m) :: rest, at_ =>
    let b := (((List.range (s.deep.c * s.deep.mapRanks)).map (fun i => at_ + i)).find? s.deep.inService).getD at_
    let bytes := memReadBlock s.basin[d] ((s.dies[d].win.base + m.slot) * 4096) 4096
    { s with dsMem := memWriteBlock s.dsMem (b * 4096) bytes }.copyBarges rest (b + 1)

/-- SLUICE_SEALED_COPY_DONE (R138): the copy at class 5 on P7 ends; it is paused while any port sits at urgency 3 (R281). -/
def execSluiceSealedCopyDone (d : Die) (s : State) : Result :=
  let ds := s.convoyDies d
  .next (match s.dies[d].win.copy with
    | some base =>
      if s.deep.paused || !s.isOn || s.frozen then s
      else
        let bs := s.convoyBarges ds
        let s := (s.copyBarges bs base).dsGroups 7 (4 * bs.length)
        let s := s.withDie d (fun x => { x with win := { x.win with copy := none } })
        ds.foldl (fun s e => s.putNat (0x3910 + e.val) 8 1) s
    | none => s)

/-- QUADRANT_RETURN (R116, R291): the retained quadrants serve again, 60 µs after the wake that armed the die. -/
def execQuadrantReturn (d : Die) (s : State) : Result :=
  let x := s.dies[d]
  .next (if x.win.homeLimit.isSome ∧ x.armAt + us 60 ≤ s.now ∧ s.isOn then
    s.withDie d (fun x => { x with win := { x.win with homeLimit := none } }) else s)

end Sys2Proof.Machine
end

