-- ==== Sys2Proof/Machine/Clocks.lean ====
section
/-! DEFINITION. The commands of the clocks (chapter 15): coast, re-entry, lock, band tables, spread. -/

namespace Sys2Proof.Machine

/-- The object of a PLL. -/
def pllObj (i : Fin 13) : Nat := 0x5A20 + i.val

/-- The die whose sample PLL this is. -/
def spllDie (i : Fin 13) : Option Die := if i.val = 0 then some 0 else if i.val = 1 then some 1 else none

/-- What a coast of an SPLL does to its die (R313): COAST in barges and gauges, the generator ends under its stop mode. -/
def State.coastDie (s : State) (d : Die) : State :=
  ((s.withDie d (fun x => { x with convoy := { x.convoy with coast := true } })).markDieGauges d 4).genCoast d

/-- A PLL of index 0 to 11 enters coast (R312); `lock`: by loss of lock. -/
def State.enterCoast (s : State) (i : Fin 13) (lock : Bool) : State :=
  let s := s.withPll i (fun p => { p with
    state := .coast, coastAt := s.now, loss := lock, noRef := !lock, estimateAt := s.now, closed := none, swap := false })
  let s := ((s.bump (pllObj i) 5).setEvBit .clk i.val).bb 0x0030 2 (leBytes 1 i.val ++ leBytes 1 (b2n lock))
  match spllDie i with
  | some d => s.coastDie d
  | none => s

/-- A loss of the reference meets a PLL: a locked one coasts, a coasting one has no reference; a search is abandoned until the
reference is back (R314). -/
def State.refLost (s : State) (i : Fin 13) : State :=
  let p := s.clocks.plls[i]
  if i.val = 12 then s
  else match p.state with
    | .locked => (s.enterCoast i false).bump (pllObj i) 7
    | .coast => (s.withPll i (fun p => { p with noRef := true })).bump (pllObj i) 7
    | .search | .hop => s.withPll i (fun p => { p with noRef := true })
    | .off => s

/-- REFERENCE_LOSS (R312): every PLL of the source coasts together. -/
def execReferenceLoss (s : State) : Result :=
  .next (((List.finRange 13).foldl State.refLost s).setEvBit .clk 16)

/-- A re-entry attempt that lost lock again is a failed attempt; after three a band search is due (R314). -/
def State.failAttempt (s : State) (i : Fin 13) : State :=
  (s.withPll i (fun p => { p with
    state := .coast, closed := none, attempts := p.attempts + 1, searchDue := decide (3 ≤ p.attempts + 1),
    coastAt := s.now })).bump (pllObj i) 6

/-- LOCK_LOSS (R312): a locked PLL coasts; within its lock confirmation that is a failed attempt too (R314). -/
def execLockLoss (i : Fin 13) (s : State) : Result :=
  let p := s.clocks.plls[i]
  .next (if i.val = 12 ∨ p.state ≠ .locked then s
  else if p.closed.isSome then (s.enterCoast i true).failAttempt i
  else s.enterCoast i true)

/-- The dies whose capture a coast of PLL `i` may seal (R313). -/
def sealDies (i : Fin 13) : List Die := if i.val = 0 then [0] else if i.val = 1 then [1] else if i.val = 3 then [0, 1] else []

/-- Seal the open captures of dies with end cause CLOCK_FAULT (R313): CLK_EVT.SEALED and a CLOCK_SEAL entry. -/
def State.clockSeal (s : State) (ds : List Die) (estimate : Int) : State :=
  let hit := ds.filter (fun d => s.dies[d].isOpen && s.dies[d].convoy.storing)
  if hit.isEmpty then s
  else
    let mask := (hit.map (fun d => 2 ^ d.val)).sum
    let s := hit.foldl (fun s d => s.endDie d .clockFault) s
    (s.setEvBit .clk 18).bb 0x0032 2 (leBytes 1 mask ++ intBytes 4 estimate)

/-- COAST_ESTIMATE (R313): made by the HKC, published; above 10 ppm the captures it feeds are sealed. Estimates are made of SPLLs, MPLLs and the
XPLL alone. -/
def execCoastEstimate (i : Fin 13) (estimate : Int) (s : State) : Result :=
  .next (if s.power.hkcUp ∧ s.clocks.plls[i].state = .coast ∧ i.val ≠ 2 ∧ i.val ≠ 12 then
    let e := clampInt (-1000000) 1000000 estimate
    let s := (s.withPll i (fun p => { p with estimate := e, estimateAt := s.now })).putInt (pllObj i) 0x0B e
    if 10000 < e.natAbs then s.clockSeal (sealDies i) e else s
  else s)

/-- COAST_ESTIMATE_TIMEOUT (R313): 10 ms of a coast without an estimate seals in the same way. -/
def execCoastEstimateTimeout (i : Fin 13) (s : State) : Result :=
  let p := s.clocks.plls[i]
  .next (if p.state = .coast ∧ p.estimateAt + ms 10 ≤ s.now then s.clockSeal (sealDies i) p.estimate else s)

/-- A re-phase in a die that evaluates samples: the next record carries REPHASE and PHASE, at its next sample one of its own where no
other is due (R160, R315). -/
def Run.rephase (r : Run) (residual : Int) : Run := r.withStair (fun s => { s with rephase := some residual })

/-- A PLL closes its loop at a reference edge with a residual (R315, R316): recorded, its coast over, its lock to be confirmed. -/
def State.reenter (s : State) (i : Fin 13) (residual : Int) : State :=
  let r := clampInt (-3276800) 3276800 residual
  let s := s.withPll i (fun p => { p with
    state := .locked, closed := some s.now, swap := false, noRef := false, residual := r, reentryTime := s.time })
  let s := ((s.putInt (pllObj i) 9 r).put (pllObj i) 0x0A (.num s.time.toNat)).setEvBit .clk 17
  let s := s.bb 0x0031 1 (leBytes 1 i.val ++ intBytes 8 r)
  let s := if i.val = 2 then
      match s.clocks.spreadNext with
      | some v => { s with clocks := { s.clocks with spread := v, spreadNext := none } }
      | none => s
    else s
  match spllDie i with
  | some d =>
    let s := s.withDie d (fun x => { x with convoy := { x.convoy with coast := false } })
    if s.dies[d].isOpen then s.runDie d (fun x => x.rephase r) else s
  | none => s

/-- A count asked of a coasting PLL is taken once the PLL has re-entered (R314). -/
def State.takeWanted (s : State) (i : Fin 13) : State :=
  match s.clocks.plls[i].wanted with
  | some n => (s.withPll i (fun p => { p with wanted := none })).startPll i n
  | none => s

/-- REENTRY (R314 to R316): the first reference edge after a loss of the reference, or on a new source; an abandoned search starts
again. -/
def execReentry (i : Fin 13) (residual : Int) (s : State) : Result :=
  let p := s.clocks.plls[i]
  .next (if (p.state = .coast ∧ (!p.loss ∨ p.noRef) ∧ p.attempts < 3) ∨ p.swap then (s.reenter i residual).takeWanted i
    else if p.state = .search ∨ p.state = .hop then s.withPll i (fun p => { p with noRef := false })
    else s)

/-- REENTRY_ATTEMPT (R314): 10 µs after a loss-of-lock coast began, while fewer than three attempts have failed. -/
def execReentryAttempt (i : Fin 13) (residual : Int) (s : State) : Result :=
  let p := s.clocks.plls[i]
  .next (if p.state = .coast ∧ p.loss ∧ !p.noRef ∧ p.attempts < 3 ∧ p.coastAt + us 10 ≤ s.now then (s.reenter i residual).takeWanted i
    else s)

/-- The channel of an MPLL. -/
def mpllChan (i : Fin 13) : Option (Fin 8) := if h : 4 ≤ i.val ∧ i.val ≤ 11 then some ⟨i.val - 4, by omega⟩ else none

/-- On relock a channel leaves the self-refresh of a coast (R284). -/
def State.relockChan (s : State) (i : Fin 13) : State :=
  match mpllChan i with
  | some c => if s.deep.chans[c].state = .selfRefresh ∧ s.power.state = .on then
      s.withChan c (fun x => { x with state := .inService }) else s
  | none => s

/-- LOCK_CONFIRMED (R308, R314): the 3.2 µs confirmation of a closed loop ends in lock or in a failed attempt. -/
def execLockConfirmed (i : Fin 13) (locked : Bool) (s : State) : Result :=
  .next (if s.clocks.plls[i].closed.isSome then
    if locked then
      (s.withPll i (fun p => { p with closed := none, attempts := 0, searchDue := false })).relockChan i
    else (s.enterCoast i true).failAttempt i
  else s)

/-- A coasting PLL's due band search may run (R314). -/
def State.searchFree (s : State) (i : Fin 13) : Bool :=
  match spllDie i with
  | some d => !s.dies[d].isOpen && s.genStopped d
  | none => match mpllChan i with
    | some c => decide (s.deep.chans[c].state = .selfRefresh)
    | none => !s.anyOpen

/-- A band search ended in lock (R309, R314): its entry is stored and counted, with CLK_EVT.SEARCH. -/
def State.bandFound (s : State) (i : Fin 13) (band : BitVec 6) (tuning : BitVec 12) : State :=
  let u := s.clocks.useCount + 1
  let e : BandEntry :=
    { n := s.clocks.plls[i].n, band := band.toNat, valid := true, vtune := tuning.toNat, temp := s.pllTemp i, time := s.time, used := u }
  let s := { s with clocks := { s.clocks with useCount := u }, mram := { s.mram with present := s.mram.present ||| 1 } }
  let s := s.withPll i (fun p => { p with
    state := .locked, band := e.band, vtune := e.vtune, table := putBand p.table e, attempts := 0, searchDue := false,
    closed := none, residual := 0, back := none })
  (s.bump (pllObj i) 8).setEvBit .clk 19

/-- A PLL that a revalidation searched returns to the count it ran at, or stops where it was off (R310). -/
def State.returnPll (s : State) (i : Fin 13) (back : Option (Option Nat)) : State :=
  match back, spllDie i with
  | none, _ => s
  | some (some n), _ => s.startPll i n
  | some none, some d => s.restSpll d
  | some none, none => s.stopPll i

/-- BAND_SEARCH_DONE (R309, R314): a search with a reference ends in lock and its entry is stored. -/
def execBandSearchDone (i : Fin 13) (band : BitVec 6) (tuning : BitVec 12) (s : State) : Result :=
  let p := s.clocks.plls[i]
  .next (if i.val ≠ 12 ∧ ((p.state = .search ∧ !p.noRef) ∨ (p.state = .coast ∧ p.searchDue ∧ s.searchFree i)) then
    (((s.bandFound i band tuning).returnPll i p.back).takeWanted i).relockChan i
  else s)

/-- R17 and R248 leave a PLL free for revalidation: its die has no capture open and its generator is STOPPED, or no capture is
open; a coasting or unlocked PLL takes none (R314). One that is off can be searched while the package is ON (DESIGN CHOICE,
assumption 81). -/
def State.revalFree (s : State) (i : Fin 13) : Bool :=
  let p := s.clocks.plls[i]
  (decide (p.state = .locked) || decide (p.state = .off) && s.isOn) &&
    (match spllDie i with
      | some d => s.hasDie d && !s.dies[d].isOpen && decide (s.dies[d].state ≠ .arming) && s.genStopped d
      | none => !s.anyBusy)

/-- An entry of a band table that temperature alone has made unusable (R309, R310). -/
def State.offEntry (s : State) (i : Fin 13) : Option BandEntry :=
  s.clocks.plls[i].table.find? (fun e => e.valid && decide (2000 < (s.pllTemp i - e.temp).natAbs))

/-- A band table holds an entry that temperature alone has made unusable (R310). -/
def State.bandOff (s : State) (i : Fin 13) : Bool := (s.offEntry i).isSome

/-- A revalidation of a PLL begins: a band search at the count of its unusable entry, or at its own where none is unusable (R310). -/
def State.beginReval (s : State) (i : Fin 13) : State :=
  s.withPll i (fun p => { p with
    state := .search, n := ((s.offEntry i).map BandEntry.n).getD p.n, back := some (if p.state = .off then none else some p.n) })

/-- BAND_REVALIDATE (R310): object 5A40:01. -/
def execBandRevalidate (mask : BitVec 16) (via : Source) (s : State) : Result :=
  .next (s.onPath via fun s => ((List.finRange 13).filter (fun i => decide (i.val ≠ 12) && mask.getLsbD i.val)).foldl (fun (s : State) i =>
    if s.revalFree i then s.beginReval i else s.ignoreOp (0x5A40, 1) via .state) s)

/-- The maintenance task that revalidates a PLL (R404). -/
def revalTask (i : Fin 13) : Fin 5 :=
  match spllDie i with
  | some d => dieTask d
  | none => 4

/-- A band table that a temperature has made unusable in part makes its revalidation due (R310, R404). -/
def State.dueBands (s : State) : State :=
  ((List.finRange 13).filter s.bandOff).foldl (fun s i => s.makeDue (revalTask i)) s

/-- SPREAD_CHANGE (R311): object 5A00:02; while the FPLL coasts the change waits until its loop closes. -/
def execSpreadChange (v : Byte) (via : Source) (s : State) : Result :=
  let a := min v.toNat 2
  .next (s.onPath via fun s =>
    let s := if a = v.toNat then s else s.clampOp (0x5A00, 2) 1 via v.toNat a
    let s := s.putNat 0x5A00 2 a
    if s.clocks.plls[2].state = .coast then { s with clocks := { s.clocks with spreadNext := some a } }
    else { s with clocks := { s.clocks with spread := a, spreadNext := none } })

/-- ELASTIC_BUFFER_SEAL (R317): during a coast of the die's SPLL or of the XPLL the fill has departed by 96 words. -/
def execElasticBufferSeal (d : Die) (s : State) : Result :=
  let p := s.clocks.plls[spll d]
  let x := s.clocks.plls[3]
  .next (if p.state = .coast then s.clockSeal [d] p.estimate
    else if x.state = .coast then s.clockSeal [d] x.estimate
    else s)

/-- MPLL_COAST_SELF_REFRESH (R284): an MPLL has coasted for 1 ms. -/
def execMpllCoastSelfRefresh (c : Fin 8) (s : State) : Result :=
  let p := s.clocks.plls[4 + c.val]
  .next (if p.state = .coast ∧ p.coastAt + ms 1 ≤ s.now ∧ s.deep.chans[c].state = .inService then
    ((s.withChan c (fun x => { x with state := .selfRefresh })).bump (0x5410 + c.val) 0x0C).bb 0x0034 1 (leBytes 1 c.val)
  else s)

end Sys2Proof.Machine
end

