-- ==== Sys2Proof/Machine/GaugeOps.lean ====
section
/-! DEFINITION. The gauges' own operations (chapter 11): settings, gates, shots, results. Times are timewords. -/

namespace Sys2Proof.Machine

/-- The die of a gauge (R232). -/
def gaugeDie (g : Fin 64) : Die := ⟨g.val / 32, by omega⟩

/-- The settings of a gauge as its objects hold them (R245); windows in steps of 15.625 ps are 1,024 units each. -/
def State.readGauge (s : State) (g : Fin 64) : GaugeSet :=
  let i := 0x4C00 + g.val
  let n := fun sub => s.objNat i sub
  { mode := n 1, startChan := n 2, startEdge := n 3, stopChan := n 4, stopEdge := n 5, prescale := n 6, source := n 7,
    gateNs := n 8, slot := n 9, w1 := s.objInt i 0x0A * 1024, w2 := s.objInt i 0x0B * 1024, holdNs := n 0x0C,
    shots := 2 ^ n 0x0D, again := s.objBool i 0x0E, timeoutMs := n 0x0F }

/-- The clamps of a start (R237, R238): source NONE outside INTERVAL becomes TIMER, W2 below W1 becomes W1. Answers whether
one was made. -/
def State.clampGauge (s : State) (g : Fin 64) : State × Bool :=
  let i := 0x4C00 + g.val
  let none_ := decide (s.objNat i 1 ≠ 2) && decide (s.objNat i 7 = 2)
  let s := if none_ then (s.putNat i 7 0).clampOp (i, 7) 5 .part 2 0 else s
  let w1 := s.objInt i 0x0A
  let w2 := s.objInt i 0x0B
  let low := decide (w2 < w1)
  let s := if low then (s.putInt i 0x0B w1).clampOp (i, 0x0B) 5 .part w2 w1 else s
  (s, none_ || low)

/-- The flags a result begins with: HOLDOVER, COAST and DISTURBED as they stand, CLAMPED as the start left it (R243, R244). -/
def State.freshFlags (s : State) (g : Fin 64) : BitVec 16 :=
  (bitIf (!s.disciplined) 3).setWidth 16 ||| (bitIf (decide (s.clocks.plls[spll (gaugeDie g)].state = .coast)) 4).setWidth 16 |||
    (bitIf (s.dies[gaugeDie g].calRunning || s.dies[gaugeDie g].check.isSome || s.dies[gaugeDie g].fe.eyeRunning) 5).setWidth 16 ||| (s.gauges[g].flags &&& 0x80)

/-- A result begins: nothing counted or summed yet. -/
def State.freshResult (s : State) (g : Fin 64) : State :=
  let f := s.freshFlags g
  s.withGauge g (fun x => { x with
    flags := f, first := none, last := none, n := 0, nLast := 0, shot := none, count := 0, unresolved := 0, sum := 0, sumSq := 0,
    least := 0, greatest := 0 })

/-- A gate opens at moment `at_` for `len` units of `now` (R237). -/
def State.openGate (s : State) (g : Fin 64) (at_ : Nat) (tw : Qword) (len : Nat) : State :=
  (s.freshResult g).withGauge g (fun x => { x with gate := some (at_, tw), gateEnd := at_ + len })

/-- The timeword of a moment near the present, by the increment in force (R175, R233). -/
def State.stampAt (s : State) (at_ : Int) : Qword :=
  accTime (((s.tb.acc.toNat * 3200 : Nat) + (at_ - s.now) * s.tb.inc) % (2 ^ 80 * 3200)).toNat

/-- The moment at which an edge of a global channel reaches a gauge unit: delayed as the channel is, in bins of 15.625 ps (R32, R232,
R233). -/
def State.edgeMoment (s : State) (ch : Nat) (at_ : Int) : Int := ((s.now : Int) + at_ + 5 * chanDelay s.objs ch) / 5 * 5

/-- A duration in timeword units (2^−16 ns) as units of `now`. -/
def unitsOf (tw : Int) : Int := tw * 5 / 1024

/-! ### Publication (R241 to R243) -/

/-- Integer square root by binary digits below 2^k. -/
def isqrt (v : Nat) : Nat → Nat → Nat
  | 0, r => r
  | k + 1, r => isqrt v k (if (r + 2 ^ k) * (r + 2 ^ k) ≤ v then r + 2 ^ k else r)

/-- The rms deviation of n results from their sum and sum of squares, to the nearest unit (R241; rounding: assumption 7). -/
def rmsOf (n : Nat) (sum : Int) (sumSq : Nat) : Nat :=
  if n = 0 then 0 else (isqrt (4 * (n * sumSq - sum.natAbs * sum.natAbs) / (n * n)) 80 0 + 1) / 2

/-- Every subindex of object 4D00+g replaced together, and the publication counted (R242). `vals`: subindexes 03 to 0C. -/
def State.sendResult (s : State) (g : Fin 64) (at_ : Qword) (flags : BitVec 16) (vals : List Int) : State :=
  let i := 0x4D00 + g.val
  let s := (s.put i 1 (.num at_.toNat)).putNat i 2 flags.toNat
  let s := vals.zipIdx.foldl (fun s v => s.putInt i (3 + v.2) v.1) s
  s.bump (0x4C40 + g.val) 2

/-- A result is published with the time of its close or completion (R242); while the HKC restarts it waits for its return (R244). -/
def State.publish (s : State) (g : Fin 64) (at_ : Qword) (flags : BitVec 16) (vals : List Int) : State :=
  let s := s.withGauge g (fun x => { x with published := true })
  if s.power.hkcUp then s.sendResult g at_ flags vals
  else s.withGauge g (fun x => { x with unsent := x.unsent ++ [(at_, flags, vals)] })

/-- The HKC has returned: the results that waited are published (R244). -/
def State.sendUnsent (s : State) : State :=
  (List.finRange 64).foldl (fun s g =>
    let s' := s.gauges[g].unsent.foldl (fun s r => s.sendResult g r.1 r.2.1 r.2.2) s
    s'.withGauge g (fun x => { x with unsent := [] })) s

/-- A gate's frequency and period from its stamps (R235): N, Δt, f in µHz, period in 2^−16 ns. -/
def frequencyVals (x : Gauge) : List Int :=
  match x.first, x.last with
  | some a, some b =>
    let dt := (b - a).toInt
    let e : Int := if x.set.startEdge = 2 then 2 else 1
    let nm : Int := x.nLast * x.set.prescale
    if 0 < dt ∧ 0 < nm then
      [divRound (nm * 65536 * 10 ^ 15) (e * dt), divRound (e * dt) nm, x.nLast, dt, 0, 0, 0, 0, 0, 0]
    else [0, 0, 0, 0, 0, 0, 0, 0, 0, 0]
  | _, _ => [0, 0, 0, 0, 0, 0, 0, 0, 0, 0]

/-- A set's statistics (R241): mean, least, greatest, rms deviation, shots, unresolved shots. -/
def intervalVals (x : Gauge) : List Int :=
  [0, 0, 0, 0, divRound x.sum x.count, x.least, x.greatest, rmsOf x.count x.sum x.sumSq, x.count, x.unresolved]

/-- A gate with two valid stamps, or a set with a shot. -/
def Gauge.hasResult (x : Gauge) : Bool := if x.set.mode = 2 then decide (0 < x.count) else x.last.isSome

/-- The partial rule (R242): a partial result is published with PARTIAL, otherwise the previous results stay. -/
def State.publishPartial (s : State) (g : Fin 64) (at_ : Qword) : State :=
  let x := s.gauges[g]
  if x.hasResult then
    s.publish g at_ (x.flags ||| 0x40) (if x.set.mode = 2 then intervalVals x else frequencyVals x)
  else s

/-- A gauge ends in a state. -/
def State.endGauge (s : State) (g : Fin 64) (st : GaugeState) : State :=
  (s.withGauge g (fun x => { x with
    state := st, stamping := false, gate := none, shot := none, history := [] })).restSpll (gaugeDie g)

/-- After a set that is complete at a time (R241): the next set with repeat, otherwise DONE. -/
def State.setDone (s : State) (g : Fin 64) (at_ : Qword) : State :=
  let x := s.gauges[g]
  let s := s.publish g at_ x.flags (intervalVals x)
  if x.set.again then s.freshResult g else s.endGauge g .done

/-! ### Edges (R233, R235, R236, R238 to R240) -/

/-- The chosen edge kind: 0 rising, 1 falling, 2 either. -/
def edgeWanted (kind : Nat) (rising : Bool) : Bool := decide (kind = 2) || (decide (kind = 0) == rising)

/-- An interpolator cannot stamp within 1 ns of its last stamp (R233). -/
def unitBusy (u : Option Qword) (t : Qword) : Bool :=
  match u with
  | some v => decide ((t - v).toInt < 65536)
  | none => false

/-- An edge of an input falls within the hold-off (R239). -/
def heldOff (h : Option Qword) (t : Qword) (holdNs : Nat) : Bool :=
  match h with
  | some v => decide ((t - v).toInt < holdNs * 65536)
  | none => false

/-- A saturated edge or stamp: OVERSPEED in the result, and counted (R236, R240). -/
def State.overspeed (s : State) (g : Fin 64) : State :=
  (s.withGauge g (fun x => { x with flags := x.flags ||| 2 })).bump (0x4D40 + g.val) 5

/-- A start edge of a frequency or period gauge with its stamp (R235, R236). A saturated edge is no stamp; N counts it from t_first on. -/
def State.freqEdge (s : State) (g : Fin 64) (t : Qword) : State :=
  let x := s.gauges[g]
  if x.prescaled + 1 < x.set.prescale then s.withGauge g (fun x => { x with prescaled := x.prescaled + 1 })
  else
    let sat := unitBusy x.startUnit t
    let s := s.withGauge g (fun x => { x with prescaled := 0, startUnit := if sat then x.startUnit else some t })
    match x.gate, x.first with
    | none, _ => s
    | some _, none => if sat then s.overspeed g else s.withGauge g (fun x => { x with first := some t, n := 0 })
    | some _, some _ =>
      if sat then (s.withGauge g (fun x => { x with n := x.n + 1 })).overspeed g
      else s.withGauge g (fun x => { x with n := x.n + 1, last := some t, nLast := x.n + 1 })

/-- A shot ends without a stop (R238); a saturated start counts as such too (R240). -/
def State.shotMissed (s : State) (g : Fin 64) : State :=
  let t := (s.withGauge g (fun x => { x with shot := none })).bump (0x4D40 + g.val) 6
  match s.gauges[g].shot with
  | some a => if a.saturated then t.overspeed g else t
  | none => t

/-- A shot pairs with a stop (R238, R240): no result for a saturated stamp, 0 within one bin. -/
def State.pairShot (s : State) (g : Fin 64) (a : Shot) (b : StopEdge) : State :=
  let x := s.gauges[g]
  let win := (a.start + BitVec.ofInt 64 x.set.w1, a.start + BitVec.ofInt 64 x.set.w2)
  let s := s.withGauge g (fun x => { x with shot := none, lastWindow := some win, holdStop := some b.time })
  if a.saturated || b.saturated then s.overspeed g
  else
    let raw := (b.time - a.start).toInt
    let zero := decide (raw.natAbs < 1024)
    let r := if zero then 0 else raw
    let s := s.withGauge g (fun x => { x with
      count := x.count + 1
      unresolved := x.unresolved + b2n zero
      flags := if zero then x.flags ||| 4 else x.flags
      sum := x.sum + r
      sumSq := x.sumSq + r.natAbs * r.natAbs
      least := if x.count = 0 then r else min x.least r
      greatest := if x.count = 0 then r else max x.greatest r })
    let last := if 0 ≤ raw then b.time else a.start
    if s.gauges[g].count = x.set.shots then s.setDone g last else s

/-- A stop that no shot uses is counted (R238): as surplus when it fell within a window that had paired, otherwise as a window miss. -/
def State.stopUnused (g : Fin 64) (s : State) (e : StopEdge) : State := s.bump (0x4D40 + g.val) (if e.surplus then 2 else 1)

/-- Stops that leave the history unpaired before a moment are counted (R238). -/
def State.pruneStops (s : State) (g : Fin 64) (before : Qword) : State :=
  let stays := fun (e : StopEdge) => decide (0 ≤ (e.time - before).toInt)
  let h := s.gauges[g].history
  (h.filter (fun e => !stays e)).foldl (State.stopUnused g) (s.withGauge g (fun x => { x with history := h.filter stays }))

/-- An open shot whose window has passed at time `t` ends (R238). -/
def State.expireShot (s : State) (g : Fin 64) (t : Qword) : State :=
  match s.gauges[g].shot with
  | some a => if s.gauges[g].set.w2 < (t - a.start).toInt then s.shotMissed g else s
  | none => s

/-- The edge that opened a shot is never its own stop (R238). -/
def ownStop (x : GaugeSet) (start stop : Qword) : Bool := decide (x.startChan = x.stopChan) && decide (start = stop)

/-- A time lies in a shot's window (R238). -/
def inWindow (x : GaugeSet) (start t : Qword) : Bool :=
  decide (x.w1 ≤ (t - start).toInt) && decide ((t - start).toInt ≤ x.w2)

/-- A start edge of an interval gauge (R238, R239). -/
def State.shotEdge (s : State) (g : Fin 64) (t : Qword) : State :=
  let s := s.expireShot g t
  let x := s.gauges[g]
  if heldOff x.holdStart t x.set.holdNs then s.bump (0x4D40 + g.val) 4
  else
    let sat := unitBusy x.startUnit t
    let s := s.withGauge g (fun x => { x with startUnit := if sat then x.startUnit else some t })
    if x.shot.isSome then s.bump (0x4D40 + g.val) 3
    else if x.gate.isNone then s
    else
      let s := s.pruneStops g (t + BitVec.ofInt 64 x.set.w1)
      let a : Shot := { start := t, saturated := sat }
      let s := s.withGauge g (fun x => { x with
        shot := some a, holdStart := some t, shotEnd := ((s.now : Int) + unitsOf ((t - s.time).toInt + x.set.w2)).toNat })
      match s.gauges[g].history.find? (fun e => inWindow x.set t e.time && !ownStop x.set t e.time) with
      | some b => (s.withGauge g (fun x => { x with history := x.history.erase b })).pairShot g a b
      | none => s

/-- A stop joins the history, at most four (R238). -/
def State.keepStop (s : State) (g : Fin 64) (e : StopEdge) : State :=
  let s := s.pruneStops g (e.time + BitVec.ofInt 64 s.gauges[g].set.w1)
  let h := s.gauges[g].history
  if h.length < 4 then s.withGauge g (fun x => { x with history := h ++ [e] })
  else (h.take 1).foldl (State.stopUnused g) (s.withGauge g (fun x => { x with history := h.drop 1 ++ [e] }))

/-- A stop edge of an interval gauge with its stamp (R238, R239). One that no open shot takes may still pair with a later shot while it is
in the history; it is counted when it leaves unpaired. -/
def State.stopEdge (s : State) (g : Fin 64) (t : Qword) : State :=
  let s := s.expireShot g t
  let x := s.gauges[g]
  if heldOff x.holdStop t x.set.holdNs then s.bump (0x4D40 + g.val) 4
  else
    let sat := unitBusy x.stopUnit t
    let s := s.withGauge g (fun x => { x with stopUnit := if sat then x.stopUnit else some t })
    let surplus := match x.lastWindow with
      | some (lo, hi) => decide (0 ≤ (t - lo).toInt) && decide (0 ≤ (hi - t).toInt)
      | none => false
    let e : StopEdge := { time := t, saturated := sat, surplus := surplus }
    let used := match x.shot with
      | some a => if inWindow x.set a.start t && !ownStop x.set a.start t then some a else none
      | none => none
    match used with
    | some a => s.pairShot g a e
    | none => if x.set.w1 < 0 then s.keepStop g e else State.stopUnused g s e

/-! ### Gates (R237) -/

/-- The last stamped edge of a gate, with the edges that N has counted since (R235, R237). -/
def Gauge.lastStamp (x : Gauge) : Option (Qword × Nat) :=
  match x.last, x.first with
  | some t, _ => some (t, x.n - x.nLast)
  | none, some t => some (t, x.n)
  | none, none => none

/-- What follows a gate that closed: with repeat the next gate, at the last stamped edge under TIMER, which is its t_first; otherwise
DONE. -/
def State.afterGate (s : State) (g : Fin 64) : State :=
  let x := s.gauges[g]
  if !x.set.again then s.endGauge g .done
  else if x.set.source = 1 then (s.freshResult g).withGauge g (fun x => { x with gate := none })
  else
    match if x.set.mode = 2 then none else x.lastStamp with
    | some (t, n) =>
      let at_ := ((s.now : Int) + unitsOf (t - s.time).toInt).toNat
      (s.openGate g at_ t (ns x.set.gateNs)).withGauge g (fun x => { x with first := some t, n := n })
    | none => s.openGate g x.gateEnd (s.stampAt x.gateEnd) (ns x.set.gateNs)

/-- A gate closes at its end (R235, R241, R242). -/
def State.closeGate (s : State) (g : Fin 64) : State :=
  let x := s.gauges[g]
  let at_ := s.stampAt x.gateEnd
  let s := if x.set.mode = 2 then s.publishPartial g at_
    else s.publish g at_ (if x.last.isSome then x.flags else x.flags ||| 1) (frequencyVals x)
  s.afterGate g

/-- A gate whose end lies at or before a moment closes ahead of what happens then (R237). -/
def State.gatePast (s : State) (g : Fin 64) (at_ : Int) : State :=
  let x := s.gauges[g]
  if x.gate.isSome && decide (x.set.source ≠ 2) && decide ((x.gateEnd : Int) ≤ at_) then s.closeGate g else s

/-- A compare slot of function 9 fires (R179, R237): a gate opens until target + width for each running gauge that names the
slot; one whose gate is still open counts the firing. -/
def State.slotGate (s : State) (k : Fin 8) (target : Qword) : State :=
  (List.finRange 64).foldl (fun (s : State) g =>
    let x := s.gauges[g]
    if x.state = .running ∧ x.set.source = 1 ∧ x.set.slot = k.val then
      if x.gate.isSome then s.bump (0x4D40 + g.val) 7
      else
        let end_ := ((s.now : Int) + unitsOf (target - s.time).toInt).toNat + ns (s.objNat (0x4030 + k.val) 3)
        s.openGate g s.now s.time (end_ - s.now)
    else s) s

/-- The package leaves ON, or a fundamental reset (R244): every running gauge ends ABORTED, and nothing more is published. -/
def State.abortGauges (s : State) : State :=
  { s with gauges := s.gauges.map (fun (x : Gauge) =>
      match x.state with
      | .running => { x with state := .aborted, stamping := false, gate := none, shot := none, history := [], unsent := [] }
      | .idle | .done | .aborted | .timeout => { x with unsent := [] }) }

end Sys2Proof.Machine
end

