-- ==== Sys2Proof/Machine/Gauges.lean ====
section
/-! DEFINITION. The commands of the gauges (chapter 11). -/

namespace Sys2Proof.Machine

/-- GAUGE_START (R234): ignored outside ON and while RUNNING; otherwise settings checked and taken, counters zeroed, the sample
PLL started unless it runs. -/
def execGaugeStart (g : Fin 64) (via : Source) (s : State) : Result :=
  let loc := (0x4C00 + g.val, 0x10)
  .next (s.onPath via fun s => if !s.hasDie (gaugeDie g) then s
  else if !s.isOn then s.ignoreOp loc via .power
  else if s.gauges[g].state = .running then s.ignoreOp loc via .running
  else
    let r := s.clampGauge g
    let s := (List.range 7).foldl (fun s i => s.putNat (0x4D40 + g.val) (i + 1) 0) (r.1.putNat (0x4C40 + g.val) 2 0)
    let set := s.readGauge g
    let s := s.withGauge g (fun _ => { Gauge.reset with
      state := .running, set := set, startedAt := s.now, flags := if r.2 then 0x80 else 0 })
    (s.needSpll (gaugeDie g)).freshResult g)

/-- GAUGE_STOP (R242): the set ends ABORTED, a partial result published; ignored unless RUNNING. -/
def execGaugeStop (g : Fin 64) (via : Source) (s : State) : Result :=
  .next (s.onPath via fun s => if !s.hasDie (gaugeDie g) then s
  else if s.gauges[g].state = .running then (s.publishPartial g s.time).endGauge g .aborted
  else s.ignoreOp (0x4C00 + g.val, 0x10) via .state)

/-- GAUGE_STAMPING_BEGIN (R234, R237): 25 µs after the start on a running PLL; a TIMER or NONE gate opens. -/
def execGaugeStampingBegin (g : Fin 64) (s : State) : Result :=
  let x := s.gauges[g]
  .next (if !s.frozen ∧ x.state = .running ∧ !x.stamping ∧ x.startedAt + us 25 ≤ s.now ∧ s.clocks.plls[spll (gaugeDie g)].runs then
    let s := s.withGauge g (fun x => { x with stamping := true })
    match x.set.source with
    | 0 => s.openGate g s.now s.time (ns x.set.gateNs)
    | 1 => s
    | _ => s.openGate g s.now s.time 0
  else s)

/-- GATE_CLOSE (R237): the gate's time has come; a NONE gate closes with its set alone. -/
def execGateClose (g : Fin 64) (s : State) : Result :=
  let x := s.gauges[g]
  .next (if !s.frozen ∧ x.state = .running ∧ x.gate.isSome ∧ x.set.source ≠ 2 ∧ x.gateEnd ≤ s.now then s.closeGate g else s)

/-- The odd channel of a pair-mode yarn is constant 0 and has no edges (R27, R232). -/
def State.deadChannel (s : State) (ch : Nat) : Bool := decide (ch % 2 = 1) && s.objBool 0x2031 (ch / 8)

/-- A gauge stamps edges: it is past its start on a running sample PLL, and no freeze stops its die (R234, R244, R409). -/
def State.gaugeHears (s : State) (g : Fin 64) : Bool :=
  let x := s.gauges[g]
  decide (x.state = .running) && x.stamping && !s.frozen && s.clocks.plls[spll (gaugeDie g)].runs

/-- An edge of a channel reaches a gauge that hears it, with its stamp (R232, R233): gates that have ended close first. -/
def State.gaugeEdge (s : State) (g : Fin 64) (ch : Nat) (at_ : Int) (f : State → Qword → State) : State :=
  let m := s.edgeMoment ch at_
  let s' := s.gatePast g m
  if !s.gaugeHears g || s.deadChannel ch then s else if s'.gaugeHears g then f s' (s'.stampAt m) else s'

/-- GAUGE_START_EDGE (R235, R238). -/
def execGaugeStartEdge (g : Fin 64) (e : GaugeEdge) (s : State) : Result :=
  let x := s.gauges[g].set
  .next (if edgeWanted x.startEdge e.rising then
    s.gaugeEdge g x.startChan e.at_ (fun s t => if x.mode = 2 then s.shotEdge g t else s.freqEdge g t)
  else s)

/-- GAUGE_STOP_EDGE (R238): unused outside INTERVAL mode (R235). -/
def execGaugeStopEdge (g : Fin 64) (e : GaugeEdge) (s : State) : Result :=
  let x := s.gauges[g].set
  .next (if x.mode = 2 ∧ edgeWanted x.stopEdge e.rising then s.gaugeEdge g x.stopChan e.at_ (fun s t => s.stopEdge g t) else s)

/-- SHOT_TIMEOUT (R238): start + W2 has passed with no stop. -/
def execShotTimeout (g : Fin 64) (s : State) : Result :=
  let x := s.gauges[g]
  .next (if x.state = .running ∧ x.shot.isSome ∧ x.shotEnd ≤ s.now then s.shotMissed g else s)

/-- GAUGE_TIMEOUT (R242): the timeout has passed since the start without a completed set or gate. -/
def execGaugeTimeout (g : Fin 64) (s : State) : Result :=
  let x := s.gauges[g]
  .next (if x.state = .running ∧ x.set.timeoutMs ≠ 0 ∧ !x.published ∧ x.startedAt + ms x.set.timeoutMs ≤ s.now then
    (s.publishPartial g s.time).endGauge g .timeout
  else s)

end Sys2Proof.Machine
end

