-- ==== Sys2Proof/Machine/NetOps.lean ====
section
/-! DEFINITION. The Ethernet ports' own operations (chapter 09): links, settings, bulk readout. -/

namespace Sys2Proof.Machine

/-! ### Bulk readout (R192) -/

/-- Bulk-readout status codes (object 4470:07): 1 running, 2 done, 3 aborted, 4 MTU. -/
def State.bulkEnd (s : State) (status : Nat) : State := { s with net := { s.net with bulk := none } }.putNat 0x4470 7 status

/-- A job on a port ends with ABORTED (R191). -/
def State.bulkAbort (s : State) (p : Fin 2) : State :=
  match s.net.bulk with
  | some b => if b.port = p then s.bulkEnd 3 else s
  | none => s

/-- A job of the package ends with ABORTED. -/
def State.bulkStop (s : State) : State := if s.net.bulk.isSome then s.bulkEnd 3 else s

/-- The least MTU that carries a bulk datagram over IPv4 or IPv6 (R192). -/
def bulkMtu (addr : List Byte) : Nat := if addr.length = 4 then 4140 else 4160

/-- The port that an ODP path is. -/
def ethPort : Source → Option (Fin 2)
  | .eth0 => some 0
  | .eth1 => some 1
  | .mailbox => none
  | .tunnel => none
  | .part => none
  | .bar0 => none

/-- The location of the start command. -/
def bulkLoc : Nat × Nat := (0x4470, 6)

/-- A job starts (R192): one more job id, the first datagram due at once; a job of no barges is done. -/
def State.bulkBegin (s : State) (p : Fin 2) (addr : List Byte) : State :=
  let id := s.net.bulkJobs + 1
  let n := s.objNat 0x4470 2
  let b : Bulk :=
    { port := p, dest := addr, destPort := s.objNat 0x4470 4, job := id, next := 0, start := s.objNat 0x4470 1, count := n,
      source := s.objNat 0x4470 3, rate := s.objNat 0x4470 5, due := s.now }
  let s := { s with net := { s.net with bulkJobs := id, bulk := some b } }
  if n = 0 then s.bulkEnd 2 else s.putNat 0x4470 7 1

/-- A write of 1 to object 4470:06 (R192): ignored while a job runs and on a path that offers no bulk readout, refused when the MTU
is too small. -/
def State.bulkStart (s : State) (via : Source) (addr : List Byte) : State :=
  if s.net.bulk.isSome then s.ignoreOp bulkLoc via .state
  else match ethPort via with
    | none => s.ignoreOp bulkLoc via .state
    | some p =>
      if !(s.objNat (0x4400 + p.val) 0x0A).testBit 1 then s.ignoreOp bulkLoc via .state
      else if s.objNat (0x4400 + p.val) 0x0B < bulkMtu addr then s.putNat 0x4470 7 4
      else s.bulkBegin p addr

/-- The 4,096 bytes of the barge that a job reads next: none while its channel trains or its speed changes (R192, R286); all ones
where the address is out of service. -/
def State.bulkBarge (s : State) (b : Bulk) : Option (List Byte) :=
  let a := b.start + 4096 * b.next
  match b.source with
  | 0 =>
    if !s.deep.inService (a / 4096) then some (List.replicate 4096 0xFF)
    else if s.deep.reachable a then some (memReadBlock s.dsMem a 4096) else none
  | n =>
    let d : Die := if n = 1 then 0 else 1
    if a + 4096 ≤ 2 ^ 26 ∧ s.hasDie d then some (memReadBlock s.basin[d] a 4096) else some (List.replicate 4096 0xFF)

/-- The 16-byte header of a datagram (R192). -/
def bulkHeader (b : Bulk) : List Byte :=
  leBytes 2 0x5E1D ++ leBytes 1 1 ++ leBytes 1 (b2n (decide (b.next + 1 = b.count))) ++ leBytes 4 b.job ++ leBytes 8 b.next

/-- A datagram goes out (R192), and the next falls due by the pacing rate, in MB/s. -/
def State.bulkSend (s : State) (b : Bulk) (data : List Byte) : State :=
  let s := if b.source = 0 then s.dsAccess 5 (b.start + 4096 * b.next) false 4 else s
  let w : UdpSend :=
    { dest := b.dest, srcPort := 48621, destPort := b.destPort, vlan := s.vlanOf b.port, priority := none, hops := none }
  let s := s.emit (.udp b.port w (bulkHeader b ++ data))
  let b' : Bulk := { b with next := b.next + 1, due := b.due + 4096 * 320000 / max b.rate 1 }
  let s := { s with net := { s.net with bulk := some b' } }
  if b.count ≤ b'.next then s.bulkEnd 2 else s

/-! ### Links (R188, R191) -/

/-- The Ethernet link of a port goes (R191): the event, its count, an entry for the PTP parent port, its job, and its part in the
best master clock algorithm. -/
def State.ethDown (s : State) (p : Fin 2) : State :=
  let s := s.bulkAbort p
  if s.net.ports[p].linkUp then
    let s := (s.setEvBit .net (8 + p.val)).bump (0x4402 + p.val) 3
    let s := match s.net.parent with
      | some q => if q.port = p then s.bb 0x0046 1 (leBytes 1 p.val) else s
      | none => s
    (s.withPort p (fun x => { x.quiet with linkUp := false })).elect
  else s

/-- A port's enable is written (R188): a cleared enable takes its link down. -/
def State.ethEnable (s : State) (p : Fin 2) (on : Bool) : State :=
  let s := s.putNat (0x4400 + p.val) 1 (b2n on)
  (if on then s else s.ethDown p).ptpSettle

/-- The settings that take a link down: line mode, FEC, addresses, VLAN id and MTU (R191). -/
def portSetting (sub : Nat) : Bool := [2, 3, 5, 6, 7, 8, 9, 0x0B].contains sub

/-- The FEC that a line mode leaves (R188). A change of the line mode clamps it with reason DEPENDENT. -/
def State.settleFec (s : State) (p : Fin 2) (via : Source) : State :=
  let idx := 0x4400 + p.val
  if s.objNat idx 2 = 1 ∧ s.objNat idx 3 = 2 then (s.clampOp (idx, 3) 5 via 2 0).putNat idx 3 0 else s

/-- A value for a port setting is clamped and stored (R188, R207). -/
def State.setPort (s : State) (p : Fin 2) (sub : Nat) (v : Val) (via : Source) : State :=
  let idx := 0x4400 + p.val
  if sub = 3 ∧ s.objNat idx 2 = 1 ∧ v.int = 2 then (s.clampOp (idx, 3) 9 via 2 0).putNat idx 3 0
  else (s.writeField idx sub v via).settleFec p via

/-- A write to a port's settings (R191): applied at once, and the link trains again. -/
def State.reconfigure (s : State) (p : Fin 2) (sub : Nat) (v : Val) (via : Source) : State := (s.setPort p sub v via).ethDown p

/-- A link may come up: the port is enabled, and powered in ON or kept up by object 7001 (R188, R189, R393). -/
def State.ethReady (s : State) (p : Fin 2) : Bool :=
  s.objBool (0x4400 + p.val) 1 && decide (s.power.phase = .none) && !s.frozenFull &&
    (match s.power.state with
      | .on => s.isOn || s.objBool 0x7001 (1 + p.val)
      | .standby | .retain | .watch => s.objBool 0x7001 (1 + p.val)
      | .off => false)

end Sys2Proof.Machine
end

