-- ==== Sys2Proof/Machine/Net.lean ====
section
/-! DEFINITION. The commands of the Ethernet ports (chapter 09): settings, links, bulk readout. -/

namespace Sys2Proof.Machine

/-- PORT_RECONFIGURE (R191): a value whose length is not that of the object's type changes nothing. -/
def execPortReconfigure (p : Fin 2) (sub : Byte) (value : List Byte) (via : Source) (s : State) : Result :=
  .next (s.onPath via fun s => match objRow (0x4400 + p.val) sub.toNat with
    | some r =>
      if portSetting sub.toNat && lengthOk r.typ value.length then s.reconfigure p sub.toNat (readVal r.typ value) via else s
    | none => s)

/-- ETH_LINK_LOSS (R191). -/
def execEthLinkLoss (p : Fin 2) (s : State) : Result := .next (s.ethDown p)

/-- ETH_LINK_UP (R188). -/
def execEthLinkUp (p : Fin 2) (s : State) : Result :=
  .next (if s.ethReady p && !s.net.ports[p].linkUp then ((s.withPort p (fun x => { x with linkUp := true })).reportGroups p).ptpSettle else s)

/-- BULK_READOUT_START (R192): `addr` is the source address of the ODP write. -/
def execBulkReadoutStart (via : Source) (addr : List Byte) (s : State) : Result := .next (s.onPath via fun s => s.bulkStart via addr)

/-- BULK_READOUT_DATAGRAM (R192): when its time has come and its barge can be read. -/
def execBulkReadoutDatagram (s : State) : Result :=
  .next (match s.net.bulk with
    | none => s
    | some b =>
      if !s.frozenFull ∧ b.due ≤ s.now ∧ s.ethService b.port 1 then
        match s.bulkBarge b with
        | some data => s.bulkSend b data
        | none => s
      else s)

end Sys2Proof.Machine
end

