-- ==== Sys2Proof/Machine/Ptp.lean ====
section
/-! DEFINITION. The commands of IEEE 1588 time (chapter 09). -/

namespace Sys2Proof.Machine

/-- A message comes from the servo's parent on this port. -/
def State.fromParent (s : State) (p : Fin 2) (h : PtpHdr) : Bool :=
  match s.net.parent with
  | some q => decide (q.port = p ∧ q.data.source = h.source ∧ q.data.sourcePort = h.sourcePort.toNat)
  | none => false

/-- A Sync (R198): from another sender it is not accepted; a two-step one waits for its Follow_Up. -/
def State.hearSync (p : Fin 2) (m : SyncMsg) (s : State) : State :=
  if !s.ptpHears p m.hdr then s
  else if !s.fromParent p m.hdr then s.bump (0x4440 + p.val) 4
  else
    let t2 := s.ingress p m.stamp
    if m.twoStep then
      let s := s.dropWaiting
      let w : SyncWait :=
        { port := p, source := m.hdr.source, sourcePort := m.hdr.sourcePort, seqId := m.hdr.seqId, t2 := t2,
          correction := m.hdr.correction, arrived := s.now, coasted := s.xpllCoasts }
      { s with net := { s.net with waiting := some w } }
    else s.takeSync p m.hdr.seqId (m.origin + m.hdr.correction) t2 s.xpllCoasts

/-- SYNC_RECEIVE (R198). -/
def execSyncReceive (p : Fin 2) (m : SyncMsg) (s : State) : Result := .next (s.ptpFrame p (State.hearSync p m))

/-- A Follow_Up (R198): completes its Sync when it comes within one Sync interval. -/
def State.hearFollowUp (p : Fin 2) (m : FollowUpMsg) (s : State) : State :=
  if !s.ptpHears p m.hdr then s
  else match s.net.waiting with
    | none => s
    | some w =>
      if w.port = p ∧ w.source = m.hdr.source ∧ w.sourcePort = m.hdr.sourcePort ∧ w.seqId = m.hdr.seqId then
        let s := { s with net := { s.net with waiting := none } }
        if w.arrived + s.syncInterval < s.now then s.bump (0x4440 + p.val) 4
        else s.takeSync p w.seqId (m.origin + w.correction + m.hdr.correction) w.t2 w.coasted
      else s

/-- FOLLOW_UP_RECEIVE (R198). -/
def execFollowUpReceive (p : Fin 2) (m : FollowUpMsg) (s : State) : Result := .next (s.ptpFrame p (State.hearFollowUp p m))

/-- The dataset that an Announce carries. -/
def announceData (m : AnnounceMsg) : MasterData :=
  { gm := m.gm, timeTraceable := m.timeTraceable, timeSource := m.timeSource, priority1 := m.priority1.toNat, clockClass := m.clockClass.toNat, accuracy := m.accuracy.toNat,
    variance := m.variance.toNat, priority2 := m.priority2.toNat, steps := m.steps.toNat, source := m.hdr.source,
    sourcePort := m.hdr.sourcePort.toNat }

/-- announceReceiptTimeout, three Announce intervals, has passed since an Announce (R176, R193). -/
def State.announceStale (s : State) (seen : Nat) : Bool := decide (seen + 3 * s.announceInterval ≤ s.now)

/-- The best dataset of a port after an Announce: the sender's own is renewed, and one that is better or comes when the old one has timed
out takes its place (R194). -/
def State.takeAnnounce (s : State) (best : Option (MasterData × Nat)) (m : MasterData) : Option (MasterData × Nat) :=
  match best with
  | none => some (m, s.now)
  | some b =>
    if (b.1.source = m.source ∧ b.1.sourcePort = m.sourcePort) ∨ m.better b.1 ∨ s.announceStale b.2 then some (m, s.now) else some b

/-- An Announce (R194, R198): the algorithm and the parent monitor. One of the part's own, or with stepsRemoved of 255 or more,
is ignored. -/
def State.hearAnnounce (p : Fin 2) (m : AnnounceMsg) (s : State) : State :=
  if !s.ptpHears p m.hdr || decide (m.hdr.source = s.clockId) || decide (255 ≤ m.steps.toNat) then s
  else
    (s.withPort p (fun x => { x with best := s.takeAnnounce x.best (announceData m) })).elect

/-- ANNOUNCE_RECEIVE (R194). -/
def execAnnounceReceive (p : Fin 2) (m : AnnounceMsg) (s : State) : Result := .next (s.ptpFrame p (State.hearAnnounce p m))

/-- The package runs the peer-delay mechanism (R193). -/
def State.peerDelay (s : State) : Bool := decide (s.objNat 0x4410 5 = 1)

/-- A Delay_Req at a master port is answered with its receipt time and its correction (R193, R196). -/
def State.hearDelayReq (p : Fin 2) (m : DelayReqMsg) (s : State) : State :=
  if s.ptpHears p m.hdr && decide (s.net.ports[p].role = .master) && !s.peerDelay then
    s.sendPtp p (.delayResp m.hdr.seqId (s.ingress p m.stamp).toNat m.hdr.correction m.hdr.source m.hdr.sourcePort)
  else s

/-- DELAY_REQ_RECEIVE (R193). -/
def execDelayReqReceive (p : Fin 2) (m : DelayReqMsg) (s : State) : Result := .next (s.ptpFrame p (State.hearDelayReq p m))

/-- A response answers this part's request on a port. -/
def State.answersMe (s : State) (p : Fin 2) (source : Qword) (port seq : BitVec 16) : Option DelayAsk :=
  if source = s.clockId ∧ port.toNat = p.val + 1 then
    s.net.ports[p].ask.filter (fun a => a.seqId == seq)
  else none

/-- A Delay_Resp of the parent (R198): meanPathDelay = ((t2 − t1) + (t4 − t3)) ÷ 2. -/
def State.hearDelayResp (p : Fin 2) (m : DelayRespMsg) (s : State) : State :=
  if !s.ptpHears p m.hdr || s.peerDelay || !s.fromParent p m.hdr then s
  else match s.answersMe p m.reqSource m.reqPort m.hdr.seqId with
    | none => s
    | some a =>
      let s := s.withPort p (fun x => { x with ask := none, unanswered := 0 })
      match a.sent, s.net.ports[p].lastSync with
      | some t3, some (t1, t2) => s.takeDelay p (((t2 - t1) + ((m.received : Int) - m.hdr.correction - t3)) / 2)
      | _, _ => s

/-- DELAY_RESP_RECEIVE (R198). -/
def execDelayRespReceive (p : Fin 2) (m : DelayRespMsg) (s : State) : Result := .next (s.ptpFrame p (State.hearDelayResp p m))

/-- A Pdelay_Req is answered in two steps (R193, R197): the response with the receipt time, and once stamped its follow-up. -/
def State.hearPdelayReq (p : Fin 2) (m : DelayReqMsg) (egress : Qword) (s : State) : State :=
  if s.ptpHears p m.hdr && s.peerDelay then
    let a : PtpAwait :=
      { typ := .pdelayResp, seqId := m.hdr.seqId, reqSource := m.hdr.source, reqPort := m.hdr.sourcePort,
        correction := m.hdr.correction }
    let s := s.sendPtp p (.pdelayResp m.hdr.seqId (s.ingress p m.stamp).toNat m.hdr.source m.hdr.sourcePort)
    (s.withPort p (fun x => { x with awaiting := x.awaiting ++ [a] })).queueStamp p .pdelayResp m.hdr.seqId egress
  else s

/-- PDELAY_REQ_RECEIVE (R193). -/
def execPdelayReqReceive (p : Fin 2) (m : DelayReqMsg) (egress : Qword) (s : State) : Result :=
  .next (s.ptpFrame p (State.hearPdelayReq p m egress))

/-- A Pdelay_Resp or its follow-up (R198): the link delay is ((t4 − t1) − (t3 − t2)) ÷ 2, less half the corrections. -/
def State.hearPdelayResp (p : Fin 2) (m : PdelayRespMsg) (s : State) : State :=
  if !s.ptpHears p m.hdr || !s.peerDelay then s
  else match s.answersMe p m.reqSource m.reqPort m.hdr.seqId with
    | none => s
    | some a =>
      if m.followUp then
        match a.sent, a.peer with
        | some t1, some (t2, t4) =>
          (s.withPort p (fun x => { x with ask := none, unanswered := 0 })).takeDelay p
            (((t4 - t1) - ((m.time : Int) + m.hdr.correction - t2)) / 2)
        | _, _ => s
      else
        let t4 := s.ingress p m.stamp
        if m.twoStep then
          s.withPort p (fun x => { x with unanswered := 0, ask := some { a with peer := some ((m.time : Int) - m.hdr.correction, t4) } })
        else
          let s := s.withPort p (fun x => { x with ask := none, unanswered := 0 })
          match a.sent with
          | some t1 => s.takeDelay p ((t4 - t1 - m.hdr.correction) / 2)
          | none => s

/-- PDELAY_RESP_RECEIVE (R198). -/
def execPdelayRespReceive (p : Fin 2) (m : PdelayRespMsg) (s : State) : Result := .next (s.ptpFrame p (State.hearPdelayResp p m))

/-- A management message is ignored and counted (R193). -/
def State.hearManagement (p : Fin 2) (s : State) : State := if s.ptpLive p then s.bump (0x4440 + p.val) 7 else s

/-- MANAGEMENT_MESSAGE_RECEIVE (R193). -/
def execManagementMessageReceive (p : Fin 2) (s : State) : Result := .next (s.ptpFrame p (State.hearManagement p))

/-- A port sends as master: never under role limit 1 (R194). -/
def State.ptpMaster (s : State) (p : Fin 2) : Bool := s.ptpReady p && decide (s.net.ports[p].role = .master) && decide (s.objNat 0x4410 2 ≠ 1)

/-- SYNC_SEND (R193, R197): Sync, and its Follow_Up once the engine has its stamp. While the HKC restarts, the port sends on and the stamps wait
in its queue (DESIGN CHOICE, assumption 84). -/
def execSyncSend (p : Fin 2) (stamp : Qword) (s : State) : Result :=
  .next (if s.ptpMaster p then
    let seq := s.net.ports[p].syncSeq
    let a : PtpAwait := { typ := .sync, seqId := seq, reqSource := 0, reqPort := 0, correction := 0 }
    let s := s.withPort p (fun x => { x with syncSeq := seq + 1, awaiting := x.awaiting ++ [a] })
    (s.sendPtp p (.sync seq)).queueStamp p .sync seq stamp
  else s)

/-- The dataset that a master port announces: the parent's, one step further, or the part's own (R194). -/
def State.announced (s : State) : MasterData :=
  match s.net.parent with
  | some q => { q.data with steps := q.data.steps + 1 }
  | none => s.ownData

/-- ANNOUNCE_SEND (R194). -/
def execAnnounceSend (p : Fin 2) (s : State) : Result :=
  .next (if s.ptpMaster p && s.power.hkcUp then
    let seq := s.net.ports[p].annSeq
    (s.withPort p (fun x => { x with annSeq := seq + 1 })).sendPtp p (.announce seq s.announced)
  else s)

/-- A port asks for its delay: a slave port with a parent, or any port under peer delay (R193). -/
def State.ptpAsks (s : State) (p : Fin 2) : Bool :=
  s.ptpReady p && (s.peerDelay || s.parentOn p)

/-- DELAY_REQ_SEND (R197, R202): Delay_Req or Pdelay_Req, its stamp queued; also while the HKC restarts (assumption 84). -/
def execDelayReqSend (p : Fin 2) (stamp : Qword) (s : State) : Result :=
  .next (if s.ptpAsks p then
    let s := s.missDelay p
    let seq := s.net.ports[p].reqSeq
    let s := s.withPort p (fun x => { x with reqSeq := seq + 1, ask := some { seqId := seq, sent := none, peer := none } })
    if s.peerDelay then (s.sendPtp p (.pdelayReq seq)).queueStamp p .pdelayReq seq stamp
    else (s.sendPtp p (.delayReq seq)).queueStamp p .delayReq seq stamp
  else s)

/-- The monitor of R176 expires: MASTERLOST, and HOLDOVER under owner HKC; a host keeps its own DISC (R201). -/
def State.monitorExpired (s : State) (cause : Nat) : State :=
  let s := s.setEvBit .ptp 11
  if s.tb.owner = .hkc then s.enterHoldover cause else s

/-- The monitor of R176 has a parent to watch: of PTP, or of the Aelop link where the servo steers by it. -/
def State.monitored (s : State) : Bool :=
  decide (s.net.servo ≠ .off) && (if s.linkSteers then s.knots.parent.isSome else s.net.parent.isSome)

/-- SYNC_TIMEOUT (R176): three Sync intervals without an accepted Sync, or a measurement in its place (R226). A DISCIPLINED time base of
the built-in servo ends so with PTP off, too (R199). -/
def execSyncTimeout (s : State) : Result :=
  .next (if s.net.syncSeen + 3 * s.syncInterval ≤ s.now then
    if s.monitored then s.monitorExpired 0
    else if s.tb.owner = .hkc then s.enterHoldover 0
    else s
  else s)

/-- The best master of a port has sent no Announce for announceReceiptTimeout: the algorithm runs without it, and where it was the parent
the monitor expires (R176, R194). -/
def State.announceLost (p : Fin 2) (s : State) : State :=
  match s.net.ports[p].best with
  | none => s
  | some b =>
    if s.announceStale b.2 then
      let s := if s.parentOn p && !s.aelopRef then s.monitorExpired 1 else s
      (s.withPort p (fun x => { x with best := none })).elect
    else s

/-- ANNOUNCE_RECEIPT_TIMEOUT (R176, R193): on each port whose best master has fallen silent. -/
def execAnnounceReceiptTimeout (s : State) : Result := .next ((s.announceLost 0).announceLost 1)

end Sys2Proof.Machine
end

