-- ==== Sys2Proof/Machine/PcieOps.lean ====
section
/-! DEFINITION. DMA jobs, read requests and the resets of the function (chapter 16). -/

namespace Sys2Proof.Machine

/-! ### Channels -/

/-- One DMA channel changed. -/
def State.withDma (s : State) (k : Fin 8) (f : DmaChan → DmaChan) : State :=
  { s with pcie := { s.pcie with dma := vmod s.pcie.dma k f } }

/-- A channel's register offset in BAR0 (R343). -/
def dmaReg (k : Fin 8) (off : Nat) : Nat := 0x40000 + 0x40 * k.val + off

/-- A channel works on an entry: a job runs or its descriptor is being fetched. -/
def DmaChan.busy (c : DmaChan) : Bool := c.job.isSome || c.fetching

/-- The entries of a ring. -/
def DmaChan.entries (c : DmaChan) : Nat := 2 ^ c.ringLog2

/-- The ring holds an entry for the part (R327). -/
def DmaChan.hasEntry (c : DmaChan) : Bool := decide (c.prod % c.entries ≠ c.cons % c.entries)

/-- The staging area of a channel in the descriptor RAM (R331). -/
def stageBase (k : Fin 8) : Nat := 0x4000 + 0x1000 * k.val

/-- The staging place of a ring entry: the entry itself, or its copy (R331). -/
def stagePlace (k : Fin 8) (i : Nat) : Nat := stageBase k + 32 * (i % 128)

/-- The part may issue requests: link up, D0, Bus Master Enable, no reset of the function under way (R338, R339). -/
def Pcie.mayIssue (p : Pcie) : Bool := p.linkUp && p.cfg.bme && decide (p.dstate = .d0) && p.resetWait.isNone

/-! ### Read requests (R326) -/

/-- Non-posted requests that the function may have outstanding. -/
def Pcie.tagLimit (p : Pcie) : Nat := if p.cfg.tag10 then 512 else 256

/-- A free tag: neither outstanding nor retired. -/
def Pcie.freeTag (p : Pcie) : Option Nat :=
  (List.range p.tagLimit).find? (fun t => !(p.tags.any (fun e => e.tag == t)) && (mget t p.retired).isNone)

/-- Reads that a channel has outstanding. -/
def Pcie.outstanding (p : Pcie) (k : Fin 8) : Nat := (p.tags.filter (fun e => e.chan == k)).length

/-- A read request goes out, when a tag is free and the channel is below its limit. -/
def State.issueRead (s : State) (k : Fin 8) (use : TagUse) (addr len : Nat) : Option State :=
  if s.pcie.outstanding k < 64 then
    match s.pcie.freeTag with
    | some t =>
      let e : TagEntry := { tag := t, chan := k, use := use, len := len }
      some ({ s with pcie := { s.pcie with tags := s.pcie.tags ++ [e] } }.emit (.hostRead t addr len))
    | none => none
  else none

/-- Max_Read_Request_Size in bytes, at most 4,096. -/
def Pcie.readSize (p : Pcie) : Nat := min 4096 (128 * 2 ^ p.cfg.maxRead)

/-- The size of a job's next read: no larger than the host allows, and within a 4 KiB line of host memory. -/
def Pcie.chunk (p : Pcie) (addr left : Nat) : Nat := min (min p.readSize left) (4096 - addr % 4096)

/-- A HOST_TO_DS job asks for as much as the limits allow. -/
def State.pumpJob (s : State) (k : Fin 8) : Nat → State
  | 0 => s
  | n + 1 =>
    match s.pcie.dma[k].job with
    | none => s
    | some j =>
      if s.pcie.mayIssue && decide (j.desc.op = 1) && j.verdict.isNone && decide (j.requested < j.desc.len) then
        let c := s.pcie.chunk (j.desc.haddr + j.requested) (j.desc.len - j.requested)
        match s.issueRead k (.data (j.desc.daddr + j.requested)) (j.desc.haddr + j.requested) c with
        | some t => (t.withDma k (fun x => { x with job := some { j with requested := j.requested + c } })).pumpJob k n
        | none => s
      else s

/-- As many reads as a channel may have outstanding. -/
def State.pump (s : State) (k : Fin 8) : State := s.pumpJob k 64

/-! ### Descriptors (R328, R329) -/

/-- The descriptor that 32 bytes spell. -/
def parseDesc (bs : List Byte) : Descriptor :=
  { haddr := fieldOf bs 0 8, daddr := fieldOf bs 8 8, len := fieldOf bs 16 4, op := fieldOf bs 20 1, ctl := fieldOf bs 21 1 }

/-- The die of a BASIN_TO_HOST or CONVOY_TO_HOST descriptor. -/
def Descriptor.die (d : Descriptor) : Die := if d.op = 3 then Fin.ofNat 2 d.daddr else Fin.ofNat 2 (d.daddr / 2 ^ 32)

/-- The bytes of a die's logical basin (R290). -/
def State.basinSize (s : State) (d : Die) : Nat := bankCount s.chip.bankMask[d] * 2 ^ 20

/-- The status that a descriptor's checks give before any byte moves (R329, R330). -/
def State.checkDesc (s : State) (d : Descriptor) : Option Nat :=
  let aligned := decide (d.haddr % 4 = 0 ∧ d.len % 4 = 0 ∧ d.len ≠ 0) && (decide (d.op = 3) || decide (d.daddr % 4 = 0))
  if 3 < d.op ∨ !aligned then some 4
  else if d.op ≤ 1 then if s.deep.top < d.daddr + d.len then some 3 else none
  else if d.op = 2 then
    if s.hasDie d.die ∧ d.daddr % 2 ^ 26 + d.len ≤ s.basinSize d.die then none else some 3
  else if s.hasDie d.die ∧ s.dies[d.die].state = .sealed then none else some 5

/-! ### What a job moves (R329) -/

/-- Deep-store bytes as a transfer reads them: all ones where the place is out of service. -/
def State.deepBytes (s : State) : Nat → Nat → List Byte
  | _, 0 => []
  | a, n + 1 => (if s.deep.inService (a / 4096) then memRead s.dsMem a else 0xFF) :: s.deepBytes (a + 1) n

/-- A range of the deep store holds a place out of service. -/
def State.hasHole (s : State) (a n : Nat) : Bool := !s.deep.rangeOk a n

/-- A barge of a die's window 0. -/
def State.basinBarge (s : State) (d : Die) (m : BargeMeta) : List Byte :=
  memReadBlock s.basin[d] ((s.dies[d].win.base + m.slot) * 4096) 4096

/-- Barges in the ascending order of a key, those of one key in the order given. -/
def sortBarges (key : BargeMeta → Nat) (l : List BargeMeta) : List BargeMeta :=
  l.foldl (fun acc m => acc.takeWhile (fun x => decide (key x ≤ key m)) ++ m :: acc.dropWhile (fun x => decide (key x ≤ key m))) []

/-- The barges of a die's sealed convoy in the order of CONVOY_TO_HOST, with whether each lies in a hole (R329): those of a BASIN convoy in
the die's window 0; those of a DEEP convoy in ring order, coupled dies sharing one ring (R139), then those left in window 0 in closing
order. The directory's come last. -/
def State.convoyList (s : State) (d : Die) : List (List Byte × Bool) :=
  let home := fun (m : BargeMeta) => (s.basinBarge m.die m, false)
  if s.dies[d].plan.deep then
    let ds := s.convoyDies d
    let lead := s.dies[s.leadDie d]
    let n := lead.plan.regionBarges
    let deep := fun (m : BargeMeta) => (s.deepBytes (lead.plan.deepAddr m.slot) 4096, s.hasHole (lead.plan.deepAddr m.slot) 4096)
    (sortBarges (fun m => (m.slot + n - lead.win.deepNext) % n) (ds.flatMap (fun e => s.dies[e].win.deep))).map deep
      ++ (sortBarges BargeMeta.closed (ds.flatMap (fun e => s.dies[e].win.ring))).map home ++ lead.win.dir.map deep
  else (s.dies[d].win.ring ++ s.dies[d].win.dir).map home

/-- What a job to the host moves: its bytes, and whether some carry all ones. -/
def State.jobData (s : State) (d : Descriptor) : List Byte × Bool :=
  match d.op with
  | 0 => (s.deepBytes d.daddr d.len, s.hasHole d.daddr d.len)
  | 2 => (memReadBlock s.basin[d.die] (d.daddr % 2 ^ 26) d.len, false)
  | 3 => let l := (s.convoyList d.die).take (d.len / 4096); (l.flatMap Prod.fst, l.any Prod.snd)
  | _ => ([], false)

/-- Max_Payload_Size in bytes (R321). -/
def Pcie.payload (p : Pcie) : Nat := 128 * 2 ^ p.cfg.maxPayload

/-- The memory writes that carry some bytes: each of at most `size` bytes and within a 4 KiB line of host memory (R321). -/
def hostWrites (size : Nat) (relaxed : Bool) : Nat → Nat → List Byte → List Out
  | 0, _, _ => []
  | n + 1, a, bs =>
    if bs.isEmpty then []
    else
      let c := min size (4096 - a % 4096)
      .hostWrite a relaxed (bs.take c) :: hostWrites size relaxed n (a + c) (bs.drop c)

/-- Bytes go to host memory. -/
def State.toHost (s : State) (relaxed : Bool) (addr : Nat) (bs : List Byte) : State :=
  { s with out := s.out ++ hostWrites s.pcie.payload relaxed bs.length addr bs }

/-- DMA data goes to host memory, with Relaxed Ordering where the host enables it (R321). -/
def State.dataToHost (s : State) (addr : Nat) (bs : List Byte) : State := s.toHost s.pcie.cfg.relaxed addr bs

/-- Received data goes into the deep store; places out of service take none (R266). -/
def State.intoDeep (s : State) (a : Nat) (bs : List Byte) : State :=
  if s.deep.rangeOk a bs.length then { s with dsMem := memWriteBlock s.dsMem a bs }
  else { s with dsMem := bs.zipIdx.foldl (fun m x =>
    if s.deep.inService ((a + x.2) / 4096) then memWrite m (a + x.2) x.1 else m) s.dsMem }

/-! ### The end of a job (R330 to R332) -/

/-- STATUS and DONE of an entry. -/
def statusBytes (status done : Nat) : List Byte := leBytes 1 status ++ zeros 3 ++ leBytes 4 done

/-- STATUS and DONE are written: to the staging place, and to a host ring where the part can still write (R330, R331). -/
def State.writeStatus (s : State) (k : Fin 8) (status done : Nat) : State :=
  let c := s.pcie.dma[k]
  let s := s.hkcRam (stagePlace k c.cons + 24) (statusBytes status done)
  if c.ringStaged ∨ (8 ≤ status ∧ status ≤ 10) then s else s.toHost false (c.ringBase + 32 * c.cons + 24) (statusBytes status done)

/-- The vector at the end of a job (R330). -/
def State.jobVector (s : State) (k : Fin 8) (status : Nat) (irq : Bool) : State :=
  if status = 1 then if irq then s.raise ⟨16 + k.val, by omega⟩ else s else s.raise ⟨24 + k.val, by omega⟩

/-- Completions of a channel's reads are discarded from now on. -/
def Pcie.discard (p : Pcie) (k : Fin 8) : Pcie :=
  { p with tags := p.tags.map (fun e => if e.chan = k then { e with use := .discard } else e) }

/-- The counts of an ended job (object 6040+k). -/
def State.countJob (s : State) (k : Fin 8) (status moved : Nat) : State :=
  let s := s.bump (0x6040 + k.val) (if status ≤ 2 then 1 else 3)
  s.bumpBy (0x6040 + k.val) 2 moved

/-- A job, or the fetch of its descriptor, ends with a status (R330 to R332): STATUS and DONE, CONS, the vector; a status other than
OK and HOLE halts the channel. -/
def State.endJob (s : State) (k : Fin 8) (status : Nat) : State :=
  let c := s.pcie.dma[k]
  let done := (c.job.map DmaJob.moved).getD 0
  let irq := (c.job.map (fun j => j.desc.ctl.testBit 0)).getD false
  let s := (s.writeStatus k status done).countJob k status done
  let s := { s with pcie := s.pcie.discard k }.withDma k (fun x => { x with
    cons := (x.cons + 1) % x.entries, job := none, fetching := false, halted := x.halted || decide (2 < status)
    lastErr := if status = 1 then x.lastErr else status })
  let s := if status = 1 then s else s.setEvBit (.chan k) 7
  s.jobVector k status irq

/-- What a job to the host has issued when it is cut short (R332, R338): an amount of whole dwords that the spec leaves open, written
to host memory. -/
def State.cutShort (s : State) (k : Fin 8) : State :=
  match s.pcie.dma[k].job with
  | none => s
  | some j =>
    if j.desc.op = 1 ∨ j.verdict.isSome then s
    else
      let data := (s.jobData j.desc).1
      let whole := if j.desc.op = 3 then 4096 else 4
      let n := s.nextNat % (data.length / whole + 1) * whole
      (s.drawn.dataToHost j.desc.haddr (data.take n)).withDma k (fun x => { x with job := some { j with moved := n } })

/-- A channel's work is ended from outside with a status. -/
def State.haltJob (s : State) (k : Fin 8) (status : Nat) : State :=
  if s.pcie.dma[k].busy then (s.cutShort k).endJob k status else s

/-- Every running job ends with a status. Answers how many did. -/
def State.haltAll (s : State) (status : Nat) : State := (List.finRange 8).foldl (fun s k => s.haltJob k status) s

/-- Channels with a running job. -/
def Pcie.busyCount (p : Pcie) : Nat := (p.dma.toList.filter DmaChan.busy).length

/-! ### The next entry (R327) -/

/-- A job begins: its checks, and for HOST_TO_DS its first reads; a request of the channel enters P4's queue. -/
def State.beginJob (s : State) (k : Fin 8) (d : Descriptor) : State :=
  let v := s.checkDesc d
  let hole := decide (d.op = 1) && v.isNone && s.hasHole d.daddr d.len
  let s := s.withDma k (fun x => { x with
    fetching := false, job := some { desc := d, requested := 0, moved := 0, hole := hole, verdict := v } })
  let s := if d.op ≤ 1 ∧ v.isNone then s.dsAsk 4 d.daddr (decide (d.op = 1)) else s
  s.pump k

/-- A channel that runs, is not halted and has nothing to do takes its next entry: from the staging area at once, from host memory
by a fetch. A staged descriptor that holds an uncorrectable dword counts as not written (R295). -/
def State.kick (s : State) (k : Fin 8) : State :=
  let c := s.pcie.dma[k]
  if c.run && !c.halted && !c.busy && c.hasEntry && s.pcie.mayIssue then
    if c.ringStaged then
      let a := stageBase k + 32 * c.cons
      let t := s.hkcReads a 32
      if s.spoilt a 32 then t else t.beginJob k (parseDesc (memReadBlock t.ram a 32))
    else match s.issueRead k .descriptor (c.ringBase + 32 * c.cons) 32 with
      | some t => t.withDma k (fun x => { x with fetching := true })
      | none => s
  else s

/-- A channel wants to issue a read and is at a limit of R326. -/
def State.tagBound (s : State) (k : Fin 8) : Bool :=
  let c := s.pcie.dma[k]
  let wants := match c.job with
    | some j => decide (j.desc.op = 1) && j.verdict.isNone && decide (j.requested < j.desc.len)
    | none => c.run && !c.halted && !c.busy && c.hasEntry && !c.ringStaged
  wants && s.pcie.mayIssue && (decide (64 ≤ s.pcie.outstanding k) || s.pcie.freeTag.isNone)

/-- The wait of every such channel over a tick of `n` ns (R326, object 6040+k:04). -/
def State.countWait (s : State) (n : Nat) : State :=
  ((List.finRange 8).filter s.tagBound).foldl (fun s k => s.bumpBy (0x6040 + k.val) 4 n) s

/-- Every channel looks for work. -/
def State.kickAll (s : State) : State := (List.finRange 8).foldl (fun s k => (s.kick k).pump k) s

/-! ### Bus mastering and D-states (R335, R338) -/

/-- Bus Master Enable is cleared (R338). -/
def State.bmeOff (s : State) : State :=
  if s.pcie.cfg.bme then
    let any := decide (0 < s.pcie.busyCount)
    let s := { s with pcie := { s.pcie with cfg := { s.pcie.cfg with bme := false } } }.haltAll 8
    if any then s.setEvBit .hdma 26 else s
  else s

/-- Bus Master Enable is set (R338): pending vectors go out. -/
def State.bmeOn (s : State) : State :=
  if s.pcie.cfg.bme then s
  else { s with pcie := { s.pcie with cfg := { s.pcie.cfg with bme := true } } }.flushAll.kickAll

/-- The function enters D3hot (R335, R338): jobs end, every running channel halts. -/
def State.enterD3 (s : State) : State :=
  if s.pcie.dstate = .d0 then
    let any := decide (0 < s.pcie.busyCount)
    let s := { s with pcie := { s.pcie with dstate := .d3hot } }.haltAll 8
    let s := if any then s.setEvBit .hdma 26 else s
    { s with pcie := { s.pcie with dma := s.pcie.dma.map (fun x => { x with halted := x.halted || x.run }) } }
  else s

/-- The function returns to D0 with its state kept (R335); what is pending goes out (R334). -/
def State.leaveD3 (s : State) : State :=
  if s.pcie.dstate = .d3hot then { s with pcie := { s.pcie with dstate := .d0 } }.flushAll else s

/-! ### Resets of the function (R337, R339, R340) -/

/-- Configuration space after a reset: the sticky bits stay. -/
def CfgSpace.cleared (c : CfgSpace) : CfgSpace :=
  { CfgSpace.reset with
    pmeEn := c.pmeEn, aerMask := c.aerMask, aerSeverity := c.aerSeverity, aerCorrMask := c.aerCorrMask }

/-- The function state of R337 is cleared: configuration space, MSI-X, the HDMA_ registers, DS_HWIN_BASE, the guard lock, the mailbox
transaction. -/
def State.resetFunction (s : State) : State :=
  let p := s.pcie
  let s := { s with
    pcie := { p with
      cfg := p.cfg.cleared, msix := .reset, dstate := .d0, dma := Vector.replicate 8 .reset, hwinBase := 0, resetWait := none
      status := 0 }
    events := { s.events with hdma := 0, chan := Vector.replicate 8 0 }
    guard := { s.guard with pendingWrite := none, unlocked := none }.settle }
  s.mbReset

/-- Every outstanding tag is retired for 1 s (R339). -/
def State.retireTags (s : State) : State :=
  { s with pcie := { s.pcie with
    retired := s.pcie.tags.foldl (fun m e => mput e.tag (s.now + sec 1) m) s.pcie.retired
    tags := [] } }

/-- A function-level or hot reset begins (R339): jobs end HALTED_FLR, the wait for completions. -/
def State.beginReset (s : State) (flr : Bool) : State :=
  let s := s.haltAll 9
  { s with pcie := { s.pcie with resetWait := some (flr, s.now + ms 10) } }.bump 0x6020 (if flr then 4 else 5)

/-- The wait is over: no completion is outstanding, or 10 ms have passed (R339). -/
def State.resetDue (s : State) : Bool :=
  match s.pcie.resetWait with
  | some (_, t) => decide (t ≤ s.now) || s.pcie.tags.isEmpty
  | none => false

/-- The link is lost (R340). -/
def State.linkLost (s : State) (ltssm : Byte) : State :=
  let n := s.pcie.busyCount
  let s := { s with pcie := { s.pcie with linkUp := false, rate := 0, width := 0 } }
  let s := ((s.haltAll 10).retireTags.resetFunction).bump 0x6020 6
  s.bb 0x0093 1 (leBytes 1 ltssm.toNat ++ leBytes 1 n)

/-! ### Configuration space (R322, R323) -/

/-- Configuration requests are answered: the link is up, and no reset of the function is under way (R339). -/
def Pcie.cfgOpen (p : Pcie) : Bool := p.linkUp && p.resetWait.isNone

/-- Fields of configuration space replaced. -/
def State.withCfg (s : State) (f : CfgSpace → CfgSpace) : State := { s with pcie := { s.pcie with cfg := f s.pcie.cfg } }

/-- MSI-X state replaced. -/
def State.withMsix (s : State) (f : Msix → Msix) : State := { s with pcie := { s.pcie with msix := f s.pcie.msix } }

/-- A function-level reset is initiated. -/
def State.startFlr (s : State) : State := if s.pcie.cfgOpen then s.beginReset true else s

/-- PME_Status is cleared; WAKE# is released (R336). -/
def State.clearPme (s : State) : State := { s with pcie := { s.pcie with pmeStatus := false, wakeLow := false } }

/-- A byte lane of a configuration write. -/
def lane (be : BitVec 4) (i : Nat) : Bool := be.getLsbD i

/-- A dword as byte enables merge it over an old one. -/
def mergeBe (old new : Dword) (be : BitVec 4) : Dword :=
  (List.range 4).foldl (fun (d : Dword) i =>
    if lane be i then (d &&& ~~~(0xFF#32 <<< (8 * i))) ||| (new &&& (0xFF#32 <<< (8 * i))) else d) old

/-- The Command register, and the error bits of Status, which a 1 clears (R322): Bus Master Enable has the effects of R338. -/
def State.writeCommand (s : State) (v : Dword) (be : BitVec 4) : State :=
  let s := if lane be 0 then
      let s := s.withCfg (fun c => { c with memEnable := v.getLsbD 1, parity := v.getLsbD 6 })
      if v.getLsbD 2 then s.bmeOn else s.bmeOff
    else s
  let s := if lane be 1 then s.withCfg (fun c => { c with serr := v.getLsbD 8, intxDisable := v.getLsbD 10 }) else s
  if lane be 3 then
    { s with pcie := { s.pcie with status := s.pcie.status &&& ~~~((v >>> 16).setWidth 16 &&& 0xF900) } }
  else s

/-- Half of a 64-bit BAR, with its address bits alone writable. -/
def setBar (bar : Qword) (high : Bool) (v : Dword) (be : BitVec 4) (size : Nat) : Qword :=
  let old : Dword := if high then (bar >>> 32).setWidth 32 else bar.setWidth 32
  let m := mergeBe old v be
  let b : Qword := if high then m ++ bar.setWidth 32 else (bar >>> 32).setWidth 32 ++ m
  b &&& ~~~(BitVec.ofNat 64 (size - 1))

/-- PMCSR: D-state, PME_En, PME_Status (R335, R336). -/
def State.writePmcsr (s : State) (v : Dword) (be : BitVec 4) : State :=
  let s := if lane be 0 then
      if v &&& 3 = 3 then s.enterD3 else if v &&& 3 = 0 then s.leaveD3 else s
    else s
  if lane be 1 then
    let s := s.withCfg (fun c => { c with pmeEn := v.getLsbD 8 })
    if v.getLsbD 15 then s.clearPme else s
  else s

/-- The MSI-X message control: Function Mask and MSI-X Enable (R333, R334). -/
def State.writeMsixCtl (s : State) (v : Dword) (be : BitVec 4) : State :=
  if lane be 3 then (s.withMsix (fun m => { m with enable := v.getLsbD 31, funcMask := v.getLsbD 30 })).flushAll else s

/-- Device Control: error reporting, Relaxed Ordering, payload and read sizes, Extended Tag, Function Level Reset. -/
def State.writeDevCtl (s : State) (v : Dword) (be : BitVec 4) : State :=
  let s := if lane be 0 then s.withCfg (fun c => { c with
      errEnable := v.setWidth 4, relaxed := v.getLsbD 4, maxPayload := min 2 (bitsAt 5 3 v.toNat) }) else s
  if lane be 1 then
    let s := s.withCfg (fun c => { c with extTag := v.getLsbD 8, maxRead := min 5 (bitsAt 12 3 v.toNat) })
    if v.getLsbD 15 then s.startFlr else s
  else s

/-- Device Control 2: completion timeout, 10-Bit Tag Requester Enable. -/
def State.writeDevCtl2 (s : State) (v : Dword) (be : BitVec 4) : State :=
  let s := if lane be 0 then s.withCfg (fun c => { c with
      cplTimeoutValue := bitsAt 0 4 v.toNat, cplTimeoutDisable := v.getLsbD 4 }) else s
  if lane be 1 then s.withCfg (fun c => { c with tag10 := v.getLsbD 12 }) else s

/-- A write of a dword of configuration space with byte enables (R322 to R324): writable fields take it, the rest ignores it. -/
def State.writeCfg (s : State) (off : Nat) (v : Dword) (be : BitVec 4) : State :=
  match off with
  | 0x04 => s.writeCommand v be
  | 0x0C => if lane be 0 then s.withCfg (fun c => { c with cacheLine := v.setWidth 8 }) else s
  | 0x10 => s.withCfg (fun c => { c with bar0 := setBar c.bar0 false v be (2 ^ 20) })
  | 0x14 => s.withCfg (fun c => { c with bar0 := setBar c.bar0 true v be (2 ^ 20) })
  | 0x18 => s.withCfg (fun c => { c with bar2 := setBar c.bar2 false v be (2 ^ 36) })
  | 0x1C => s.withCfg (fun c => { c with bar2 := setBar c.bar2 true v be (2 ^ 36) })
  | 0x20 => s.withCfg (fun c => { c with bar4 := setBar c.bar4 false v be (2 ^ 16) })
  | 0x24 => s.withCfg (fun c => { c with bar4 := setBar c.bar4 true v be (2 ^ 16) })
  | 0x3C => if lane be 0 then s.withCfg (fun c => { c with intLine := v.setWidth 8 }) else s
  | 0x44 => s.writePmcsr v be
  | 0x50 => s.writeMsixCtl v be
  | 0x78 => s.writeDevCtl v be
  | 0x80 => if lane be 0 then s.withCfg (fun c => { c with aspmL1 := v.getLsbD 1 }) else s
  | 0x98 => s.writeDevCtl2 v be
  | 0x104 => { s with pcie := { s.pcie with aerStatus := s.pcie.aerStatus &&& ~~~(mergeBe 0 v be) } }
  | 0x108 => s.withCfg (fun c => { c with aerMask := mergeBe c.aerMask v be })
  | 0x10C => s.withCfg (fun c => { c with aerSeverity := mergeBe c.aerSeverity v be })
  | 0x114 => s.withCfg (fun c => { c with aerCorrMask := mergeBe c.aerCorrMask v be })
  | _ => s

end Sys2Proof.Machine
end

