-- ==== Sys2Proof/Machine/Endpoint.lean ====
section
/-! DEFINITION. The commands of the PCI Express endpoint (chapter 16). -/

namespace Sys2Proof.Machine

/-! ### Channel control (R327, R332, R343) -/

/-- RUN goes from 0 to 1 (R327): BASE, SIZE and PROD are read, and the channel starts. -/
def State.dmaRun (s : State) (k : Fin 8) : State :=
  let c := s.pcie.dma[k]
  if c.run then s
  else (s.withDma k (fun x => { x with
    run := true, ringBase := c.baseHi.toNat * 2 ^ 32 + c.baseLo.toNat, ringLog2 := c.size, ringStaged := c.staged
    cons := c.cons % 2 ^ c.size })).kick k

/-- ABORT (R332): the running job ends at its next data request. -/
def State.dmaAbort (s : State) (k : Fin 8) : State := s.haltJob k 7

/-- RUN goes to 0 (R332): a running job is aborted, then the channel stops. -/
def State.dmaStop (s : State) (k : Fin 8) : State := (s.dmaAbort k).withDma k (fun x => { x with run := false })

/-- RESUME (R332): HALTED is left, or the write is ignored while Bus Master Enable is clear. -/
def State.dmaResume (s : State) (k : Fin 8) : State :=
  if !s.pcie.cfg.bme then s.ignoreOp (regLoc (dmaReg k 0x0C)) .bar0 .state
  else if s.pcie.dma[k].halted then (s.withDma k (fun x => { x with halted := false })).kick k
  else s

/-- DMA_RUN (R327): HDMA_CHk_CTL.RUN. -/
def execDmaRun (k : Fin 8) (s : State) : Result := .next (s.onBar0 (dmaReg k 0x0C) (fun s => s.dmaRun k))

/-- DMA_STOP (R332): HDMA_CHk_CTL.RUN cleared. -/
def execDmaStop (k : Fin 8) (s : State) : Result := .next (s.onBar0 (dmaReg k 0x0C) (fun s => s.dmaStop k))

/-- DMA_ABORT (R332): HDMA_CHk_CTL.ABORT. -/
def execDmaAbort (k : Fin 8) (s : State) : Result := .next (s.onBar0 (dmaReg k 0x0C) (fun s => s.dmaAbort k))

/-- DMA_RESUME (R332): HDMA_CHk_CTL.RESUME. -/
def execDmaResume (k : Fin 8) (s : State) : Result := .next (s.onBar0 (dmaReg k 0x0C) (fun s => s.dmaResume k))

/-- A new producer index (R327). -/
def State.dmaProd (s : State) (k : Fin 8) (i : Nat) : State := (s.withDma k (fun x => { x with prod := i })).kick k

/-- DMA_PRODUCER_WRITE (R327): HDMA_CHk_PROD. -/
def execDmaProducerWrite (k : Fin 8) (i : BitVec 16) (s : State) : Result :=
  .next (s.onBar0 (dmaReg k 0x10) (fun s => s.dmaProd k i.toNat))

/-! ### Jobs (R326 to R331) -/

/-- No channel of the map keeps a deep-store transfer waiting: none trains or refreshes itself (R286). -/
def Deep.ready (d : Deep) : Bool :=
  !d.changing && d.mapChans.all (fun c => decide (d.chans[c].state ≠ .training) && decide (d.chans[c].state ≠ .selfRefresh))

/-- A job that touches the deep store. -/
def State.usesDeep (s : State) (d : Descriptor) : Bool := decide (d.op ≤ 1) || (decide (d.op = 3) && s.dies[d.die].plan.deep)

/-- A job to the host moves its data and ends (R329, R330). -/
def State.finishToHost (s : State) (k : Fin 8) (j : DmaJob) : State :=
  let x := s.jobData j.desc
  let s := s.dataToHost j.desc.haddr x.1
  let s := if s.usesDeep j.desc then s.dsServed 4 else s
  (s.withDma k (fun c => { c with job := some { j with moved := x.1.length, hole := x.2 } })).endJob k (if x.2 then 2 else 1)

/-- A job whose movement or checks are complete ends (R330); the channel takes its next entry. -/
def State.finishJob (s : State) (k : Fin 8) (j : DmaJob) : State :=
  match j.verdict with
  | some v => s.endJob k v
  | none =>
    if s.usesDeep j.desc && !s.deep.ready then s
    else if j.desc.op = 1 then
      if j.moved = j.desc.len then (s.dsServed 4).endJob k (if j.hole then 2 else 1) else s
    else if s.pcie.mayIssue then s.finishToHost k j else s

/-- DMA_JOB_COMPLETE (R330). -/
def execDmaJobComplete (k : Fin 8) (s : State) : Result :=
  .next (match s.pcie.dma[k].job with
    | none => s
    | some j => (s.finishJob k j).kick k)

/-- A tag becomes free. -/
def Pcie.release (p : Pcie) (tag : Nat) : Pcie := { p with tags := p.tags.filter (fun e => e.tag != tag) }

/-- The error bits that a failed read sets in Status and in AER, by its cause (R326, assumption 58). -/
def readErrors (cause : Nat) : BitVec 16 × Dword :=
  match cause with
  | 1 => (0x2000, 0)
  | 2 => (0x1000, 0)
  | 3 => (0x8000, 0x1000)
  | _ => (0, 0x4000)

/-- An error of a read is logged (R326): its tag and a cause, 1 Unsupported Request, 2 Completer Abort, 3 poisoned, 4 timeout. -/
def State.logRead (s : State) (tag cause : Nat) : State :=
  let e := readErrors cause
  { s with pcie := { s.pcie with
    aer := s.pcie.aer ++ [leBytes 2 tag ++ leBytes 1 cause], status := s.pcie.status ||| e.1, aerStatus := s.pcie.aerStatus ||| e.2 } }

/-- A read of a job failed (R326, R331): HOST_ERROR. -/
def State.readFailed (s : State) (e : TagEntry) : State := if s.pcie.dma[e.chan].busy then s.endJob e.chan 6 else s

/-- A fetched descriptor (R331): its copy in the staging area, and its job. -/
def State.descriptorHere (s : State) (k : Fin 8) (bs : List Byte) : State :=
  let bs := fitBytes 32 bs
  (s.hkcRam (stagePlace k s.pcie.dma[k].cons) (bs.take 24 ++ zeros 8)).beginJob k (parseDesc bs)

/-- Data of a HOST_TO_DS job (R329). -/
def State.dataHere (s : State) (e : TagEntry) (a : Nat) (bs : List Byte) : State :=
  let s := s.intoDeep a (fitBytes e.len bs)
  (s.withDma e.chan (fun x => { x with job := x.job.map (fun j => { j with moved := j.moved + e.len }) })).pump e.chan

/-- A completion for an outstanding read (R326, R338). -/
def State.completed (s : State) (e : TagEntry) (st : CplStatus) (bs : List Byte) : State :=
  let s := { s with pcie := s.pcie.release e.tag }
  match e.use, st with
  | .discard, _ => s.bump 0x6020 1
  | _, .unsupported => (s.logRead e.tag 1).readFailed e
  | _, .abort => (s.logRead e.tag 2).readFailed e
  | _, .poisoned => (s.logRead e.tag 3).readFailed e
  | .descriptor, .ok => s.descriptorHere e.chan bs
  | .data a, .ok => s.dataHere e a bs

/-- PCIE_COMPLETION_RECEIVE (R326, R338, R339): for a retired tag it is dropped and counted. -/
def execPcieCompletionReceive (tag : BitVec 10) (st : CplStatus) (data : List Byte) (s : State) : Result :=
  .next (if (mget tag.toNat s.pcie.retired).isSome then (s.setEvBit .hdma 27).bump 0x6020 2
    else match s.pcie.tags.find? (fun e => e.tag == tag.toNat) with
      | some e => (s.completed e st data).kickAll
      | none => s)

/-- COMPLETION_TIMEOUT (R326): the tag is free again, and its job ends with HOST_ERROR. -/
def execCompletionTimeout (tag : BitVec 10) (s : State) : Result :=
  .next (match s.pcie.tags.find? (fun e => e.tag == tag.toNat) with
    | some e =>
      if s.pcie.cfg.cplTimeoutDisable || s.pcie.resetWait.isSome then s
      else
        let s := ({ s with pcie := s.pcie.release e.tag }.bump 0x6020 3).logRead e.tag 4
        match e.use with
        | .discard => s
        | .descriptor => s.readFailed e
        | .data _ => s.readFailed e
    | none => s)

/-! ### Bus mastering, D-states, MSI-X (R334 to R338) -/

/-- BUS_MASTER_DISABLE (R338). -/
def execBusMasterDisable (s : State) : Result := .next (if s.pcie.cfgOpen then s.bmeOff else s)

/-- BUS_MASTER_ENABLE (R338). -/
def execBusMasterEnable (s : State) : Result := .next (if s.pcie.cfgOpen then s.bmeOn else s)

/-- D3HOT_ENTRY (R335). -/
def execD3hotEntry (s : State) : Result := .next (if s.pcie.cfgOpen then s.enterD3 else s)

/-- D0_RETURN (R335). -/
def execD0Return (s : State) : Result := .next (if s.pcie.cfgOpen then s.leaveD3 else s)

/-- A vector's Mask bit. -/
def State.maskVector (s : State) (v : Fin 64) (on : Bool) : State :=
  let b := BitVec.ofNat 64 (2 ^ v.val)
  (s.withMsix (fun m => { m with mask := if on then m.mask ||| b else m.mask &&& ~~~b })).flushVector v

/-- MSIX_UNMASK (R334): a vector's Mask bit in BAR4, or Function Mask or MSI-X Enable in configuration space. -/
def execMsixUnmask (what : UnmaskWhat) (s : State) : Result :=
  .next (match what with
    | .vector v => if s.pcie.answers then s.maskVector v false else s.emit .unsupported
    | .function => if s.pcie.cfgOpen then (s.withMsix (fun m => { m with funcMask := false })).flushAll else s
    | .enable => if s.pcie.cfgOpen then (s.withMsix (fun m => { m with enable := true })).flushAll else s)

/-- PME_STATUS_CLEAR (R336). -/
def execPmeStatusClear (s : State) : Result := .next (if s.pcie.cfgOpen then s.clearPme else s)

/-- CONFIGURATION_WRITE (R322 to R324). -/
def execConfigurationWrite (off : BitVec 12) (value : Dword) (be : BitVec 4) (s : State) : Result :=
  if !(Instr.configurationWrite off value be).wf then .fault .illFormed
  else .next (if s.pcie.cfgOpen then s.writeCfg off.toNat value be else s)

/-! ### Resets and the link (R337 to R341) -/

/-- FUNCTION_LEVEL_RESET (R339). -/
def execFunctionLevelReset (s : State) : Result := .next s.startFlr

/-- HOT_RESET (R337, R339): as a function-level reset, and the link retrains. -/
def execHotReset (s : State) : Result :=
  .next (if s.pcie.cfgOpen then
    { s.beginReset false with pcie := { (s.beginReset false).pcie with linkUp := false, rate := 0, width := 0 } }
  else s)

/-- FLR_WAIT_END (R339): the outstanding tags are retired, the function state is reset. -/
def execFlrWaitEnd (s : State) : Result := .next (if s.resetDue then s.retireTags.resetFunction else s)

/-- RETIRED_TAG_EXPIRY (R339): 1 s after its retirement a tag may be used again. -/
def execRetiredTagExpiry (tag : BitVec 10) (s : State) : Result :=
  .next (match mget tag.toNat s.pcie.retired with
    | some t => if t ≤ s.now then { s with pcie := { s.pcie with retired := mdel tag.toNat s.pcie.retired } }.kickAll else s
    | none => s)

/-- PCIE_LINK_LOSS (R340). -/
def execPcieLinkLoss (ltssm : Byte) (s : State) : Result := .next (if s.pcie.linkUp then s.linkLost ltssm else s)

/-- CLKREQ# is driven low: PERST# is high and the PCIe domain is powered, be it held in reset; else it is at high impedance (R321). -/
def State.clkreqLow (s : State) : Bool :=
  !s.power.perstLow && decide (s.power.phase ≠ .powerOn) && decide (s.power.state ≠ .off)

/-- The link may train: the reference clock is requested and no reset holds the domain (R321). -/
def State.linkMayTrain (s : State) : Bool :=
  s.clkreqLow && (decide (s.power.phase = .none) || decide (s.power.phase = .startup)) && !s.frozenFull

/-- PCIE_LINK_UP (R321, R341): rate 1 to 5, one of the widths. -/
def execPcieLinkUp (rate : Fin 6) (width : BitVec 5) (s : State) : Result :=
  .next (if s.linkMayTrain ∧ !s.pcie.linkUp ∧ rate ≠ 0 ∧ [1, 2, 4, 8, 16].contains width.toNat then
    { s with pcie := { s.pcie with linkUp := true, rate := rate.val, width := width.toNat } }
  else s)

end Sys2Proof.Machine
end

