-- ==== Sys2Proof/Machine/Generator.lean ====
section
/-! DEFINITION. The commands of the pattern generator (chapter 12). -/

namespace Sys2Proof.Machine

/-- CAPn_PG_CTL of a die. -/
def pgCtl (d : Die) : Nat := 0x20A00 + 0x10000 * d.val

/-- A generator command by its path. On a variant without the die BAR0 writes are ignored silently and objects answer ABSENT
(R3, R370). -/
def State.genCommand (s : State) (d : Die) (via : Source) (f : State → State) : State :=
  s.byPath via (pgCtl d) fun s => if s.hasDie d then f s else s

/-- A prime command (R251). -/
def State.primeCommand (d : Die) (via : Source) (s : State) : State :=
  if !s.genStopped d then s.ignoreOp (genLoc d via) via .state
  else if !s.isOn then s.ignoreOp (genLoc d via) via .power
  else s.genPrime d false none

/-- PG_PRIME (R251). -/
def execPgPrime (d : Die) (via : Source) (s : State) : Result := .next (s.genCommand d via (State.primeCommand d via))

/-- A start command (R251): under start source IMMEDIATE it primes a STOPPED generator and starts a READY one. -/
def State.startCommand (d : Die) (via : Source) (s : State) : State :=
  if s.genNat d 3 ≠ 0 then s.ignoreOp (genLoc d via) via .state
  else match s.gens[d].state with
    | .stopped => if s.isOn then s.genPrime d true none else s.ignoreOp (genLoc d via) via .power
    | .ready => s.genRun d s.now
    | .priming | .running | .waiting | .ending => s.ignoreOp (genLoc d via) via .state

/-- PG_START (R251). -/
def execPgStart (d : Die) (via : Source) (s : State) : Result := .next (s.genCommand d via (State.startCommand d via))

/-- PG_READY (R251): priming ends on a running PLL: refused by the checks, or READY once the buffers are filled; a start command or a TIME start that
brought the prime then starts the run. -/
def execPgReady (d : Die) (s : State) : Result :=
  .next (if !s.frozen ∧ s.gens[d].state = .priming ∧ s.clocks.plls[spll d].runs then
    match s.genCheck d with
    | some (e, i) => s.genRefuse d e i
    | none =>
      if !s.genFilled d then s else
      let p := s.genPlanned d
      let s := (s.withGen d (fun g => { g with state := .ready, planned := p })).putNat (0x5010 + d.val) 7 p
      if s.gens[d].startCmd then s.genRun d s.now
      else match s.gens[d].timeTarget with
        | some _ => (s.withGen d (fun g => { g with startAt := some (edgeFrom g.fBase s.now) })).bump (0x5014 + d.val) 6
        | none => s
  else s)

/-- A stop command (R255). -/
def State.stopCommand (d : Die) (via : Source) (s : State) : State :=
  match s.gens[d].state with
  | .stopped | .ending => s.ignoreOp (genLoc d via) via .state
  | .priming | .ready | .running | .waiting => s.genHalt d .stopped

/-- PG_STOP (R255). -/
def execPgStop (d : Die) (via : Source) (s : State) : Result := .next (s.genCommand d via (State.stopCommand d via))

/-- PG_JUMP_REQUEST (R252). While a capture evaluates the die's samples, CORE_WORD raises the requests of TRIGIN. -/
def execPgJumpRequest (d : Die) (src : JumpSource) (s : State) : Result :=
  .next (match src with
    | .request via => s.genCommand d via (fun s => s.genJump d src s.now)
    | .staircase => s.genJump d src s.now
    | .trigin pin rising => if s.dies[d].isOpen ∨ s.frozen then s else s.genTrigin d pin rising s.now)

/-- PG_PASS_END (R250): the pass's last sample has been played. -/
def execPgPassEnd (d : Die) (s : State) : Result :=
  .next (if !s.frozen ∧ s.gens[d].state = .running ∧ s.passEnd d ≤ s.now then
    let t := s.genSettle d
    if t.gens[d].state = .running then (t.genPass d (s.passEnd d)).genAsk d else t
  else s)

/-- PG_UNDERRUN (R255): the next sample of a DEEP segment is not in the prefetch buffer when due. -/
def execPgUnderrun (d : Die) (s : State) : Result :=
  .next (if !s.frozen ∧ s.gens[d].state = .running ∧ !(s.curEntry d).cache then (s.genSettle d).genAsk d else s)

/-- PG_HOLD_END (R255): the hold time has run out. -/
def execPgHoldEnd (d : Die) (s : State) : Result :=
  .next (if !s.frozen ∧ s.gens[d].state = .ending ∧ s.gens[d].holdUntil ≤ s.now then s.genRest d else s)

/-- A scheduled instant has come. -/
def dueAt (t : Option Nat) (now : Nat) : Option Nat :=
  match t with
  | some x => if x ≤ now then some x else none
  | none => none

/-- PG_KNOT_START (R256): the instant that a knot set has come; entry TARGET begins. -/
def execPgKnotStart (d : Die) (s : State) : Result :=
  .next (if !s.frozen ∧ s.gens[d].state = .waiting ∧ s.gens[d].waitFor = .knot then
    match dueAt s.gens[d].startAt s.now with
    | some t => s.genEnter d (s.curEntry d).target t
    | none => s
  else s)

/-- The pulse is read high on two consecutive ticks: always when it lasts three ticks (R257). -/
def State.syncSeen (s : State) (p : SyncinPulse) : Bool := p.seen || decide (30000 * s.tb.tickLen ≤ p.width)

/-- SYNCIN_PULSE (R257, R258): both edges are repeated on SYNCOUT 6 ns later while it is enabled, and a pulse that the ticks see serves each
generator that waits for one. -/
def execSyncinPulse (p : SyncinPulse) (s : State) : Result :=
  let rise := s.now + ns 6 - p.phase * 8 / 25
  let t := if s.objBool 0x5030 1 then s.emit (.syncout rise (rise + p.width * 8 / 25)) else s
  .next (if s.frozen || !s.syncSeen p then t else (t.genSync 0 p.phase).genSync 1 p.phase)

/-- PG_SYNC_START (R257): the instant t_s − C + L has come. -/
def execPgSyncStart (d : Die) (s : State) : Result :=
  .next (match dueAt s.gens[d].startAt s.now with
    | some t =>
      if s.frozen then s
      else if s.gens[d].state = .ready ∧ s.genNat d 3 = 2 then s.genRun d t
      else if s.gens[d].state = .waiting ∧ s.gens[d].waitFor = .syncin then s.genEnter d (s.curEntry d).target t
      else s
    | none => s)

/-- PG_TIME_START (R251): the first f_base edge at or after the slot target + 1 µs has come. -/
def execPgTimeStart (d : Die) (s : State) : Result :=
  .next (match dueAt s.gens[d].startAt s.now with
    | some t => if !s.frozen ∧ s.gens[d].state = .ready ∧ s.gens[d].timeTarget.isSome then s.genRun d t else s
    | none => s)

/-- SYNCOUT_ORIGINATE (R258): a pulse of 300 ns on SYNCOUT at the next tick while it is enabled. -/
def execSyncoutOriginate (via : Source) (s : State) : Result :=
  .next (s.onPath via fun s => if s.objBool 0x5030 1 then
    let t := s.now + 3200 * s.tb.tickLen
    s.emit (.syncout t (t + ns 300))
  else s.ignoreOp (0x5030, 2) via .state)

/-- PG_SYNC_CALIBRATION (R16, R259): command 5, in STOPPED only; it runs on the die's sample clock. -/
def execPgSyncCalibration (d : Die) (via : Source) (s : State) : Result :=
  .next (s.onPath via fun s => if !s.hasDie d then s
  else if s.genStopped d ∧ !s.gens[d].calibrating then
    ((s.withGen d (fun g => { g with calibrating := true, calAt := s.now })).putNat (0x5020 + d.val) 5 1).needSpll d
  else s.ignoreOp (0x5000 + d.val, 0x0F) via .state)

/-- A sync calibration ends with a status (R259). -/
def State.endSyncCal (s : State) (d : Die) (status : Nat) : State :=
  ((s.withGen d (fun g => { g with calibrating := false })).putNat (0x5020 + d.val) 5 status).restSpll d

/-- The mean phase and a trim of unstated value (assumption 5) are stored; MARGIN when the phase lies within 1 ns of a tick (R259). -/
def State.storeSyncCal (s : State) (d : Die) (mean : Nat) : State :=
  let i := 0x5020 + d.val
  let tick := 10000 * s.tb.tickLen
  let far := min (mean % tick) (tick - mean % tick)
  let coarse := s.nextNat % 1024
  let s := s.drawn
  let fine := s.nextNat % 16
  let s := s.drawn.withGen d (fun g => { g with calibrated := true })
  (((s.putNat i 2 mean).putNat i 3 coarse).putNat i 4 fine).endSyncCal d (if far ≤ 1000 then 3 else 2)

/-- SYNC_CALIBRATION_END (R259): with the pulses asked for stamped, or NO_SYNC, which stores nothing, with none after 1 s. -/
def execSyncCalibrationEnd (d : Die) (r : SyncCalResult) (s : State) : Result :=
  let n := s.objNat (0x5020 + d.val) 1
  .next (if !s.frozen ∧ s.gens[d].calibrating then
    if n ≤ r.phases.length then s.storeSyncCal d ((r.phases.take n).sum / max n 1)
    else if r.phases = [] ∧ s.gens[d].calAt + sec 1 ≤ s.now then s.endSyncCal d 4
    else s
  else s)

/-- LOOP_CACHE_LOAD (R254): refused, shortened to fit, or begun. -/
def execLoopCacheLoad (d : Die) (via : Source) (s : State) : Result :=
  let i := 0x5040 + d.val
  let src := s.objNat i 2
  let len := s.objNat i 3
  let dst := s.objNat i 4
  .next (s.onPath via fun s => if !s.hasDie d then s
  else if s.gens[d].loading.isSome then s.ignoreOp (i, 5) via .running
  else if !s.genStopped d ∨ s.cacheBytes d = 0 ∨ !s.deep.rangeOk src len then
    s.withGen d (fun g => { g with loadStatus := 3 })
  else
    let n := min len (s.cacheBytes d - dst)
    let s := if n = len then s else s.clampOp (i, 3) 5 via len n
    (s.withGen d (fun g => { g with loading := some (src, dst, n), loadStatus := 1 })).dsAsk (genPort d) src false)

/-- LOOP_CACHE_LOAD_DONE (R254): the range stands in window 2, and the cache is valid. -/
def execLoopCacheLoadDone (d : Die) (s : State) : Result :=
  .next (if s.frozen then s else match s.gens[d].loading with
    | some (src, dst, n) =>
      let bytes := memReadBlock s.dsMem src n
      let s := { s with basin := s.basin.set d (memWriteBlock s.basin[d] ((s.cacheWindow d).1 + dst) bytes) }
      let s := (s.dsServed (genPort d)).dsGroups (genPort d) (n / 1024)
      (s.withGen d (fun g => { g with loading := none, loadStatus := 2, cacheValid := true })).genAsk d
    | none => s)

end Sys2Proof.Machine
end

