-- ==== Sys2Proof/Machine/Knots.lean ====
section
/-! DEFINITION. The commands of knots (chapter 10): sending, receiving, delivery, the duplicate cache. -/

namespace Sys2Proof.Machine

/-! ### Sending (R210, R211) -/

/-- The knot that the hub takes next: die 0's first, then die 1's, then a waiting host knot (R210, R211). -/
def State.takeQueued (s : State) : Option (Knot × State) :=
  let pop := fun (d : Die) => s.withDie d (fun x => { x with stair := { x.stair with knotQueue := x.stair.knotQueue.drop 1 } })
  match s.dies[0].stair.knotQueue, s.dies[1].stair.knotQueue, s.knots.hostKnots with
  | k :: _, _, _ => some (k, pop 0)
  | [], k :: _, _ => some (k, pop 1)
  | [], [], k :: rest => some (k, { s with knots := { s.knots with hostKnots := rest } })
  | [], [], [] => none

/-- KNOT_SEND (R210). -/
def execKnotSend (s : State) : Result :=
  if s.frozenFull then .next s
  else match s.takeQueued with
  | some (k, s) => .next (s.sendKnot k)
  | none => .next s

/-- The host knot of a class (R211). -/
def State.hostKnot (s : State) (cls : Nat) : Knot :=
  let t := s.objNat 0x4840 1
  { cls := Fin.ofNat 16 cls, node := s.nodeId, die := 0, convoy := 0, time := if t = 0 then s.time else BitVec.ofNat 64 t,
    offset := s.objInt 0x4840 2, hops := 0, holdover := false, relayed := false, host := true, seq := 0 }

/-- A die's knot queue is full (R76). -/
def DieSt.queueFull (d : DieSt) : Bool := decide (8 ≤ d.stair.knotQueue.length)

/-- A host knot is sent, or waits behind two full die queues (R211). -/
def State.sendHostKnot (s : State) (cls : Nat) : State :=
  let k := s.hostKnot cls
  if (s.dies[0].queueFull && s.dies[1].queueFull) || !s.knots.hostKnots.isEmpty then
    { s with knots := { s.knots with hostKnots := s.knots.hostKnots ++ [k] } }
  else s.sendKnot k

/-- HOST_KNOT_SEND (R211): object 4840:03, clamped to its classes (R231). -/
def execHostKnotSend (cls : Byte) (via : Source) (s : State) : Result :=
  let c := if 15 < cls.toNat then 15 else cls.toNat
  .next (s.onPath via fun s =>
    (if c = cls.toNat then s else s.clampOp (0x4840, 3) 1 via cls.toNat c).sendHostKnot c)

/-! ### Receiving (R212 to R217) -/

/-- The route is open to arriving knots: an UP Aelop port (R221), an Ethernet port with knot service (R216), or the package's own
path. -/
def State.routeOpen (s : State) : KnotRoute → Bool
  | .alp k _ => s.alpUp k
  | .eth p v6 => s.knotOver p v6
  | .own => true

/-- A knot that arrives over Ethernet stands in a frame, which is counted (R189). -/
def State.countArrival (s : State) : KnotRoute → State
  | .alp _ _ => s
  | .eth p _ => s.countFrame p
  | .own => s

/-- A knot on a route that is not open: over Ethernet its frame is dropped and counted (R189). -/
def State.strayKnot (s : State) : KnotRoute → State
  | .alp _ _ => s
  | .eth p _ => if s.ethHears p then (s.countFrame p).dropFrame p else s
  | .own => s

/-- A knot's frame arrives with its FCRC wrong (R219). -/
def spoiledOn : KnotRoute → Option (Fin 4)
  | .alp k good => if good then none else some k
  | .eth _ _ => none
  | .own => none

/-- KNOT_RECEIVE (R212). -/
def execKnotReceive (route : KnotRoute) (bytes : List Byte) (s : State) : Result :=
  .next (if s.frozenFull then s
    else match spoiledOn route with
      | some k => if s.alpHears k then s.discardFrame k else s
      | none => if s.routeOpen route then (s.countArrival route).takeKnot route bytes else s.strayKnot route)

/-! ### Delivery (R214) -/

/-- A knot reaches a die that evaluates samples. -/
def State.knotToDie (s : State) (d : Die) (kn : Knot) : State × Bool :=
  if s.dies[d].isOpen then
    let x := (s.toRun d).knotUses kn s.now
    (s.runDie d (fun r => (r.knotUses kn s.now).1), x.2)
  else (s, false)

/-- A knot reaches the knot-in terms that chamber W of a watching die uses (R48, R113). -/
def State.knotToWatch (s : State) (d : Die) (kn : Knot) : State × Bool :=
  let w := s.dies[d].watch
  if w.running then
    let use := termsInUse w.conds
    let hits := (List.range 8).filter (fun j => use.contains (0x90 + j) && (readKnotIn s.objs d j).mask.getLsbD kn.cls.val)
    let bits := hits.foldl (fun (m : BitVec 8) j => m ||| BitVec.ofNat 8 (2 ^ j)) 0
    (s.withDie d (fun x => { x with watch := { x.watch with knotNow := x.watch.knotNow ||| bits } }), !hits.isEmpty)
  else (s, false)

/-- The PME knot wake of the endpoint (R336). -/
def State.knotPme (s : State) (kn : Knot) : State × Bool :=
  if s.pcie.cfg.pmeEn && (s.objNat 0x6030 1).testBit kn.cls.val && decide (s.pcie.dstate = .d3hot) then
    ({ s with pcie := { s.pcie with pmeStatus := true } }.emit .pme, true)
  else (s, false)

/-- Apply uses in turn, and whether one of them took the knot. -/
def applyUses (s : State) (us : List (State → State × Bool)) : State × Bool :=
  us.foldl (fun q u => let x := u q.1; (x.1, q.2 || x.2)) (s, false)

/-- An accepted knot at both dies (R214). Answers whether it had a taker. -/
def State.dieKnot (s : State) (kn : Knot) : State × Bool :=
  applyUses s
    [fun s => s.knotToDie 0 kn, fun s => s.knotToDie 1 kn, fun s => s.knotToWatch 0 kn, fun s => s.knotToWatch 1 kn,
     fun s => s.genKnot 0 kn.cls.val (knotTime kn), fun s => s.genKnot 1 kn.cls.val (knotTime kn)]

/-- Uses of a knot; with no taker it is counted (R214). -/
def State.countUse (q : State × Bool) : State := if q.2 then q.1 else q.1.bump 0x4821 9

/-- An accepted knot at both dies and the endpoint (R214). -/
def State.useKnot (s : State) (kn : Knot) : State :=
  State.countUse (applyUses s [fun s => s.dieKnot kn, fun s => s.knotPme kn])

/-- A knot that reaches frozen dies: the endpoint uses it, and up to eight are held for the thaw (R410). -/
def State.holdKnot (s : State) (a : Accepted) : State :=
  let q := s.knotPme a.knot
  if q.1.knots.held.length < 8 then { q.1 with knots := { q.1.knots with held := q.1.knots.held ++ [a] } } else State.countUse q

/-- KNOT_DELIVER (R214). While the dies are frozen, up to eight knots are held for the thaw (R410). -/
def execKnotDeliver (s : State) : Result :=
  if s.frozenFull then .next s
  else match s.knots.accepted with
  | [] => .next s
  | a :: rest =>
    let s := { s with knots := { s.knots with accepted := rest } }
    .next (if s.frozen then s.holdKnot a else s.useKnot a.knot)

/-- DUPLICATE_ENTRY_EXPIRY (R215): an entry goes once 2 × KNOT_ACCEPT has passed since it was written. -/
def execDuplicateEntryExpiry (node : BitVec 18) (seq : BitVec 16) (s : State) : Result :=
  .next { s with knots := { s.knots with
    cache := s.knots.cache.filter (fun e => !(e.node == node && e.seq == seq && decide (e.written + s.dupLife ≤ s.now))) } }

end Sys2Proof.Machine
end

