-- ==== Sys2Proof/Machine/FreezeOps.lean ====
section
/-! DEFINITION. Freeze and thaw (R409, R410): what stops, what a thaw does to the captures, knots, generators and gauges of the
dies. -/

namespace Sys2Proof.Machine

/-! ### Freezing (R409) -/

/-- The pulses on TRIGOUT end (R409 step 3). Actions that have not reached a pin by then do not. -/
def State.endPulse (s : State) (p : Fin 2) : State :=
  let due := s.pins.waiting[p].filter (fun x => decide (x.1 ≤ s.now))
  let s := due.foldl (State.startPulse p) { s with pins := { s.pins with waiting := s.pins.waiting.set p [] } }
  if s.pins.pulseEnd[p].isSome then
    let s := { s with pins := { s.pins with
      trigout := s.pins.trigout &&& ~~~(BitVec.ofNat 2 (2 ^ p.val)), pulseEnd := s.pins.pulseEnd.set p none } }
    s.emit (.trigout p (s.trigoutLevel p false) (s.now + ns 200))
  else s

/-- A freeze takes effect (R409): counted, its time kept, the FREEZE entry; a full one loses the PCI Express link
(R340) and stops the HKC. The generators hold the last sample played. -/
def State.beginFreeze (s : State) (full byReg : Bool) : State :=
  let f : Freeze := { full := full, byReg := byReg, timeword := s.time, epoch := s.tb.epoch, since := s.now }
  let s := ((s.bump 0x7420 2).put 0x7420 3 (.num s.time.toNat)).endPulse 0 |>.endPulse 1
  let s := (s.genSettle 0).genSettle 1
  let s := if full && s.pcie.linkUp then s.linkLost 0 else s
  let s := if full then { s with power := { s.power with hkcUp := false } } else s
  { s with health := { s.health with freeze := some f } }.bb 0x00A1 1 (leBytes 1 (b2n full) ++ leBytes 1 (b2n byReg) ++ leBytes 8 0)

/-- A freeze request is ignored and counted (R409). -/
def State.ignoreFreeze (s : State) : State := s.bump 0x7420 6

/-- A freeze request (R409): honoured in ON with no freeze in force; a register write may raise a capture-scope freeze to full
scope. -/
def State.requestFreeze (s : State) (full byReg : Bool) : State :=
  if !s.isOn then s.ignoreFreeze
  else match s.health.freeze with
    | none => s.beginFreeze full byReg
    | some f => if byReg && full && !f.full then s.beginFreeze true true else s.ignoreFreeze

/-! ### Thawing (R410) -/

/-- The sample that would have come next when the clocks stopped. -/
def Run.frozenAt (r : Run) : SampleAt :=
  let c := r.die.convoy
  let pos := c.pos + r.die.plan.period
  { s := c.nextSample, pos := pos, prevPos := c.pos, latch := c.openAt + pos, prevLatch := c.openAt + c.pos
    acc := c.acc + r.die.plan.period * r.inc, time := accTime (c.acc + r.die.plan.period * r.inc) }

/-- The part of a frozen interval that the sample clock skips, in units of position: whole periods, or bins in state mode. -/
def Plan.skipped (p : Plan) (took : Nat) : Nat :=
  let step := if p.state then 5 else p.period
  took / step * step

/-- The missing range of a freeze (R148): from the first instant not recorded to the last. In state mode that is the bin after the last
sample. -/
def Run.frozenGap (r : Run) (took : Nat) : GapMark :=
  let c := r.die.convoy
  let step := if r.die.plan.state then 5 else r.die.plan.period
  { xstart := accTime (c.acc + step * r.inc), xend := accTime (c.acc + max step (r.die.plan.skipped took) * r.inc) }

/-- A missing range joined to one that is owed already (R148). -/
def joinGap (owed : Option GapMark) (g : GapMark) : Option GapMark := some { xstart := (owed.map GapMark.xstart).getD g.xstart, xend := g.xend }

/-- Every stream and the event stream owe FREEZE_GAP (R147, R410). -/
def Run.oweFreeze (r : Run) (g : GapMark) : Run :=
  let js := (List.range 8).filter (fun j => r.die.plan.strands.getLsbD j)
  let ids := if r.die.plan.mode = 2 then r.die.plan.envGroups.map (fun e => 0x40 + e.g) else js.map (fun j => 8 * r.d.val + j)
  let r := ids.foldl (fun r id => r.withStream id (fun s => { s with freeze := joinGap s.freeze g })) r
  r.withStore (fun s => { s with eventFreeze := joinGap s.eventFreeze g })

/-- An open convoy goes on after `took` units of freeze (R410): its streams' barges close, its clock has moved on, the next sample is
one without history. -/
def Run.thaw (took : Nat) (r : Run) : Run :=
  let n := r.die.plan.skipped took
  let g := r.frozenGap took
  let r := if r.die.convoy.storing && decide (0 < r.die.convoy.nextSample) then (r.closeStreams r.frozenAt).oweFreeze g else r
  r.withDie (fun d => { d with
    fe := { d.fe with
      restart := true, clkPos := d.fe.clkPos.map (fun x => x + n)
      clocks := d.fe.clocks.map (fun l => l.filter (fun x => decide (d.convoy.pos + n < x))) }
    convoy := { d.convoy with pos := d.convoy.pos + n, acc := d.convoy.acc + n * r.inc } })

/-- A die goes on after a freeze (R410). -/
def State.thawDie (took : Nat) (s : State) (d : Die) : State :=
  let s := s.markDieGauges d 5
  let s := s.withGen d (fun g => { g with passStart := g.passStart + took, holdUntil := g.holdUntil + took })
  if s.dies[d].isOpen then s.runDie d (Run.thaw took) else s

/-- A capture-scope freeze thaws (R410). -/
def State.thaw (s : State) : State :=
  match s.health.freeze with
  | none => s
  | some f =>
    let took := s.now - f.since
    let held := s.knots.held
    let s := { s with health := { s.health with freeze := none }, knots := { s.knots with held := [] } }
    let s := (s.putNat 0x7420 5 (took / ns 1)).setEvBit .hlt 6
    let s := s.bb 0x00A2 1 (leBytes 1 (b2n f.full) ++ leBytes 1 (b2n f.byReg) ++ leBytes 8 (took / ns 1))
    let s := ([0, 1] : List Die).foldl (State.thawDie took) s
    held.foldl (fun s a => State.countUse (s.dieKnot a.knot)) s

/-- A THAW request by register (R410): ignored and counted while FREEZE_N is low; it thaws a capture-scope freeze that the register
caused. -/
def State.requestThaw (s : State) : State :=
  if s.health.freezePinLow then s.ignoreFreeze
  else match s.health.freeze with
    | some f => if f.byReg && !f.full then s.thaw else s
    | none => s

/-- HLT_FRZ past its guard (R409, R410, R416). -/
def State.writeFreeze (v : Dword) (s : State) : State :=
  let s := { s with host := { s.host with frzScope := v.getLsbD 2 } }
  let s := if v.getLsbD 0 then s.requestFreeze (v.getLsbD 2) true else s
  if v.getLsbD 1 then s.requestThaw else s

end Sys2Proof.Machine
end

