-- ==== Sys2Proof/Machine/FrontEnd.lean ====
section
/-! DEFINITION. The commands of the front end (chapter 02) and of the maintenance tasks (R404): eye finder, calibrations, deskew, yarn
directions and drives. -/

namespace Sys2Proof.Machine

/-! ### Delays (R32) -/

/-- The delay that the objects of a global channel ask for, in steps (R32). -/
def State.delaySum (s : State) (ch : Nat) : Int := Sys2Proof.Machine.delaySum s.objs ch

/-- The delay applied to a global channel (R32). -/
def State.delayOf (s : State) (ch : Nat) : Int := chanDelay s.objs ch

/-- The sum of a channel is clamped: a clamp-report entry names its deskew object, the sum asked and the sum applied (R32). -/
def State.checkDelay (s : State) (ch : Nat) (via : Source) : State :=
  if s.delayOf ch = s.delaySum ch then s
  else s.clampOp (chanIdx 0x2020 ch, ch % 256) 5 via (s.delaySum ch) (s.delayOf ch)

/-- A write of a deskew or phase object has taken effect: the sums of its channels are checked (R32). -/
def State.checkDelays (s : State) (idx sub : Nat) (via : Source) : State :=
  if 0x2020 ≤ idx ∧ idx ≤ 0x2027 then s.checkDelay (256 * (idx - 0x2020) + sub) via
  else if idx = 0x2030 then (List.range 8).foldl (fun s i => s.checkDelay (8 * sub + i) via) s
  else s

/-! ### Calibration (R41 to R44) -/

/-- Thirty days. -/
def calLimit : Nat := sec 2592000

/-- A full calibration of a die begins; a task that waited has started (R404). -/
def State.beginCal (s : State) (d : Die) : State :=
  let s := if s.health.due[dieTask d].isSome then s.startTask (dieTask d) else s
  ((s.withDie d (fun x => { x with calRunning := true, check := none })).markDieGauges d 5).needSpll d

/-- Fine time of a channel: unavailable, with its entry, or available again (R35). -/
def State.markFine (s : State) (d : Die) (c : Nat) (wide : Bool) : State :=
  let ch := dieBase d + c
  let s := s.putNat (chanIdx 0x20B8 ch) (ch % 256) (b2n wide)
  let s := s.withDie d (fun x => { x with fe := { x.fe with noFine := setLevel x.fe.noFine c wide } })
  if wide then s.bb 0x0080 1 (leBytes 2 ch) else s

/-- The channels whose mark a calibration of die `d` changes: those now wide, and those that were marked. -/
def State.fineChannels (s : State) (d : Die) (wide : List (Fin 1024)) : List Nat :=
  (List.range 1024).filter (fun c => s.dies[d].fe.noFine.getLsbD c || wide.any (fun w => decide (w.val = c)))

/-- A full calibration is stored (R44): time, epoch, temperature, source FRESH, age 0. -/
def State.storeCal (s : State) (d : Die) : State :=
  let t := s.dieTemp d
  let s := ((s.put 0x2061 (1 + d.val) (.num s.time.toNat)).putInt 0x2061 (3 + d.val) t).putNat 0x2061 (5 + d.val) 2
  let s := { s with mram := { s.mram with present := s.mram.present ||| 2 } }
  s.withDie d (fun x => { x with
    calRunning := false, calDue := false, deskewTemp := t, driftAt := s.now
    cal := { time := s.time, epoch := s.tb.epoch, tempMc := t, valid := true, doneAt := s.now, extra := 0 } })

/-- CALIBRATION_COMPLETE (R35, R41, R44): `wide` are the channels whose interpolators have a bin wider than 31.25 ps. One run in
ARMING is counted. -/
def execCalibrationComplete (d : Die) (wide : List (Fin 1024)) (s : State) : Result :=
  .next (if !s.frozen ∧ s.dies[d].calRunning then
    let cs := s.fineChannels d wide
    let s := s.storeCal d
    let s := cs.foldl (fun s c => s.markFine d c (wide.any (fun w => decide (w.val = c)))) s
    let s := if s.dies[d].state = .arming then s.bump 0x2061 0x0A else s
    s.restSpll d
  else s)

/-- FULL_CALIBRATION_COMMAND (R44): object 2060, a mask of dies; a named die that is not IDLE ignores it. -/
def execFullCalibrationCommand (mask : BitVec 2) (via : Source) (s : State) : Result :=
  let m : BitVec 2 := if mask = 0 then 1 else mask
  .next (s.onPath via fun s =>
    let s := if mask = 0 then s.clampOp (0x2060, 0) 0 via 0 1 else s
    [(0 : Die), 1].foldl (fun s d =>
    if !m.getLsbD d.val || !s.hasDie d then s
    else if !s.isOn then s.ignoreOp (0x2060, 0) via .power
    else if s.dies[d].state = .idle then s.beginCal d
    else s.ignoreOp (0x2060, 0) via .state) s)

/-- Die-scope work may run: the package is ON, the HKC serves, the die is IDLE (R17, R20, R43). -/
def State.dieFree (s : State) (d : Die) : Bool :=
  s.isOn && !s.frozen && s.power.ready && decide (s.dies[d].state = .idle) && !s.dies[d].calRunning && s.dies[d].check.isNone
    && !s.dies[d].fe.eyeRunning

/-- An idle check of a die begins (R43): 2 ms for a drift check that finds `drift` channels moved, 15 ms for an internal deskew. It runs on
the sample clock, and results of gauges on the die that it overlaps are DISTURBED (R16, R244). -/
def State.beginCheck (s : State) (d : Die) (drift : Option Nat) (deskew : Bool) : State :=
  let s := s.startTask (dieTask d)
  let c : IdleCheck :=
    { ends := s.now + (if drift.isSome then ms 2 else 0) + (if deskew then ms 15 else 0)
      drift := drift.map (fun n => (n, s.dies[d].driftAt)), deskew := if deskew then some (s.dieTemp d) else none }
  ((s.withDie d (fun x => { x with check := some c, driftAt := if drift.isSome then s.now else x.driftAt })).markDieGauges d 5).needSpll d

/-- DRIFT_CHECK (R43): 60 s after the last one; `moved` are the channels that it re-trims. Work that may not run becomes due (R404). -/
def execDriftCheck (d : Die) (moved : List (Fin 1024)) (s : State) : Result :=
  .next (if s.hasDie d ∧ s.dies[d].driftAt + sec 60 ≤ s.now then
    if s.dieFree d then s.beginCheck d (some moved.eraseDups.length) false else s.makeDue (dieTask d)
  else s)

/-- The die temperature has moved more than 5 °C since the last internal deskew (R43). -/
def State.deskewDue (s : State) (d : Die) : Bool := decide (5000 < (s.dieTemp d - s.dies[d].deskewTemp).natAbs)

/-- DESKEW_RECALIBRATION (R43): run on an IDLE die, due otherwise. -/
def execDeskewRecalibration (d : Die) (s : State) : Result :=
  .next (if s.hasDie d ∧ s.deskewDue d then
    if s.dieFree d then s.beginCheck d none true else s.makeDue (dieTask d)
  else s)

/-- CALIBRATION_AGE_DUE (R42): thirty days of age: a full calibration at the next idle moment, or at the next ARMING. -/
def execCalibrationAgeDue (d : Die) (s : State) : Result :=
  .next (if s.hasDie d ∧ s.dies[d].cal.valid ∧ calLimit ≤ s.calAge d ∧ !s.dies[d].calRunning then
    let s := (s.withDie d (fun x => { x with calDue := true })).makeDue (dieTask d)
    if s.dieFree d then s.beginCal d else s
  else s)

/-! ### Maintenance (R404) -/

/-- PLLs whose revalidation is due and free are searched (R310). -/
def State.revalidate (s : State) (is : List (Fin 13)) : State :=
  (is.filter (fun i => s.bandOff i && s.revalFree i)).foldl State.beginReval s

/-- The front-end work of a die that waited runs: calibration by age, otherwise the drift check, which finds `moved` channels, internal
deskew and band revalidation. -/
def State.runDieTask (s : State) (d : Die) (moved : Nat) : State :=
  if s.dies[d].calDue then s.beginCal d
  else
    let drift := decide (s.dies[d].driftAt + sec 60 ≤ s.now)
    let deskew := s.deskewDue d
    let s := if drift || deskew then s.beginCheck d (if drift then some moved else none) deskew else s.startTask (dieTask d)
    s.revalidate [spll d]

/-- The hub PLLs whose tables R310 revalidates. -/
def hubPlls : List (Fin 13) := [2, 3, 4, 5, 6, 7, 8, 9, 10, 11]

/-- MAINTENANCE_TASK_RUN (R404): a task that is due runs when R17, R248 and R268 leave it free. -/
def execMaintenanceTaskRun (t : TaskRun) (s : State) : Result :=
  .next (if s.health.due[t.task].isNone || !s.power.ready then s
  else match t.task with
    | 0 => if s.dieFree 0 then s.runDieTask 0 t.moved.eraseDups.length else s
    | 1 => if s.dieFree 1 then s.runDieTask 1 t.moved.eraseDups.length else s
    | 2 => if s.trainingFree then
        match (List.finRange 8).find? s.trainingDue with
        | some c => s.beginTraining c
        | none => s.startTask 2
      else s
    | 3 => if s.deep.pending ∧ !s.deep.changing ∧ s.isOn ∧ s.speedFree ∧ !s.deep.anyTraining then s.applySpeed else s
    | 4 => if s.isOn ∧ !s.anyBusy then (s.startTask 4).revalidate hubPlls else s)

/-! ### The eye finder (R38 to R40) -/

/-- The die that a start of the eye finder names (object 2070:01). -/
def State.eyeDie (s : State) : Die := if s.objNat 0x2070 1 = 0 then 0 else 1

/-- EYE_FINDER_START (R38): object 2070:08, when both dies are IDLE and the package is ON; its settings are those of the start. On factory
defaults a full calibration runs first. A start while the finder runs is ignored (DESIGN CHOICE, assumption 53). -/
def execEyeFinderStart (via : Source) (s : State) : Result :=
  let d := s.eyeDie
  let n := fun (k : Nat) => s.objNat 0x2070 k
  let run : EyeRun := { deskew := decide (n 2 = 1), edges := n 3, points := n 4, step := n 5, ref := n 6, auto := s.objBool 0x2070 7 }
  .next (s.onPath via fun s => if !s.isOn then s.ignoreOp (0x2070, 8) via .power
  else if s.dies[0].state ≠ .idle ∨ s.dies[1].state ≠ .idle ∨ s.eyeRunning then s.ignoreOp (0x2070, 8) via .state
  else
    let s := (s.withDie d (fun x => { x with fe := { x.fe with eye := some run } })).putNat 0x2071 0 1
    let s := (s.markDieGauges d 5).needSpll d
    if s.objNat 0x2061 (5 + d.val) = 0 then s.beginCal d else s)

/-- The threshold code of a channel at a point of the sweep (R38). -/
def EyeRun.code (e : EyeRun) (current : Int) (i : Nat) : Int :=
  clampInt 0 1023 (current + ((i : Int) - (e.points / 2 : Nat)) * e.step)

/-- What the finder stores for a channel (R39). A channel without an edge gets width 0, or spread 0xFFFF; its centre and best code are
free values (assumption 53). -/
def State.eyeResult (e : EyeRun) (d : Die) (results : List EyeResult) (s : State) (c : Nat) : State :=
  let ch := dieBase d + c
  let put := fun (s : State) (base : Nat) (v : Int) => s.putInt (chanIdx base ch) (ch % 256) v
  let code := s.objInt (chanIdx 0x2000 ch) (ch % 256)
  match results.find? (fun r => decide (r.chan.val = c)) with
  | some r =>
    put (put (put s 0x2080 (clampInt (-64) 64 r.centre)) 0x2088 r.width.toNat) 0x2090 (e.code code (min r.best (e.points - 1)))
  | none =>
    let centre := clampInt (-64) 64 s.nextInt
    let s := s.drawn
    let best := s.nextNat % e.points
    let s := s.drawn
    put (put (put s 0x2080 centre) 0x2088 (if e.deskew then 0xFFFF else 0)) 0x2090 (e.code code best)

/-- Auto-apply on one channel that showed an edge (R39): the deskew that cancels the centre, clamped and reported, and in state-eye mode
the best code. -/
def State.eyeApply (e : EyeRun) (d : Die) (s : State) (r : EyeResult) : State :=
  let ch := dieBase d + r.chan.val
  let v := -(clampInt (-64) 64 r.centre) - s.objInt 0x2030 (ch / 8)
  let s := (s.writeField (chanIdx 0x2020 ch) (ch % 256) (.num v) .part).checkDelay ch .part
  if e.deskew then s else s.putInt (chanIdx 0x2000 ch) (ch % 256) (s.objInt (chanIdx 0x2090 ch) (ch % 256))

/-- The die that the eye finder measures, with its run. -/
def State.eyeOn (s : State) : Option (Die × EyeRun) :=
  match s.dies[0].fe.eye, s.dies[1].fe.eye with
  | some e, _ => some (0, e)
  | none, some e => some (1, e)
  | none, none => none

/-- EYE_FINDER_DONE (R39): results for every channel of the die. -/
def execEyeFinderDone (results : List EyeResult) (s : State) : Result :=
  .next (match s.eyeOn with
    | some (d, e) =>
      if s.frozen || s.dies[d].calRunning then s
      else
        let s := (List.range 1024).foldl (State.eyeResult e d results) s
        let s := if e.auto then results.foldl (State.eyeApply e d) s else s
        s.endEye 2
    | none => s)

/-- EYE_FINDER_NO_CLOCK (R40): the reference edge is absent for 1 ms. -/
def execEyeFinderNoClock (s : State) : Result := .next (if !s.frozen ∧ s.eyeRunning then s.endEye 4 else s)

/-! ### Yarn directions and drives (R28 to R31) -/

/-- A die takes yarn changes: IDLE or SEALED, its generator stopped (R29). -/
def State.yarnFree (s : State) (d : Die) : Bool :=
  (decide (s.dies[d].state = .idle) || decide (s.dies[d].state = .sealed)) && s.genStopped d

/-- CAPn_YDIR_k past its guard (R29, R31), mirrored in object 2032. Output yarns drive the idle word (R30). -/
def State.writeYdir (d : Die) (k : Fin 4) (v : Dword) (s : State) : State :=
  if s.yarnFree d then
    { s with pins := { s.pins with yarnDir := s.pins.yarnDir.set d (s.pins.yarnDir[d].set k v) } }.showIdle d
  else s.ignoreOp (regLoc (capReg d (0x800 + 8 * k.val))) .bar0 .state

/-- CAPn_YDRV_k past its guard (R29, R31), mirrored in object 2033. -/
def State.writeYdrv (d : Die) (k : Fin 8) (v : Dword) (s : State) : State :=
  if s.yarnFree d then
    { s with pins := { s.pins with yarnDrive := s.pins.yarnDrive.set d (s.pins.yarnDrive[d].set k v) } }
  else s.ignoreOp (regLoc (capReg d (0x820 + 8 * k.val))) .bar0 .state

/-- WRITE_YARN_DIRECTION (R29): a guarded write of CAPn_YDIR_k; a die that the variant lacks ignores it (R2). -/
def execWriteYarnDirection (d : Die) (k : Fin 4) (v : Dword) (g : GuardForm) (s : State) : Result :=
  .next (if s.hasDie d then s.guardForm (capReg d (0x800 + 8 * k.val)) v g (State.writeYdir d k)
    else s.onBar0 (capReg d (0x800 + 8 * k.val)) id)

/-- WRITE_YARN_DRIVE (R29): a guarded write of CAPn_YDRV_k. -/
def execWriteYarnDrive (d : Die) (k : Fin 8) (v : Dword) (g : GuardForm) (s : State) : Result :=
  .next (if s.hasDie d then s.guardForm (capReg d (0x820 + 8 * k.val)) v g (State.writeYdrv d k)
    else s.onBar0 (capReg d (0x820 + 8 * k.val)) id)

end Sys2Proof.Machine
end

