-- ==== Sys2Proof/Machine/PowerOps.lean ====
section
/-! DEFINITION. Power states, resets and start-up (chapter 19): the switched domains, the requests, what each state and each reset
keeps, the steps of a start. -/

namespace Sys2Proof.Machine

/-! ### Switched domains (R388, R389) -/

/-- A die is out of IDLE and SEALED. -/
def DieSt.busy (d : DieSt) : Bool := d.isOpen || decide (d.state = .arming)

/-- Users of a strand front end (R389): a capture or term, a gauge, an output yarn, the eye finder, a calibration. -/
def State.strandUsed (s : State) (d : Die) (j : Nat) : Bool :=
  let x := s.dies[d]
  (x.busy && (x.plan.strands.getLsbD j || x.plan.envGroups.any (fun g => inStrand j g.group.members) || x.plan.program.needsStrand j))
    || x.fe.eyeRunning || x.calRunning || x.check.isSome || (s.outputYarns d).any (fun y => decide (y / 16 = j))
    || (List.finRange 64).any (fun g => decide (g.val / 32 = d.val ∧ s.gauges[g].state = .running)
        && (decide (s.gauges[g].set.startChan % 1024 / 128 = j) || decide (s.gauges[g].set.stopChan % 1024 / 128 = j)))

/-- A domain that R389 powers only while it is used, and whether it is used now: strand front ends and hawser logic. -/
def State.domainUsed (s : State) (n : Nat) : Option Bool :=
  if 30 ≤ n then none
  else
    let d : Die := if n < 15 then 0 else 1
    let k := n % 15
    if k < 8 then some (s.strandUsed d k)
    else if k < 10 then some (s.dies[d].busy || s.dies[d].fe.eyeRunning)
    else none

/-- One such domain is looked at: in use it is on and not idle; on and unused it begins to idle. -/
def State.noteDomain (s : State) (n : Nat) : State :=
  match s.domainUsed n with
  | none => s
  | some used =>
    let p := s.power
    if used then { s with power := { p with domains := p.domains ||| BitVec.ofNat 44 (2 ^ n), idleSince := mdel n p.idleSince } }
    else if p.domains.getLsbD n && (mget n p.idleSince).isNone then
      { s with power := { p with idleSince := mput n s.now p.idleSince } }
    else s

/-- The users of the domains are looked at, at every tick (R389). -/
def State.noteDomains (s : State) : State := (List.range 30).foldl State.noteDomain s

/-- The bits of some domains. -/
def domainBits (ns : List Nat) : BitVec 44 := ns.foldl (fun m n => m ||| BitVec.ofNat 44 (2 ^ n)) 0

/-- The dies that exist. -/
def State.realDies (s : State) : List Die := ([0, 1] : List Die).filter s.hasDie

/-- The ports that object 7001 keeps up, as their domains. -/
def State.keptDomains (s : State) : List Nat :=
  (if s.objBool 0x7001 1 || s.objBool 0x7001 2 then [39] else []) ++ (if s.objNat 0x7001 3 = 0 then [] else [40])

/-- The strands of a die that hold a watched channel (R112). -/
def Watch.strands (w : Watch) : List Nat :=
  (List.range 8).filter (fun j => w.slots.toList.any (fun c =>
    match c with
    | some c => decide (c.val / 128 = j)
    | none => false))

/-- The powered domains (R389, R390). A retained quadrant counts as off. -/
def State.domainsOn (s : State) : BitVec 44 :=
  let hub := [38, 41, 42, 43]
  match s.power.phase, s.power.state with
  | .powerOn, _ => 0
  | .fundamental, _ => 0
  | _, .on =>
    let used := (List.range 30).filter (fun n => s.domainUsed n == some true)
    s.power.domains ||| domainBits (used ++ s.realDies.flatMap (fun d => [10, 11, 12, 13, 14].map (fun k => 15 * d.val + k)) ++
      s.deep.mapChans.map (fun c => 30 + c.val) ++ [38, 39, 40, 41, 42, 43])
  | _, .standby => domainBits (hub ++ s.keptDomains)
  | _, .retain => domainBits (hub ++ s.keptDomains)
  | _, .watch => domainBits (hub ++ s.keptDomains ++ s.realDies.flatMap (fun d =>
      let w := s.dies[d].watch
      if w.running then (15 * d.val + 10 + homeQuadrant s.chip.bankMask[d]) :: w.strands.map (fun j => 15 * d.val + j) else []))
  | _, .off => 0

/-! ### Requests (R391, R392) -/

/-- The codes of PWR_CTL.REQ. -/
def PState.code : PState → Nat
  | .on => 0
  | .standby => 1
  | .retain => 2
  | .watch => 3
  | .off => 4

/-- Where a power request stands in the logs: PWR_CTL, or object 7000:01. -/
def powerLoc (via : Source) : Nat × Nat := locFor via 0xB0000 0x7000 1

/-- A request is ignored (R391): counted, PWR_EVT.IGN, logged with its cause. -/
def State.refusePower (s : State) (via : Source) (c : Cause) : State :=
  ((s.bump 0x7010 2).setEvBit .pwr 1).ignoreOp (powerLoc via) via c

/-- What makes a request be ignored with cause POWER (R15, R391). -/
def State.powerBusy (s : State) : Bool :=
  s.anyBusy || !s.genStopped 0 || !s.genStopped 1 || s.chip.test.isSome || decide (0 < s.pcie.busyCount) || s.net.bulk.isSome ||
    s.eyeRunning || s.dies[0].calRunning || s.dies[1].calRunning

/-- The dies that a request for WATCH would watch (R392). -/
def State.toWatch (s : State) : List Die :=
  s.realDies.filter (fun d => s.objBool (0x3860 + d.val) 1 && decide (s.dies[d].state = .idle))

/-- The conditions of R392 on the dies. -/
def State.watchOk (s : State) : Bool :=
  !s.toWatch.isEmpty && (!s.objBool 0x3930 1 || decide (s.dies[0].state = .idle) && decide (s.dies[1].state = .idle))

/-- The sets of dies whose plans are checked together: both when they are coupled (R115, R392). -/
def State.watchSets (s : State) : List (List Die) := if s.objBool 0x3930 1 then [[0, 1]] else s.toWatch.map (fun d => [d])

/-- A die's watchkeeper holds the plan that a wake arms (R115). -/
def State.holdPlan (s : State) (x : Die × Plan) : State :=
  s.withDie x.1 (fun y => { y with watch := { y.watch with plan := some x.2 } })

/-- Steps 1 and 2 of R121 on the plans of every watched die (R392); none when one is refused. -/
def State.watchPlans (s : State) : State × Bool :=
  s.watchSets.foldl (fun (q : State × Bool) ds =>
    if q.2 then
      match q.1.admitPlans ds with
      | (t, some plans) => (plans.foldl State.holdPlan t, true)
      | (t, none) => (t, false)
    else q) (s, true)

/-- The longest time of an entry (R391). -/
def entryTime : PState → Nat
  | .on => 0
  | .standby => us 200
  | .retain => us 200
  | .watch => us 400
  | .off => us 50

/-- A transition begins. -/
def State.startMove (s : State) (t : PState) (wake took : Nat) (next : Option (PState × Source)) : State :=
  let m : PTransition := { target := t, wake := wake, done := s.now + took, next := next }
  { s with power := { s.power with transition := some m } }

/-- No die holds a plan for a wake. -/
def State.clearPlans (s : State) : State := { s with dies := s.dies.map (fun x => { x with watch := { x.watch with plan := none } }) }

/-- An accepted request to leave ON (R391): idle training and idle checks end, and WATCH checks its plans. -/
def State.leaveOn (s : State) (t : PState) (via : Source) : State :=
  let s := (s.abortTraining.breakCheck 0).breakCheck 1
  if t = .watch then
    match s.clearPlans.watchPlans with
    | (s, true) => s.startMove t 0 (entryTime t) none
    | (s, false) => s.refusePower via .state
  else s.startMove t 0 (entryTime t) none

/-- The MPLLs of the map run. -/
def State.mpllsRun (s : State) : Bool := s.deep.mapChans.all (fun c => s.clocks.plls[mpll c].runs)

/-- The clocks of ON start: XPLL and MPLLs (R283, R318). -/
def State.startClocks (s : State) : State :=
  s.deep.mapChans.foldl (fun s c => s.startPll (mpll c) (mpllCount s.deep.running)) (s.startPll 3 500)

/-- A return to ON begins (R283, R391): 100 µs with stored MPLL bands, about 2.09 ms without. -/
def State.returnOn (s : State) (wake : Nat) (next : Option (PState × Source)) : State :=
  let s := s.startClocks
  s.startMove .on wake (if s.mpllsRun then us 100 else us 2090) next

/-- A request is handled with no transition in progress (R391). One for WATCH while READY is clear is ignored with cause NOT_READY: a
restarting HKC cannot check the plans (DESIGN CHOICE, assumption 80). -/
def State.beginRequest (s : State) (t : PState) (via : Source) : State :=
  if s.power.state = .off ∨ s.power.state = t then s
  else if s.power.state = .on then
    if s.powerBusy then s.refusePower via .power
    else if t = .watch ∧ !s.power.ready then s.refusePower via .notReady
    else if t = .watch ∧ !s.watchOk then s.refusePower via .state
    else s.leaveOn t via
  else if t = .on then s.returnOn 1 none
  else s.returnOn 1 (some (t, via))

/-- A power request (R391), which also stands in object 7000:01. One that meets a transition waits for its end. -/
def State.requestPower (t : PState) (via : Source) (s : State) : State :=
  let s := s.putNat 0x7000 1 t.code
  if s.power.phase ≠ .none ∨ !s.power.everReady then s.refusePower via .notReady
  else match s.power.transition with
    | some m => { s with power := { s.power with transition := some { m with next := some (t, via) } } }
    | none => s.beginRequest t via

/-! ### Entering the low-power states (R15, R283, R390, R393) -/

/-- A die's sealed convoy has barges that stand in the basin alone (R15, R138). -/
def State.basinOnly (s : State) (d : Die) : Bool :=
  s.objNat (0x3910 + d.val) 8 = 0 && !(s.convoyBarges (s.convoyDies d)).isEmpty && !s.dies[d].plan.deep ||
    s.dies[d].plan.deep && !(s.convoyDies d).all (fun e => s.dies[e].win.ring.isEmpty)

/-- A sealed convoy is released on entry to STANDBY or OFF, with an entry when its barges are lost (R15, R391). -/
def State.loseSealed (s : State) (d : Die) : State :=
  if s.dies[d].state = .sealed then
    let lost := s.basinOnly d
    let id := s.dies[d].convoy.id
    let s := (s.convoyDies d).foldl State.releaseDie s
    if lost then s.bb 0x0091 2 (leBytes 1 d.val ++ leBytes 4 id.toNat) else s
  else s

/-- A channel in service or training goes into self-refresh. -/
def DsChan.selfRefresh (c : DsChan) : DsChan :=
  match c.state with
  | .inService => { c with state := .selfRefresh }
  | .training => { c with state := .selfRefresh }
  | .selfRefresh | .absent | .nonconforming | .failed => c

/-- A channel leaves self-refresh. -/
def DsChan.wake (c : DsChan) : DsChan :=
  match c.state with
  | .selfRefresh => { c with state := .inService }
  | .inService | .training | .absent | .nonconforming | .failed => c

/-- Every channel is in self-refresh (R283, R284). -/
def State.restDeep (s : State) : State := { s with deep := { s.deep with chans := s.deep.chans.map DsChan.selfRefresh } }

/-- Ports that are not powered lose their links (R393, R401). -/
def State.dropPorts (s : State) : State :=
  let s := ([0, 1] : List (Fin 2)).foldl (fun s p => if s.ethReady p then s else s.ethDown p) s
  (List.finRange 4).foldl (fun s k => if s.alpPowered k then s else s.alpDown k) s

/-- The sample PLLs and MPLLs stop; the XPLL too, unless WATCH or a port kept up needs it (R318, R390). -/
def State.restClocks (s : State) (t : PState) : State :=
  let s := ([0, 1, 4, 5, 6, 7, 8, 9, 10, 11] : List (Fin 13)).foldl State.stopPll s
  if t = .watch ∨ !s.keptDomains.isEmpty then s.startPll 3 500 else s.stopPll 3

/-- The predicted wake shortfall in ns (R116), to the nearest (assumption 7): `rate` in bytes per second, `home` in bytes. -/
def shortfall (rate : Rat) (home : Nat) : Nat :=
  if 640000000000 < rate then 35000
  else if rate ≤ 0 then 0
  else
    let t := 35000 - (home : Rat) * 1000000000 / rate
    if t ≤ 0 then 0 else (t + 1 / 2).floor.toNat

/-- A watch slot's channel, die-local. -/
def State.watchSlot (s : State) (d : Die) (k : Fin 64) : Option (Fin 1024) :=
  let v := s.objNat (0x3862 + d.val) (1 + k.val)
  if v = 0xFFFF then none else some (Fin.ofNat 1024 v)

/-- The levels of the watch slots from a die's levels. -/
def slotLevels (slots : Vector (Option (Fin 1024)) 64) (levels : BitVec 1024) : BitVec 64 :=
  (List.finRange 64).foldl (fun (m : BitVec 64) k =>
    match slots[k] with
    | some c => if levels.getLsbD c.val then m ||| BitVec.ofNat 64 (2 ^ k.val) else m
    | none => m) 0

/-- A die that a wake would arm, at WATCH entry (R112, R113, R115, R116): its home part, the predicted shortfall, its watchkeeper, which
runs when the die is watched. -/
def State.enterWatch (s : State) (d : Die) : State :=
  let s := s.layout d true
  let w := s.dies[d].watch
  let rate := match w.plan with
    | some p => p.rate
    | none => 0
  let s := s.putNat (0x3870 + d.val) 4 (shortfall rate (4096 * (s.dies[d].win.homeLimit.getD 0)))
  let slots := Vector.ofFn (fun k => s.watchSlot d k)
  let fe := openFront s.objs d s.dies[d].fe
  s.withDie d (fun x => { x with
    fe := fe
    watch := { Watch.reset with
      running := s.toWatch.contains d, plan := w.plan, slots := slots, levels := slotLevels slots fe.levels
      conds := (List.range 4).map (fun i => readWatchCond s.objs (0x3868 + 4 * d.val + i))
      kinds := Vector.ofFn (fun (k : Fin 64) => s.objNat (0x3864 + d.val) (1 + k.val)) } })

/-- The dies whose plans a watch holds: the watched ones, and both when they are coupled (R115). -/
def State.heldPlans (s : State) : List Die := s.realDies.filter (fun d => s.dies[d].watch.plan.isSome)

/-- STANDBY loses the basins (R14, R390). What they read as afterwards the spec leaves open: every byte reads as one that nothing has
written (DESIGN CHOICE, assumption 79). -/
def State.loseBasins (s : State) : State :=
  { s with basin := Vector.replicate 2 [], gens := s.gens.map (fun g => { g with cacheValid := false }) }

/-- The state of a low-power state other than OFF is entered. -/
def State.enterLow (s : State) (t : PState) : State :=
  let s := s.thaw.abortGauges.restDeep.restClocks t
  let s := { s with power := { s.power with state := t, transition := none } }.dropPorts
  match t with
  | .standby => ((s.loseSealed 0).loseSealed 1).loseBasins
  | .watch => s.heldPlans.foldl State.enterWatch s
  | .retain => s
  | .on => s
  | .off => s

/-- The package is in ON again (R283, R391). -/
def State.arriveOn (s : State) (wake : Nat) : State :=
  { s with
    power := { s.power with state := .on, transition := none, wake := wake }
    deep := { s.deep with chans := s.deep.chans.map DsChan.wake }
    dies := s.dies.map (fun x => { x with watch := { x.watch with running := x.watch.running && x.busy } }) }

/-! ### What resets keep (R398) -/

/-- The object kept in MRAM: "preserve basin on reset" (R292). -/
def mramObj (key : Nat) : Bool := decide (key = objKey 0x5800 1)

/-- Objects that a fundamental reset keeps: those of MRAM, those of the time base (R186), and what the part itself counts and
publishes, but for the neighbours of Aelop ports that it leaves DISABLED (R231). -/
def keptObj (key : Nat) : Bool :=
  let idx := key / 256
  let neighbour := decide (0x4810 ≤ idx ∧ idx ≤ 0x4813 ∧ key % 256 = 3)
  !neighbour && (mramObj key || decide (0x4000 ≤ idx ∧ idx ≤ 0x40FF) ||
    (match objRow idx (key % 256) with
      | some r => (match r.acc with
        | .ro => true
        | .const => true
        | .w1 => true
        | .rw => false
        | .rwi => false
        | .wo => false
        | .g => false)
      | none => false))

/-- A PLL that is off, with its band table. -/
def Pll.survive (p : Pll) : Pll := { Pll.reset with table := p.table }

/-- A channel with its training record, as MRAM keeps it. -/
def DsChan.record (c : DsChan) : DsChan :=
  { DsChan.reset with
    tempMc := c.tempMc, trainedAt := c.trainedAt, trainTemp := c.trainTemp, trainResult := c.trainResult, trainSince := c.trainSince }

/-- A channel with its training record and its place in the map (R285), in self-refresh if it was in service. -/
def DsChan.survive (c : DsChan) : DsChan :=
  { c.record with
    state := c.selfRefresh.state, ranks := c.ranks, capacity := c.capacity, rated := c.rated, slots := c.slots, spare := c.spare,
    out := c.out }

/-- The sizes of the loop caches. A fundamental reset that preserves the basins keeps a valid cache (R254), and so its size and window
(DEDUCED, assumption 82). -/
def cacheObj (key : Nat) : Bool := decide (key = objKey 0x5040 1) || decide (key = objKey 0x5041 1)

/-- A die with its stored calibration and the voltages at its balls, and the place of its loop cache in a preserved basin. -/
def DieSt.survive (keepBasin : Bool) (d : DieSt) : DieSt :=
  { DieSt.reset with
    win := if keepBasin then { Window.reset with win2 := d.win.win2, laidMask := d.win.laidMask, laidHome := d.win.laidHome } else .reset
    cal := d.cal, deskewTemp := d.deskewTemp, driftAt := d.driftAt
    fe := { FrontEnd.reset with pins := d.fe.pins, trigPins := d.fe.trigPins, noFine := d.fe.noFine } }

/-- The deep store's map, registers of R287 and MRAM items (R285, R287). -/
def Deep.survive (d : Deep) : Deep :=
  { Deep.reset with
    chans := d.chans.map DsChan.survive, mapChans := d.mapChans, mapRanks := d.mapRanks, rankGiB := d.rankGiB, sparing := d.sparing,
    requested := d.requested, spareNext := d.spareNext, clearNext := d.clearNext,
    retired := d.retired, rasChan := d.rasChan, rasRank := d.rasRank, damageNext := d.damageNext }

/-- The repair maps and masks of the basins, and the last test's status. -/
def OnChip.survive (c : OnChip) : OnChip :=
  { OnChip.reset with bankMask := c.bankMask, spares := c.spares, testStatus := c.testStatus }

/-- The guard keeps its write-once selection (R382). -/
def Guard.survive (g : Guard) : Guard := { Guard.reset with strap := g.strap, sel := g.sel, selWritten := g.selWritten }.settle

/-- The endpoint keeps the sticky bits of configuration space and PME (R336, R337). -/
def Pcie.survive (p : Pcie) : Pcie :=
  { Pcie.reset with
    cfg := p.cfg.cleared, aerStatus := p.aerStatus, pmeStatus := p.pmeStatus, wakeLow := p.wakeLow, subsysVendor := p.subsysVendor, subsysId := p.subsysId }

/-- The state once every domain but the always-on one has lost its contents (R397 step 4): the time base, the power registers, the
logs, the black box and MRAM stay; gauges and generators keep how they ended. -/
def State.wiped (s : State) (keepBasin : Bool) : State :=
  { State.reset with
    now := s.now, fresh := s.fresh, pending := s.pending, out := s.out, variant := s.variant
    objs := s.objs.filter (fun p => keptObj p.1 || (keepBasin && cacheObj p.1))
    events := { Events.reset with tb := s.events.tb, pwr := s.events.pwr }
    guard := s.guard.survive, pcie := s.pcie.survive, power := s.power
    health := { s.health with hot := false, freeze := none, opt := 0, due := Vector.replicate 5 none }
    mram := s.mram, jtag := s.jtag, tb := s.tb
    net := { Net.reset with syncSeen := s.net.syncSeen, bulkJobs := s.net.bulkJobs }
    knots := { Knots.reset with pos := s.knots.pos }
    gauges := s.gauges
    gens := s.gens.map (fun g => { Gen.reset with endStatus := g.endStatus, t0 := g.t0, cacheValid := keepBasin && g.cacheValid })
    deep := s.deep.survive, chip := s.chip.survive
    clocks := { Clocks.reset with plls := s.clocks.plls.map Pll.survive, useCount := s.clocks.useCount }
    dies := s.dies.map (DieSt.survive keepBasin), dsMem := s.dsMem, basin := if keepBasin then s.basin else Vector.replicate 2 [] }

/-- The time at a loss of the quartz (R42, R182): stored when it had been set. -/
def State.saveTime (s : State) : State :=
  if s.tb.timeset && s.quartzRuns then { s with mram := { s.mram with saved := some (s.fullTime, s.now) } } else s

/-- The ending of everything that runs, as power or a reset takes it (R28, R244, R260): yarns input, generators and gauges ABORTED, a
requested test ABORTED. -/
def State.endWork (s : State) : State :=
  let s := ((s.abortTest.genAbort 0).genAbort 1).abortGauges
  { s with pins := .reset, out := s.outAfterReset }

/-- The links go: no port is powered, PCI Express is down (R337, R401). -/
def State.dropLinks (s : State) : State :=
  { s with pcie := { s.pcie with linkUp := false, rate := 0, width := 0, tags := [], retired := [] } }.resetFunction

/-- OFF (R387 step 4, R394): every switched domain has lost its contents, the DIMMs are in self-refresh, the quartz stands still. -/
def State.goOff (s : State) (pfw : Bool) : State :=
  let s := s.saveTime.endWork.dropLinks
  let s := s.wiped false
  { s with power := { s.power with
    state := .off, transition := none, phase := .none, ready := false, hkcUp := false, domains := 0, idleSince := [], pfwOff := pfw
    offWoken := false } }

/-! ### Power-fail warning (R387) -/

/-- The id of the convoy that a die has open; 0 for none. -/
def State.openId (s : State) (d : Die) : Nat := if s.dies[d].isOpen then s.dies[d].convoy.id.toNat else 0

/-- The steps of R387: POWER_LOST, PFW with vector 1, OFF. The 20 µs commit every entry that is queued (R413), which
BLACK_BOX_COMMIT does. -/
def State.powerFail (s : State) (rails : BitVec 16) : State :=
  let s := (s.bump 0x7010 3).setEvBit .pwr 3
  let s := s.bb 0x0010 3 (leBytes 4 (s.openId 0) ++ leBytes 4 (s.openId 1) ++ leBytes 2 rails.toNat)
  s.goOff true

/-! ### Starting (R395, R399, R400) -/

/-- The straps are latched (R396). -/
def State.latch (s : State) (x : Straps) : State :=
  { s with guard := { s.guard with strap := x.guardsel }.settle, knots := { s.knots with pos := x.nodeid } }

/-- A reset is noted: PWR_STAT.RESET and object 7020 (R403). -/
def State.noteReset (s : State) (code : Nat) : State :=
  let s := { s with power := { s.power with lastReset := code } }
  ((s.putNat 0x7020 1 code).put 0x7020 2 (.num s.time.toNat)).bump 0x7020 (3 + code)

/-- An item of MRAM history whose check code fails is treated as absent (R400). -/
def State.loseItem (s : State) (i : Fin 8) : State :=
  let s := { s with mram := { s.mram with present := s.mram.present &&& ~~~(BitVec.ofNat 8 (2 ^ i.val)) } }
  match i with
  | 0 => { s with clocks := { s.clocks with plls := s.clocks.plls.map (fun p => { p with table := [] }) } }
  | 1 => { s with dies := s.dies.map (fun d => { d with cal := { d.cal with valid := false } }) }
  | 2 => { s with mram := { s.mram with learned := none } }
  | 3 => { s with mram := { s.mram with saved := none } }
  | 4 => { s with mram := { s.mram with convoyId := 0 } }
  | 5 => { s with deep := { s.deep with chans := s.deep.chans.map (fun c => { c with
      trainedAt := 0, trainTemp := 0, trainResult := 0, trainSince := 0 }) } }
  | 6 => { s with deep := { s.deep with retired := [] } }
  | 7 => { s with mram := { s.mram with subsysVendor := none, subsysId := none } }

/-- The item mask of HISTORY_FAILED, with the bits of object 7030:02: band tables, calibration, training (R414). -/
def historyMask (failed : List (Fin 8)) : Nat := b2n (failed.contains 0) + 2 * b2n (failed.contains 1) + 4 * b2n (failed.contains 5)

/-- MRAM history is read (R399 step 2, R400). -/
def State.readHistory (s : State) (h : HistoryCheck) : State :=
  let bad := (h.failed.eraseDups).filter (fun i => s.mram.present.getLsbD i.val)
  let s := bad.foldl State.loseItem s
  let s := s.bumpBy 0x7030 4 bad.length
  let s := if bad.isEmpty then s else s.bb 0x0014 1 (leBytes 1 (historyMask bad))
  s.putNat 0x7030 3 (b2n (decide (s.mram.present = 0)))

/-- Start-up begins (R399): straps, history, subsystem IDs; the deep store holds nothing unless the DIMMs kept power (R285). -/
def State.beginStart (s : State) (x : Straps) (h : HistoryCheck) (dimms : Bool) : State :=
  let s := (s.latch x).readHistory h
  { s with
    pcie := { s.pcie with subsysVendor := s.vendorKept, subsysId := s.idKept }
    dsMem := if dimms then s.dsMem else []
    power := { s.power with
      state := .on, transition := none, phase := .startup, phaseSince := s.now, perstLow := false, sysrstLow := false,
      ready := false, everReady := false, hkcUp := false, incDue := true, pfwOff := false, leaveHeld := none, dimmPower := dimms } }

/-- The time base begins again at timeword 0 and epoch 0 (R398). -/
def State.restartTime (s : State) : State := { s with tb := .reset, events := { s.events with tb := 0 } }

/-- Every sensor reads below 90 °C (R408). -/
def State.cool (s : State) : Bool := decide (s.hottest < 90000)

/-- The part leaves OFF (R395, R398): after a thermal trip only once it is cool (R408). -/
def State.leaveOff (s : State) (x : Straps) (h : HistoryCheck) : State :=
  if s.health.tripped && !s.cool then { s with power := { s.power with phase := .none, leaveHeld := some (x, h) } }
  else
    let code := if s.power.pfwOff then 4 else 3
    let s := { s with health := { s.health with tripped := false } }.restartTime
    (s.noteReset code).beginStart x h h.dimmPower

/-! ### Fundamental reset (R397) -/

/-- Barges that the sluice moves in the 900 µs of step 2, at the ingest figure (R111, R397). -/
def State.resetSluice (s : State) : Nat := (s.deep.ingest * 9 / 10000 / 4096).floor.toNat

/-- What the sluice has not moved stays in the basin, out of the directory (R397 step 3). -/
def State.leaveBacklog (s : State) (d : Die) : State :=
  if s.dies[d].win.sluicing then s.withDie d (fun x => { x with win := { x.win with ring := [] } }) else s

/-- An open convoy is aborted (R140, R397): its sampling part ends with RESET, its barges close, the sluice drains, the directory is
written. -/
def State.abortConvoy (s : State) (d : Die) : State :=
  if s.dies[d].isOpen then
    let ds := s.convoyDies d
    let s := s.endDie d .reset
    let s := ds.foldl State.closeDie s
    let s := ds.foldl State.sluiceBegin s
    let s := s.sluiceAll ds s.resetSluice
    let s := ds.foldl State.reserveEvents s
    let s := ds.foldl State.leaveBacklog s
    let s := ds.foldl State.markFault s
    s.sealConvoy ds (s.leadDie d)
  else s

/-- The directory address of a die's sealed convoy; 0 for none. -/
def State.sealedDir (s : State) (d : Die) : Nat := if s.dies[d].state = .sealed then s.dies[d].dirAddr else 0

/-- Steps 1 to 4 of R397 after a pin fell: the function is reset, work ends, convoys are aborted, the RESET entry names their
directories; then all but the always-on domain is in reset. -/
def State.enterReset (s : State) (kind : Nat) : State :=
  let s := { s with health := { s.health with freeze := none } }
  let s := s.dropLinks.endWork
  let s := (s.abortConvoy 0).abortConvoy 1
  let s := s.noteReset kind
  let s := s.bb 0x0011 2 (leBytes 1 kind ++ leBytes 8 (s.sealedDir 0) ++ leBytes 8 (s.sealedDir 1))
  let s := s.wiped (s.objBool 0x5800 1)
  { s with power := { s.power with
    state := .on, transition := none, phase := .fundamental, phaseSince := s.now, ready := false, everReady := false, hkcUp := false,
    domains := 0, idleSince := [] } }

/-- Time passes by whole ticks until a moment (R168). -/
def State.passUntil (s : State) (t : Nat) : State :=
  let len := s.tb.tickLen
  let n := (t - s.now + 3200 * len - 1) / (3200 * len)
  if n = 0 then s
  else ({ s with now := s.now + 3200 * len * n }.addTime (s.tb.inc * len * n : Nat)).applyStep

end Sys2Proof.Machine
end

