-- ==== Sys2Proof/Machine/Start.lean ====
section
/-! DEFINITION. Start-up (R399): patch image, hub memories, PLLs, DIMMs and map, training, basins, calibration, READY. -/

namespace Sys2Proof.Machine

/-! ### Firmware and hub memories (R298, R399) -/

/-- The patch image (R399 step 3): loaded, or refused by its signature; none without a readable flash. -/
def State.loadPatch (s : State) (p : Option (Dword × Bool)) : State :=
  match p with
  | none => (s.putNat 0x1000 8 0).putNat 0x1000 9 0
  | some (v, true) => (s.putNat 0x1000 8 v.toNat).putNat 0x1000 9 1
  | some (v, false) => ((s.putNat 0x1000 8 0).putNat 0x1000 9 2).bb 0x0013 2 (leBytes 4 v.toNat)

/-- The tests of scratchpad and descriptor RAM (R298): a failing row that no spare repairs makes the part unusable. -/
def State.testHub (s : State) (f : Option (Bool × MarchFault)) : State :=
  let s := { s with chip := { s.chip with padSpares := OnChip.reset.padSpares, ramSpares := 0, unusable := false } }
  match f with
  | none => s
  | some (ram, m) => (s.repairRow (if ram then 5 else 4) m).1

/-! ### PLLs (R308, R309, R399) -/

/-- A PLL starts (R399 steps 1 and 3): on a stored band, or after a search that ends in a free band and tuning code. Answers whether the
band was stored. -/
def State.bringUp (s : State) (i : Fin 13) (n : Nat) : State × Bool :=
  let s := s.startPll i n
  if s.clocks.plls[i].runs then (s, true)
  else
    let band := BitVec.ofNat 6 s.nextNat
    let s := s.drawn
    let tuning := BitVec.ofNat 12 s.nextNat
    (s.drawn.bandFound i band tuning, false)

/-- The PLLs that start, with their feedback counts (R306). -/
def State.startList (s : State) : List (Fin 13 × Nat) :=
  [(2, 400), (3, 500)] ++ (List.finRange 8).map (fun c => (mpll c, mpllCount s.deep.running)) ++ s.realDies.map (fun d => (spll d, 400))

/-- Every PLL is brought up; then those without a user stop (R16, R318). Answers whether every band was stored. -/
def State.startPlls (s : State) : State × Bool :=
  let q := s.startList.foldl (fun (q : State × Bool) x => let r := q.1.bringUp x.1 x.2; (r.1, q.2 && r.2)) (s, true)
  let idle := (List.finRange 8).filter (fun c => !q.1.deep.mapChans.contains c)
  let s := idle.foldl (fun s c => s.stopPll (mpll c)) ((q.1.stopPll 0).stopPll 1)
  (s.withPll 12 (fun p => { p with state := .locked }), q.2)

/-! ### DIMMs and the map (R263 to R265) -/

/-- The rank size in GiB of a device density in Gb (R263). -/
def rankSize (density : Nat) : Nat := 2 * density

/-- The first property of R263 that a DIMM fails, numbered by the rows of its table from 0. -/
def dimmFault (m : Dimm) : Option Nat :=
  if !m.rdimm then some 0
  else if m.density ≠ 16 ∧ m.density ≠ 24 ∧ m.density ≠ 32 then some 1
  else if m.ranks ≠ 1 ∧ m.ranks ≠ 2 ∧ m.ranks ≠ 4 then some 2
  else if 128 < m.ranks * rankSize m.density then some 4
  else if m.rated = 0 then some 5
  else none

/-- A DIMM that meets R263 has this organisation: ranks and rank size (R264). -/
def dimmOrg (m : Dimm) : Option (Nat × Nat) :=
  if (dimmFault m).isNone then some (m.ranks, rankSize m.density) else none

/-- The organisations of the channels, in letter order. -/
def organisations (ds : Vector (Option Dimm) 8) : List (Nat × Nat) := ds.toList.filterMap (fun m => m.bind dimmOrg)

/-- The organisation that the most channels share; on a tie that of the channel nearest A (R264). -/
def chosen (os : List (Nat × Nat)) : Option (Nat × Nat) :=
  os.foldl (fun (best : Option (Nat × Nat)) o =>
    match best with
    | none => some o
    | some b => if os.count b < os.count o then some o else best) none

/-- A channel whose DIMM is not admitted, with its entry (R264). -/
def State.refuseDimm (s : State) (c : Fin 8) (property : Nat) : State :=
  (s.withChan c (fun x => { x.record with state := .nonconforming })).bb 0x0065 2 (leBytes 1 c.val ++ leBytes 1 property)

/-- The rank table of a channel of R ranks (R265): the slots in ascending order, the highest rank the spare when sparing is in effect. -/
def DsChan.admitted (x : DsChan) (m : Dimm) (spare : Bool) : DsChan :=
  { x.record with
    state := .training, ranks := m.ranks, capacity := m.ranks * rankSize m.density, rated := min 3 m.rated
    spare := if spare then some (Fin.ofNat 4 (m.ranks - 1)) else none }

/-- One channel's SPD is read (R263, R264). -/
def State.readSpd (ds : Vector (Option Dimm) 8) (org : Option (Nat × Nat)) (spare : Bool) (s : State) (c : Fin 8) : State :=
  match ds[c] with
  | none => s.withChan c (fun x => { x.record with state := .absent })
  | some m =>
    match dimmFault m with
    | some p => s.refuseDimm c p
    | none =>
      if dimmOrg m = org then
        let s := s.withChan c (fun x => x.admitted m spare)
        { s with deep := { s.deep with mapChans := s.deep.mapChans ++ [c] } }
      else s.refuseDimm c 7

/-- The retired ranks of the channels, from the list in MRAM (R276). -/
def State.markRetired (s : State) : State :=
  s.deep.retired.foldl (fun s r => s.withChan r.1 (fun x => { x with out := x.out ||| BitVec.ofNat 4 (2 ^ r.2.val) }))
    { s with deep := { s.deep with chans := s.deep.chans.map (fun x => { x with out := 0 }) } }

/-- DS_RAS.CLEAR takes effect (R276). -/
def State.clearRetired (s : State) : State :=
  if s.deep.clearNext then { s with deep := { s.deep with retired := [], clearNext := false } } else s

/-- The map is built afresh (R263 to R265). -/
def State.buildMap (s : State) (ds : Vector (Option Dimm) 8) : State :=
  let org := chosen (organisations ds)
  let ranks := (org.map Prod.fst).getD 0
  let spare := s.deep.spareNext && decide (2 ≤ ranks)
  let s := { s with deep := { s.deep with
    mapChans := [], mapRanks := ranks - b2n spare, rankGiB := (org.map Prod.snd).getD 0, sparing := spare } }
  (List.finRange 8).foldl (State.readSpd ds org spare) s

/-- The map at a start: restored when the DIMMs kept their power and a map stands in MRAM (R285), otherwise built. -/
def State.startMap (s : State) (ds : Vector (Option Dimm) 8) : State :=
  let s := s.clearRetired
  let s := if s.power.dimmPower && !s.deep.mapChans.isEmpty then s else s.buildMap ds
  let s := s.markRetired
  { s with deep := { s.deep with running := s.deep.speedFor s.deep.requested } }

/-! ### Training (R268, R285) -/

/-- A channel's contents are lost: its cells read as never written. -/
def State.loseChannel (s : State) (c : Fin 8) : State :=
  { s with dsMem := s.dsMem.filter (fun x => decide ((s.deep.place (x.1 / 4096)).1 ≠ c)) }

/-- A check of restored training failed (R285): the channel's contents are lost, with a damage-log entry and a black-box entry. -/
def State.checkFailed (s : State) (property : Nat) (c : Fin 8) : State :=
  ((s.loseChannel c).damage (s.deep.firstBarge c) 3).bb 0x0064 2 (leBytes 1 c.val ++ leBytes 1 property)

/-- Channels of the map trained at this start: all, or with DIMM power kept those whose check failed or that had FAILED (R268, R285). -/
def State.trainAtStart (s : State) (failed : List (Fin 8)) : List (Fin 8) :=
  if s.power.dimmPower then
    if s.mram.present.getLsbD 5 then s.deep.mapChans.filter (fun c => failed.contains c || decide (s.deep.chans[c].state = .failed))
    else s.deep.mapChans
  else s.deep.mapChans

/-- Training at start-up: checks, then training of the channels that need it; the others return to service. -/
def State.startTraining (s : State) (r : StartupReport) : State :=
  let cs := s.trainAtStart r.checkFailed
  let s := if s.power.dimmPower then cs.foldl (fun s c => s.checkFailed r.train.property c) s else s
  let s := cs.foldl (fun s c => s.trained r.train c) s
  { s with deep := { s.deep with chans := s.deep.chans.map DsChan.wake } }

/-! ### Basins and calibration (R41, R292, R298) -/

/-- The basins keep their contents and skip their test (R292). -/
def State.basinKept (s : State) : Bool := s.objBool 0x5800 1 && decide (s.power.lastReset = 1 ∨ s.power.lastReset = 2)

/-- The start-up test of a basin (R298): map and mask rebuilt from its own results. -/
def State.testBasin (s : State) (faults : List (Die × MarchFault)) (d : Die) : State :=
  let mine := faults.filter (fun f => decide (f.1 = d))
  let s := { s with chip := { s.chip with
    bankMask := s.chip.bankMask.set d (BitVec.allOnes 64), spares := s.chip.spares.set d []
    basinTest := s.chip.basinTest.set d (if mine.isEmpty then 1 else 2) } }
  (mine.foldl (fun s f => if s.chip.bankMask[d].getLsbD f.2.bank then (s.repairRow d.val f.2).1 else s) s).keepMaps

/-- Every basin is tested, or skipped when it is preserved. -/
def State.testBasins (s : State) (faults : List (Die × MarchFault)) : State :=
  if s.basinKept then { s with chip := { s.chip with basinTest := Vector.replicate 2 3 } }
  else s.realDies.foldl (fun s d => s.testBasin faults d) s

/-- The stored calibration of a die may be used (R41). -/
def State.calUsable (s : State) (d : Die) : Bool :=
  s.dies[d].cal.valid && decide (s.calAge d < calLimit) && decide ((s.dieTemp d - s.dies[d].cal.tempMc).natAbs ≤ 10000)

/-- Calibration is loaded: stored, or factory defaults, which the first ARMING replaces (R41). -/
def State.loadCal (s : State) (d : Die) : State :=
  let ok := s.calUsable d
  (s.withDie d (fun x => { x with calDue := !ok, deskewTemp := s.dieTemp d, driftAt := s.now })).putNat 0x2061 (5 + d.val) (b2n ok)

/-! ### The end of a start (R183, R399, R414) -/

/-- Slot 0 is empty, and no FIRST_POWER entry waits. -/
def State.neverPowered (s : State) : Bool :=
  (mget 0 s.health.slots).isNone && s.health.queue.all (fun e => decide (e.entry.code ≠ 0))

/-- FIRST_POWER (R414): serial number and ROM version. -/
def State.firstPower (s : State) : State :=
  if s.neverPowered then
    s.bb 0x0000 0 (leBytes 8 (s.objNat 0x1000 6) ++ leBytes 4 (s.objNat 0x1000 7))
  else s

/-- The history used, as object 7030:02 codes it. -/
def State.historyUsed (s : State) (bands cal train : Bool) (r : StartupReport) : Nat :=
  let patched := match r.patch with
    | some p => p.2
    | none => false
  b2n bands + 2 * b2n cal + 4 * b2n train + 8 * b2n s.basinKept + 16 * b2n patched

/-- READY and ON (R399 step 10). A part whose hub memories cannot be repaired never sets READY (R298). -/
def State.becomeReady (s : State) (wake : Nat) : State :=
  { s with power := { s.power with
    phase := .none, state := .on, transition := none, hkcUp := true, ready := !s.chip.unusable, everReady := !s.chip.unusable
    wake := wake, offWoken := false } }

/-- Start-up from its beginning to its end, with what it found (R399). -/
def State.startUp (s : State) (r : StartupReport) : State :=
  let s := (s.loadPatch r.patch).testHub r.hubFault
  let s := if s.power.incDue then s.loadInc else s
  let s := s.startMap r.dimms
  let p := s.startPlls
  let trained := p.1.trainAtStart r.checkFailed
  let s := ((p.1.testBasins r.basinFaults).startTraining r)
  let s := s.realDies.foldl State.loadCal s
  let cal := s.realDies.all s.calUsable
  let used := s.historyUsed p.2 cal (s.power.dimmPower && decide (trained.length < s.deep.mapChans.length)) r
  let s := (s.putNat 0x7030 1 (min 4000 r.durationMs)).putNat 0x7030 2 used
  (s.firstPower.becomeReady (if s.power.offWoken then 5 else 6)).setEvBit .pwr 4

end Sys2Proof.Machine
end

