-- ==== Sys2Proof/Machine/Power.lean ====
section
/-! DEFINITION. The commands of power, reset and start-up (chapter 19). -/

namespace Sys2Proof.Machine

/-! ### Requests and transitions (R391 to R394) -/

/-- A power request by its path: PWR_CTL, or object 7000:01. -/
def State.askPower (t : PState) (via : Source) (s : State) : State := s.byPath via 0xB0000 (State.requestPower t via)

/-- REQUEST_ON (R391). -/
def execRequestOn (via : Source) (s : State) : Result := .next (s.askPower .on via)

/-- REQUEST_STANDBY (R391). -/
def execRequestStandby (via : Source) (s : State) : Result := .next (s.askPower .standby via)

/-- REQUEST_RETAIN (R391). -/
def execRequestRetain (via : Source) (s : State) : Result := .next (s.askPower .retain via)

/-- REQUEST_WATCH (R391, R392). -/
def execRequestWatch (via : Source) (s : State) : Result := .next (s.askPower .watch via)

/-- REQUEST_OFF (R391, R394). -/
def execRequestOff (via : Source) (s : State) : Result := .next (s.askPower .off via)

/-- A transition's end has come: its time, no speed change under way, and for ON the MPLLs back (R283, R391). -/
def State.moveReady (s : State) (m : PTransition) : Bool :=
  decide (m.done ≤ s.now) && !s.deep.changing && !s.frozenFull && (decide (m.target ≠ .on) || s.mpllsRun)

/-- A transition completes (R391): counted, DONE; OFF loses sealed convoys first (R15). -/
def State.endMove (s : State) (m : PTransition) : State :=
  let s := (s.bump 0x7010 1).setEvBit .pwr 0
  match m.target with
  | .on => s.arriveOn m.wake
  | .off => ((s.loseSealed 0).loseSealed 1).goOff false
  | .standby => s.enterLow .standby
  | .retain => s.enterLow .retain
  | .watch => s.enterLow .watch

/-- POWER_TRANSITION_DONE (R391): the transition ends, and a request that met it is handled. -/
def execPowerTransitionDone (s : State) : Result :=
  .next (match s.power.transition with
    | none => s
    | some m =>
      if s.moveReady m then
        let s := s.endMove m
        match m.next with
        | some (t, via) => s.beginRequest t via
        | none => s
      else s)

/-- DOMAIN_IDLE_OFF (R389): a strand or hawser domain of the ON package without a user for 1 ms. -/
def execDomainIdleOff (n : Fin 44) (s : State) : Result :=
  .next (if s.power.domains.getLsbD n.val && s.domainUsed n.val == some false then
    match mget n.val s.power.idleSince with
    | some t =>
      if t + ms 1 ≤ s.now then
        { s with power := { s.power with
          domains := s.power.domains &&& ~~~(BitVec.ofNat 44 (2 ^ n.val)), idleSince := mdel n.val s.power.idleSince } }
      else s
    | none => s
  else s)

/-- POWER_FAIL_WARNING (R387): `rails` are the main rails below their thresholds. -/
def execPowerFailWarning (rails : BitVec 16) (s : State) : Result :=
  .next (if s.power.phase = .powerOn ∨ s.power.state = .off then s else s.powerFail rails)

/-! ### Power-on reset (R386, R398) -/

/-- What MRAM and the balls keep over a loss of VAUX or VDD_AON; all else is as reset leaves it. -/
def State.lost (s : State) : State :=
  { State.reset with
    now := s.now, fresh := s.fresh, pending := s.pending, out := s.outAfterReset, variant := s.variant
    objs := s.objs.filter (fun p => mramObj p.1)
    power := { Power.reset with phase := .powerOn, phaseSince := s.now }
    health := { Health.reset with
      sensors := s.health.sensors, ring := s.health.ring, slots := s.health.slots, nextRing := s.health.nextRing
      nextSeq := s.health.nextSeq, freezePinLow := s.health.freezePinLow }
    mram := s.mram
    deep := { Deep.reset with chans := s.deep.chans.map DsChan.record, retired := s.deep.retired }
    chip := { s.chip.survive with testStatus := 0 }
    clocks := { Clocks.reset with plls := s.clocks.plls.map Pll.survive, useCount := s.clocks.useCount }
    dies := s.dies.map (fun d => { d.survive false with fe := { (d.survive false).fe with noFine := 0 } }) }

/-- POWER_ON_RESET (R386): VAUX or VDD_AON is lost. Black-box entries that were not committed are lost. -/
def execPowerOnReset (s : State) : Result := .next s.saveTime.lost

/-- POWER_ON_RESET_RELEASE (R386, R396, R399, R412): start-up begins; with a fundamental reset pin low the part stays in that reset. -/
def execPowerOnResetRelease (straps : Straps) (h : HistoryCheck) (s : State) : Result :=
  .next (if s.power.phase = .powerOn then
    let low := (s.power.perstLow, s.power.sysrstLow)
    let s := { s with mram := { s.mram with bootCount := s.mram.bootCount + 1 } }
    let t := (s.noteReset 0).beginStart straps h false
    if low.1 || low.2 then
      { t with power := { t.power with phase := .fundamental, perstLow := low.1, sysrstLow := low.2 } }
    else t
  else s)

/-! ### Fundamental reset (R396, R397) -/

/-- A reset pin is low. -/
def State.pinFalls (s : State) (p : ResetPin) : State :=
  match p with
  | .perst => { s with power := { s.power with perstLow := true } }
  | .sysrst => { s with power := { s.power with sysrstLow := true } }

/-- The code of PWR_STAT.RESET for a pin. -/
def pinCode : ResetPin → Nat
  | .perst => 1
  | .sysrst => 2

/-- FUNDAMENTAL_RESET_ASSERT (R397): PERST# or SYSRST_N falls. A second pin adds nothing to a reset that runs; in OFF the pulse ends
OFF at its release (R395). -/
def execFundamentalResetAssert (pin : ResetPin) (s : State) : Result :=
  let t := s.pinFalls pin
  .next (match s.power.phase with
    | .powerOn => t
    | .fundamental => t
    | .startup => t.enterReset (pinCode pin)
    | .none =>
      if s.power.state = .off then { t with power := { t.power with phase := .fundamental, phaseSince := s.now } }
      else t.enterReset (pinCode pin))

/-- The boundary-scan instructions that only a fundamental reset admits (R431). -/
def JtagIr.resetOnly : JtagIr → Bool
  | .extest => true
  | .clamp => true
  | .highz => true
  | .extestPulse => true
  | .idcode => false
  | .sample => false
  | .bypass => false
  | .frzSeg => false
  | .frzRead => false
  | .bbAddr => false
  | .bbRead => false

/-- At the end of a fundamental reset such an instruction gives way to BYPASS (R431). -/
def State.dropScan (s : State) : State := if s.jtag.ir.resetOnly then { s with jtag := { s.jtag with ir := .bypass } } else s

/-- FUNDAMENTAL_RESET_RELEASE (R396, R397): both pins are high; a release before 1,000 µs takes effect then. -/
def execFundamentalResetRelease (straps : Straps) (h : HistoryCheck) (s : State) : Result :=
  .next (if s.power.phase = .fundamental then
    let s := s.dropScan
    if s.power.state = .off then s.leaveOff straps h
    else
      let s := s.passUntil (s.power.phaseSince + us 1000)
      s.beginStart straps h h.dimmPower
  else { s with power := { s.power with perstLow := false, sysrstLow := false } })

/-! ### Start-up and leaving OFF (R395, R399) -/

/-- STARTUP_COMPLETE (R399). -/
def execStartupComplete (r : StartupReport) (s : State) : Result :=
  .next (if s.power.phase = .startup then s.startUp r else s)

/-- MAIN_RAILS_RETURN (R395): the part leaves OFF; with a reset pin low, at that pin's release. -/
def execMainRailsReturn (straps : Straps) (h : HistoryCheck) (s : State) : Result :=
  .next (if s.power.state = .off ∧ s.power.phase = .none then
    if s.power.perstLow || s.power.sysrstLow then
      { s with power := { s.power with phase := .fundamental, phaseSince := s.now } }
    else s.leaveOff straps h
  else s)

/-- OFF_WAKE_EDGE (R336, R395): in OFF the wake detector sees the chosen edge of TRIGIN0. -/
def execOffWakeEdge (rising : Bool) (s : State) : Result :=
  .next (if s.power.state = .off ∧ s.objBool 0x7002 1 ∧ (s.objNat 0x7002 2 = 0) = rising then
    { s with
      pcie := { s.pcie with pmeStatus := true, wakeLow := s.pcie.wakeLow || s.pcie.cfg.pmeEn }
      power := { s.power with offWoken := true } }
  else s)

/-! ### Restart of the HKC (R20, R296) -/

/-- A die in ARMING ends it with HKC_RESTART (R20). -/
def State.restartArming (s : State) (d : Die) : State := if s.dies[d].state = .arming then s.endArming d 6 else s

/-- A calibration or idle check that the HKC ran ends, and is due again. -/
def State.dropCal (s : State) (d : Die) : State :=
  let s := s.breakCheck d
  if s.dies[d].calRunning then
    ((s.withDie d (fun x => { x with calRunning := false, calDue := true })).makeDue (dieTask d)).restSpll d
  else s

/-- What the HKC was doing ends (R20, R304): ARMING, requested tests, training, calibrations, the eye finder. -/
def State.dropWork (s : State) : State :=
  let s := (s.restartArming 0).restartArming 1
  let s := State.abortTraining (State.abortTest s)
  let s := State.dropCal (State.dropCal s 0) 1
  if s.eyeRunning then s.endEye 3 else s

/-- The HKC is reset alone (R20): the HKC_RESTART entry gives the cause and, by a bit of its second byte each, the dies whose ARMING
ends (DESIGN CHOICE, assumption 78). -/
def State.restartHkc (s : State) (cause : Nat) : State :=
  let mask := b2n (s.dies[0].state = .arming) + 2 * b2n (s.dies[1].state = .arming)
  let t := (({ s with power := { s.power with ready := false, hkcUp := false } }.setEvBit .gbl 8).bb 0x0012 2
    (leBytes 1 cause ++ leBytes 1 mask)).dropWork
  if s.tb.owner = .hkc then t.enterHoldover 3 else t

/-- HKC_WATCHDOG_EXPIRY (R20). -/
def execHkcWatchdogExpiry (s : State) : Result := .next (if s.power.hkcUp then s.restartHkc 0 else s)

/-- SCRATCHPAD_UE (R296): cause MEMORY. -/
def execScratchpadUe (s : State) : Result := .next (if s.power.hkcUp then s.restartHkc 1 else s)

/-- HKC_RESTART_COMPLETE (R20, R367): policy resumes, READY, and what waited is answered and published, the transmit stamps
among it (R197). -/
def execHkcRestartComplete (s : State) : Result :=
  .next (if s.power.everReady ∧ !s.power.hkcUp ∧ s.power.phase = .none ∧ s.power.state ≠ .off ∧ !s.frozenFull then
    let s := { s with power := { s.power with hkcUp := true, ready := !s.chip.unusable } }
    ((s.sendUnsent.restartAnswers).takeStamps 0).takeStamps 1
  else s)

/-! ### While no command waits -/

/-- One tick of the source passes (R168), channels wait for read tags (R326), idle checks that have run their time end (R43), generators go on refilling (R253), tunnel requests that have waited 100 µs end (R227), and the idle times of the switched
domains are noted (R389). DESIGN CHOICE, assumption 1. -/
def State.idle (s : State) : State :=
  (((((s.countWait (10 * s.tb.tickLen)).tick.bootInc.endCheck 0).endCheck 1).genAsk 0).genAsk 1)
    |>.settlePins.expireAsks.migrateOn.noteDomains

end Sys2Proof.Machine
end

