-- ==== Sys2Proof/Machine/Health.lean ====
section
/-! DEFINITION. The commands of health, freeze and the black box (chapter 20). -/

namespace Sys2Proof.Machine

/-! ### Temperature (R405 to R408) -/

/-- The sensors that the variant reads, with their readings (R405). -/
def State.readSensors (s : State) : List (Nat × Int) :=
  (s.health.sensors.toList.zipIdx.map (fun x => (x.2, x.1))).filter (fun x => decide (x.1 < 12) || s.hasDie 1)

/-- The hottest of some readings, the lowest number on a tie. -/
def hottestOf : List (Nat × Int) → Option (Nat × Int)
  | [] => none
  | x :: rest => match hottestOf rest with
    | some y => if x.2 < y.2 then some y else some x
    | none => some x

/-- The hub's highest reading (R405). -/
def State.hubTemp (s : State) : Int := (s.health.sensors.toList.take 4).foldl max (-40000)

/-- The maxima are published (R405). -/
def State.publishTemps (s : State) : State :=
  let s := (s.putInt 0x7401 1 s.hubTemp).putInt 0x7401 2 (s.dieTemp 0)
  let s := if s.hasDie 1 then s.putInt 0x7401 3 (s.dieTemp 1) else s
  s.putInt 0x7401 4 (max (s.objInt 0x7401 4) s.hottest)

/-- The warning threshold (R405): HOT with its entry, cleared 3 °C below. -/
def State.checkWarn (s : State) : State :=
  let limit := s.tempLimit 4
  match hottestOf s.readSensors with
  | some (n, t) =>
    if limit ≤ t ∧ !s.health.hot then
      (({ s with health := { s.health with hot := true } }.bump 0x7402 3).setEvBit .hlt 3).bb 0x0021 1 (leBytes 1 n ++ intBytes 4 t)
    else if t ≤ limit - 3000 then { s with health := { s.health with hot := false } }
    else s
  | none => s

/-- The die of a sensor; none for the hub (R405). -/
def sensorDie (n : Nat) : Option Die := if n < 4 then none else if n < 12 then some 0 else some 1

/-- The sensor that seals a die: its own, or the hub's, at 110 °C, the hottest of them (R407). -/
def State.sealSensor (s : State) (d : Die) : Option (Nat × Int) :=
  let mine := fun (e : Die) => s.readSensors.filter (fun x => decide (110000 ≤ x.2) && (sensorDie x.1).all (fun f => decide (f = e)))
  hottestOf ((s.convoyDies d).flatMap mine)

/-- A capture of a die is open and still stores. -/
def State.sealable (s : State) (d : Die) : Bool := s.dies[d].isOpen && s.dies[d].convoy.storing

/-- A die is concerned by a reading of 110 °C (R407): ARMING ends with CAPACITY; an open capture is sealed, once per convoy. -/
def State.thermalSeal (s : State) (d : Die) : State :=
  match s.sealSensor d with
  | none => s
  | some (n, t) =>
    if s.dies[d].state = .arming then s.endArming d 3
    else if s.sealable d then
      let ds := s.convoyDies d
      let mask := (ds.map (fun e => 2 ^ e.val)).sum
      let id := s.dies[d].convoy.id
      let s := ds.foldl (fun s e => s.endDie e .thermal) s
      ((s.bump 0x7402 1).setEvBit .hlt 4).bb 0x0020 2 (leBytes 1 mask ++ leBytes 1 n ++ intBytes 4 t ++ leBytes 4 id.toNat)
    else s

/-- The emergency seal (R407); a capture-scope freeze that stands in its way is thawed first. -/
def State.checkSeal (s : State) : State :=
  if s.frozenFull then s
  else
    let due := ([0, 1] : List Die).any (fun d => (s.sealSensor d).isSome && s.sealable d)
    let s := if due && s.frozen then s.thaw else s
    (s.thermalSeal 0).thermalSeal 1

/-- Admission takes Tj0 as at the limit until every sensor has been below it for 1 s (R407). -/
def State.checkHold (s : State) : State :=
  let h := s.health
  let excess := decide (s.tempLimit 1 ≤ s.hottest)
  if 110000 ≤ s.hottest then { s with health := { h with limitHold := some s.now } }
  else match h.limitHold with
    | some t =>
      if excess then { s with health := { h with limitHold := some s.now } }
      else if t + sec 1 ≤ s.now then { s with health := { h with limitHold := none } }
      else s
    | none => s

/-- The thermal trip (R408): THERMAL_TRIP, then the steps of R387. -/
def State.checkTrip (s : State) : State :=
  match hottestOf s.readSensors with
  | some (n, t) =>
    if 120000 ≤ t then
      let s := (s.bump 0x7402 2).bb 0x0015 3 (leBytes 1 n ++ intBytes 4 t)
      { s with health := { s.health with tripped := true } }.powerFail 0
    else s
  | none => s

/-- In OFF the sensors only let a held request leave it (R408). -/
def State.releaseHeld (s : State) : State :=
  match s.power.leaveHeld with
  | some (x, h) => if s.cool then s.leaveOff x h else s
  | none => s

/-- SENSOR_READ (R310, R405, R407, R408): every sensor, in m°C. -/
def execSensorRead (readings : Vector Int 20) (s : State) : Result :=
  let s := { s with health := { s.health with sensors := readings } }
  .next (if s.power.phase = .powerOn then s
  else if s.power.state = .off then s.releaseHeld
  else s.publishTemps.dueBands.checkWarn.checkSeal.checkHold.checkTrip)

/-! ### Freeze (R409, R410) -/

/-- FREEZE_PIN_LOW (R409): FREEZE_N has been low for 100 ns; the pin is ignored in reset and in OFF (R401). -/
def execFreezePinLow (s : State) : Result :=
  .next (if s.health.freezePinLow then s
  else
    let t := { s with health := { s.health with freezePinLow := true } }
    if s.power.phase ≠ .none ∨ s.power.state = .off then t else t.requestFreeze (s.objNat 0x7420 1 = 1) false)

/-- FREEZE_PIN_RELEASE (R410). -/
def execFreezePinRelease (s : State) : Result :=
  let t := { s with health := { s.health with freezePinLow := false } }
  .next (match s.health.freeze with
    | some f => if !f.byReg && !f.full then t.thaw else t
    | none => t)

/-- FREEZE_REGISTER (R409): a guarded write of HLT_FRZ with FREEZE and SCOPE. -/
def execFreezeRegister (full : Bool) (g : GuardForm) (s : State) : Result :=
  .next (s.guardForm 0xC0010 (dw (1 + 4 * b2n full)) g State.writeFreeze)

/-- THAW_REGISTER (R410): a guarded write of HLT_FRZ with THAW. -/
def execThawRegister (g : GuardForm) (s : State) : Result := .next (s.guardForm 0xC0010 2 g State.writeFreeze)

/-! ### The black box (R413, R415) -/

/-- HLT_BBADM past its guard (R415): the optional categories, and HOST_MARK when MARK is set. -/
def State.writeBbadm (v : Dword) (s : State) : State :=
  let s := { s with health := { s.health with opt := (v >>> 8).setWidth 5 } }
  if v.getLsbD 0 then s.bb 0x0400 0 (leBytes 4 s.host.bbMark.toNat ++ leBytes 1 (sourceCode .bar0)) else s

/-- HOST_MARK (R415): a guarded write of HLT_BBADM with MARK. -/
def execHostMark (opt : BitVec 5) (g : GuardForm) (s : State) : Result :=
  .next (s.guardForm 0xC0018 (dw (1 + 256 * opt.toNat)) g State.writeBbadm)

/-- OPTIONAL_CATEGORIES_WRITE (R415). -/
def execOptionalCategoriesWrite (opt : BitVec 5) (g : GuardForm) (s : State) : Result :=
  .next (s.guardForm 0xC0018 (dw (256 * opt.toNat)) g State.writeBbadm)

/-- Ring entries (R412). -/
def ringSize : Nat := 64512

/-- An entry as it is committed (R412, R413): its sequence, LATE, DROPPED, and FIRST when its slot was empty. -/
def State.committed (s : State) (q : BbQueued) : BbEntry :=
  { q.entry with
    seq := s.health.nextSeq, late := decide (us 2 < s.now - q.detected), dropped := s.health.dropPending
    first := decide (q.entry.code < 0x400) && (mget q.entry.code s.health.slots).isNone }

/-- BLACK_BOX_COMMIT (R413): the head of the queue goes into the ring, and into its slot when it is the first of its code. -/
def execBlackBoxCommit (s : State) : Result :=
  .next (match s.health.queue with
    | [] => s
    | q :: rest =>
      if s.power.phase = .powerOn then s
      else
        let e := s.committed q
        let h := s.health
        let s := { s with health := { h with
          queue := rest, dropPending := false, nextSeq := h.nextSeq + 1, nextRing := (h.nextRing + 1) % ringSize
          ring := mput h.nextRing e h.ring
          slots := if e.first then mput e.code e h.slots else h.slots } }
        let s := (s.bump 0x7440 2).setEvBit .hlt 0
        if e.first then s.setEvBit .hlt 1 else s)

end Sys2Proof.Machine
end

