-- ==== Sys2Proof/Machine/Regs.lean ====
section
/-! DEFINITION. Writes of BAR0 by offset, and the guard's own commands (chapter 18). -/

namespace Sys2Proof.Machine

/-! ### Guarded registers (R376) -/

/-- The BAR0 offset of a guarded register. -/
def regOffset : GuardedReg → Nat
  | .ydir d k => capReg d (0x800 + 8 * k.val)
  | .ydrv d k => capReg d (0x820 + 8 * k.val)
  | .fstepGo => 0x10028
  | .dsSpeed => 0x90010
  | .dsRas => 0x90018
  | .hltFrz => 0xC0010
  | .hltBbadm => 0xC0018

/-- What an accepted value does. -/
def regApply : GuardedReg → Dword → State → State
  | .ydir d k => State.writeYdir d k
  | .ydrv d k => State.writeYdrv d k
  | .fstepGo => State.fstepGo
  | .dsSpeed => State.writeSpeed
  | .dsRas => State.writeRas
  | .hltFrz => State.writeFreeze
  | .hltBbadm => State.writeBbadm

/-- A guarded register exists: those of CAP1_ only where die 1 does (R376). -/
def State.hasReg (s : State) : GuardedReg → Bool
  | .ydir d _ => s.hasDie d
  | .ydrv d _ => s.hasDie d
  | .fstepGo => true
  | .dsSpeed => true
  | .dsRas => true
  | .hltFrz => true
  | .hltBbadm => true

/-- Every guarded register. -/
def guardedRegs : List GuardedReg :=
  ([0, 1] : List Die).flatMap (fun d => (List.finRange 4).map (GuardedReg.ydir d) ++ (List.finRange 8).map (GuardedReg.ydrv d))
    ++ [.fstepGo, .dsSpeed, .dsRas, .hltFrz, .hltBbadm]

/-- The guarded register at an offset. -/
def State.guardedAt (s : State) (off : Nat) : Option GuardedReg :=
  guardedRegs.find? (fun r => decide (regOffset r = off) && s.hasReg r)

/-! ### The blocks (R370) -/

/-- A write to a register of a capture die: on a variant without the die it is ignored silently (R3, R370). -/
def State.writeCap (s : State) (d : Die) (off : Nat) (v : Dword) : State :=
  if !s.hasDie d then s
  else match off with
    | 0x100 =>
      let loc := regLoc (capReg d 0x100)
      let s := if v.getLsbD 0 then s.armCommand d loc .bar0 else s
      let s := if v.getLsbD 1 then s.captureStop d loc .bar0 else s
      if v.getLsbD 2 then s.releaseCommand d loc .bar0 else s
    | 0x910 => if v.getLsbD 0 then s.forceTrigger d (regLoc (capReg d 0x910)) .bar0 else s
    | 0xA00 =>
      let s := if v.getLsbD 0 then s.primeCommand d .bar0 else s
      let s := if v.getLsbD 1 then s.startCommand d .bar0 else s
      let s := if v.getLsbD 2 then s.stopCommand d .bar0 else s
      if v.getLsbD 3 then s.genJump d (.request .bar0) s.now else s
    | 0xA04 => s.clearEv (.pg d) (v &&& 0xF00)
    | _ => s

/-- TB_CMPk_CTL: W1C bits, then EN (R178). -/
def State.writeSlotCtl (s : State) (k : Fin 8) (v : Dword) : State :=
  let s := s.withSlot k (fun x => { x with fired := x.fired && !v.getLsbD 8, late := x.late && !v.getLsbD 9 })
  if v.getLsbD 0 then s.enableSlot k else s.withSlot k (fun x => { x with en := false, lateDue := false })

/-- A write to a register of a compare slot (R178, R186). -/
def State.writeSlot (s : State) (k : Fin 8) (off : Nat) (v : Dword) : State :=
  match off with
  | 0x0 => s.withSlot k (fun x => { x with held := some v })
  | 0x4 => s.commitTarget k (v ++ s.tb.slots[k].held.getD (s.tb.slots[k].target.setWidth 32))
  | 0x8 => s.writeSlotCtl k v
  | _ => s

/-- TB_HCTL: DISC under its mask bit (R176, R375). -/
def State.writeHctl (s : State) (v : Dword) : State :=
  if v.getLsbD 16 then if v.getLsbD 0 then s.discSet else s.discClear else s.ownHost 0x10034 State.feedWatchdog

/-- A write to a register of the time base (R186). -/
def State.writeTb (s : State) (off : Nat) (v : Dword) : State :=
  match off with
  | 0x0C => s.writeEpoch v (regLoc 0x1000C) .bar0
  | 0x10 => s.writeIncLo v
  | 0x14 => s.writeIncHi v
  | 0x18 => s.writeStepLo v
  | 0x1C => s.writeStepHi v
  | 0x20 => { s with tb := { s.tb with fstepLo := v } }
  | 0x24 => { s with tb := { s.tb with fstepHi := v } }
  | 0x30 => s.clearEv .tb (v &&& 0x3F00)
  | 0x34 => s.writeHctl v
  | _ => if 0x100 ≤ off ∧ off < 0x180 then s.writeSlot (Fin.ofNat 8 ((off - 0x100) / 16)) (off % 16) v else s

/-- HDMA_CHk_SIZE: LOG2 clamped to 4 to 16, and to 7 with LOC set (R343). -/
def State.writeDmaSize (s : State) (k : Fin 8) (v : Dword) : State :=
  let n := v.toNat % 32
  let top : Nat := if v.getLsbD 8 then 7 else 16
  let loc := regLoc (dmaReg k 8)
  let s := if n < 4 then s.clampOp loc 0 .bar0 n 4
    else if 16 < n then s.clampOp loc 1 .bar0 n top
    else if top < n then s.clampOp loc 5 .bar0 n top else s
  s.withDma k (fun x => { x with size := min (max n 4) top, staged := v.getLsbD 8 })

/-- HDMA_CHk_CTL (R332, R343, R375): RUN, ABORT and RESUME under their mask bits, in that order. -/
def State.writeDmaCtl (s : State) (k : Fin 8) (v : Dword) : State :=
  let s := if v.getLsbD 16 then if v.getLsbD 0 then s.dmaRun k else s.dmaStop k else s
  let s := if v.getLsbD 17 && v.getLsbD 1 then s.dmaAbort k else s
  if v.getLsbD 18 && v.getLsbD 2 then s.dmaResume k else s

/-- A write of BASE or SIZE: ignored and counted while RUN is 1 (R327). -/
def State.stoppedDma (s : State) (k : Fin 8) (off : Nat) (f : State → State) : State :=
  if s.pcie.dma[k].run then s.ignoreOp (regLoc (dmaReg k off)) .bar0 .state else f s

/-- A write to a register of a DMA channel (R343). -/
def State.writeDma (s : State) (k : Fin 8) (off : Nat) (v : Dword) : State :=
  match off with
  | 0x00 => s.stoppedDma k 0 fun s => s.withDma k (fun x => { x with baseLo := v &&& 0xFFFFFFC0 })
  | 0x04 => s.stoppedDma k 4 fun s => s.withDma k (fun x => { x with baseHi := v })
  | 0x08 => s.stoppedDma k 8 fun s => s.writeDmaSize k v
  | 0x0C => s.writeDmaCtl k v
  | 0x10 => s.dmaProd k (v.toNat % 65536)
  | 0x18 => s.clearEv (.chan k) (v &&& 0x80)
  | _ => s

/-- A write to the HDMA_ block. -/
def State.writeHdma (s : State) (off : Nat) (v : Dword) : State :=
  if off < 0x200 then s.writeDma (Fin.ofNat 8 (off / 0x40)) (off % 0x40) v
  else if off = 0x200 then s.clearEv .hdma (v &&& 0x0C000000)
  else s

/-- The state that a code of PWR_CTL.REQ asks for. -/
def PState.ofCode (n : Nat) : PState :=
  match n with
  | 1 => .standby
  | 2 => .retain
  | 3 => .watch
  | 4 => .off
  | _ => .on

/-- PWR_CTL.REQ, or object 7000:01: codes beyond 4 are clamped to 0 (R391, R402). -/
def State.writePowerReq (s : State) (n : Nat) (via : Source) : State :=
  let s := if 4 < n then s.clampOp (powerLoc via) 2 via n 0 else s
  s.requestPower (PState.ofCode n) via

/-- A write to a register of blocks 0 (GBL_, GRD_) and 7 to 12 (R319, R343, R383, R384, R402, R416 and the chapters of NET_, PTP_,
ALP_, DS_). The guard's own registers are handled apart. -/
def State.writeHub (s : State) (off : Nat) (v : Dword) : State :=
  match off with
  | 0x00008 => s.clearEv .gbl (v &&& 0x1F00)
  | 0x00014 => { s with host := { s.host with scratch := v } }
  | 0x01004 => s.clearEv .grd (v &&& 0x300)
  | 0x70000 => s.clearEv .net (v &&& 0x300)
  | 0x70010 => s.clearEv .ptp (v &&& 0x3F00)
  | 0x80008 => s.clearEv .alp (v &&& 0x7FF)
  | 0x90004 => s.clearEv .ds (v &&& 0xFF)
  | 0x90020 => s.writeWindowBase v
  | 0xA0004 => s.clearEv .clk (v &&& 0xF1FFF)
  | 0xB0000 => s.writePowerReq (v.toNat % 8) .bar0
  | 0xB0008 => s.clearEv .pwr (v &&& 0x1F)
  | 0xC0004 => s.clearEv .hlt (v &&& 0x7F)
  | 0xC0020 => { s with host := { s.host with bbMark := v } }
  | _ => s

/-! ### The guard's own registers (R377, R379, R384) -/

/-- GRD_UNLOCK: in keyed mode the key opens the lock for 1 ms, and another value closes it as BAD_KEY; in paired mode the write is
ignored. -/
def State.writeUnlock (s : State) (v : Dword) : State :=
  if s.guard.keyed then
    if v.toNat % 65536 = 0x5EA1 then { s with guard := { s.guard with unlocked := some (s.now + ms 1) } }
    else { s with guard := { s.guard with unlocked := none }.settle }.guardFail 2 0x1000 v .bar0
  else s.ignoreOp (regLoc 0x1000) .bar0 .state

/-- The write-once selection of the guard mode (R377, R382): a value beyond 2 is applied as 0 with reason NOT_IN_SET. -/
def State.selectGuard (s : State) (v : Nat) (via : Source) : State :=
  let loc := locFor via 0x1010 0x1101 1
  if s.guard.selWritten then s.ignoreOp loc via .secondW1
  else
    let a := if 2 < v then 0 else v
    let s := if a = v then s else s.clampOp loc 2 via v a
    { s with guard := { s.guard with sel := a, selWritten := true }.settle }

/-- GUARD_UNLOCK (R379): GRD_UNLOCK. -/
def execGuardUnlock (v : Dword) (s : State) : Result := .next (s.onBar0 0x1000 (fun s => s.writeUnlock v))

/-- GUARD_LOCK_TIMEOUT (R379): from 990 µs after the unlock the unused lock closes. -/
def execGuardLockTimeout (s : State) : Result :=
  .next (match s.guard.unlocked with
    | some t => if t ≤ s.now + us 10 then { s with guard := { s.guard with unlocked := none }.settle }.setEvBit .grd 9 else s
    | none => s)

/-- GUARD_COMPLEMENT_WRITE (R378 to R380). -/
def execGuardComplementWrite (reg : GuardedReg) (v : Dword) (s : State) : Result :=
  .next (if s.hasReg reg then s.complementWrite (regOffset reg) v (regApply reg) else s.onBar0 (regOffset reg + 4) (fun s => s))

/-- GUARD_MODE_SELECT (R377, R382): GRD_MODE.SEL, or object 1101:01. -/
def execGuardModeSelect (v : Dword) (via : Source) (s : State) : Result :=
  .next (s.byPath via 0x1010 (fun s => s.selectGuard (if via = .bar0 then v.toNat % 4 else v.toNat) via))

/-! ### A write of BAR0 (R371 to R373) -/

/-- A whole dword to a register that is neither guarded nor a complement (R370): reserved offsets and read-only registers ignore it. -/
def State.plainDword (s : State) (off : Nat) (v : Dword) : State :=
  match off / 0x10000 with
  | 1 => s.writeTb (off % 0x10000) v
  | 2 => s.writeCap 0 (off % 0x10000) v
  | 3 => s.writeCap 1 (off % 0x10000) v
  | 4 => s.writeHdma (off % 0x10000) v
  | _ =>
    if off = 0x1000 then s.writeUnlock v
    else if off = 0x1010 then s.selectGuard (v.toNat % 4) .bar0
    else s.writeHub off v

/-- A whole dword of a BAR0 write. -/
def State.wholeDword (s : State) (off : Nat) (v : Dword) : State :=
  match s.guardedAt off, s.guardedAt (off - 4) with
  | some r, _ => s.guardedWrite off v (regApply r)
  | none, some r => s.complementWrite (regOffset r) v (regApply r)
  | none, none => s.onBar0 off (fun s => s.plainDword off v)

/-- One dword of a BAR0 write (R371, R373). -/
def State.regDword (s : State) (d : Nat × Option Dword) : State :=
  if d.1 / 0x10000 = 6 then s.ramDword (d.1 - odmBase, d.2)
  else match d.2 with
    | none => s.partialDword
    | some v => s.wholeDword d.1 v

/-- REGISTER_WRITE (R370 to R378): the dwords of the request in ascending order. -/
def execRegisterWrite (off : BitVec 20) (bytes : List (Option Byte)) (s : State) : Result :=
  if !(Instr.registerWrite off bytes).wf then .fault .illFormed
  else .next (if s.pcie.answers then (dwordsOf off.toNat bytes).foldl State.regDword s else s.emit .unsupported)

/-- MAILBOX_SUBMIT (R365): MB_REQ with the request's sequence. -/
def execMailboxSubmit (seq : BitVec 16) (s : State) : Result :=
  .next (if s.pcie.answers then s.ramDword (0, some (seq.setWidth 32)) else s.emit .unsupported)

end Sys2Proof.Machine
end

