-- ==== Sys2Proof/Machine/Flags.lean ====
section
/-! DEFINITION. What each BAR0 register shows (the register tables of every chapter): its status fields computed from the state,
its event bits, its stored fields. -/

namespace Sys2Proof.Machine

/-! ### Codes -/

/-- The capture states (R118). -/
def CapState.code : CapState → Nat
  | .idle => 0
  | .arming => 1
  | .prefill => 2
  | .armed => 3
  | .postfill => 4
  | .sealed => 5

/-- The time-base states (R176). -/
def TbState.code : TbState → Nat
  | .free => 0
  | .disciplined => 1
  | .holdover => 2

/-- The servo owners (R171). -/
def Owner.code : Owner → Nat
  | .hkc => 0
  | .host => 1
  | .none => 2

/-- The servo states (R199). -/
def Servo.code : Servo → Nat
  | .off => 0
  | .listen => 1
  | .acquire => 2
  | .locked => 3
  | .pathHold => 4
  | .holdover => 5
  | .measure => 6

/-- The PTP roles (R207). -/
def PtpRole.code : PtpRole → Nat
  | .disabled => 0
  | .slave => 1
  | .master => 2
  | .passive => 3

/-- The Aelop port states (R221). -/
def AlpState.code : AlpState → Nat
  | .disabled => 0
  | .training => 1
  | .up => 2
  | .down => 3
  | .heldDuplicate => 4
  | .heldForeign => 5

/-- The generator states (R246). -/
def GenState.code : GenState → Nat
  | .stopped => 0
  | .priming => 1
  | .ready => 2
  | .running => 3
  | .waiting => 4
  | .ending => 5

/-- The end statuses of a generator (R262). -/
def GenEnd.code : GenEnd → Nat
  | .none => 0
  | .done => 1
  | .stopped => 2
  | .underrun => 3
  | .coast => 4
  | .table => 5
  | .cache => 6
  | .rate => 7
  | .aborted => 8
  | .data => 9

/-- A number whose bit `i` holds where `p i`. -/
def maskOf (n : Nat) (p : Nat → Bool) : Nat := ((List.range n).map (fun i => if p i then 2 ^ i else 0)).sum

/-- A dword from fields, each a number at a bit. -/
def pack (fs : List (Nat × Nat)) : Dword := fs.foldl (fun w f => w ||| fieldAt f.1 f.2) 0

/-! ### Fields that an object and a register share -/

/-- The basin backlog of a die (R131): the barges of window 0 that wait for the sluice. -/
def DieSt.backlog (d : DieSt) : Nat := if d.win.sluicing then d.win.ring.length else 0

/-- The line mode field of a port (R207): 0 disabled, 1 10GBASE-R, 2 25GBASE-R. -/
def State.lineMode (s : State) (p : Fin 2) : Nat :=
  if s.objBool (0x4400 + p.val) 1 then (if s.objNat (0x4400 + p.val) 2 = 1 then 1 else 2) else 0

/-- All channels of the map are in self-refresh. -/
def Deep.allRest (d : Deep) : Bool := !d.mapChans.isEmpty && d.mapChans.all (fun c => decide (d.chans[c].state = .selfRefresh))

/-- The highest sensor reading in °C. -/
def State.hottestC (s : State) : Int := s.hottest / 1000

/-! ### The blocks -/

/-- GBL_ (R383). -/
def State.readGbl (s : State) (off : Nat) : Dword :=
  match off with
  | 0x00 => dw s.deviceId
  | 0x04 => 1
  | 0x08 => pack [(b2n s.power.ready, 0), (b2n (s.hasDie 1), 1)] ||| s.events.gbl
  | 0x0C => s.host.accessErr
  | 0x10 => dw (s.objNat 0x1120 0x0E)
  | 0x14 => s.host.scratch
  | _ => 0

/-- GRD_ (R384). -/
def State.readGrd (s : State) (off : Nat) : Dword :=
  match off with
  | 0x04 => pack [(b2n s.guard.keyed, 0), (b2n s.guard.strap, 1), (b2n (s.guard.sel != 0), 2), (b2n s.guard.unlocked.isSome, 3),
      (b2n s.guard.pendingWrite.isSome, 4)] ||| s.events.grd
  | 0x08 => s.guard.fails
  | 0x0C => s.guard.last
  | 0x10 => dw s.guard.sel
  | _ => 0

/-- A compare slot's registers (R186). -/
def Slot.read (x : Slot) (off : Nat) : Dword :=
  match off with
  | 0x0 => x.target.setWidth 32
  | 0x4 => (x.target >>> 32).setWidth 32
  | 0x8 => pack [(b2n x.en, 0), (b2n x.fired, 8), (b2n x.late, 9)]
  | _ => 0

/-- TB_ (R186). -/
def State.readTb (s : State) (off : Nat) : Dword :=
  match off with
  | 0x00 => s.time.setWidth 32
  | 0x04 => s.tb.timeHi
  | 0x08 => (s.time >>> 16).setWidth 32
  | 0x0C => s.tb.epoch
  | 0x10 => dw s.tb.inc
  | 0x14 => dw (s.tb.inc / 2 ^ 32)
  | 0x20 => s.tb.fstepLo
  | 0x24 => s.tb.fstepHi
  | 0x28 => bitIf s.tb.fstepAbs 1
  | 0x30 => pack [(s.tb.state.code, 0), (s.tb.source, 2), (b2n (decide (s.tb.owner = .host)), 4), (b2n s.tb.timeset, 5),
      (b2n s.tb.stepPend.isSome, 6)] ||| s.events.tb
  | 0x34 => bitIf s.tb.disc 0
  | _ => if 0x100 ≤ off ∧ off < 0x180 then s.tb.slots[Fin.ofNat 8 ((off - 0x100) / 16)].read (off % 16) else 0

/-- CAPn_PG_ (R261). -/
def State.readPg (s : State) (d : Die) (off : Nat) : Dword :=
  let g := s.gens[d]
  match off with
  | 0xA04 => pack [(g.state.code, 0), (g.endStatus.code, 4), (g.entry.val, 16)] ||| s.events.pg[d]
  | 0xA08 => g.t0.setWidth 32
  | 0xA0C => g.t0Hi
  | _ => 0

/-- CAPn_ (R31, R92, R142, R261): zero on a variant without the die. -/
def State.readCap (s : State) (d : Die) (off : Nat) : Dword :=
  let x := s.dies[d]
  if !s.hasDie d then 0
  else match off with
    | 0x104 => pack [(x.state.code, 0), (b2n x.closing, 3), (s.objNat (0x3910 + d.val) 3, 4), (b2n x.plan.coupled, 7), (s.objNat (0x3910 + d.val) 7 / 2 ^ 56, 8),
        (b2n x.convoy.weirShort, 11)]
    | 0x108 => dw (s.objNat (0x3910 + d.val) 4)
    | 0x110 => dw (s.objNat (0x3910 + d.val) 5)
    | 0x114 => s.host.trigHi[d]
    | 0x118 => dw x.backlog
    | 0x11C => dw x.win.wraps
    | 0x900 => pack [(x.stair.chamber, 0), (b2n x.plan.program.towDelay, 4), (b2n x.stair.trigger.isSome, 5),
        (b2n x.stair.placement.isSome, 6)]
    | _ =>
      if 0x800 ≤ off ∧ off < 0x820 ∧ off % 8 = 0 then s.pins.yarnDir[d][Fin.ofNat 4 ((off - 0x800) / 8)]
      else if 0x820 ≤ off ∧ off < 0x860 ∧ off % 8 = 0 then s.pins.yarnDrive[d][Fin.ofNat 8 ((off - 0x820) / 8)]
      else s.readPg d off

/-- HDMA_CHk_ (R343). -/
def State.readDma (s : State) (k : Fin 8) (off : Nat) : Dword :=
  let c := s.pcie.dma[k]
  match off with
  | 0x00 => c.baseLo
  | 0x04 => c.baseHi
  | 0x08 => pack [(c.size, 0), (b2n c.staged, 8)]
  | 0x0C => bitIf c.run 0
  | 0x10 => dw c.prod
  | 0x14 => dw c.cons
  | 0x18 => pack [(b2n c.busy, 0), (b2n c.halted, 1), (c.lastErr, 8), (s.pcie.outstanding k, 16)] ||| s.events.chan[k]
  | _ => 0

/-- HDMA_ (R343). -/
def State.readHdma (s : State) (off : Nat) : Dword :=
  if off < 0x200 then s.readDma (Fin.ofNat 8 (off / 0x40)) (off % 0x40)
  else if off = 0x200 then
    pack [(maskOf 8 (fun i => s.pcie.dma[Fin.ofNat 8 i].busy), 0), (maskOf 8 (fun i => s.pcie.dma[Fin.ofNat 8 i].halted), 8),
      (s.pcie.tags.length, 16)] ||| s.events.hdma
  else 0

/-- NET_ and PTP_ (R206). -/
def State.readNet (s : State) (off : Nat) : Dword :=
  match off with
  | 0x00 => pack [(b2n s.net.ports[0].linkUp, 0), (b2n s.net.ports[1].linkUp, 1), (s.lineMode 0, 2), (s.lineMode 1, 4)] ||| s.events.net
  | 0x10 => pack [(s.net.servo.code, 0), (s.net.ports[0].role.code, 4), (s.net.ports[1].role.code, 6)] ||| s.events.ptp
  | 0x18 => (BitVec.ofInt 64 s.net.last.offset).setWidth 32
  | 0x1C => s.net.offsetHi
  | 0x20 => (BitVec.ofInt 64 s.net.last.delay).setWidth 32
  | 0x24 => s.net.mpdHi
  | 0x28 => s.net.mseqHeld
  | _ => 0

/-- ALP_ (R230). -/
def State.readAlp (s : State) (off : Nat) : Dword :=
  let k := s.knots
  match off with
  | 0x00 => pack [(k.pos.toNat, 0), (s.objNat 0x4800 1, 6), (k.root.toNat, 18), (k.dist.toNat, 24),
      ((k.parent.map Fin.val).getD 0, 30)]
  | 0x04 => pack [(k.ports[0].state.code, 0), (k.ports[1].state.code, 4), (k.ports[2].state.code, 8), (k.ports[3].state.code, 12),
      (k.tree.toNat, 16)]
  | 0x08 => s.events.alp
  | _ => 0

/-- DS_ (R287). -/
def State.readDs (s : State) (off : Nat) : Dword :=
  let d := s.deep
  match off with
  | 0x00 => pack [(maskOf 8 (fun i => decide (d.chans[Fin.ofNat 8 i].state = .inService)), 0),
      (maskOf 8 (fun i => decide (d.chans[Fin.ofNat 8 i].state = .training)), 8), (b2n d.allRest, 16),
      (b2n (!d.migrations.isEmpty), 17), (b2n d.paused, 18)]
  | 0x04 => s.events.ds
  | 0x10 => pack [(d.requested, 0), (d.running, 2), (b2n (d.pending || d.deferred), 4)]
  | 0x18 => pack [(d.rasChan.val, 0), (d.rasRank.val, 3), (b2n d.spareNext, 6)]
  | 0x20 => dw s.pcie.hwinBase
  | _ => 0

/-- CLK_ (R319). -/
def State.readClk (s : State) (off : Nat) : Dword :=
  match off with
  | 0x0 => pack [(maskOf 13 (fun i => decide (s.clocks.plls[Fin.ofNat 13 i].state = .locked)), 0),
      (maskOf 13 (fun i => decide (s.clocks.plls[Fin.ofNat 13 i].state = .coast)), 16)]
  | 0x4 => s.events.clk
  | _ => 0

/-- PWR_ (R402). -/
def State.readPwr (s : State) (off : Nat) : Dword :=
  match off with
  | 0x04 => pack [(s.power.state.code, 0), (b2n s.power.transition.isSome, 3), (s.power.wake, 4), (s.power.lastReset, 8)]
  | 0x08 => s.events.pwr
  | 0x10 => s.domainsOn.setWidth 32
  | 0x14 => (s.domainsOn >>> 32).setWidth 32
  | _ => 0

/-- HLT_ (R416). -/
def State.readHlt (s : State) (off : Nat) : Dword :=
  match off with
  | 0x00 => pack [(b2n (s.frozen && !s.frozenFull), 0), (b2n s.health.hot, 1), (wrapInt 8 s.hottestC, 8)]
  | 0x04 => s.events.hlt
  | 0x10 => bitIf s.host.frzScope 2
  | 0x18 => fieldAt s.health.opt.toNat 8
  | 0x20 => s.host.bbMark
  | _ => 0

/-- What a dword of BAR0 shows at its dword offset (R370, R372); the high half of a latching pair is its snapshot (R374). -/
def State.readReg (s : State) (off : Nat) : Dword :=
  match off / 0x10000 with
  | 0 => if off < 0x1000 then s.readGbl off else if off < 0x2000 then s.readGrd (off - 0x1000) else 0
  | 1 => s.readTb (off % 0x10000)
  | 2 => s.readCap 0 (off % 0x10000)
  | 3 => s.readCap 1 (off % 0x10000)
  | 4 => s.readHdma (off % 0x10000)
  | 6 => dw (leNat (s.ramRead (off % 0x10000) 4))
  | 7 => s.readNet (off % 0x10000)
  | 8 => s.readAlp (off % 0x10000)
  | 9 => s.readDs (off % 0x10000)
  | 10 => s.readClk (off % 0x10000)
  | 11 => s.readPwr (off % 0x10000)
  | 12 => s.readHlt (off % 0x10000)
  | _ => 0

end Sys2Proof.Machine
end

