-- ==== Sys2Proof/Machine/Views.lean ====
section
/-! DEFINITION. What a read of an object gives (R345, R346): the stored value, or for an object that shows live state or
mirrors a register, that state. -/

namespace Sys2Proof.Machine

/-! ### Codes -/

/-- The gauge states (R245). -/
def GaugeState.code : GaugeState → Nat
  | .idle => 0
  | .running => 1
  | .done => 2
  | .aborted => 3
  | .timeout => 4

/-- The channel states (R288). -/
def ChanState.code : ChanState → Nat
  | .absent => 0
  | .nonconforming => 1
  | .inService => 2
  | .training => 3
  | .selfRefresh => 4
  | .failed => 5

/-- The PLL states (R320). -/
def PllState.code : PllState → Nat
  | .off => 0
  | .search => 1
  | .hop => 2
  | .locked => 3
  | .coast => 4

/-! ### Records -/

/-- The 62 bytes of a black-box entry that its CRC covers (R412). -/
def BbEntry.body (e : BbEntry) : List Byte :=
  leBytes 2 e.code ++ leBytes 1 e.sev ++ leBytes 1 (b2n e.first + 2 * b2n e.late + 4 * b2n e.dropped) ++ leBytes 4 e.epoch.toNat
    ++ leBytes 8 e.time.toNat ++ leBytes 8 e.seq ++ fitBytes 32 e.data ++ leBytes 4 e.boot ++ zeros 2

/-- The 64 bytes of a black-box entry (R412). -/
def BbEntry.bytes (e : BbEntry) : List Byte := e.body ++ leBytes 2 (crc16 e.body).toNat

/-- The 64 bytes at a place of the black box; a place never written reads as zero (assumption 3). -/
def bbPlace (m : SMap BbEntry) (i : Nat) : List Byte :=
  match mget i m with
  | some e => e.bytes
  | none => zeros 64

/-- Sixty-four places of the black box from a start index, wrapping (R417). -/
def bbWindow (m : SMap BbEntry) (start size : Nat) : List Byte := (List.range 64).flatMap (fun i => bbPlace m ((start + i) % size))

/-- The 32 bytes of a clamp-report entry (R351). -/
def ClampEntry.bytes (e : ClampEntry) : List Byte :=
  leBytes 8 e.time.toNat ++ leBytes 2 e.index ++ leBytes 1 e.sub ++ leBytes 1 e.reason ++ leBytes 1 (sourceCode e.source) ++ zeros 3
    ++ intBytes 8 e.requested ++ intBytes 8 e.applied

/-- The 16 bytes of an ignore-log entry (R417). -/
def IgnoreEntry.bytes (e : IgnoreEntry) : List Byte :=
  leBytes 8 e.time.toNat ++ leBytes 2 e.index ++ leBytes 1 e.sub ++ leBytes 1 (sourceCode e.source) ++ leBytes 1 e.cause ++ zeros 3

/-- A ring of `n` entries of `w` bytes; one never written is all zero. -/
def ringBytes {α : Type} (m : SMap α) (n w : Nat) (f : α → List Byte) : List Byte :=
  (List.range n).flatMap (fun i => match mget i m with
    | some e => f e
    | none => zeros w)

/-- The 16 bytes of a band-table entry (R309): TEMP in 0.01 °C. -/
def BandEntry.bytes (e : BandEntry) : List Byte :=
  leBytes 2 e.n ++ leBytes 1 e.band ++ leBytes 1 (b2n e.valid) ++ leBytes 2 e.vtune ++ intBytes 2 e.temp ++ leBytes 8 e.time.toNat

/-- The 256 bytes of a band table. -/
def Pll.tableBytes (p : Pll) : List Byte := fitBytes 256 (p.table.flatMap BandEntry.bytes)

/-! ### Live objects, chapter by chapter -/

/-- The ordering code (R1, R369). -/
def orderingCode : Variant → String
  | .c2048 => "SLN-2048-C"
  | .e2048 => "SLN-2048-E"
  | .c1024 => "SLN-1024-C"

/-- Identity and service (R369). -/
def State.viewService (s : State) (idx sub : Nat) : Option Val :=
  match idx, sub with
  | 0x1000, 2 => some (.bytes (textBytes (orderingCode s.variant)))
  | 0x1000, 3 => valNat (if s.hasDie 1 then 2048 else 1024)
  | 0x1000, 4 => valNat (if s.hasDie 1 then 3 else 1)
  | 0x1101, 1 => valNat s.guard.sel
  | 0x1120, 0x0C => valNat s.dict.subs.length
  | _, _ => none

/-- The free-run objects (R182, R183). -/
def State.viewFreeRun (s : State) (sub : Nat) : Option Val :=
  match sub with
  | 1 => some (.num (clampInt (-2000000) 2000000 (s.objInt 0x4040 1)))
  | 2 => some (.num s.ageing.1)
  | 3 => valNat s.ageing.2
  | 6 => some (.num (clampInt (-100000) 100000 (s.objInt 0x4040 6)))
  | 7 => valNat (hoursIn s.quartzAge)
  | 8 => valBool s.tb.timeset
  | 0x0A => valNat s.freeRunInc
  | _ => none

/-- The time base (R187). -/
def State.viewTime (s : State) (idx sub : Nat) : Option Val :=
  match idx, sub with
  | 0x4000, 1 => valNat s.tb.owner.code
  | 0x4000, 2 => valNat s.tb.state.code
  | 0x4001, 1 => valNat s.tb.wanted
  | 0x4001, 4 => valNat s.tb.source
  | 0x4011, 0 => valNat s.tb.inc
  | 0x4020, 1 => valNat s.tb.epoch.toNat
  | 0x4040, _ => s.viewFreeRun sub
  | 0x4050, 1 => valNat (s.time.toNat / 65536 % 2 ^ 32)
  | _, _ =>
    if 0x4030 ≤ idx ∧ idx < 0x4038 then
      let x := s.tb.slots[Fin.ofNat 8 (idx - 0x4030)]
      if sub = 7 then valNat x.target.toNat else if sub = 8 then valBool x.en else none
    else none

/-- Network and Aelop (R207, R231). -/
def State.viewNet (s : State) (idx sub : Nat) : Option Val :=
  match idx, sub with
  | 0x4420, 7 => valNat s.net.servo.code
  | 0x4430, 1 => some (.num (s.latency 0).1)
  | 0x4430, 2 => some (.num (s.latency 0).2)
  | 0x4431, 1 => some (.num (s.latency 1).1)
  | 0x4431, 2 => some (.num (s.latency 1).2)
  | 0x4800, 2 => valNat s.nodeId.toNat
  | _, _ => if 0x4810 ≤ idx ∧ idx < 0x4814 ∧ sub = 2 then valNat s.knots.ports[Fin.ofNat 4 (idx - 0x4810)].state.code else none

/-- Gauges and generators (R245, R262). -/
def State.viewInstrument (s : State) (idx sub : Nat) : Option Val :=
  if 0x4C40 ≤ idx ∧ idx < 0x4C80 ∧ sub = 1 then valNat s.gauges[Fin.ofNat 64 (idx - 0x4C40)].state.code
  else
    let g := s.gens[Fin.ofNat 2 idx]
    match idx / 2 * 2, sub with
    | 0x5010, 1 => valNat g.state.code
    | 0x5010, 2 => valNat g.endStatus.code
    | 0x5010, 3 => valNat g.entry.val
    | 0x5010, 4 => valNat g.failing
    | 0x5040, 6 => valNat g.loadStatus
    | 0x5040, 7 => valBool g.cacheValid
    | _, _ => none

/-- The rank table of a channel: bits [2s + 1:2s] hold the rank of slot s. -/
def DsChan.rankTable (x : DsChan) : Nat := x.slots[0].val + 4 * x.slots[1].val + 16 * x.slots[2].val + 64 * x.slots[3].val

/-- A channel's objects (R288). -/
def DsChan.view (x : DsChan) (sub : Nat) : Option Val :=
  match sub with
  | 1 => valNat x.state.code
  | 2 => valNat x.ranks
  | 3 => valNat x.capacity
  | 4 => some (.num x.tempMc)
  | 5 => valBool x.doubled
  | 6 => valNat x.trainedAt.toNat
  | 7 => some (.num x.trainTemp)
  | 8 => valNat x.trainResult
  | 9 => valNat x.rankTable
  | 0x0A => valNat x.out.toNat
  | _ => none

/-- The map (object 5400). -/
def Deep.view (d : Deep) (sub : Nat) : Option Val :=
  match sub with
  | 1 => valNat d.requested
  | 2 => valNat d.running
  | 3 => valBool d.sparing
  | 4 => valNat d.c
  | 5 => valNat d.mapRanks
  | 6 => valNat d.rankGiB
  | 7 => valNat (d.top / 2 ^ 20)
  | 8 => valNat d.capacityMiB
  | 9 => valNat d.ingestMB
  | _ => none

/-- The deep store (R288). -/
def State.viewDeep (s : State) (idx sub : Nat) : Option Val :=
  if idx = 0x5400 then s.deep.view sub
  else if 0x5410 ≤ idx ∧ idx < 0x5418 then s.deep.chans[Fin.ofNat 8 (idx - 0x5410)].view sub
  else if 0x5430 ≤ idx ∧ idx < 0x5438 ∧ sub = 5 then valNat (s.deep.urgency (Fin.ofNat 8 (idx - 0x5430)))
  else if idx = 0x5450 ∧ sub = 1 then valNat s.deep.damageNext
  else none

/-- The basin of a die (R305). -/
def State.viewBasin (s : State) (d : Die) (sub : Nat) : Option Val :=
  match sub with
  | 1 => valNat s.chip.bankMask[d].toNat
  | 2 => valNat (bankCount s.chip.bankMask[d])
  | 3 => some (.bytes ((List.range 64).map (fun b => BitVec.ofNat 8 (s.chip.used d.val b))))
  | 4 => valNat s.chip.basinTest[d]
  | _ => none

/-- The on-chip memories (R305). -/
def State.viewChip (s : State) (idx sub : Nat) : Option Val :=
  match idx, sub with
  | 0x5801, 7 => valNat s.chip.testStatus
  | 0x5810, _ => s.viewBasin 0 sub
  | 0x5811, _ => s.viewBasin 1 sub
  | 0x5820, 2 => valNat (leNat (s.chip.padSpares.toList.map (fun n => BitVec.ofNat 8 n)))
  | 0x5830, 4 => valNat s.chip.ramSpares
  | _, _ => none

/-- The clocks (R320). -/
def State.viewClock (s : State) (idx sub : Nat) : Option Val :=
  if 0x5A10 ≤ idx ∧ idx < 0x5A1C then some (.bytes s.clocks.plls[Fin.ofNat 13 (idx - 0x5A10)].tableBytes)
  else if 0x5A20 ≤ idx ∧ idx < 0x5A2D then
    let p := s.clocks.plls[Fin.ofNat 13 (idx - 0x5A20)]
    match sub with
    | 1 => valNat p.state.code
    | 2 => valNat p.n
    | 3 => valNat p.band
    | 4 => valNat p.vtune
    | _ => none
  else none

/-- The type 0 header of the configuration space as the function holds it, in bytes (R322): vendor and device ID, Command, Status with
Capabilities List and the error bits, revision and class code, cache line size, BARs, subsystem IDs, capabilities pointer, interrupt line. -/
def State.cfgHeader (s : State) : List Byte :=
  let c := s.pcie.cfg
  let command := 2 * b2n c.memEnable + 4 * b2n c.bme + 64 * b2n c.parity + 256 * b2n c.serr + 1024 * b2n c.intxDisable
  leBytes 2 vendorId ++ leBytes 2 s.deviceId ++ leBytes 2 command ++ leBytes 2 (0x10 + s.pcie.status.toNat) ++ leBytes 1 1 ++ leBytes 3 0x118000
    ++ [c.cacheLine] ++ zeros 3 ++ leBytes 8 c.bar0.toNat ++ leBytes 8 c.bar2.toNat ++ leBytes 8 c.bar4.toNat ++ zeros 4
    ++ leBytes 2 s.pcie.subsysVendor ++ leBytes 2 s.pcie.subsysId ++ zeros 4 ++ leBytes 1 0x40 ++ zeros 7 ++ [c.intLine] ++ zeros 3

/-- The endpoint (R344). -/
def State.viewPcie (s : State) (idx sub : Nat) : Option Val :=
  match idx, sub with
  | 0x6000, 1 => valNat s.vendorKept
  | 0x6000, 2 => valNat s.idKept
  | 0x6000, 3 => valNat s.pcie.rate
  | 0x6000, 4 => valNat s.pcie.width
  | 0x6000, 5 => valNat (if s.pcie.dstate = .d0 then 0 else 3)
  | _, _ => none

/-- Power and health (R403, R417). -/
def State.viewHealth (s : State) (idx sub : Nat) : Option Val :=
  let h := s.health
  match idx, sub with
  | 0x7000, 2 => valNat s.power.state.code
  | 0x7000, 3 => valBool s.power.transition.isSome
  | 0x7400, 1 => some (.num (s.tempLimit 1))
  | 0x7400, 4 => some (.num (s.tempLimit 4))
  | 0x7440, 1 => valNat h.nextRing
  | 0x7440, 3 => valNat h.slots.length
  | 0x7440, 5 => valNat h.opt.toNat
  | 0x7448, 0 => some (.bytes (bbWindow h.ring (s.objNat 0x7441 1) 64512))
  | 0x7449, 0 => some (.bytes (bbWindow h.slots (s.objNat 0x7441 2) 1024))
  | 0x7460, 1 => valNat h.nextClamp
  | 0x7461, 0 => some (.bytes (ringBytes h.clamps 64 32 ClampEntry.bytes))
  | 0x7470, 1 => valNat h.nextIgnore
  | 0x7471, 0 => some (.bytes (ringBytes h.ignores 16 16 IgnoreEntry.bytes))
  | _, _ => none

/-- The live value of an object, where it has one (R349). -/
def State.viewObj (s : State) (idx sub : Nat) : Option Val :=
  if idx < 0x2000 then s.viewService idx sub
  else if idx < 0x4000 then s.viewCapture idx sub
  else if idx < 0x4400 then s.viewTime idx sub
  else if idx < 0x4C00 then s.viewNet idx sub
  else if idx < 0x5400 then s.viewInstrument idx sub
  else if idx < 0x5800 then s.viewDeep idx sub
  else if idx < 0x5A00 then s.viewChip idx sub
  else if idx < 0x6000 then s.viewClock idx sub
  else if idx < 0x7000 then s.viewPcie idx sub
  else s.viewHealth idx sub

/-- The value of an object (R345). -/
def State.readObj (s : State) (idx sub : Nat) : Val := (s.viewObj idx sub).getD (storeGet s.objs idx sub)

/-- The PCI Express capability (R323) and its controls: payload, Extended Tag, role-based errors and Function Level Reset in Device
Capabilities; 32 GT/s, x16 and ASPM L1 in Link Capabilities; the timeout ranges and the 10-bit tags in Device Capabilities 2. -/
def State.readExpress (s : State) (off : Nat) : Dword :=
  let c := s.pcie.cfg
  match off with
  | 0x70 => 0x00020010
  | 0x74 => pack [(2, 0), (1, 5), (1, 15), (1, 28)]
  | 0x78 => pack [(c.errEnable.toNat, 0), (b2n c.relaxed, 4), (c.maxPayload, 5), (b2n c.extTag, 8), (c.maxRead, 12)]
  | 0x7C => pack [(5, 0), (16, 4), (2, 10)]
  | 0x80 => pack [(b2n c.aspmL1, 1), (s.pcie.rate, 16), (s.pcie.width, 20)]
  | 0x94 => pack [(7, 0), (1, 4), (1, 16), (1, 17)]
  | 0x98 => pack [(c.cplTimeoutValue, 0), (b2n c.cplTimeoutDisable, 4), (b2n c.tag10, 12)]
  | 0x9C => 0x3E
  | _ => 0

/-- The extended capabilities: AER, the Device Serial Number, and the vendor-specific one (R323, R324). -/
def State.readExtended (s : State) (off : Nat) : Dword :=
  let c := s.pcie.cfg
  let serial := (s.readObj 0x4410 0x0C).int.toNat
  match off with
  | 0x100 => 0x14020001
  | 0x104 => s.pcie.aerStatus
  | 0x108 => c.aerMask
  | 0x10C => c.aerSeverity
  | 0x114 => c.aerCorrMask
  | 0x140 => 0x15010003
  | 0x144 => dw serial
  | 0x148 => dw (serial / 2 ^ 32)
  | 0x150 => 0x0001000B
  | 0x154 => 0x01810001
  | 0x158 => 0x00060000
  | 0x15C => 0x00004000
  | 0x160 => pack [(b2n s.guard.keyed, 0), (b2n s.guard.strap, 1)]
  | 0x164 => 1
  | _ => 0

/-- A dword of configuration space (R322 to R324): the header, Power Management with PME from D0, D3hot and D3cold, MSI-X, and the
capabilities above. -/
def State.readCfg (s : State) (off : Nat) : Dword :=
  let p := s.pcie
  match off with
  | 0x40 => 0xC8835001
  | 0x44 => pack [(if p.dstate = .d0 then 0 else 3, 0), (1, 3), (b2n p.cfg.pmeEn, 8), (b2n p.pmeStatus, 15)]
  | 0x50 => pack [(0x7011, 0), (63, 16), (b2n p.msix.funcMask, 30), (b2n p.msix.enable, 31)]
  | 0x54 => 0x00000004
  | 0x58 => 0x00008004
  | _ => if off < 0x40 then dw (leNat ((s.cfgHeader.drop off).take 4)) else if off < 0x100 then s.readExpress off else s.readExtended off

end Sys2Proof.Machine
end

