-- ==== Sys2Proof/Machine/Writes.lean ====
section
/-! DEFINITION. What a dictionary write does when it is applied (R347 to R350): the objects whose write is a command or reaches past
the stored value, chapter by chapter. Every other writable object is stored. -/

namespace Sys2Proof.Machine

/-- The state that a result leads to, or the one before it. -/
def after (r : Result) (s : State) : State :=
  match r with
  | .next t => t
  | .fault _ => s
  | .refused _ => s

/-! ### Front end and capture (chapters 02, 06) -/

/-- A setting of global channels `lo` to `lo + n - 1` changes: the running gauges on them set DISTURBED (R244). -/
def State.disturb (s : State) (lo n : Nat) : State :=
  let hit := fun (c : Nat) => decide (lo ≤ c ∧ c < lo + n)
  { s with gauges := s.gauges.map (fun g => if hit g.set.startChan || hit g.set.stopChan then g.mark 5 else g) }

/-- A threshold, hysteresis or deskew is stored (R22, R32, R46). -/
def State.actChannel (s : State) (idx sub : Nat) (v : Val) (via : Source) : State :=
  ((s.put idx sub v).checkDelays idx sub via).disturb (256 * (idx % 16) + sub) 1

/-- A yarn's phase is stored (R32). -/
def State.actPhase (s : State) (idx sub : Nat) (v : Val) (via : Source) : State :=
  ((s.put idx sub v).checkDelays idx sub via).disturb (8 * sub) 8

/-- A setting of die 1 where the part has none: 1 is applied as 0 with reason VARIANT (R3, R38, R139). -/
def State.actVariant (s : State) (idx sub : Nat) (v : Val) (via : Source) : State :=
  if v.int = 1 ∧ !s.hasDie 1 then (s.clampOp (idx, sub) 7 via 1 0).putNat idx sub 0 else s.put idx sub v

/-- A write of chapters 02 to 07. -/
def State.actCapture (s : State) (idx sub : Nat) (v : Val) (via : Source) : State :=
  match idx, sub with
  | 0x2060, _ => after (execFullCalibrationCommand (BitVec.ofInt 2 v.int) via s) s
  | 0x2070, 1 => s.actVariant idx sub v via
  | 0x2070, 8 => after (execEyeFinderStart via s) s
  | 0x3600, 2 => s.actVariant idx sub v via
  | 0x3601, 2 => s.actVariant idx sub v via
  | 0x3930, 1 => s.actVariant idx sub v via
  | 0x3940, _ => after (execSluiceSealedConvoy 0 via s) s
  | 0x3941, _ => after (execSluiceSealedConvoy 1 via s) s
  | _, _ =>
    if (0x2000 ≤ idx ∧ idx < 0x2008) ∨ (0x2010 ≤ idx ∧ idx < 0x2018) ∨ (0x2020 ≤ idx ∧ idx < 0x2028) then s.actChannel idx sub v via
    else if idx = 0x2030 then s.actPhase idx sub v via
    else if 0x3000 ≤ idx ∧ idx < 0x3080 then (s.put idx sub v).loadTrigRam (Fin.ofNat 2 ((idx - 0x3000) / 0x40))
    else s.put idx sub v

/-! ### Time base (chapter 08) -/

/-- The host watchdog's time is written (R177): a running one keeps its start. -/
def State.actWatchdog (s : State) (v : Val) : State :=
  let old := s.objNat 0x4000 3
  let new := v.int.toNat
  let s := s.put 0x4000 3 v
  if s.tb.owner = .host then
    { s with tb := { s.tb with watchdog :=
      if new = 0 then none
      else match s.tb.watchdog with
        | some t => some (t - ms old + ms new)
        | none => if s.tb.disc then some (s.now + ms new) else none } }
  else s

/-- A write of a compare slot's objects (R178, R187). -/
def State.actSlot (s : State) (k : Fin 8) (idx sub : Nat) (v : Val) : State :=
  if sub = 7 then s.commitTarget k (BitVec.ofInt 64 v.int)
  else if sub = 8 then if v.int = 0 then s.withSlot k (fun x => { x with en := false, lateDue := false }) else s.enableSlot k
  else s.put idx sub v

/-- A write of chapter 08. -/
def State.actTime (s : State) (idx sub : Nat) (v : Val) (via : Source) : State :=
  match idx, sub with
  | 0x4000, 1 => s.writeOwner (ownerOf v.int.toNat)
  | 0x4000, 3 => s.actWatchdog v
  | 0x4001, 1 => s.selectSource v.int.toNat via
  | 0x4020, 1 => s.writeEpoch (BitVec.ofInt 32 v.int) (idx, sub) via
  | _, _ => if 0x4030 ≤ idx ∧ idx < 0x4038 then s.actSlot (Fin.ofNat 8 (idx - 0x4030)) idx sub v else s.put idx sub v

/-! ### Network and knots (chapters 09, 10) -/

/-- A write of a port's objects (R188 to R191). -/
def State.actPort (s : State) (p : Fin 2) (idx sub : Nat) (v : Val) (via : Source) : State :=
  if sub = 1 then s.ethEnable p (v.int != 0)
  else if portSetting sub then s.reconfigure p sub v via
  else if sub = 0x0A then ((s.put idx sub v).reportGroups p).ptpSettle
  else (s.put idx sub v).ptpSettle

/-- A multicast group for IPv6 knots (R231): a value that is neither zero nor multicast is applied as the permitted value nearest to it,
all zeros or FF00:: by which half of the address range it lies in (DEDUCED, assumption 87). -/
def State.actGroup6 (s : State) (v : Val) (via : Source) : State :=
  let bs := v.byteList
  let nearZero := decide (leNat (bs.take 2).reverse < 0x7F80)
  if allZero bs || bs.headD 0 == 0xFF then s.put 0x4830 3 v
  else (s.clampOp (0x4830, 3) 2 via bs.length bs.length).put 0x4830 3 (.bytes (if nearZero then zeros 16 else 0xFF :: zeros 15))

/-- A write of chapters 09 and 10. `addr` is the source address of the request. -/
def State.actNet (s : State) (idx sub : Nat) (v : Val) (via : Source) (addr : List Byte) : State :=
  match idx, sub with
  | 0x4400, _ => s.actPort 0 idx sub v via
  | 0x4401, _ => s.actPort 1 idx sub v via
  | 0x4410, _ => (s.put idx sub v).ptpSettle
  | 0x4470, 6 => s.bulkStart via addr
  | 0x4800, 1 => s.setDomain v
  | 0x4830, 2 => ((s.put idx sub v).reportGroup 0 false).reportGroup 1 false
  | 0x4830, 3 => ((s.actGroup6 v via).reportGroup 0 true).reportGroup 1 true
  | 0x4840, 3 => s.sendHostKnot v.int.toNat
  | 0x4880, 1 => s.setReference v
  | _, _ =>
    if 0x4810 ≤ idx ∧ idx < 0x4814 ∧ sub = 1 then s.alpEnable (Fin.ofNat 4 (idx - 0x4810)) (v.int != 0) else s.put idx sub v

/-! ### Instruments (chapters 11, 12) -/

/-- A generator command (R251 to R259): 1 prime, 2 start, 3 stop, 4 jump, 5 calibrate. -/
def State.genCode (s : State) (d : Die) (n : Nat) (via : Source) : State :=
  match n with
  | 1 => s.primeCommand d via
  | 2 => s.startCommand d via
  | 3 => s.stopCommand d via
  | 4 => s.genJump d (.request via) s.now
  | _ => after (execPgSyncCalibration d via s) s

/-- The loop cache's size is written (R254): a change clears cache valid, and the window is laid out. -/
def State.actCacheSize (s : State) (d : Die) (idx : Nat) (v : Val) : State :=
  let changed := decide (s.objInt idx 1 ≠ v.int)
  let s := (s.put idx 1 v).layout d false
  if changed then s.withGen d (fun g => { g with cacheValid := false }) else s

/-- One entry of a segment table block as written (R249): each field clamped on its own, with what was asked and what is applied. -/
def clampEntry (bs : List Byte) : List Byte × List (Nat × Int × Int) :=
  let n := leNat bs
  let start := bitsAt 0 48 n
  let len := bitsAt 64 32 n
  let exit := bitsAt 120 3 n
  let start' := start / 64 * 64
  let len' := if 1 ≤ len ∧ len ≤ 3 then 4 else len
  let exit' := if 5 ≤ exit then 4 else exit
  (leBytes 16 (n - start + start' - len * 2 ^ 64 + len' * 2 ^ 64 - exit * 2 ^ 120 + exit' * 2 ^ 120),
    (if start' = start then [] else [(3, (start : Int), (start' : Int))]) ++
    (if len' = len then [] else [(0, (len : Int), (len' : Int))]) ++
    (if exit' = exit then [] else [(2, (exit : Int), (exit' : Int))]))

/-- A block of a segment table is written (R249). -/
def State.actTable (s : State) (idx : Nat) (v : Val) (via : Source) : State :=
  let es := (List.range 256).map (fun i => clampEntry ((v.byteList.drop (16 * i)).take 16))
  let s := (es.flatMap Prod.snd).foldl (fun s c => s.clampOp (idx, 0) c.1 via c.2.1 c.2.2) s
  s.put idx 0 (.bytes (es.flatMap Prod.fst))

/-- A write of chapters 11 and 12. -/
def State.actInstrument (s : State) (idx sub : Nat) (v : Val) (via : Source) : State :=
  let d : Die := Fin.ofNat 2 idx
  if 0x4C00 ≤ idx ∧ idx < 0x4C40 ∧ sub = 0x10 then
    let g : Fin 64 := Fin.ofNat 64 (idx - 0x4C00)
    if v.int = 1 then after (execGaugeStart g via s) s else after (execGaugeStop g via s) s
  else if (idx = 0x5000 ∨ idx = 0x5001) ∧ sub = 0x0F then s.genCode d v.int.toNat via
  else if (idx = 0x5000 ∨ idx = 0x5001) ∧ sub = 6 then (s.put idx sub v).showIdle d
  else if 0x5100 ≤ idx ∧ idx < 0x5120 then s.actTable idx v via
  else if idx = 0x5030 ∧ sub = 2 then after (execSyncoutOriginate via s) s
  else if (idx = 0x5040 ∨ idx = 0x5041) ∧ sub = 1 then s.actCacheSize d idx v
  else if (idx = 0x5040 ∨ idx = 0x5041) ∧ sub = 5 then after (execLoopCacheLoad d via s) s
  else s.put idx sub v

/-! ### The other chapters -/

/-- A key is written (R363): its replay windows and the part's SEQNO for it start again. -/
def State.writeKey (s : State) (n : Fin 4) (key : List Byte) : State :=
  { s with
    mram := { s.mram with keys := s.mram.keys.set n (some (fitBytes 32 key)), sendSeq := s.mram.sendSeq.set n 0 }
    dict := { s.dict with replays := s.dict.replays.filter (fun x => decide (x.key ≠ n)) } }

/-- A subsystem id is written (R324, R344): kept in MRAM (R400), it stands in the header from the next fundamental reset. -/
def State.actSubsystem (s : State) (sub : Nat) (v : Val) : State :=
  let n := v.int.toNat
  let old := if sub = 1 then s.vendorKept else s.idKept
  { s with
    dict := if n = old then s.dict else s.dict.note 0x6000 sub s.time
    mram := if sub = 1 then { s.mram with subsysVendor := some n, present := s.mram.present ||| 128 }
      else { s.mram with subsysId := some n, present := s.mram.present ||| 128 } }

/-- A port is kept up, or no longer (R393): outside ON one that is not kept loses its link. -/
def State.actKeepUp (s : State) (sub : Nat) (v : Val) : State :=
  let s := s.put 0x7001 sub v
  if s.power.state = .on then s else s.dropPorts

/-- A temperature limit is written (R417); one equal to the limit in force changes nothing. -/
def State.actTempLimit (s : State) (sub : Nat) (v : Val) : State := if v.int = s.tempLimit sub then s else s.put 0x7400 sub v

/-- A write of chapters 13 to 20. -/
def State.actHub (s : State) (idx sub : Nat) (v : Val) (via : Source) : State :=
  match idx, sub with
  | 0x5801, 6 => s.commandTest via
  | 0x5A00, 1 => (s.put idx sub v).driveRefout
  | 0x5A00, 2 => after (execSpreadChange (BitVec.ofInt 8 v.int) via s) s
  | 0x5A40, 1 => after (execBandRevalidate (BitVec.ofInt 16 v.int) via s) s
  | 0x6000, _ => s.actSubsystem sub v
  | 0x7000, 1 => s.writePowerReq v.int.toNat via
  | 0x7001, _ => s.actKeepUp sub v
  | 0x7400, 1 => s.actTempLimit sub v
  | 0x7400, 4 => s.actTempLimit sub v
  | 0x7440, 5 => { s with health := { s.health with opt := BitVec.ofInt 5 v.int } }
  | _, _ => s.put idx sub v

/-- A write of the service's own objects (R363, R377). -/
def State.actService (s : State) (idx sub : Nat) (v : Val) (via : Source) : State :=
  if idx = 0x1101 then s.selectGuard v.int.toNat via
  else if 0x1110 ≤ idx ∧ idx < 0x1114 ∧ sub = 1 then s.writeKey (Fin.ofNat 4 (idx - 0x1110)) v.byteList
  else s.put idx sub v

/-- An accepted write is applied (R347): a command runs, another object takes its value. -/
def State.act (s : State) (idx sub : Nat) (v : Val) (via : Source) (addr : List Byte) : State :=
  if idx < 0x2000 then s.actService idx sub v via
  else if idx < 0x4000 then s.actCapture idx sub v via
  else if idx < 0x4400 then s.actTime idx sub v via
  else if idx < 0x4C00 then s.actNet idx sub v via addr
  else if idx < 0x5400 then s.actInstrument idx sub v via
  else s.actHub idx sub v via

end Sys2Proof.Machine
end

