-- ==== Sys2Proof/Machine/Dictionary.lean ====
section
/-! DEFINITION. The dictionary service's commands (chapter 17): items read and written, the requests in service, subscriptions and
notifications, keys and authentication, datagrams and frames on the Ethernet ports (R189, R190, R345 to R363). -/

namespace Sys2Proof.Machine

/-! ### Reading (R345 to R347) -/

/-- An item of a response: its status, and the value it carries. -/
def Item.back (i : Item) (status typ : Nat) (value : List Byte) : Item :=
  { i with typ := typ, istat := status, iflags := 0, value := value }

/-- An item of a response that carries no value. -/
def Item.fail (i : Item) (status : Nat) : Item := i.back status i.typ []

/-- One item of a READ (R345, R347, R358). -/
def State.readItem (s : State) (i : Item) : Item :=
  match s.objectAt i.index i.sub with
  | none => i.fail 3
  | some r =>
    if r.acc = .wo then i.fail 4
    else if i.typ ≠ r.typ.code ∧ i.typ ≠ 0xFF then i.fail 5
    else if !i.value.isEmpty then i.fail 5
    else i.back 0 r.typ.code (valBytes r.typ (s.readObj i.index i.sub))

/-- The items of a READ_BLOCK: every listed subindex; an index without one is ABSENT (R358). -/
def State.readBlock (s : State) (i : Item) : List Item :=
  match s.listed i.index with
  | [] => [i.fail 3]
  | subs => subs.map (fun sub => s.readItem { i with sub := sub, typ := 0xFF, value := [] })

/-! ### Writing (R347 to R353) -/

/-- A guard failure of a dictionary write (R348): counted, with its GUARD_FAIL entry (R414). -/
def State.dictGuardFail (s : State) (i : Item) (cause : Nat) (via : Source) : State :=
  (s.bump 0x1120 0x0D).bb 0x00A0 2 (leBytes 4 (2 ^ 31 + i.index * 256 + i.sub) ++ leBytes 1 cause ++ leBytes 1 (sourceCode via)
    ++ leBytes 4 (fieldOf i.value 0 4))

/-- An object belongs to an instrument that runs: its settings are ignored (R234, R262). -/
def State.instrumentRuns (s : State) (idx sub : Nat) : Bool :=
  if 0x4C00 ≤ idx ∧ idx < 0x4C40 then
    decide (sub ≠ 0x10) && decide (s.gauges[Fin.ofNat 64 (idx - 0x4C00)].state = .running)
  else if idx = 0x5000 ∨ idx = 0x5001 then decide (sub ≠ 0x0F) && !s.genStopped (Fin.ofNat 2 idx)
  else if 0x5100 ≤ idx ∧ idx < 0x5120 then !s.genStopped (Fin.ofNat 2 ((idx - 0x5100) / 16))
  else false

/-- The newest ignore-log entry has been written since `s`, for a write by `via`. -/
def State.ignoredSince (t s : State) (via : Source) : Bool :=
  decide (t.objNat 0x1120 0x0E ≠ s.objNat 0x1120 0x0E) &&
    (match mget ((t.health.nextIgnore + 15) % 16) t.health.ignores with
      | some e => decide (e.source = via)
      | none => false)

/-- The newest clamp-report entry has been written since `s`, for a write by `via`. -/
def State.clampedSince (t s : State) (via : Source) : Bool :=
  decide (t.objNat 0x7460 2 ≠ s.objNat 0x7460 2) &&
    (match mget ((t.health.nextClamp + 63) % 64) t.health.clamps with
      | some e => decide (e.source = via)
      | none => false)

/-- The status of a write that has run: IGNORED, CLAMPED or OK, by what it left in the logs. -/
def outcomeStatus (t s : State) (via : Source) : Nat := if t.ignoredSince s via then 2 else if t.clampedSince s via then 1 else 0

/-- The fields that clamp themselves: the guard mode and the power request (R377, R402). -/
def clampsItself (idx sub : Nat) : Bool := decide (idx = 0x1101) || (decide (idx = 0x7000) && decide (sub = 1))

/-- A value of the right form is written: clamped, then applied (R350). -/
def State.applyWrite (s : State) (req : Request) (r : ObjRow) (i : Item) (v : Val) : State × Val :=
  let c := if clampsItself i.index i.sub then (s, v) else s.clampField r i.index i.sub v req.path
  (c.1.act i.index i.sub c.2 req.path req.srcAddr, c.2)

/-- The value that a write's response carries: the one applied or held; of a command the one taken, and none when it was ignored
(R350, R358). -/
def State.writtenBytes (t : State) (r : ObjRow) (i : Item) (status : Nat) (v : Val) : List Byte :=
  if r.acc = .wo then if status = 2 then [] else valBytes r.typ v else valBytes r.typ (t.readObj i.index i.sub)

/-- A write whose form is right (R347): ignored while a die is not IDLE (RWI) or its instrument runs, otherwise applied. -/
def State.writeForm (s : State) (req : Request) (r : ObjRow) (i : Item) (value : List Byte) : State × Item :=
  let v := readVal r.typ value
  let a :=
    if r.acc = .rwi ∧ !s.bothIdle then (s.ignoreOp (i.index, i.sub) req.path .notIdle, v)
    else if s.instrumentRuns i.index i.sub then (s.ignoreOp (i.index, i.sub) req.path .running, v)
    else s.applyWrite req r i v
  let status := outcomeStatus a.1 s req.path
  (a.1, i.back status r.typ.code (a.1.writtenBytes r i status a.2))

/-- A write to a guarded object (R348): the value, then its complement, with GUARD set. -/
def State.writeGuarded (s : State) (req : Request) (r : ObjRow) (i : Item) : State × Item :=
  let n := i.value.length / 2
  let v := i.value.take n
  if i.iflags.testBit 0 then
    if !lengthOk r.typ n ∨ i.value.length % 2 = 1 then (s, i.fail 5)
    else if i.value.drop n = v.map (fun b => ~~~b) then s.writeForm req r i v
    else (s.dictGuardFail i 7 req.path, i.fail 6)
  else (s.dictGuardFail i 6 req.path, i.fail 6)

/-- One item of a WRITE (R345 to R350, R363). -/
def State.writeItem (s : State) (req : Request) (i : Item) : State × Item :=
  match s.objectAt i.index i.sub with
  | none => (s, i.fail 3)
  | some r =>
    if 0x1110 ≤ i.index ∧ i.index < 0x1114 ∧ i.sub = 1 ∧ req.path ≠ .mailbox then (s, i.fail 7)
    else if r.acc = .const ∨ r.acc = .ro then (s.bump 0x1120 5, i.fail 4)
    else if i.typ ≠ r.typ.code then (s, i.fail 5)
    else if r.acc = .g then s.writeGuarded req r i
    else if lengthOk r.typ i.value.length then s.writeForm req r i i.value
    else (s, i.fail 5)

/-- The items of a write, in order (R354). -/
def State.writeItems (req : Request) : List Item → State → State × List Item
  | [], s => (s, [])
  | i :: is, s =>
    let a := s.writeItem req i
    let b := State.writeItems req is a.1
    (b.1, a.2 :: b.2)

/-! ### Service (R354, R358) -/

/-- The request in service, when it is one of an operation and the HKC serves. -/
def State.inService (s : State) (op : Nat) : Option (Request × List Item) :=
  match s.dict.serving with
  | some r =>
    if s.power.hkcUp && decide (frameOp r.frame = op) then
      match r.items with
      | some items => some (r, items)
      | none => none
    else none
  | none => none

/-- No request is in service any more. -/
def State.served (s : State) : State := { s with dict := { s.dict with serving := none } }

/-- The STATUS of a response: that of the first item that is not OK (R356). -/
def firstStatus (items : List Item) : Nat := ((items.map Item.istat).find? (fun n => decide (n ≠ 0))).getD 0

/-- A request is complete: counted, answered, and the next is taken (R354). -/
def State.complete (s : State) (r : Request) (items : List Item) : State :=
  let f := backFrame (frameOp r.frame) (firstStatus items) (frameTag r.frame) items.length (items.flatMap odpItem)
  ((s.bump 0x1120 1).sendBack r f).takeNext

/-- ODP_READ (R358). -/
def execOdpRead (s : State) : Result :=
  .next (match s.inService 1 with
    | some (r, items) => s.served.complete r (items.map s.readItem)
    | none => s)

/-- A WRITE or WRITE_BLOCK is served. -/
def State.serveWrite (s : State) (r : Request) (items : List Item) : State :=
  let a := State.writeItems r items s.served
  a.1.complete r a.2

/-- ODP_WRITE (R358). -/
def execOdpWrite (s : State) : Result :=
  .next (match s.inService 2 with
    | some (r, items) => s.serveWrite r items
    | none => s)

/-- ODP_READ_BLOCK (R358): one snapshot of the index. -/
def execOdpReadBlock (s : State) : Result :=
  .next (match s.inService 3 with
    | some (r, items) => s.served.complete r (items.flatMap s.readBlock)
    | none => s)

/-- ODP_WRITE_BLOCK (R358): its items in order. -/
def execOdpWriteBlock (s : State) : Result :=
  .next (match s.inService 4 with
    | some (r, items) => s.serveWrite r items
    | none => s)

/-! ### Subscriptions (R360, R361) -/

/-- A subscription to the object of an item, by the path and source of a request. -/
def Subscription.of (x : Subscription) (r : Request) (i : Item) : Bool :=
  decide (x.path = r.path) && x.srcAddr == r.srcAddr && decide (x.srcPort = r.srcPort) && decide (x.index = i.index)
    && decide (x.sub = i.sub)

/-- A subscription, its lease starting now. -/
def State.newSub (s : State) (r : Request) (i : Item) : Subscription :=
  { path := r.path, srcAddr := r.srcAddr, srcPort := r.srcPort, tag := frameTag r.frame, index := i.index, sub := i.sub,
    interval := leNat i.value % 2 ^ 31, renewed := s.now, merged := 0, changedAt := s.time, lastSent := none,
    lastVal := s.readObj i.index i.sub }

/-- The subscriptions replaced. -/
def State.withSubs (s : State) (l : List Subscription) : State := { s with dict := { s.dict with subs := l } }

/-- A subscription is cancelled, renewed or made; a 65th is refused (R360). -/
def State.subscribe (s : State) (r : Request) (i : Item) : State × Item :=
  let rest := s.dict.subs.filter (fun x => !x.of r i)
  let ok := i.fail 0
  if (leNat i.value).testBit 31 then (s.withSubs rest, ok)
  else if 64 ≤ rest.length then (s, i.fail 8)
  else (s.withSubs (rest ++ [s.newSub r i]), ok)

/-- The item of a SUBSCRIBE (R360): an object that can be read, and a U32. -/
def State.subscribeItem (s : State) (r : Request) (i : Item) : State × Item :=
  match s.objectAt i.index i.sub with
  | none => (s, i.fail 3)
  | some row =>
    if row.acc = .wo then (s, i.fail 4)
    else if i.value.length ≠ 4 then (s, i.fail 5)
    else s.subscribe r i

/-- ODP_SUBSCRIBE (R360). -/
def execOdpSubscribe (s : State) : Result :=
  .next (match s.inService 5 with
    | some (r, i :: _) =>
      let a := s.served.subscribeItem r i
      a.1.complete r [a.2]
    | _ => s)

/-- A subscription has a change to report. -/
def State.changed (s : State) (x : Subscription) : Bool := decide (0 < x.merged) || decide (s.readObj x.index x.sub ≠ x.lastVal)

/-- The least interval since the last notification is over (R361). -/
def State.intervalOver (s : State) (x : Subscription) : Bool :=
  match x.lastSent with
  | some t => decide (t + us x.interval ≤ s.now)
  | none => true

/-- The payload of a NOTIFY frame (R361). -/
def notifyPayload (t : Qword) (n : Nat) (i : Item) : List Byte :=
  leBytes 8 t.toNat ++ leBytes 2 (min n 65535) ++ zeros 2 ++ odpItem i

/-- A NOTIFY frame to an Ethernet subscriber: a frame longer than the MTU is not sent, and counted as dropped (R190). -/
def State.notifyEth (s : State) (p : Fin 2) (x : Subscription) (payload : List Byte) : State :=
  let room := s.objNat (0x4400 + p.val) 0x0B - (if x.srcAddr.length = 4 then 28 else 48) - 16
  if !s.net.ports[p].linkUp then s
  else if room < payload.length then s.bump (0x4402 + p.val) 2
  else (s.sendUdp p x.srcAddr x.srcPort none (backFrame 6 0 x.tag 1 payload)).bump 0x1120 8

/-- A notification goes out by the subscription's path (R361, R366, R368). -/
def State.sendNotify (s : State) (x : Subscription) (n : Nat) (t : Qword) (i : Item) : State :=
  match x.path with
  | .mailbox => s.mbNotify x.index x.sub i.typ (min n 0xFFFFFF) t i.value
  | .eth0 => s.notifyEth 0 x (notifyPayload t n i)
  | .eth1 => s.notifyEth 1 x (notifyPayload t n i)
  | .tunnel =>
    if s.tunnelOn then
      let dest := BitVec.ofNat 6 (leNat x.srcAddr)
      (s.sendTunnel (s.tunnelPorts dest none) dest (backFrame 6 0 x.tag 1 (notifyPayload t n i))).bump 0x1120 8
    else s
  | .part => s
  | .bar0 => s

/-- Subscription `i` is notified (R361): the latest value, the time of the latest change, the changes merged. -/
def State.notify (s : State) (i : Nat) (x : Subscription) : State :=
  let n := max x.merged 1
  let t := if x.merged = 0 then s.time else x.changedAt
  let item := s.readItem { index := x.index, sub := x.sub, typ := 0xFF, istat := 0, iflags := 0, value := [] }
  let x' : Subscription := { x with merged := 0, lastSent := some s.now, lastVal := s.readObj x.index x.sub }
  let s := s.withSubs (s.dict.subs.set i x')
  (s.sendNotify x n t item).bumpBy 0x1120 9 (n - 1)

/-- NOTIFY (R361): subscription `i` has a change, and its least interval is over. -/
def execNotify (i : Fin 64) (s : State) : Result :=
  .next (match s.dict.subs[i.val]? with
    | some x => if s.power.hkcUp && s.changed x && s.intervalOver x then s.notify i.val x else s
    | none => s)

/-- The path of a subscription has a lease (R360). -/
def hasLease : Source → Bool
  | .eth0 => true
  | .eth1 => true
  | .tunnel => true
  | .mailbox => false
  | .part => false
  | .bar0 => false

/-- SUBSCRIPTION_LAPSE (R360): the lease of object 1100:03 has run out. -/
def execSubscriptionLapse (i : Fin 64) (s : State) : Result :=
  .next (match s.dict.subs[i.val]? with
    | some x =>
      if s.power.hkcUp && hasLease x.path && decide (x.renewed + ms (s.objNat 0x1100 3) ≤ s.now) then
        s.withSubs (s.dict.subs.eraseIdx i.val)
      else s
    | none => s)

/-! ### Keys and authentication (R362, R363) -/

/-- KEY_WRITE (R363): object 1110+n:01, on the mailbox alone. -/
def execKeyWrite (n : Fin 4) (key : List Byte) (via : Source) (s : State) : Result :=
  .next (if s.power.hkcUp ∧ via = .mailbox then
    let bs := fitBytes 32 key
    let s := if key.length = 32 then s else s.clampOp (0x1110 + n.val, 1) 4 via key.length 32
    s.writeKey n bs
  else s)

/-- The key that authenticates a frame: enabled, named by KEYID, with a MAC that matches. -/
def State.keyFor (s : State) (f : List Byte) : Option (Fin 4) :=
  let head := f.take (f.length - 32)
  let id := fieldOf f (f.length - 44) 2
  (List.finRange 4).find? (fun n => s.keyUsable n id && hmac256 (s.mram.keys[n].getD []) head == f.drop (f.length - 32))

/-- The SEQNO of a frame with a trailer. -/
def frameSeq (f : List Byte) : Nat := fieldOf f (f.length - 40) 8

/-- A replay window after a number, or none where the number lies below the window or was seen (R362). -/
def Replay.accept (w : Replay) (seq : Nat) : Option Replay :=
  if w.highest < seq then
    some { w with highest := seq, seen := (if seq - w.highest < 64 then w.seen <<< (seq - w.highest) else 0) ||| 1 }
  else
    let back := w.highest - seq
    if 64 ≤ back ∨ w.seen.getLsbD back then none else some { w with seen := w.seen ||| BitVec.ofNat 64 (2 ^ back) }

/-- The replay window of a key and source address takes a number. -/
def acceptSeq (ws : List Replay) (n : Fin 4) (addr : List Byte) (seq : Nat) : Option (List Replay) :=
  match ws.find? (fun w => decide (w.key = n) && w.srcAddr == addr) with
  | none => some (ws ++ [{ key := n, srcAddr := addr, highest := seq, seen := 1 }])
  | some w =>
    match w.accept seq with
    | some w' => some (ws.map (fun x => if x = w then w' else x))
    | none => none

/-- A refused request (R362): counted, with an AUTH_FAIL entry when none was written in the 1 s before. -/
def State.authFail (s : State) (p : Fin 2) (addr : List Byte) (sub : Nat) : State :=
  let s := s.bump 0x1120 sub
  let quiet := match s.dict.authFailAt with
    | some t => decide ((s.time - t).toInt < 1000000000 * 65536)
    | none => false
  if quiet then s
  else { s with dict := { s.dict with authFailAt := some s.time } }.bb 0x00A3 2 (leBytes 1 p.val ++ fitBytes 16 addr)

/-- A frame must be authentic: the port requires it, or AUTH is set (R362). -/
def State.mustAuth (s : State) (p : Fin 2) (f : List Byte) : Bool := s.objBool 0x1100 (1 + p.val) || frameAuth f

/-- An authenticated request joins the port's queue (R355): a repeated one is answered from the store, a ninth is dropped. The
trailer is left behind. -/
def State.queueOdp (s : State) (p : Fin 2) (addr : List Byte) (port : Nat) (key : Option (Fin 4)) (f : List Byte) : State :=
  let r : Request :=
    { path := if p = 0 then .eth0 else .eth1, srcAddr := addr, srcPort := port, key := key, silent := false,
      frame := (f.take (16 + frameLength f)).set 5 (BitVec.ofNat 8 (fieldOf f 5 1) &&& 0xFE) }
  match s.storedFor p r with
  | some back => (s.sendUdp p addr port key back).bump 0x1120 7
  | none =>
    if 8 ≤ s.dict.ethQueue[p].length then s.bump 0x1120 6
    else { s with dict := { s.dict with ethQueue := s.dict.ethQueue.set p (s.dict.ethQueue[p] ++ [r]) } }.takeNext

/-- A frame reaches the service (R355, R356, R362). Responses are not requests and are dropped. -/
def State.odpFrame (s : State) (p : Fin 2) (addr : List Byte) (port : Nat) (f : List Byte) : State :=
  if !frameOk f then s.bump 0x1120 2
  else if frameBack f then s
  else if s.mustAuth p f then
    if !frameAuth f then s.authFail p addr 3
    else match s.keyFor f with
      | none => s.authFail p addr 3
      | some n =>
        match acceptSeq s.dict.replays n addr (frameSeq f) with
        | none => s.authFail p addr 4
        | some ws => { s with dict := { s.dict with replays := ws } }.queueOdp p addr port (some n) f
  else s.queueOdp p addr port none f

/-- A datagram on UDP 48620 (R355): with the service off it is a dropped frame (R189), a fragment is counted apart; while the HKC does
not serve it is lost. -/
def State.odpArrive (s : State) (p : Fin 2) (addr : List Byte) (port : Nat) (fragment : Bool) (f : List Byte) : State :=
  if !(s.objNat (0x4400 + p.val) 0x0A).testBit 0 then s.dropFrame p
  else if fragment then s.bump 0x1120 0x0B
  else if !s.power.hkcUp then s
  else s.odpFrame p addr port f

/-- The length of a datagram's packet, as the MTU counts it (R190, R192): with 28 bytes of headers over IPv4 and 48 over IPv6. -/
def packetLength (dg : Datagram) : Nat := dg.payload.length + if dg.srcAddr.length = 16 then 48 else 28

/-- A port takes a frame of this VLAN and length (R190). -/
def State.frameFits (s : State) (p : Fin 2) (vlan length : Nat) : Bool :=
  decide (vlan = s.vlanOf p) && decide (length ≤ s.objNat (0x4400 + p.val) 0x0B)

/-- ODP_DATAGRAM_RECEIVE (R355): its frame is counted, and dropped where it does not fit the port (R190) or the port has no address of its
family (R189). -/
def execOdpDatagramReceive (p : Fin 2) (dg : Datagram) (s : State) : Result :=
  .next (if s.ethHears p then
    let s := s.countFrame p
    if s.frameFits p dg.vlan.toNat (packetLength dg) && s.hasAddr p (decide (dg.srcAddr.length = 16)) then s.odpArrive p dg.srcAddr dg.srcPort.toNat dg.fragment dg.payload
    else s.dropFrame p
  else s)

/-! ### Frames (R189, R190) -/

/-- A PTP message reaches the engine (R193). -/
def State.hearPtp (s : State) (p : Fin 2) (m : PtpMsg) : State :=
  match m with
  | .sync m => s.hearSync p m
  | .followUp m => s.hearFollowUp p m
  | .announce m => s.hearAnnounce p m
  | .delayReq m => s.hearDelayReq p m
  | .delayResp m => s.hearDelayResp p m
  | .pdelayReq m egress => s.hearPdelayReq p m egress
  | .pdelayResp m => s.hearPdelayResp p m
  | .management => s.hearManagement p
  | .unlisted => s

/-- A datagram by its port: ODP on 48620, knots on 48622 (R189, R216, R355). -/
def State.hearUdp (s : State) (p : Fin 2) (v6 : Bool) (addr : List Byte) (src dst : Nat) (fragment : Bool) (payload : List Byte) : State :=
  if dst = 48620 then s.odpArrive p addr src fragment payload
  else if dst = 48622 ∧ s.knotOver p v6 ∧ !fragment then s.takeKnot (.eth p v6) payload
  else s.dropFrame p

/-- A frame goes to the service it is for (R189). -/
def State.hearBody (s : State) (p : Fin 2) (b : FrameBody) : State :=
  match b with
  | .resolution v6 => if s.hasAddr p v6 then s.emit (.reply p (s.vlanOf p) b) else s.dropFrame p
  | .query v6 => if s.knotOver p v6 then s.reportGroup p v6 else s.dropFrame p
  | .echo v6 _ => if s.hasAddr p v6 then s.emit (.reply p (s.vlanOf p) b) else s.dropFrame p
  | .ptp transport m =>
    if s.ethService p 3 ∧ s.ptpCarried p ∧ transport = s.objNat 0x4410 4 then s.hearPtp p m else s.dropFrame p
  | .udp v6 addr src dst fragment payload =>
    if s.hasAddr p v6 then s.hearUdp p v6 addr src.toNat dst.toNat fragment payload else s.dropFrame p
  | .other => s.dropFrame p

/-- ETH_FRAME_RECEIVE (R189, R190): counted; a frame of another VLAN, longer than the MTU or addressed elsewhere is dropped. -/
def execEthFrameReceive (p : Fin 2) (frame : EthFrame) (s : State) : Result :=
  .next (if s.ethHears p then
    let s := s.countFrame p
    if s.frameFits p frame.vlan.toNat frame.length && frame.addressed then s.hearBody p frame.body else s.dropFrame p
  else s)

end Sys2Proof.Machine
end

