-- ==== Sys2Proof/Machine/Jtag.lean ====
section
/-! DEFINITION. The test access port (R411, R430, R431): its instructions, the identification register, the freeze segments and the
black box read through it. -/

namespace Sys2Proof.Machine

/-! ### Loading an instruction (R430, R431) -/

/-- The TAP runs: the part is out of power-on reset. -/
def State.tapUp (s : State) : Bool := decide (s.power.phase ≠ .powerOn)

/-- The instruction register is loaded. -/
def State.loadIr (s : State) (i : JtagIr) : State := if s.tapUp then { s with jtag := { s.jtag with ir := i } } else s

/-- An instruction that only a fundamental reset admits, or BYPASS in its place (R431). -/
def State.loadScan (s : State) (i : JtagIr) : State := s.loadIr (if s.power.phase = .fundamental then i else .bypass)

/-- A data register shifts out, least significant bit first. -/
def State.shiftOut (s : State) (bits v : Nat) : State := s.emit (.jtag bits (leBytes ((bits + 7) / 8) v))

/-- The identification register (R430). -/
def State.idcode (s : State) : Nat :=
  s.objNat 0x1000 5 % 16 * 2 ^ 28 + s.deviceId * 2 ^ 12 + 0x3F3 * 2 + 1

/-- JTAG_EXTEST (R431). -/
def execJtagExtest (s : State) : Result := .next (s.loadScan .extest)

/-- JTAG_IDCODE (R430): the identification register is selected and shifts out. -/
def execJtagIdcode (s : State) : Result := .next (if s.tapUp then (s.loadIr .idcode).shiftOut 32 s.idcode else s)

/-- JTAG_SAMPLE_PRELOAD (R430). -/
def execJtagSamplePreload (s : State) : Result := .next (s.loadIr .sample)

/-- JTAG_CLAMP (R431). -/
def execJtagClamp (s : State) : Result := .next (s.loadScan .clamp)

/-- JTAG_HIGHZ (R431). -/
def execJtagHighz (s : State) : Result := .next (s.loadScan .highz)

/-- JTAG_EXTEST_PULSE (R431). -/
def execJtagExtestPulse (s : State) : Result := .next (s.loadScan .extestPulse)

/-- The opcodes of R411 and R430 that are not BYPASS. -/
def listedOpcode (n : Nat) : Bool := [0x00, 0x01, 0x02, 0x04, 0x05, 0x06, 0x20, 0x21, 0x22, 0x23].contains n

/-- JTAG_BYPASS (R430): 0xFF or an opcode that no table lists; a listed one belongs to another command. -/
def execJtagBypass (opcode : Byte) (s : State) : Result :=
  .next (if listedOpcode opcode.toNat then s else s.loadIr .bypass)

/-! ### Freeze segments (R411) -/

/-- Fields laid side by side, the first in the least significant bits: pairs of a width and a value. -/
def packBits : List (Nat × Nat) → Nat
  | [] => 0
  | (w, v) :: fs => v % 2 ^ w + 2 ^ w * packBits fs

/-- Segment 0: the freeze itself. -/
def Freeze.segment (f : Freeze) : List (Nat × Nat) :=
  [(64, f.timeword.toNat), (32, f.epoch.toNat), (8, b2n f.full), (8, b2n f.byReg), (16, Config.chainVersion)]

/-- A deferred advance as five bits: its target, and whether one is pending. -/
def Stair.pendingBits (x : Stair) : Nat :=
  match x.deferred with
  | some d => d.target.val + 16
  | none => 0

/-- Segments 1 and 2: the staircase of a die. -/
def DieSt.stairSegment (d : DieSt) : List (Nat × Nat) :=
  let x := d.stair
  let knots := (List.range 8).map (fun i => (256, match x.knotQueue[i]? with
    | some k => leNat (knotBytes k)
    | none => 0))
  [(4, x.chamber.val), (5, x.pendingBits), (1, b2n x.qualifier)] ++ x.counters.toList.map (fun c => (48, c))
    ++ x.timers.toList.map (fun t => (48, timerAt t d.convoy.pos)) ++ knots

/-- The basin address of a slot of window 0. -/
def Window.slotAddr (w : Window) (slot : Nat) : Nat := (w.base + slot) * 4096

/-- The oldest slot of window 0: the next to be written where the ring holds none. -/
def Window.oldestSlot (w : Window) : Nat :=
  match w.ring with
  | m :: _ => m.slot
  | [] => w.next

/-- The transition records of a strand that wait in the encoder (R99). -/
def DieSt.encoderFill (d : DieSt) (id : Nat) : Nat :=
  match mget id d.store.streams with
  | some x => x.encoder.length
  | none => 0

/-- Segments 3 and 4: the capture of a die. -/
def DieSt.captureSegment (d : DieSt) (die : Die) : List (Nat × Nat) :=
  [(3, d.state.code), (48, d.lastSample), (15, d.backlog), (26, d.win.slotAddr d.win.next), (26, d.win.slotAddr d.win.oldestSlot),
    (11, d.store.events.length)] ++ (List.range 8).map (fun j => (14, d.encoderFill (8 * die.val + j)))

/-- Segment 5, one PLL: `hold` is its hold code. -/
def Pll.segment (p : Pll) (hold : Nat) : List (Nat × Nat) := [(3, p.state.code), (10, p.n), (6, p.band), (12, p.vtune), (12, hold)]

/-- The code of a PLL's hold DAC: in a coast the tuning voltage that it holds (R312); in other states a free value (assumption 5). -/
def Pll.holdCode (p : Pll) (free : Nat) : Nat := if p.state = .coast then p.vtune else free

/-- Segment 5: the PLLs; those of the hub in full scope only. -/
def State.pllSegment (s : State) (full : Bool) : List (Nat × Nat) :=
  (List.finRange 13).flatMap (fun i => if full || decide (i.val < 2) then s.clocks.plls[i].segment (s.clocks.plls[i].holdCode (Config.freeNat (s.fresh + i.val)))
    else [(43, 0)])

/-- Segment 6: the DMA channels. -/
def State.dmaSegment (s : State) : List (Nat × Nat) :=
  (List.finRange 8).flatMap (fun k =>
    [(16, s.pcie.dma[k].prod), (16, s.pcie.dma[k].cons), (32, (s.readDma k 0x18).toNat), (7, s.pcie.outstanding k)])

/-- Segment 7: the deep store's ports. The model holds the request at a port's head. -/
def State.portSegment (s : State) : List (Nat × Nat) :=
  (List.finRange 8).flatMap (fun p =>
    match s.deep.ports[p] with
    | some r => [(8, 1), (32, (s.now - r.entered) / ns 1), (2, r.urgency)]
    | none => [(8, 0), (32, 0), (2, 0)])

/-- Segment 8: the time base. -/
def State.timeSegment (s : State) : List (Nat × Nat) := [(80, s.tb.acc.toNat), (48, s.tb.inc), (2, s.tb.state.code)]

/-- The contents of a segment under a freeze: the hub's segments are zero in capture scope. -/
def State.segment (s : State) (f : Freeze) (n : Nat) : List (Nat × Nat) :=
  match n with
  | 0 => f.segment
  | 1 => s.dies[0].stairSegment
  | 2 => s.dies[1].stairSegment
  | 3 => s.dies[0].captureSegment 0
  | 4 => s.dies[1].captureSegment 1
  | 5 => s.pllSegment f.full
  | 6 => if f.full then s.dmaSegment else []
  | 7 => if f.full then s.portSegment else []
  | 8 => if f.full then s.timeSegment else []
  | _ => []

/-- The length of a segment in bits; a segment that the table lacks has none. -/
def segmentBits (n : Nat) : Nat :=
  match n with
  | 0 => 128
  | 1 => 2826
  | 2 => 2826
  | 3 => 241
  | 4 => 241
  | 5 => 559
  | 6 => 568
  | 7 => 336
  | 8 => 130
  | _ => 0

/-- FRZ_SEG (R411): the segment number. -/
def execFrzSeg (seg : Byte) (s : State) : Result :=
  .next (if s.tapUp then { s with jtag := { s.jtag with ir := .frzSeg, seg := seg.toNat } } else s)

/-- The free values of segment 5 are drawn. -/
def State.drawHold (s : State) : State := if s.jtag.seg = 5 then { s with fresh := s.fresh + 13 } else s

/-- FRZ_READ (R411): the selected segment shifts out; zeros outside a freeze. -/
def execFrzRead (s : State) : Result :=
  .next (if s.tapUp then
    let v := match s.health.freeze with
      | some f => packBits (s.segment f s.jtag.seg)
      | none => 0
    ((s.loadIr .frzRead).drawHold).shiftOut (segmentBits s.jtag.seg) v
  else s)

/-! ### The black box (R411) -/

/-- BB_ADDR (R411): the entry index. -/
def execBbAddr (index : BitVec 16) (s : State) : Result :=
  .next (if s.tapUp then { s with jtag := { s.jtag with ir := .bbAddr, bbIndex := index.toNat } } else s)

/-- The entry at an index: a slot, or a place of the ring from 1,024 on. -/
def State.bbAt (s : State) (i : Nat) : List Byte := if i < 1024 then bbPlace s.health.slots i else bbPlace s.health.ring (i - 1024)

/-- BB_READ (R411): the addressed entry shifts out, in OFF and under reset too. -/
def execBbRead (s : State) : Result :=
  .next (if s.tapUp then (s.loadIr .bbRead).emit (.jtag 512 (s.bbAt s.jtag.bbIndex)) else s)

end Sys2Proof.Machine
end

