-- ==== Sys2Proof/Machine/Watch.lean ====
section
/-! DEFINITION. The watchkeeper at work (R112 to R115): watched edges, chamber W, the wake. -/

namespace Sys2Proof.Machine

/-- The package is in WATCH, not returning to ON, and the die watches (R113). -/
def State.watching (s : State) (d : Die) : Bool :=
  decide (s.power.state = .watch) && decide (s.power.phase = .none) && s.power.transition.isNone && s.dies[d].watch.running

/-! ### Watched edges (R112, R114) -/

/-- The slots that name a channel. -/
def Watch.slotsOf (w : Watch) (c : Fin 1024) : List (Fin 64) := (List.finRange 64).filter (fun k => w.slots[k] == some c)

/-- An edge of a channel reaches its slots: their levels, and the edge terms of the present tick (R113). -/
def Watch.takeEdge (w : Watch) (c : Fin 1024) (level : Bool) : Watch :=
  (w.slotsOf c).foldl (fun w k =>
    let bit := BitVec.ofNat 64 (2 ^ k.val)
    { w with
      levels := if level then w.levels ||| bit else w.levels &&& ~~~bit
      edgesNow := if kindTakes w.kinds[k] level then w.edgesNow ||| bit else w.edgesNow }) w

/-- A watched edge is logged in basin window 1 and offered to chamber W (R114); overwritten records are counted. -/
def State.watchEdge (s : State) (d : Die) (c : Fin 1024) (t : Qword) (level : Bool) : State :=
  let w := s.dies[d].watch.takeEdge c level
  let disc := if s.disciplined then s.tb.discSince else none
  let r := w.logEdge c.val t (w.saturated c.val t) s.now disc
  let base := s.dies[d].win.win1.1 * 4096
  let s := { s with basin := s.basin.set d (r.writes.foldl (fun m (x : Nat × Qword) => memWriteBlock m (base + 8 * x.1) (leBytes 8 x.2.toNat)) s.basin[d]) }
  (s.withDie d (fun x => { x with watch := r.watch })).bumpBy (0x3870 + d.val) 3 r.lost

/-- WATCHED_EDGE (R114): the log runs until the first sample of the woken capture. A level that the slot already holds is no edge. -/
def execWatchedEdge (d : Die) (slot : Fin 64) (time : Qword) (level : Bool) (s : State) : Result :=
  let w := s.dies[d].watch
  .next (match w.slots[slot] with
    | some c => if w.running && (w.levels.getLsbD slot.val != level) then s.watchEdge d c time level else s
    | none => s)

/-! ### The wake (R115) -/

/-- A watch wake signals PME in D3hot (R336). -/
def State.wakePme (s : State) : State :=
  if s.pcie.cfg.pmeEn && s.objBool 0x6030 2 && decide (s.pcie.dstate = .d3hot) then
    { s with pcie := { s.pcie with pmeStatus := true } }.emit .pme
  else s

/-- A die that wakes enters ARMING with the plan held since WATCH entry; a calibration that is due waits (R115). -/
def State.wakeDie (s : State) (d : Die) : State :=
  match s.dies[d].watch.plan with
  | some p =>
    let s := if s.dies[d].calDue then s.makeDue (dieTask d) else s
    s.beginArming (us 25) false s (d, p)
  | none => s

/-- The other watchkeepers stop with WATCH. -/
def State.stopWatch (s : State) (d : Die) : State :=
  s.withDie d (fun x => { x with watch := { x.watch with running := x.watch.running && decide (x.state = .arming) } })

/-- A watch wake of die `d` (R115, R283): counted, the package returns to ON, coupled dies arm together. `code`: as PWR_STAT.WAKE. -/
def State.watchWake (s : State) (d : Die) (code : Nat) : State :=
  let s := ((s.bump (0x3870 + d.val) 1).put (0x3870 + d.val) 2 (.num s.time.toNat)).setEvBit .pwr 2
  let s := s.startClocks
  let m : PTransition :=
    { target := .on, wake := code, done := s.now + (if s.mpllsRun then us 90 else us 2090), next := none }
  let s := { s with power := { s.power with state := .on, wake := code, transition := some m } }
  let s := (s.armSet d).foldl State.wakeDie s
  ((s.stopWatch 0).stopWatch 1).wakePme

/-! ### Chamber W (R113) -/

/-- A selector's term in a tick (R113). -/
def Watch.term (w : Watch) (sel : Nat) : Bool :=
  if sel < 0x40 then w.levels.getLsbD sel
  else if sel < 0x80 then w.edgesNow.getLsbD (sel - 0x40)
  else if 0x90 ≤ sel ∧ sel ≤ 0x97 then w.knotNow.getLsbD (sel - 0x90)
  else decide (sel = 0xFF)

/-- The comparison with the watch counter or the watch timer (R113). -/
def Watch.compare (w : Watch) (c : Cond) : Bool :=
  if c.cmpSrc = 0 then true
  else
    let v := if c.cmpSrc = 0x10 then w.counter else w.timer
    match c.cmpOp with
    | 0 => decide (c.cmpVal ≤ v)
    | 1 => decide (v < c.cmpVal)
    | _ => decide (v = c.cmpVal)

/-- A condition of chamber W is true in a tick. -/
def Watch.holds (w : Watch) (c : Cond) : Bool := c.enable && logicHolds c w.term && w.compare c

/-- The actions of a winning condition, in the order of R75. -/
def Watch.act (w : Watch) (c : Cond) : Watch :=
  let on := w.timerOn && !c.tmrStop.getLsbD 0
  { w with
    counter := countAct c 0 w.counter
    timerOn := on || c.tmrStart.getLsbD 0
    timer := if c.tmrRst.getLsbD 0 then 0 else w.timer }

/-- A tick begins: a running timer advances by 640 units, up to its maximum (R71, R113). -/
def Watch.advance (w : Watch) : Watch := if w.timerOn then { w with timer := min (w.timer + 640) maxCount } else w

/-- A tick ends: its edges and knots are past. -/
def Watch.endTick (w : Watch) : Watch := { w with edgesNow := 0, knotNow := 0 }

/-- CHAMBER_W_EVALUATION (R113, R115): one tick of a die that watches. -/
def execChamberWEvaluation (d : Die) (s : State) : Result :=
  .next (if s.watching d then
    let w := s.dies[d].watch.advance
    match w.conds.find? w.holds with
    | none => s.withDie d (fun x => { x with watch := w.endTick })
    | some c =>
      let s := s.withDie d (fun x => { x with watch := (w.act c).endTick })
      if c.wake then s.watchWake d (2 + d.val) else s
  else s)

end Sys2Proof.Machine
end

