-- ==== Sys2Proof/Machine/Slots.lean ====
section
/-! DEFINITION. The firing of a compare slot and its function (R178 to R180). -/

namespace Sys2Proof.Machine

/-- A function of a die: on a variant without the die it cannot be carried out and is ignored (R179). -/
def State.slotDie (s : State) (d : Die) (loc : Nat × Nat) (f : State → State) : State :=
  if s.hasDie d then f s else s.ignoreOp loc .part .state

/-- The function of slot `k`, as it is delivered (R179); `target` is the target that fired. -/
def State.slotFunction (s : State) (k : Fin 8) (target : Qword) : State :=
  let ctl := fun (d : Die) => regLoc (capReg d 0x100)
  let force := fun (d : Die) => regLoc (capReg d 0x910)
  let here := (0x4030 + k.val, 1)
  let arm := fun (d : Die) => s.slotDie d (ctl d) (fun s => s.armCommand d (ctl d) .part)
  let stop := fun (d : Die) => s.slotDie d (ctl d) (fun s => s.captureStop d (ctl d) .part)
  let fire := fun (d : Die) => s.slotDie d (force d) (fun s => s.forceTrigger d (force d) .part)
  let wake := fun (d : Die) => if s.watching d then s.watchWake d 4 else s.ignoreOp here .part .state
  match s.objNat (0x4030 + k.val) 1 with
  | 1 => arm 0
  | 2 => arm 1
  | 3 => stop 0
  | 4 => stop 1
  | 5 => fire 0
  | 6 => fire 1
  | 7 => s.genTimeStart 0 target
  | 8 => s.genTimeStart 1 target
  | 9 => s.slotGate k target
  | 10 => wake 0
  | 11 => wake 1
  | _ => s

/-- A slot's firing is due: it is enabled, its target is not ahead, and the time base runs (R178). -/
def State.slotDue (s : State) (k : Fin 8) : Bool := s.tb.slots[k].en && decide (s.slotDist k ≤ 0) && s.quartzRuns

/-- COMPARE_SLOT_FIRE (R178 to R180). -/
def execCompareSlotFire (k : Fin 8) (s : State) : Result :=
  let target := s.tb.slots[k].target
  .next (if s.slotDue k then (s.fireSlot k).slotFunction k target else s)

end Sys2Proof.Machine
end

