-- ==== Sys2Proof/Machine/Dispatch.lean ====
section
/-! DEFINITION. The dispatch of a command to its meaning: one arm for each constructor of Instr. -/

namespace Sys2Proof.Machine

/-- The effect of one command on everything but the queue (the block's exec). -/
def exec (i : Instr) (s : State) : Host.Outcome State Fault Refusal :=
  match i with
  | .coreWord d word => Sys2Proof.Machine.execCoreWord d word s
  | .deferredAdvanceExecute d => Sys2Proof.Machine.execDeferredAdvanceExecute d s
  | .timerSaturation d t => Sys2Proof.Machine.execTimerSaturation d t s
  | .trigoutPulseEnd p => Sys2Proof.Machine.execTrigoutPulseEnd p s
  | .eventBargeClose d => Sys2Proof.Machine.execEventBargeClose d s
  | .forceTrigger d => Sys2Proof.Machine.execForceTrigger d s
  | .pendingPlacementCommit d => Sys2Proof.Machine.execPendingPlacementCommit d s
  | .triggerLineArrival d => Sys2Proof.Machine.execTriggerLineArrival d s
  | .arm d => Sys2Proof.Machine.execArm d s
  | .convoyOpen d ram => Sys2Proof.Machine.execConvoyOpen d ram s
  | .stop d => Sys2Proof.Machine.execStop d s
  | .release d => Sys2Proof.Machine.execRelease d s
  | .sluiceCopy d => Sys2Proof.Machine.execSluiceCopy d s
  | .convoySealed d => Sys2Proof.Machine.execConvoySealed d s
  | .sluiceSealedConvoy d via => Sys2Proof.Machine.execSluiceSealedConvoy d via s
  | .sluiceSealedCopyDone d => Sys2Proof.Machine.execSluiceSealedCopyDone d s
  | .watchedEdge d slot time level => Sys2Proof.Machine.execWatchedEdge d slot time level s
  | .quadrantReturn d => Sys2Proof.Machine.execQuadrantReturn d s
  | .eyeFinderStart via => Sys2Proof.Machine.execEyeFinderStart via s
  | .eyeFinderDone results => Sys2Proof.Machine.execEyeFinderDone results s
  | .eyeFinderNoClock => Sys2Proof.Machine.execEyeFinderNoClock s
  | .fullCalibrationCommand mask via => Sys2Proof.Machine.execFullCalibrationCommand mask via s
  | .calibrationComplete d wide => Sys2Proof.Machine.execCalibrationComplete d wide s
  | .driftCheck d moved => Sys2Proof.Machine.execDriftCheck d moved s
  | .deskewRecalibration d => Sys2Proof.Machine.execDeskewRecalibration d s
  | .calibrationAgeDue d => Sys2Proof.Machine.execCalibrationAgeDue d s
  | .maintenanceTaskRun t => Sys2Proof.Machine.execMaintenanceTaskRun t s
  | .writeYarnDirection d k value g => Sys2Proof.Machine.execWriteYarnDirection d k value g s
  | .writeYarnDrive d k value g => Sys2Proof.Machine.execWriteYarnDrive d k value g s
  | .incrementCommit hi => Sys2Proof.Machine.execIncrementCommit hi s
  | .stepCommit hi => Sys2Proof.Machine.execStepCommit hi s
  | .stepApply => Sys2Proof.Machine.execStepApply s
  | .forceStepAmount g => Sys2Proof.Machine.execForceStepAmount g s
  | .forceStepAbsolute g => Sys2Proof.Machine.execForceStepAbsolute g s
  | .epochWrite value via => Sys2Proof.Machine.execEpochWrite value via s
  | .timewordWrap => Sys2Proof.Machine.execTimewordWrap s
  | .discSet => Sys2Proof.Machine.execDiscSet s
  | .discClear => Sys2Proof.Machine.execDiscClear s
  | .hostWatchdogExpiry => Sys2Proof.Machine.execHostWatchdogExpiry s
  | .servoOwnerWrite value via => Sys2Proof.Machine.execServoOwnerWrite value via s
  | .compareTargetCommit k target via => Sys2Proof.Machine.execCompareTargetCommit k target via s
  | .compareSlotEnable k via => Sys2Proof.Machine.execCompareSlotEnable k via s
  | .compareSlotFire k => Sys2Proof.Machine.execCompareSlotFire k s
  | .sourceSelect value via => Sys2Proof.Machine.execSourceSelect value via s
  | .sourceSwap interval => Sys2Proof.Machine.execSourceSwap interval s
  | .refinFallback interval => Sys2Proof.Machine.execRefinFallback interval s
  | .refinAutoReturn interval => Sys2Proof.Machine.execRefinAutoReturn interval s
  | .freeRunUpdate => Sys2Proof.Machine.execFreeRunUpdate s
  | .ageingLearned pick => Sys2Proof.Machine.execAgeingLearned pick s
  | .latchingPairRead pair => Sys2Proof.Machine.execLatchingPairRead pair s
  | .portReconfigure p sub value via => Sys2Proof.Machine.execPortReconfigure p sub value via s
  | .ethLinkLoss p => Sys2Proof.Machine.execEthLinkLoss p s
  | .ethLinkUp p => Sys2Proof.Machine.execEthLinkUp p s
  | .ethFrameReceive p frame => Sys2Proof.Machine.execEthFrameReceive p frame s
  | .bulkReadoutStart via addr => Sys2Proof.Machine.execBulkReadoutStart via addr s
  | .bulkReadoutDatagram => Sys2Proof.Machine.execBulkReadoutDatagram s
  | .syncReceive p m => Sys2Proof.Machine.execSyncReceive p m s
  | .followUpReceive p m => Sys2Proof.Machine.execFollowUpReceive p m s
  | .announceReceive p m => Sys2Proof.Machine.execAnnounceReceive p m s
  | .delayReqReceive p m => Sys2Proof.Machine.execDelayReqReceive p m s
  | .delayRespReceive p m => Sys2Proof.Machine.execDelayRespReceive p m s
  | .pdelayReqReceive p m egress => Sys2Proof.Machine.execPdelayReqReceive p m egress s
  | .pdelayRespReceive p m => Sys2Proof.Machine.execPdelayRespReceive p m s
  | .managementMessageReceive p => Sys2Proof.Machine.execManagementMessageReceive p s
  | .syncSend p stamp => Sys2Proof.Machine.execSyncSend p stamp s
  | .announceSend p => Sys2Proof.Machine.execAnnounceSend p s
  | .delayReqSend p stamp => Sys2Proof.Machine.execDelayReqSend p stamp s
  | .syncTimeout => Sys2Proof.Machine.execSyncTimeout s
  | .announceReceiptTimeout => Sys2Proof.Machine.execAnnounceReceiptTimeout s
  | .knotSend => Sys2Proof.Machine.execKnotSend s
  | .hostKnotSend cls via => Sys2Proof.Machine.execHostKnotSend cls via s
  | .knotReceive route bytes => Sys2Proof.Machine.execKnotReceive route bytes s
  | .knotDeliver => Sys2Proof.Machine.execKnotDeliver s
  | .duplicateEntryExpiry node seq => Sys2Proof.Machine.execDuplicateEntryExpiry node seq s
  | .heartbeatSend k stamp => Sys2Proof.Machine.execHeartbeatSend k stamp s
  | .heartbeatReceive k h => Sys2Proof.Machine.execHeartbeatReceive k h s
  | .alpPortEnable k on via => Sys2Proof.Machine.execAlpPortEnable k on via s
  | .alpPortDown k => Sys2Proof.Machine.execAlpPortDown k s
  | .alpLaneFailure k lane => Sys2Proof.Machine.execAlpLaneFailure k lane s
  | .alpMeasurement k => Sys2Proof.Machine.execAlpMeasurement k s
  | .tunnelFrameReceive k f => Sys2Proof.Machine.execTunnelFrameReceive k f s
  | .gaugeStart g via => Sys2Proof.Machine.execGaugeStart g via s
  | .gaugeStop g via => Sys2Proof.Machine.execGaugeStop g via s
  | .gaugeStampingBegin g => Sys2Proof.Machine.execGaugeStampingBegin g s
  | .gateClose g => Sys2Proof.Machine.execGateClose g s
  | .gaugeStartEdge g e => Sys2Proof.Machine.execGaugeStartEdge g e s
  | .gaugeStopEdge g e => Sys2Proof.Machine.execGaugeStopEdge g e s
  | .shotTimeout g => Sys2Proof.Machine.execShotTimeout g s
  | .gaugeTimeout g => Sys2Proof.Machine.execGaugeTimeout g s
  | .pgPrime d via => Sys2Proof.Machine.execPgPrime d via s
  | .pgStart d via => Sys2Proof.Machine.execPgStart d via s
  | .pgReady d => Sys2Proof.Machine.execPgReady d s
  | .pgStop d via => Sys2Proof.Machine.execPgStop d via s
  | .pgJumpRequest d src => Sys2Proof.Machine.execPgJumpRequest d src s
  | .pgPassEnd d => Sys2Proof.Machine.execPgPassEnd d s
  | .pgUnderrun d => Sys2Proof.Machine.execPgUnderrun d s
  | .pgHoldEnd d => Sys2Proof.Machine.execPgHoldEnd d s
  | .pgKnotStart d => Sys2Proof.Machine.execPgKnotStart d s
  | .syncinPulse phase => Sys2Proof.Machine.execSyncinPulse phase s
  | .pgSyncStart d => Sys2Proof.Machine.execPgSyncStart d s
  | .syncoutOriginate via => Sys2Proof.Machine.execSyncoutOriginate via s
  | .pgSyncCalibration d via => Sys2Proof.Machine.execPgSyncCalibration d via s
  | .syncCalibrationEnd d r => Sys2Proof.Machine.execSyncCalibrationEnd d r s
  | .loopCacheLoad d via => Sys2Proof.Machine.execLoopCacheLoad d via s
  | .loopCacheLoadDone d => Sys2Proof.Machine.execLoopCacheLoadDone d s
  | .speedChangeRequest value g => Sys2Proof.Machine.execSpeedChangeRequest value g s
  | .speedChangeApply => Sys2Proof.Machine.execSpeedChangeApply s
  | .speedChangeComplete r => Sys2Proof.Machine.execSpeedChangeComplete r s
  | .trainingDue c => Sys2Proof.Machine.execTrainingDue c s
  | .trainingComplete c r => Sys2Proof.Machine.execTrainingComplete c r s
  | .dimmSensorRead temps => Sys2Proof.Machine.execDimmSensorRead temps s
  | .dsRequestComplete p r => Sys2Proof.Machine.execDsRequestComplete p r s
  | .dsParityError barge again => Sys2Proof.Machine.execDsParityError barge again s
  | .migrationDone c bad => Sys2Proof.Machine.execMigrationDone c bad s
  | .urgencyRise p => Sys2Proof.Machine.execUrgencyRise p s
  | .patrolScrubRead r => Sys2Proof.Machine.execPatrolScrubRead r s
  | .rankRetire c rank g => Sys2Proof.Machine.execRankRetire c rank g s
  | .spareEnable on g => Sys2Proof.Machine.execSpareEnable on g s
  | .retiredListClear g => Sys2Proof.Machine.execRetiredListClear g s
  | .mpllCoastSelfRefresh c => Sys2Proof.Machine.execMpllCoastSelfRefresh c s
  | .windowRead off len => Sys2Proof.Machine.execWindowRead off len s
  | .windowWrite off bytes => Sys2Proof.Machine.execWindowWrite off bytes s
  | .windowBaseWrite value => Sys2Proof.Machine.execWindowBaseWrite value s
  | .marchTestCommand value via => Sys2Proof.Machine.execMarchTestCommand value via s
  | .marchTestDone faults => Sys2Proof.Machine.execMarchTestDone faults s
  | .backgroundTestStep faults => Sys2Proof.Machine.execBackgroundTestStep faults s
  | .descriptorRamHostWrite off bytes => Sys2Proof.Machine.execDescriptorRamHostWrite off bytes s
  | .descriptorRamHostRead off len met => Sys2Proof.Machine.execDescriptorRamHostRead off len met s
  | .scratchpadUe => Sys2Proof.Machine.execScratchpadUe s
  | .referenceLoss => Sys2Proof.Machine.execReferenceLoss s
  | .lockLoss k => Sys2Proof.Machine.execLockLoss k s
  | .coastEstimate k estimate => Sys2Proof.Machine.execCoastEstimate k estimate s
  | .coastEstimateTimeout k => Sys2Proof.Machine.execCoastEstimateTimeout k s
  | .reentry k residual => Sys2Proof.Machine.execReentry k residual s
  | .reentryAttempt k residual => Sys2Proof.Machine.execReentryAttempt k residual s
  | .lockConfirmed k locked => Sys2Proof.Machine.execLockConfirmed k locked s
  | .bandSearchDone k band tuning => Sys2Proof.Machine.execBandSearchDone k band tuning s
  | .bandRevalidate mask via => Sys2Proof.Machine.execBandRevalidate mask via s
  | .spreadChange value via => Sys2Proof.Machine.execSpreadChange value via s
  | .elasticBufferSeal d => Sys2Proof.Machine.execElasticBufferSeal d s
  | .dmaRun k => Sys2Proof.Machine.execDmaRun k s
  | .dmaStop k => Sys2Proof.Machine.execDmaStop k s
  | .dmaAbort k => Sys2Proof.Machine.execDmaAbort k s
  | .dmaResume k => Sys2Proof.Machine.execDmaResume k s
  | .dmaProducerWrite k idx => Sys2Proof.Machine.execDmaProducerWrite k idx s
  | .dmaJobComplete k => Sys2Proof.Machine.execDmaJobComplete k s
  | .pcieCompletionReceive tag status data => Sys2Proof.Machine.execPcieCompletionReceive tag status data s
  | .completionTimeout tag => Sys2Proof.Machine.execCompletionTimeout tag s
  | .busMasterDisable => Sys2Proof.Machine.execBusMasterDisable s
  | .busMasterEnable => Sys2Proof.Machine.execBusMasterEnable s
  | .d3hotEntry => Sys2Proof.Machine.execD3hotEntry s
  | .d0Return => Sys2Proof.Machine.execD0Return s
  | .functionLevelReset => Sys2Proof.Machine.execFunctionLevelReset s
  | .hotReset => Sys2Proof.Machine.execHotReset s
  | .flrWaitEnd => Sys2Proof.Machine.execFlrWaitEnd s
  | .retiredTagExpiry tag => Sys2Proof.Machine.execRetiredTagExpiry tag s
  | .pcieLinkLoss ltssm => Sys2Proof.Machine.execPcieLinkLoss ltssm s
  | .msixUnmask what => Sys2Proof.Machine.execMsixUnmask what s
  | .pmeStatusClear => Sys2Proof.Machine.execPmeStatusClear s
  | .mailboxSubmit seq => Sys2Proof.Machine.execMailboxSubmit seq s
  | .odpDatagramReceive p dg => Sys2Proof.Machine.execOdpDatagramReceive p dg s
  | .odpRead => Sys2Proof.Machine.execOdpRead s
  | .odpWrite => Sys2Proof.Machine.execOdpWrite s
  | .odpReadBlock => Sys2Proof.Machine.execOdpReadBlock s
  | .odpWriteBlock => Sys2Proof.Machine.execOdpWriteBlock s
  | .odpSubscribe => Sys2Proof.Machine.execOdpSubscribe s
  | .keyWrite n key via => Sys2Proof.Machine.execKeyWrite n key via s
  | .notify k => Sys2Proof.Machine.execNotify k s
  | .subscriptionLapse k => Sys2Proof.Machine.execSubscriptionLapse k s
  | .registerWrite off bytes => Sys2Proof.Machine.execRegisterWrite off bytes s
  | .guardUnlock value => Sys2Proof.Machine.execGuardUnlock value s
  | .guardLockTimeout => Sys2Proof.Machine.execGuardLockTimeout s
  | .guardComplementWrite reg value => Sys2Proof.Machine.execGuardComplementWrite reg value s
  | .guardModeSelect value via => Sys2Proof.Machine.execGuardModeSelect value via s
  | .requestOn via => Sys2Proof.Machine.execRequestOn via s
  | .requestStandby via => Sys2Proof.Machine.execRequestStandby via s
  | .requestRetain via => Sys2Proof.Machine.execRequestRetain via s
  | .requestWatch via => Sys2Proof.Machine.execRequestWatch via s
  | .requestOff via => Sys2Proof.Machine.execRequestOff via s
  | .powerTransitionDone => Sys2Proof.Machine.execPowerTransitionDone s
  | .domainIdleOff n => Sys2Proof.Machine.execDomainIdleOff n s
  | .powerFailWarning rails => Sys2Proof.Machine.execPowerFailWarning rails s
  | .powerOnReset => Sys2Proof.Machine.execPowerOnReset s
  | .powerOnResetRelease straps history => Sys2Proof.Machine.execPowerOnResetRelease straps history s
  | .fundamentalResetAssert pin => Sys2Proof.Machine.execFundamentalResetAssert pin s
  | .fundamentalResetRelease straps history => Sys2Proof.Machine.execFundamentalResetRelease straps history s
  | .startupComplete r => Sys2Proof.Machine.execStartupComplete r s
  | .mainRailsReturn straps history => Sys2Proof.Machine.execMainRailsReturn straps history s
  | .offWakeEdge rising => Sys2Proof.Machine.execOffWakeEdge rising s
  | .hkcWatchdogExpiry => Sys2Proof.Machine.execHkcWatchdogExpiry s
  | .hkcRestartComplete => Sys2Proof.Machine.execHkcRestartComplete s
  | .sensorRead readings => Sys2Proof.Machine.execSensorRead readings s
  | .freezePinLow => Sys2Proof.Machine.execFreezePinLow s
  | .freezePinRelease => Sys2Proof.Machine.execFreezePinRelease s
  | .freezeRegister full g => Sys2Proof.Machine.execFreezeRegister full g s
  | .thawRegister g => Sys2Proof.Machine.execThawRegister g s
  | .hostMark opt g => Sys2Proof.Machine.execHostMark opt g s
  | .optionalCategoriesWrite opt g => Sys2Proof.Machine.execOptionalCategoriesWrite opt g s
  | .blackBoxCommit => Sys2Proof.Machine.execBlackBoxCommit s
  | .jtagExtest => Sys2Proof.Machine.execJtagExtest s
  | .jtagIdcode => Sys2Proof.Machine.execJtagIdcode s
  | .jtagSamplePreload => Sys2Proof.Machine.execJtagSamplePreload s
  | .jtagClamp => Sys2Proof.Machine.execJtagClamp s
  | .jtagHighz => Sys2Proof.Machine.execJtagHighz s
  | .jtagExtestPulse => Sys2Proof.Machine.execJtagExtestPulse s
  | .jtagBypass opcode => Sys2Proof.Machine.execJtagBypass opcode s
  | .frzSeg seg => Sys2Proof.Machine.execFrzSeg seg s
  | .frzRead => Sys2Proof.Machine.execFrzRead s
  | .bbAddr index => Sys2Proof.Machine.execBbAddr index s
  | .bbRead => Sys2Proof.Machine.execBbRead s
  | .chamberWEvaluation d => Sys2Proof.Machine.execChamberWEvaluation d s
  | .pgTimeStart d => Sys2Proof.Machine.execPgTimeStart d s
  | .pcieLinkUp rate width => Sys2Proof.Machine.execPcieLinkUp rate width s
  | .configurationWrite off value be => Sys2Proof.Machine.execConfigurationWrite off value be s

end Sys2Proof.Machine
end

