-- ==== Sys2Proof/Safety.lean ====
section
/-! DEFINITION. The terms that statements use: a command that completes, a host that addresses the registers, a guarded write that is
admitted, the invariants. -/

namespace Sys2Proof.Machine

/-- A command answers a next state, and that state meets `P`. -/
def Completes (c : Instr) (s : State) (P : State → Prop) : Prop := ∃ t, exec c s = .next t ∧ P t

/-- A BAR0 write reaches its register, and interrupts no guarded sequence (R325, R378). -/
def State.quiet (s : State) : Bool := s.pcie.answers && s.guard.pendingWrite.isNone

/-- A command that comes by `via` reaches what it addresses: on BAR0 the function answers and no guarded sequence is interrupted (R325,
R378), on the dictionary's paths the HKC serves (R20). -/
def State.reaches (s : State) (via : Source) : Bool := s.serves via && (decide (via ≠ .bar0) || s.quiet)

/-- A guarded write of `v` in the form `g` passes the guard (R378, R379): in paired mode one 64-bit write with the right complement, in
keyed mode the dword alone while the lock is open. -/
def State.admits (s : State) (v : Dword) (g : GuardForm) : Bool :=
  s.quiet &&
    (match g with
      | .pair c => !s.guard.keyed && decide (c = ~~~v)
      | .single => s.guard.keyed && s.guard.unlocked.any (fun at_ => decide (s.now ≤ at_)))

/-- An edge of a channel reaches gauge `g` as a stamp: the gauge stamps, the channel has edges, and no gate ends first (R232 to R237). -/
def State.gaugeTakes (s : State) (g : Fin 64) (ch : Nat) (e : GaugeEdge) : Bool :=
  s.gaugeHears g && !s.deadChannel ch &&
    !(s.gauges[g].gate.isSome && decide (s.gauges[g].set.source ≠ 2) && decide ((s.gauges[g].gateEnd : Int) ≤ s.edgeMoment ch e.at_))

/-- A start edge that gauge `g` takes (R235). -/
def State.startHeard (s : State) (g : Fin 64) (e : GaugeEdge) : Bool :=
  edgeWanted s.gauges[g].set.startEdge e.rising && s.gaugeTakes g s.gauges[g].set.startChan e

/-- A stop edge that gauge `g` takes (R238). -/
def State.stopHeard (s : State) (g : Fin 64) (e : GaugeEdge) : Bool :=
  edgeWanted s.gauges[g].set.stopEdge e.rising && s.gaugeTakes g s.gauges[g].set.stopChan e

/-- The stamp of a start edge (R233). -/
def State.startStamp (s : State) (g : Fin 64) (e : GaugeEdge) : Qword := s.stampAt (s.edgeMoment s.gauges[g].set.startChan e.at_)

/-- The stamp of a stop edge (R233). -/
def State.stopStamp (s : State) (g : Fin 64) (e : GaugeEdge) : Qword := s.stampAt (s.edgeMoment s.gauges[g].set.stopChan e.at_)

/-- The memories of the part are in canonical form. -/
abbrev MemInv (s : State) : Prop :=
  s.dsMem.wf = true ∧ s.basin[0].wf = true ∧ s.basin[1].wf = true ∧ s.ram.wf = true

/-- The byte that an access starting at `off` brings to address `x`, where its byte enables have it. -/
def enabledAt (off : Nat) (bytes : List (Option Byte)) (x : Nat) : Option Byte := if x < off then none else bytes.getD (x - off) none

/-- The byte that a byte-enabled write stores at `x`: the write's own, when the whole aligned dword of `x` is enabled; none otherwise
(R325, R373). -/
def storedAt (off : Nat) (bytes : List (Option Byte)) (x : Nat) : Option Byte :=
  if (List.range 4).all (fun j => (enabledAt off bytes (x / 4 * 4 + j)).isSome) then enabledAt off bytes x else none

/-- The four memories are the same in two states. -/
def SameMem (t s : State) : Prop := t.dsMem = s.dsMem ∧ t.basin = s.basin ∧ t.ram = s.ram

/-- The units that capture, time and play are the same in two states. -/
def SameUnits (t s : State) : Prop :=
  t.dies = s.dies ∧ t.gens = s.gens ∧ t.gauges = s.gauges ∧ t.tb = s.tb ∧ t.net = s.net ∧ t.knots = s.knots ∧ t.deep = s.deep ∧
    t.chip = s.chip ∧ t.clocks = s.clocks ∧ t.pins = s.pins ∧ t.power = s.power ∧ t.mram = s.mram ∧ t.jtag = s.jtag

/-- The queue, the time and the identity of the part are the same in two states. -/
def SameFrame (t s : State) : Prop := t.pending = s.pending ∧ t.now = s.now ∧ t.variant = s.variant

end Sys2Proof.Machine

/-! ### What each command may change

A unit that a command does not name here stays as it was (the frame statements say so). -/

namespace Sys2Proof

/-- The commands that may store to the deep store (chapter 13). -/
def Instr.storesDeep : Instr → Bool
  | .sluiceCopy .. | .convoySealed .. | .sluiceSealedCopyDone .. | .knotDeliver .. | .windowWrite .. | .pcieCompletionReceive .. | .registerWrite ..
  | .guardComplementWrite .. | .powerTransitionDone .. | .powerOnReset .. | .powerOnResetRelease .. | .fundamentalResetAssert ..
  | .fundamentalResetRelease .. | .startupComplete .. | .mainRailsReturn .. | .sensorRead .. | .freezePinRelease .. | .thawRegister .. => true
  | _ => false

/-- The commands that may store to the basin RAMs (chapters 06, 12, 14). -/
def Instr.storesBasin : Instr → Bool
  | .coreWord .. | .deferredAdvanceExecute .. | .timerSaturation .. | .eventBargeClose .. | .pendingPlacementCommit .. | .triggerLineArrival .. | .arm ..
  | .convoyOpen .. | .stop .. | .sluiceCopy .. | .convoySealed .. | .watchedEdge .. | .compareSlotFire .. | .knotDeliver .. | .loopCacheLoadDone ..
  | .marchTestDone .. | .scratchpadUe .. | .coastEstimate .. | .coastEstimateTimeout .. | .reentry .. | .reentryAttempt .. | .elasticBufferSeal ..
  | .odpWrite .. | .odpWriteBlock .. | .registerWrite .. | .guardComplementWrite .. | .requestOn .. | .requestStandby .. | .requestRetain ..
  | .requestWatch .. | .requestOff .. | .powerTransitionDone .. | .powerFailWarning .. | .powerOnReset .. | .fundamentalResetAssert ..
  | .hkcWatchdogExpiry .. | .sensorRead .. | .freezePinRelease .. | .freezeRegister .. | .thawRegister .. => true
  | _ => false

/-- The commands that may store to the descriptor RAM (R293). -/
def Instr.storesRam : Instr → Bool
  | .ethFrameReceive .. | .alpPortEnable .. | .alpPortDown .. | .alpLaneFailure .. | .tunnelFrameReceive .. | .descriptorRamHostWrite .. | .dmaStop ..
  | .dmaAbort .. | .dmaJobComplete .. | .pcieCompletionReceive .. | .completionTimeout .. | .busMasterDisable .. | .d3hotEntry .. | .functionLevelReset ..
  | .hotReset .. | .flrWaitEnd .. | .pcieLinkLoss .. | .mailboxSubmit .. | .odpDatagramReceive .. | .odpRead .. | .odpWrite .. | .odpReadBlock ..
  | .odpWriteBlock .. | .odpSubscribe .. | .notify .. | .registerWrite .. | .guardComplementWrite .. | .powerTransitionDone .. | .powerFailWarning ..
  | .powerOnReset .. | .fundamentalResetAssert .. | .hkcRestartComplete .. | .sensorRead .. | .freezePinLow .. | .freezeRegister .. | .thawRegister ..
  | .configurationWrite .. => true
  | _ => false

/-- The commands in which powered time passes: a tick of the source. -/
def Instr.mayTick : Instr → Bool
  | .stepApply .. | .forceStepAmount .. | .forceStepAbsolute .. | .timewordWrap .. | .sourceSwap .. | .refinFallback .. | .refinAutoReturn ..
  | .ethFrameReceive .. | .syncReceive .. | .followUpReceive .. | .alpMeasurement .. | .registerWrite .. | .guardComplementWrite ..
  | .fundamentalResetRelease .. => true
  | _ => false

/-- The commands that may change the time base (chapter 08). -/
def Instr.changesTime : Instr → Bool
  | .incrementCommit .. | .stepCommit .. | .stepApply .. | .forceStepAmount .. | .forceStepAbsolute .. | .epochWrite .. | .timewordWrap .. | .discSet ..
  | .discClear .. | .hostWatchdogExpiry .. | .servoOwnerWrite .. | .compareTargetCommit .. | .compareSlotEnable .. | .compareSlotFire .. | .sourceSelect ..
  | .sourceSwap .. | .refinFallback .. | .refinAutoReturn .. | .freeRunUpdate .. | .latchingPairRead .. | .ethLinkUp .. | .ethFrameReceive ..
  | .syncReceive .. | .followUpReceive .. | .delayRespReceive .. | .pdelayRespReceive .. | .syncTimeout .. | .announceReceiptTimeout ..
  | .heartbeatReceive .. | .alpPortEnable .. | .alpPortDown .. | .alpLaneFailure .. | .alpMeasurement .. | .scratchpadUe .. | .odpWrite .. | .odpWriteBlock ..
  | .registerWrite .. | .guardComplementWrite .. | .powerTransitionDone .. | .powerOnReset .. | .fundamentalResetRelease .. | .startupComplete ..
  | .mainRailsReturn .. | .hkcWatchdogExpiry .. | .sensorRead .. => true
  | _ => false

/-- The commands that may change the TAP (R430). -/
def Instr.changesTap : Instr → Bool
  | .powerOnReset .. | .fundamentalResetRelease .. | .jtagExtest .. | .jtagIdcode .. | .jtagSamplePreload .. | .jtagClamp .. | .jtagHighz ..
  | .jtagExtestPulse .. | .jtagBypass .. | .frzSeg .. | .frzRead .. | .bbAddr .. | .bbRead .. => true
  | _ => false

/-- The commands that may change the plain registers of BAR0 (chapter 18). -/
def Instr.changesHost : Instr → Bool
  | .latchingPairRead .. | .descriptorRamHostWrite .. | .mailboxSubmit .. | .registerWrite .. | .guardComplementWrite .. | .powerTransitionDone ..
  | .powerFailWarning .. | .powerOnReset .. | .fundamentalResetAssert .. | .sensorRead .. | .freezeRegister .. | .thawRegister .. => true
  | _ => false

/-- The commands that may change the guard: those that a BAR0 write or a reset brings (R376 to R381). -/
def Instr.changesGuard : Instr → Bool
  | .forceTrigger .. | .arm .. | .stop .. | .release .. | .writeYarnDirection .. | .writeYarnDrive .. | .incrementCommit .. | .stepCommit ..
  | .forceStepAmount .. | .forceStepAbsolute .. | .epochWrite .. | .discSet .. | .discClear .. | .compareTargetCommit .. | .compareSlotEnable .. | .pgPrime ..
  | .pgStart .. | .pgStop .. | .pgJumpRequest .. | .speedChangeRequest .. | .rankRetire .. | .spareEnable .. | .retiredListClear .. | .windowBaseWrite ..
  | .descriptorRamHostWrite .. | .dmaRun .. | .dmaStop .. | .dmaAbort .. | .dmaResume .. | .dmaProducerWrite .. | .flrWaitEnd .. | .pcieLinkLoss ..
  | .mailboxSubmit .. | .odpWrite .. | .odpWriteBlock .. | .registerWrite .. | .guardUnlock .. | .guardLockTimeout .. | .guardComplementWrite ..
  | .guardModeSelect .. | .requestOn .. | .requestStandby .. | .requestRetain .. | .requestWatch .. | .requestOff .. | .powerTransitionDone ..
  | .powerFailWarning .. | .powerOnReset .. | .powerOnResetRelease .. | .fundamentalResetAssert .. | .fundamentalResetRelease .. | .mainRailsReturn ..
  | .sensorRead .. | .freezePinLow .. | .freezeRegister .. | .thawRegister .. | .hostMark .. | .optionalCategoriesWrite .. => true
  | _ => false

/-- The commands that may change the power state or a phase of start-up (chapter 19). -/
def Instr.changesPower : Instr → Bool
  | .compareSlotFire .. | .marchTestDone .. | .backgroundTestStep .. | .scratchpadUe .. | .odpWrite .. | .odpWriteBlock .. | .registerWrite ..
  | .guardComplementWrite .. | .requestOn .. | .requestStandby .. | .requestRetain .. | .requestWatch .. | .requestOff .. | .powerTransitionDone ..
  | .domainIdleOff .. | .powerFailWarning .. | .powerOnReset .. | .powerOnResetRelease .. | .fundamentalResetAssert .. | .fundamentalResetRelease ..
  | .startupComplete .. | .mainRailsReturn .. | .offWakeEdge .. | .hkcWatchdogExpiry .. | .hkcRestartComplete .. | .sensorRead .. | .freezePinLow ..
  | .freezeRegister .. | .thawRegister .. | .chamberWEvaluation .. => true
  | _ => false

/-- The commands that may change the output pins (R28, R89, R307). -/
def Instr.changesPins : Instr → Bool
  | .coreWord .. | .deferredAdvanceExecute .. | .timerSaturation .. | .trigoutPulseEnd .. | .eventBargeClose .. | .pendingPlacementCommit ..
  | .triggerLineArrival .. | .convoyOpen .. | .stop .. | .sluiceCopy .. | .convoySealed .. | .writeYarnDirection .. | .writeYarnDrive .. | .compareSlotFire ..
  | .sourceSwap .. | .refinFallback .. | .refinAutoReturn .. | .knotDeliver .. | .coastEstimate .. | .coastEstimateTimeout .. | .reentry ..
  | .reentryAttempt .. | .elasticBufferSeal .. | .odpWrite .. | .odpWriteBlock .. | .registerWrite .. | .guardComplementWrite .. | .powerTransitionDone ..
  | .powerFailWarning .. | .powerOnReset .. | .fundamentalResetAssert .. | .sensorRead .. | .freezePinLow .. | .freezePinRelease .. | .freezeRegister ..
  | .thawRegister .. => true
  | _ => false

/-- The commands that may change MRAM (R400). -/
def Instr.changesMram : Instr → Bool
  | .convoyOpen .. | .calibrationComplete .. | .forceStepAmount .. | .forceStepAbsolute .. | .epochWrite .. | .discSet .. | .ageingLearned ..
  | .ethFrameReceive .. | .syncReceive .. | .followUpReceive .. | .alpPortEnable .. | .alpPortDown .. | .alpLaneFailure .. | .alpMeasurement ..
  | .tunnelFrameReceive .. | .speedChangeComplete .. | .trainingComplete .. | .dsRequestComplete .. | .dsParityError .. | .patrolScrubRead ..
  | .rankRetire .. | .spareEnable .. | .retiredListClear .. | .marchTestDone .. | .backgroundTestStep .. | .descriptorRamHostWrite .. | .bandSearchDone ..
  | .mailboxSubmit .. | .odpDatagramReceive .. | .odpRead .. | .odpWrite .. | .odpReadBlock .. | .odpWriteBlock .. | .odpSubscribe .. | .keyWrite .. | .notify ..
  | .registerWrite .. | .guardComplementWrite .. | .powerTransitionDone .. | .powerFailWarning .. | .powerOnReset .. | .powerOnResetRelease ..
  | .fundamentalResetRelease .. | .startupComplete .. | .mainRailsReturn .. | .hkcRestartComplete .. | .sensorRead .. => true
  | _ => false

/-- The commands that may change the state of the on-chip memory tests (chapter 14). -/
def Instr.changesChip : Instr → Bool
  | .arm .. | .compareSlotFire .. | .ethFrameReceive .. | .alpPortEnable .. | .alpPortDown .. | .alpLaneFailure .. | .tunnelFrameReceive ..
  | .marchTestCommand .. | .marchTestDone .. | .backgroundTestStep .. | .descriptorRamHostWrite .. | .descriptorRamHostRead .. | .scratchpadUe ..
  | .dmaRun .. | .dmaStop .. | .dmaAbort .. | .dmaResume .. | .dmaProducerWrite .. | .dmaJobComplete .. | .pcieCompletionReceive .. | .completionTimeout ..
  | .busMasterDisable .. | .busMasterEnable .. | .d3hotEntry .. | .functionLevelReset .. | .hotReset .. | .flrWaitEnd .. | .retiredTagExpiry ..
  | .pcieLinkLoss .. | .mailboxSubmit .. | .odpDatagramReceive .. | .odpRead .. | .odpWrite .. | .odpReadBlock .. | .odpWriteBlock .. | .odpSubscribe ..
  | .notify .. | .registerWrite .. | .guardComplementWrite .. | .powerTransitionDone .. | .powerFailWarning .. | .powerOnReset ..
  | .fundamentalResetAssert .. | .startupComplete .. | .hkcWatchdogExpiry .. | .hkcRestartComplete .. | .sensorRead .. | .freezePinLow ..
  | .freezeRegister .. | .thawRegister .. | .configurationWrite .. => true
  | _ => false

/-- The commands that may change the Ethernet ports and the servo (chapter 09). -/
def Instr.changesNet : Instr → Bool
  | .forceStepAmount .. | .forceStepAbsolute .. | .discClear .. | .hostWatchdogExpiry .. | .servoOwnerWrite .. | .refinFallback .. | .latchingPairRead ..
  | .portReconfigure .. | .ethLinkLoss .. | .ethLinkUp .. | .ethFrameReceive .. | .bulkReadoutStart .. | .bulkReadoutDatagram .. | .syncReceive ..
  | .followUpReceive .. | .announceReceive .. | .delayRespReceive .. | .pdelayReqReceive .. | .pdelayRespReceive .. | .syncSend .. | .announceSend ..
  | .delayReqSend .. | .syncTimeout .. | .announceReceiptTimeout .. | .heartbeatReceive .. | .alpPortEnable .. | .alpPortDown .. | .alpLaneFailure ..
  | .alpMeasurement .. | .scratchpadUe .. | .odpWrite .. | .odpWriteBlock .. | .registerWrite .. | .guardComplementWrite .. | .powerTransitionDone ..
  | .powerFailWarning .. | .powerOnReset .. | .fundamentalResetAssert .. | .hkcWatchdogExpiry .. | .hkcRestartComplete .. | .sensorRead .. => true
  | _ => false

/-- The commands that may change the knot engine or the Aelop ports (chapter 10). -/
def Instr.changesKnots : Instr → Bool
  | .ethFrameReceive .. | .knotSend .. | .hostKnotSend .. | .knotReceive .. | .knotDeliver .. | .duplicateEntryExpiry .. | .heartbeatSend ..
  | .heartbeatReceive .. | .alpPortEnable .. | .alpPortDown .. | .alpLaneFailure .. | .alpMeasurement .. | .tunnelFrameReceive ..
  | .descriptorRamHostWrite .. | .flrWaitEnd .. | .pcieLinkLoss .. | .mailboxSubmit .. | .odpDatagramReceive .. | .odpRead .. | .odpWrite ..
  | .odpReadBlock .. | .odpWriteBlock .. | .odpSubscribe .. | .notify .. | .registerWrite .. | .guardComplementWrite .. | .powerTransitionDone ..
  | .powerFailWarning .. | .powerOnReset .. | .powerOnResetRelease .. | .fundamentalResetAssert .. | .fundamentalResetRelease .. | .mainRailsReturn ..
  | .hkcRestartComplete .. | .sensorRead .. | .freezePinLow .. | .freezePinRelease .. | .freezeRegister .. | .thawRegister .. => true
  | _ => false

/-- The commands that may change the controllers of the deep store (chapter 13). -/
def Instr.changesDeep : Instr → Bool
  | .arm .. | .maintenanceTaskRun .. | .compareSlotFire .. | .bulkReadoutDatagram .. | .pgPrime .. | .pgStart .. | .pgPassEnd .. | .pgUnderrun ..
  | .loopCacheLoad .. | .loopCacheLoadDone .. | .speedChangeRequest .. | .speedChangeApply .. | .speedChangeComplete .. | .trainingDue ..
  | .trainingComplete .. | .dimmSensorRead .. | .dsRequestComplete .. | .dsParityError .. | .migrationDone .. | .urgencyRise .. | .patrolScrubRead ..
  | .rankRetire .. | .spareEnable .. | .retiredListClear .. | .mpllCoastSelfRefresh .. | .windowRead .. | .windowWrite .. | .scratchpadUe ..
  | .lockConfirmed .. | .bandSearchDone .. | .dmaRun .. | .dmaResume .. | .dmaProducerWrite .. | .dmaJobComplete .. | .pcieCompletionReceive ..
  | .busMasterEnable .. | .retiredTagExpiry .. | .odpWrite .. | .odpWriteBlock .. | .registerWrite .. | .guardComplementWrite .. | .requestOn ..
  | .requestStandby .. | .requestRetain .. | .requestWatch .. | .requestOff .. | .powerTransitionDone .. | .powerFailWarning .. | .powerOnReset ..
  | .powerOnResetRelease .. | .fundamentalResetAssert .. | .fundamentalResetRelease .. | .startupComplete .. | .mainRailsReturn ..
  | .hkcWatchdogExpiry .. | .sensorRead .. | .configurationWrite .. => true
  | _ => false

/-- The commands that may change the PLLs (chapter 15). -/
def Instr.changesClocks : Instr → Bool
  | .arm .. | .convoyOpen .. | .stop .. | .convoySealed .. | .eyeFinderStart .. | .eyeFinderDone .. | .eyeFinderNoClock .. | .fullCalibrationCommand ..
  | .calibrationComplete .. | .driftCheck .. | .deskewRecalibration .. | .calibrationAgeDue .. | .maintenanceTaskRun .. | .compareSlotFire ..
  | .sourceSelect .. | .sourceSwap .. | .refinFallback .. | .refinAutoReturn .. | .gaugeStart .. | .gaugeStop .. | .gateClose .. | .gaugeStartEdge ..
  | .gaugeStopEdge .. | .gaugeTimeout .. | .pgPrime .. | .pgStart .. | .pgReady .. | .pgStop .. | .pgHoldEnd .. | .pgSyncCalibration .. | .syncCalibrationEnd ..
  | .speedChangeApply .. | .trainingComplete .. | .scratchpadUe .. | .referenceLoss .. | .lockLoss .. | .coastEstimate .. | .reentry .. | .reentryAttempt ..
  | .lockConfirmed .. | .bandSearchDone .. | .bandRevalidate .. | .spreadChange .. | .odpWrite .. | .odpWriteBlock .. | .registerWrite .. | .requestOn ..
  | .requestStandby .. | .requestRetain .. | .requestWatch .. | .requestOff .. | .powerTransitionDone .. | .powerFailWarning .. | .powerOnReset ..
  | .powerOnResetRelease .. | .fundamentalResetAssert .. | .fundamentalResetRelease .. | .startupComplete .. | .mainRailsReturn ..
  | .hkcWatchdogExpiry .. | .sensorRead .. | .chamberWEvaluation .. => true
  | _ => false

/-- The commands that may change a pattern generator (chapter 12). -/
def Instr.changesGens : Instr → Bool
  | .coreWord .. | .deferredAdvanceExecute .. | .timerSaturation .. | .eventBargeClose .. | .pendingPlacementCommit .. | .triggerLineArrival ..
  | .convoyOpen .. | .stop .. | .sluiceCopy .. | .convoySealed .. | .compareSlotFire .. | .latchingPairRead .. | .knotDeliver .. | .pgPrime .. | .pgStart ..
  | .pgReady .. | .pgStop .. | .pgJumpRequest .. | .pgPassEnd .. | .pgUnderrun .. | .pgHoldEnd .. | .pgKnotStart .. | .syncinPulse .. | .pgSyncStart ..
  | .pgSyncCalibration .. | .syncCalibrationEnd .. | .loopCacheLoad .. | .loopCacheLoadDone .. | .dsRequestComplete .. | .marchTestDone ..
  | .backgroundTestStep .. | .referenceLoss .. | .lockLoss .. | .coastEstimate .. | .coastEstimateTimeout .. | .reentry .. | .reentryAttempt ..
  | .lockConfirmed .. | .elasticBufferSeal .. | .odpWrite .. | .odpWriteBlock .. | .registerWrite .. | .guardComplementWrite .. | .powerTransitionDone ..
  | .powerFailWarning .. | .powerOnReset .. | .fundamentalResetAssert .. | .startupComplete .. | .sensorRead .. | .freezePinLow .. | .freezePinRelease ..
  | .freezeRegister .. | .thawRegister .. | .pgTimeStart .. => true
  | _ => false

/-- The commands that may change a gauge (chapter 11). -/
def Instr.changesGauges : Instr → Bool
  | .arm .. | .eyeFinderStart .. | .fullCalibrationCommand .. | .driftCheck .. | .deskewRecalibration .. | .calibrationAgeDue .. | .maintenanceTaskRun ..
  | .forceStepAmount .. | .forceStepAbsolute .. | .discClear .. | .hostWatchdogExpiry .. | .servoOwnerWrite .. | .compareSlotFire .. | .refinFallback ..
  | .ethLinkUp .. | .ethFrameReceive .. | .syncReceive .. | .followUpReceive .. | .delayRespReceive .. | .pdelayRespReceive .. | .syncTimeout ..
  | .announceReceiptTimeout .. | .heartbeatReceive .. | .alpPortEnable .. | .alpPortDown .. | .alpLaneFailure .. | .alpMeasurement .. | .gaugeStart ..
  | .gaugeStop .. | .gaugeStampingBegin .. | .gateClose .. | .gaugeStartEdge .. | .gaugeStopEdge .. | .shotTimeout .. | .gaugeTimeout .. | .scratchpadUe ..
  | .referenceLoss .. | .lockLoss .. | .lockConfirmed .. | .odpWrite .. | .odpWriteBlock .. | .registerWrite .. | .guardComplementWrite ..
  | .powerTransitionDone .. | .powerFailWarning .. | .powerOnReset .. | .fundamentalResetAssert .. | .hkcWatchdogExpiry .. | .hkcRestartComplete ..
  | .sensorRead .. | .freezePinRelease .. | .freezeRegister .. | .thawRegister .. | .chamberWEvaluation .. => true
  | _ => false

/-- The commands that may change a capture die (chapters 02 to 07). -/
def Instr.changesDies : Instr → Bool
  | .coreWord .. | .deferredAdvanceExecute .. | .timerSaturation .. | .eventBargeClose .. | .forceTrigger .. | .pendingPlacementCommit ..
  | .triggerLineArrival .. | .arm .. | .convoyOpen .. | .stop .. | .release .. | .sluiceCopy .. | .convoySealed .. | .sluiceSealedConvoy ..
  | .sluiceSealedCopyDone .. | .watchedEdge .. | .quadrantReturn .. | .eyeFinderStart .. | .eyeFinderDone .. | .eyeFinderNoClock ..
  | .fullCalibrationCommand .. | .calibrationComplete .. | .driftCheck .. | .deskewRecalibration .. | .calibrationAgeDue .. | .maintenanceTaskRun ..
  | .stepApply .. | .forceStepAmount .. | .forceStepAbsolute .. | .epochWrite .. | .timewordWrap .. | .discSet .. | .compareSlotFire .. | .sourceSwap ..
  | .refinFallback .. | .refinAutoReturn .. | .ethFrameReceive .. | .syncReceive .. | .followUpReceive .. | .knotSend .. | .knotDeliver ..
  | .alpMeasurement .. | .dsRequestComplete .. | .dsParityError .. | .migrationDone .. | .patrolScrubRead .. | .marchTestDone .. | .scratchpadUe ..
  | .referenceLoss .. | .lockLoss .. | .coastEstimate .. | .coastEstimateTimeout .. | .reentry .. | .reentryAttempt .. | .lockConfirmed ..
  | .elasticBufferSeal .. | .odpWrite .. | .odpWriteBlock .. | .registerWrite .. | .guardComplementWrite .. | .requestOn .. | .requestStandby ..
  | .requestRetain .. | .requestWatch .. | .requestOff .. | .powerTransitionDone .. | .powerFailWarning .. | .powerOnReset .. | .powerOnResetRelease ..
  | .fundamentalResetAssert .. | .fundamentalResetRelease .. | .startupComplete .. | .mainRailsReturn .. | .hkcWatchdogExpiry .. | .sensorRead ..
  | .freezePinRelease .. | .freezeRegister .. | .thawRegister .. | .chamberWEvaluation .. => true
  | _ => false

end Sys2Proof
end

