-- ==== Sys2Proof/Certificates/Slice0/Obligations.lean ====
section
/-! DEFINITION. The statements for the provers. -/

open Sys2Proof Sys2Proof.Machine


/-! ### Capture (chapters 03 to 07) -/

/-- The commands that move a capture on, sample by sample (R71, R77, R81, R84, R85, R133): each completes on a die that evaluates. Where
the spec leaves a choice or a reading, the model's is that of assumptions 9, 14, 15 and 16. -/
def Obligations.EvaluationCompletes : Prop :=
  (∀ (d : Die) (w : CoreWordIn) (s : State), s.evaluates d = true →
    Completes (.coreWord d w) s (fun t => t.dies[d] = ((s.toRun d).coreWord w).die)) ∧
  (∀ (d : Die) (df : Deferred) (s : State), s.evaluates d = true → s.dies[d].plan.state = false → s.dies[d].convoy.nextSample % 16 = 0 →
    s.dies[d].stair.deferred = some df →
    Completes (.deferredAdvanceExecute d) s (fun t => t.dies[d].stair.chamber = df.target ∧ t.dies[d].stair.deferred = none)) ∧
  (∀ (d : Die) (k : Fin 8) (s : State), s.evaluates d = true → s.dies[d].plan.state = false → s.dies[d].stair.timers[k].running = true →
    timerAt s.dies[d].stair.timers[k] ((s.toRun d).nextAt).pos = maxCount → s.dies[d].stair.atMax.getLsbD (8 + k.val) = false →
    Completes (.timerSaturation d k) s (fun t => t.dies[d].stair.atMax.getLsbD (8 + k.val) = true)) ∧
  (∀ (d : Die) (b : Barge) (s : State), s.evaluates d = true → s.dies[d].store.eventOpen = some b → b.room false = false →
    126 ≤ eventBacklog s.dies[d].store →
    (hasRoom s.dies[d] = true ∨ s.dies[d].convoy.storing = false) →
    Completes (.eventBargeClose d) s (fun t => t.dies[d].store.eventOpen = none)) ∧
  (∀ (d : Die) (s : State), s.evaluates d = true → (s.sluiceOne d).isSome = true → exec (.sluiceCopy d) s = .next ((s.sluiceOne d).getD s))

/-- A forced trigger, a placement that has reached its target, and the trigger line (R84, R85, R87). Where the spec leaves a choice or a
reading, the model's is that of assumptions 31 and 32. -/
def Obligations.TriggerCommandsComplete : Prop :=
  (∀ (d : Die) (s : State), s.quiet = true → s.hasDie d = true → (s.dies[d].isOpen = true ∨ s.dies[d].state = .arming) →
    Completes (.forceTrigger d) s (fun t => t.dies[d].stair.force = true ∧ t.dies[otherDie d] = s.dies[otherDie d])) ∧
  (∀ (d : Die) (p : Placement) (s : State), s.evaluates d = true → s.dies[d].stair.placement = some p → s.dies[d].state = .armed →
    s.dies[d].stair.trigger = none → 0 < s.dies[d].convoy.nextSample → atOrAfter s.dies[d].convoy.lastTime p.target = true →
    Completes (.pendingPlacementCommit d) s (fun t => t.dies[d].stair.trigger.isSome = true ∧ t.dies[d].state = .postfill)) ∧
  (∀ (d : Die) (tr : Trigger) (s : State), s.evaluates d = true → s.dies[d].plan.coupled = true →
    s.dies[otherDie d].stair.lineOut = some tr → tr.foundAt + ns 32 ≤ s.now → s.dies[d].stair.trigger = none →
    Completes (.triggerLineArrival d) s (fun t => t.dies[d].state = .postfill ∧
      t.dies[d].stair.trigger.map Trigger.time = some tr.time ∧ t.dies[d].stair.placement = none)) ∧
  (∀ (p : Fin 2) (e : Nat) (s : State), s.pins.pulseEnd[p] = some e → e ≤ s.now → s.pins.waiting[p] = [] →
    Completes (.trigoutPulseEnd p) s (fun t => t.pins.pulseEnd[p] = none ∧ t.pins.trigout.getLsbD p.val = false))

/-- The life of a convoy (R119 to R121, R136): arm, open, stop, seal, release. Where the spec leaves a choice or a reading, the model's is
that of assumption 34. -/
def Obligations.ConvoyLifeCompletes : Prop :=
  (∀ (d : Die) (s : State), s.quiet = true → s.hasDie d = true → s.objBool 0x3930 1 = false → s.power.ready = true → s.isOn = true →
    s.dies[d].state = .idle → s.genHolds d = false → exec (.arm d) s = .next (s.arm [d])) ∧
  (∀ (d : Die) (ram : Vector RamCheck 2) (s : State), s.convoyDies d = [d] → s.armReady d = true → s.frozen = false → ram[d].load ≠ .failed →
    Completes (.convoyOpen d ram) s (fun t => t.mram.convoyId = nextConvoyId s.mram.convoyId ∧
      t.dies[d].convoy.id = nextConvoyId s.mram.convoyId ∧ t.dies[d].convoy.nextSample = 0 ∧
      t.dies[d].state = (if s.dies[d].plan.weir = 0 then .armed else .prefill))) ∧
  (∀ (d : Die) (s : State), s.quiet = true → s.hasDie d = true → s.dies[d].isOpen = true → s.dies[d].convoy.storing = true →
    Completes (.stop d) s (fun t => t.dies[d].state = .postfill ∧ t.dies[d].closing = true ∧ t.dies[d].convoy.endCause = .stop ∧
      t.dies[d].convoy.storing = false)) ∧
  (∀ (d : Die) (s : State), s.quiet = true → s.hasDie d = true → s.dies[d].state = .sealed → s.dies[d].plan.coupled = false →
    Completes (.release d) s (fun t => t.dies[d].state = .idle ∧ t.dies[d].win.ring = [] ∧ t.dies[otherDie d] = s.dies[otherDie d] ∧
      t.basin = s.basin)) ∧
  (∀ (d : Die) (s : State), s.frozen = false → s.dies[d].plan.coupled = false → s.dies[d].state = .postfill → s.dies[d].closing = true →
    s.dies[d].plan.deep = false →
    Completes (.convoySealed d) s (fun t => t.dies[d].state = .sealed))

/-- The copy of a sealed convoy, and the retained quadrants after a watch wake (R116, R138). The watchkeeper at work (R113, R114): a
watched edge is taken into the slot's level; a tick in which no condition of chamber W holds ends, and its edges and knots are past. Where
the spec leaves a choice or a reading, the model's is that of assumptions 38 and 39. -/
def Obligations.SealedCopyAndWatchComplete : Prop :=
  (∀ (d : Die) (via : Source) (s : State), s.serves via = true → s.hasDie d = true → s.dies[d].state = .sealed →
    s.dies[d].plan.deep = false → s.objBool (0x3910 + d.val) 8 = false → s.dies[d].win.copy = none → (s.convoyBarges (s.convoyDies d)).length ≤ s.deep.barges (s.regionNow d).1 (s.regionNow d).2 →
    s.dies[otherDie d].isOpen = false →
    Completes (.sluiceSealedConvoy d via) s (fun t => t.dies[d].win.copy = some (s.regionNow d).1 ∧ t.dsMem = s.dsMem)) ∧
  (∀ (d : Die) (base : Nat) (s : State), s.dies[d].win.copy = some base → s.deep.paused = false → s.isOn = true → s.frozen = false →
    Completes (.sluiceSealedCopyDone d) s (fun t => t.dies[d].win.copy = none ∧ t.basin = s.basin ∧
      t.dsMem = (s.copyBarges (s.convoyBarges (s.convoyDies d)) base).dsMem)) ∧
  (∀ (d : Die) (s : State), s.dies[d].win.homeLimit.isSome = true → s.dies[d].armAt + us 60 ≤ s.now → s.isOn = true →
    Completes (.quadrantReturn d) s (fun t => t.dies[d].win.homeLimit = none ∧ t.dies[d].win.size = s.dies[d].win.size ∧
      t.basin = s.basin)) ∧
  (∀ (d : Die) (slot : Fin 64) (c : Fin 1024) (time : Qword) (level : Bool) (s : State), s.dies[d].watch.slots[slot] = some c →
    s.dies[d].watch.running = true → s.dies[d].watch.levels.getLsbD slot.val = (!level) →
    Completes (.watchedEdge d slot time level) s (fun t => t.dies[d].watch.levels.getLsbD slot.val = level ∧
      t.dies[otherDie d] = s.dies[otherDie d])) ∧
  (∀ (d : Die) (s : State), s.watching d = true → s.dies[d].watch.advance.conds.find? s.dies[d].watch.advance.holds = none →
    Completes (.chamberWEvaluation d) s (fun t => t.dies[d].watch.edgesNow = 0 ∧ t.dies[d].watch.knotNow = 0 ∧
      t.dies[d].watch.counter = s.dies[d].watch.counter ∧ t.power = s.power)) ∧
  (∀ (d : Die) (c : Cond) (s : State), s.watching d = true →
    s.dies[d].watch.advance.conds.find? s.dies[d].watch.advance.holds = some c → c.wake = false →
    Completes (.chamberWEvaluation d) s (fun t => t.power = s.power ∧ t.dies[d].watch.edgesNow = 0))

/-- The eye finder and the full calibration (R38 to R44). Where the spec leaves a choice or a reading, the model's is that of assumption
53. -/
def Obligations.CalibrationCompletes : Prop :=
  (∀ (via : Source) (s : State), s.serves via = true → s.isOn = true → s.dies[0].state = .idle → s.dies[1].state = .idle →
    s.eyeRunning = false →
    Completes (.eyeFinderStart via) s (fun t => t.dies[s.eyeDie].fe.eyeRunning = true ∧ t.objNat 0x2071 0 = 1)) ∧
  (∀ (results : List EyeResult) (d : Die) (e : EyeRun) (s : State), s.frozen = false → s.eyeOn = some (d, e) →
    s.dies[d].calRunning = false →
    Completes (.eyeFinderDone results) s (fun t => t.eyeRunning = false ∧ t.objNat 0x2071 0 = 2)) ∧
  (∀ (s : State), s.frozen = false → s.eyeRunning = true →
    Completes .eyeFinderNoClock s (fun t => t.eyeRunning = false ∧ t.objNat 0x2071 0 = 4)) ∧
  (∀ (via : Source) (s : State), s.serves via = true → s.isOn = true → s.dies[0].state = .idle →
    Completes (.fullCalibrationCommand 1 via) s (fun t => t.dies[0].calRunning = true ∧ t.dies[1] = s.dies[1])) ∧
  (∀ (d : Die) (wide : List (Fin 1024)) (s : State), s.frozen = false → s.dies[d].calRunning = true →
    Completes (.calibrationComplete d wide) s (fun t => t.dies[d].calRunning = false ∧ t.dies[d].calDue = false ∧
      t.dies[d].cal.time = s.time ∧ t.dies[d].cal.tempMc = s.dieTemp d ∧ t.dies[d].cal.valid = true))

/-- The temperature and age work of the front end (R42, R43), and the maintenance of R404. A guarded write of a yarn's direction or drive
on a die that takes it (R29, R31). Where the spec leaves a choice or a reading, the model's is that of assumptions 52 and 77. -/
def Obligations.MaintenanceAndYarnWritesComplete : Prop :=
  (∀ (d : Die) (moved : List (Fin 1024)) (s : State), s.hasDie d = true → s.dies[d].driftAt + sec 60 ≤ s.now → s.dieFree d = true →
    Completes (.driftCheck d moved) s (fun t => t.dies[d].driftAt = s.now ∧ t.dies[d].check.isSome = true ∧ t.basin = s.basin)) ∧
  (∀ (d : Die) (s : State), s.hasDie d = true → s.deskewDue d = true → s.dieFree d = true →
    Completes (.deskewRecalibration d) s (fun t => t.dies[d].check.isSome = true ∧ t.health.due[dieTask d] = none)) ∧
  (∀ (d : Die) (s : State), s.hasDie d = true → s.dies[d].cal.valid = true → calLimit ≤ s.calAge d → s.dieFree d = true →
    Completes (.calibrationAgeDue d) s (fun t => t.dies[d].calDue = true ∧ t.dies[d].calRunning = true)) ∧
  (∀ (m : TaskRun) (s : State), m.task = 4 → s.health.due[4].isSome = true → s.power.ready = true → s.isOn = true → s.anyBusy = false →
    Completes (.maintenanceTaskRun m) s (fun t => t.health.due[4] = none ∧ t.dies = s.dies ∧ t.deep = s.deep)) ∧
  (∀ (d : Die) (k : Fin 4) (v : Dword) (g : GuardForm) (s : State), s.admits v g = true → s.hasDie d = true → s.yarnFree d = true →
    Completes (.writeYarnDirection d k v g) s (fun t => t.pins.yarnDir[d][k] = v ∧ t.pins.yarnDrive = s.pins.yarnDrive ∧
      t.dies = s.dies ∧ t.gens = s.gens)) ∧
  (∀ (d : Die) (k : Fin 8) (v : Dword) (g : GuardForm) (s : State), s.admits v g = true → s.hasDie d = true → s.yarnFree d = true →
    Completes (.writeYarnDrive d k v g) s (fun t => t.pins.yarnDrive[d][k] = v ∧ t.pins.yarnDir = s.pins.yarnDir ∧
      t.dies = s.dies ∧ t.gens = s.gens))

/-! ### Time (chapter 08) -/

/-- Host writes of the increment and of a step under owner HOST (R171, R172): the increment is clamped to its range, the step waits for
the tick. The states of the time base under a host (R171, R176, R177). Where the spec leaves a choice or a reading, the model's is that of
assumption 67. -/
def Obligations.DisciplineCompletes : Prop :=
  (∀ (hi : Dword) (s : State), s.quiet = true → s.tb.owner = .host →
    Completes (.incrementCommit hi) s (fun t =>
      t.tb.inc = max incMin (min incMax ((hi.toNat % 65536) * 2 ^ 32 + (s.tb.incLo.getD (BitVec.ofNat 32 s.tb.inc)).toNat)) ∧
      t.tb.acc = s.tb.acc ∧ t.tb.epoch = s.tb.epoch ∧ t.dies = s.dies)) ∧
  (∀ (hi : Dword) (s : State), s.quiet = true → s.tb.owner = .host → s.tb.stepPend = none →
    s.objInt 0x4010 1 ≠ 0 →
    (((hi ++ s.tb.stepLo : Qword).toInt.natAbs : Nat) : Int) ≤ s.objInt 0x4010 1 * 65536 →
    Completes (.stepCommit hi) s (fun t => t.tb.stepPend = some (hi ++ s.tb.stepLo : Qword).toInt ∧ t.tb.stepBySrv = false ∧
      t.tb.acc = s.tb.acc ∧ t.tb.inc = s.tb.inc)) ∧
  (∀ (hi : Dword) (s : State), s.quiet = true → s.tb.owner ≠ .host →
    Completes (.incrementCommit hi) s (fun t => t.tb = s.tb ∧ t.events.tb.getLsbD 9 = true)) ∧
  (∀ (s : State), s.quiet = true → s.tb.owner = .host →
    Completes .discSet s (fun t => t.tb.disc = true ∧ t.tb.state = .disciplined ∧ t.tb.acc = s.tb.acc ∧
      (s.tb.state ≠ .disciplined → t.tb.timeset = true))) ∧
  (∀ (s : State), s.quiet = true → s.tb.owner = .host → s.tb.disc = true → s.tb.state = .disciplined →
    Completes .discClear s (fun t => t.tb.disc = false ∧ t.tb.state = .holdover ∧ t.tb.acc = s.tb.acc ∧ t.tb.inc = s.tb.inc)) ∧
  (∀ (s : State), s.watchdogDue = true →
    Completes .hostWatchdogExpiry s (fun t => t.tb.disc = false ∧ t.tb.watchdog = none ∧
      (s.tb.state = .disciplined → t.tb.state = .holdover))) ∧
  (∀ (v : Byte) (via : Source) (s : State), s.serves via = true → v.toNat ≤ 2 → s.tb.owner ≠ ownerOf v.toNat →
    Completes (.servoOwnerWrite v via) s (fun t => t.tb.owner = ownerOf v.toNat ∧ t.tb.disc = false ∧ t.tb.acc = s.tb.acc ∧
      t.tb.inc = (if v.toNat = 2 ∧ s.power.hkcUp = true ∧ s.tb.state = .free then s.freeRunInc else s.tb.inc)))

/-- A tick with a pending step, and the carry out of the timeword (R168, R169, R172). Force-steps past their guard while no capture is
open (R173): TIMESET is set, a pending step is gone, and the accumulator holds the stepped or the written timeword. Where the spec leaves
a choice or a reading, the model's is that of assumption 1. -/
def Obligations.StepsComplete : Prop :=
  (∀ (amt : Int) (s : State), s.quartzRuns = true → s.tb.stepPend = some amt →
    Completes .stepApply s (fun t => t.tb.stepPend = none ∧ t.now = s.now + 3200 * s.tb.tickLen ∧ t.tb.inc = s.tb.inc ∧
      t.tb.acc = s.tb.acc + BitVec.ofNat 80 (s.tb.inc * s.tb.tickLen) + BitVec.ofInt 80 (amt * 65536))) ∧
  (∀ (s : State), s.quartzRuns = true → s.tb.stepPend = none → s.tb.inc ≤ incMax → s.willWrap = true →
    Completes .timewordWrap s (fun t => t.tb.epoch = s.tb.epoch + 1 ∧ t.events.tb.getLsbD 13 = true ∧
      t.tb.acc = s.tb.acc + BitVec.ofNat 80 (s.tb.inc * s.tb.tickLen) ∧ t.dies = s.dies)) ∧
  (∀ (g : GuardForm) (s : State), s.admits 1 g = true → s.mayForce = true →
    Completes (.forceStepAmount g) s (fun t => t.tb.timeset = true ∧ t.tb.stepPend = none ∧
      t.tb.acc = s.tb.acc + BitVec.ofNat 80 (s.tb.inc * s.tb.tickLen) + BitVec.ofInt 80 ((s.tb.fstepHi ++ s.tb.fstepLo : Qword).toInt * 65536))) ∧
  (∀ (g : GuardForm) (s : State), s.admits 3 g = true → s.mayForce = true →
    Completes (.forceStepAbsolute g) s (fun t => t.tb.timeset = true ∧ t.tb.stepPend = none ∧
      t.time = (s.tb.fstepHi ++ s.tb.fstepLo : Qword))) ∧
  (∀ (v : Dword) (via : Source) (s : State), s.reaches via = true → s.anyBusy = false →
    Completes (.epochWrite v via) s (fun t => t.tb.epoch = v ∧ t.tb.timeset = true ∧ t.tb.acc = s.tb.acc)) ∧
  (∀ (v : Dword) (via : Source) (s : State), s.reaches via = true → s.anyBusy = true →
    Completes (.epochWrite v via) s (fun t => t.tb = s.tb ∧ t.dies = s.dies))

/-- Compare slots (R178 to R180): a target, an enable and a firing. A slot whose target has passed fires late. Where the spec leaves a
choice or a reading, the model's is that of assumption 67. -/
def Obligations.CompareSlotsComplete : Prop :=
  (∀ (k : Fin 8) (x : Qword) (via : Source) (s : State), s.reaches via = true →
    Completes (.compareTargetCommit k x via) s (fun t => t.tb.slots[k].target = x ∧ t.tb.slots[k].en = s.tb.slots[k].en ∧
      t.tb.slots[k].lateDue = (s.tb.slots[k].en && decide ((x - s.time).toInt ≤ 0)) ∧
      ∀ j : Fin 8, j ≠ k → t.tb.slots[j] = s.tb.slots[j])) ∧
  (∀ (k : Fin 8) (via : Source) (s : State), s.reaches via = true → s.tb.slots[k].en = false →
    Completes (.compareSlotEnable k via) s (fun t => t.tb.slots[k].en = true ∧ t.tb.slots[k].target = s.tb.slots[k].target ∧
      t.tb.slots[k].lateDue = decide ((s.tb.slots[k].target - s.time).toInt ≤ 0))) ∧
  (∀ (k : Fin 8) (s : State), s.slotDue k = true →
    exec (.compareSlotFire k) s = .next ((s.fireSlot k).slotFunction k s.tb.slots[k].target) ∧
    (s.fireSlot k).tb.slots[k].fired = true ∧ (s.fireSlot k).tb.acc = s.tb.acc ∧
    (s.fireSlot k).tb.slots[k].en = decide (s.objNat (0x4030 + k.val) 2 * 65536 ≠ 0) ∧
    (s.tb.slots[k].lateDue = true → (s.fireSlot k).tb.slots[k].late = true))

/-- The sources of time (R184, R185): a selection waits for the new source's first tick; REFIN falls back to the quartz and returns. The
free-run rate and the ageing of the quartz (R182, R183). Where the spec leaves a choice or a reading, the model's is that of assumptions
67 and 83. -/
def Obligations.SourcesAndAgeingComplete : Prop :=
  (∀ (v : Byte) (via : Source) (s : State), s.serves via = true → v.toNat ≤ 2 → s.bothIdle = true →
    Completes (.sourceSelect v via) s (fun t => t.tb.wanted = v.toNat ∧ t.tb.source = s.tb.source ∧
      t.clocks.sourceNext = (if v.toNat = s.tb.source then none else some v.toNat))) ∧
  (∀ (interval : Int) (v : Nat) (s : State), s.clocks.sourceNext = some v → s.anyCoast = false →
    Completes (.sourceSwap interval) s (fun t => t.tb.source = v ∧ t.clocks.sourceNext = none ∧
      (s.tb.state = .disciplined → t.tb.inc = s.tb.inc))) ∧
  (∀ (interval : Int) (s : State), s.tb.source ≠ 0 →
    Completes (.refinFallback interval) s (fun t => t.tb.source = 0 ∧ t.events.tb.getLsbD 12 = true ∧ t.tb.state ≠ .disciplined)) ∧
  (∀ (interval : Int) (s : State), s.objBool 0x4001 3 = true → s.tb.source = 0 → s.tb.wanted ≠ 0 → s.anyCoast = false →
    Completes (.refinAutoReturn interval) s (fun t => t.tb.source = s.tb.wanted ∧ t.tb.wanted = s.tb.wanted)) ∧
  (∀ (s : State), s.power.hkcUp = true → s.tb.state = .free → s.tb.owner ≠ .host → s.tb.updatedAt + day ≤ s.now →
    Completes .freeRunUpdate s (fun t => t.tb.inc = s.freeRunInc ∧ t.tb.updatedAt = s.now ∧ t.tb.acc = s.tb.acc)) ∧
  (∀ (pick : LearnPair) (a b : Period) (s : State), s.power.hkcUp = true → s.longPeriods[pick.first]? = some a →
    s.longPeriods[pick.second]? = some b → a.apart b = true →
    Completes (.ageingLearned pick) s (fun t => t.mram.learned = some (clampInt (-100000) 100000 (ageingOf a b)) ∧ t.tb = s.tb))

/-- A read of the low half of a latching pair answers that half and latches the high one; of the timeword, both halves are those of one
moment (R374). Where the spec leaves a choice or a reading, the model's is that of assumption 2. -/
def Obligations.LatchingReadsComplete : Prop :=
  (∀ (p : LatchPair) (s : State), s.pcie.answers = true →
    Completes (.latchingPairRead p) s (fun t => t.out = s.out ++ [.completion (leBytes 4 (s.latchPair p).2.toNat)] ∧ t.dies = s.dies ∧
      t.tb.acc = s.tb.acc)) ∧
  (∀ (s : State), s.pcie.answers = true →
    Completes (.latchingPairRead .tbTime) s (fun t => (t.tb.timeHi ++ (s.latchPair .tbTime).2 : Qword) = s.time))

/-! ### The pattern generator (chapter 12) -/

/-- Prime, ready, start and stop (R251, R255). Where the spec leaves a choice or a reading, the model's is that of assumptions 21 and 82.
-/
def Obligations.GeneratorControlCompletes : Prop :=
  (∀ (d : Die) (via : Source) (s : State), s.reaches via = true → s.hasDie d = true → s.genStopped d = true → s.isOn = true →
    Completes (.pgPrime d via) s (fun t => t.gens[d].state = .priming ∧ t.gens[d].endStatus = .none ∧
      t.gens[d].yarns = s.outputYarns d ∧ t.gens[otherDie d] = s.gens[otherDie d])) ∧
  (∀ (d : Die) (via : Source) (s : State), s.reaches via = true → s.hasDie d = true → s.genNat d 3 = 0 → s.gens[d].state = .ready →
    Completes (.pgStart d via) s (fun t => t.gens[d].state = .running ∧ t.gens[d].passStart = s.now ∧ t.gens[d].pass = 0 ∧
      t.gens[d].entry.val = s.genNat d 2 % 4096)) ∧
  (∀ (d : Die) (s : State), s.frozen = false → s.gens[d].state = .priming → s.clocks.plls[spll d].runs = true → s.genCheck d = none →
    s.genFilled d = true → s.gens[d].startCmd = false → s.gens[d].timeTarget = none →
    Completes (.pgReady d) s (fun t => t.gens[d].state = .ready ∧ t.gens[d].planned = s.genPlanned d)) ∧
  (∀ (d : Die) (e : GenEnd) (i : Nat) (s : State), s.frozen = false → s.gens[d].state = .priming → s.clocks.plls[spll d].runs = true →
    s.genCheck d = some (e, i) →
    Completes (.pgReady d) s (fun t => t.gens[d].state = .stopped ∧ t.gens[d].endStatus = e ∧ t.gens[d].failing = i)) ∧
  (∀ (d : Die) (via : Source) (s : State), s.reaches via = true → s.hasDie d = true → s.gens[d].state = .ready →
    Completes (.pgStop d via) s (fun t => t.gens[d].state = .stopped ∧ t.gens[d].endStatus = .stopped)) ∧
  (∀ (d : Die) (via : Source) (s : State), s.reaches via = true → s.hasDie d = true → s.gens[d].state = .running → s.genNat d 4 ≠ 0 →
    s.genDue d ≤ s.genHas d →
    Completes (.pgStop d via) s (fun t => t.gens[d].state = .ending ∧ t.gens[d].endStatus = .stopped ∧
      t.gens[d].holdUntil = s.now + ns (s.genNat d 5)))

/-- Passes, jumps and endings of a running generator (R250, R252, R255); an underrun ends it only when a sample that is due is not in the
buffer. Where the spec leaves a choice or a reading, the model's is that of assumptions 21 and 82. -/
def Obligations.GeneratorPassesComplete : Prop :=
  (∀ (d : Die) (src : JumpSource) (s : State), (∀ via, src = .request via → s.reaches via = true ∧ s.hasDie d = true) →
    (∀ pin rising, src = .trigin pin rising → s.dies[d].isOpen = false ∧ s.frozen = false ∧ s.genNat d 9 = pin.val ∧
      decide (s.genNat d 0x0A = 0) = rising) →
    (s.genNat d 7).testBit (jumpLead s.dies[d].plan.program.towDelay src).1 = true → s.gens[d].state = .running → s.gens[d].jump = none →
    s.now + ns (jumpLead s.dies[d].plan.program.towDelay src).2 + 65 * s.gens[d].period ≤ s.passEnd d →
    Completes (.pgJumpRequest d src) s (fun t => t.gens[d].jump = some false ∧ t.gens[d].pass = s.gens[d].pass)) ∧
  (∀ (d : Die) (s : State), s.frozen = false → s.gens[d].state = .running → s.passEnd d ≤ s.now → s.gens[d].endPass = false →
    s.genDue d ≤ s.genHas d → s.gens[d].jump = none → ((s.curEntry d).endless = true ∨ s.gens[d].pass < (s.curEntry d).loops) →
    Completes (.pgPassEnd d) s (fun t => t.gens[d].pass = s.gens[d].pass + 1 ∧ t.gens[d].passStart = s.passEnd d ∧
      t.gens[d].entry = s.gens[d].entry)) ∧
  (∀ (d : Die) (s : State), s.frozen = false → s.gens[d].state = .running → s.passEnd d ≤ s.now → s.gens[d].endPass = false →
    s.genDue d ≤ s.genHas d → s.gens[d].jump = some false →
    Completes (.pgPassEnd d) s (fun t => t.gens[d].entry = (s.curEntry d).target ∧ t.gens[d].pass = 0 ∧ t.gens[d].jump = none)) ∧
  (∀ (d : Die) (s : State), s.frozen = false → s.gens[d].state = .running → (s.curEntry d).cache = false →
    s.gens[d].played < s.genDue d → s.genHas d < s.genDue d →
    Completes (.pgUnderrun d) s (fun t => t.gens[d].state = .ending ∧
      t.gens[d].endStatus = (if s.gens[d].preBad then .data else .underrun))) ∧
  (∀ (d : Die) (s : State), s.frozen = false → s.gens[d].state = .running → s.genDue d ≤ s.genHas d →
    Completes (.pgUnderrun d) s (fun t => t.gens[d].state = .running ∧ t.gens[d].entry = s.gens[d].entry)) ∧
  (∀ (d : Die) (s : State), s.frozen = false → s.gens[d].state = .ending → s.gens[d].holdUntil ≤ s.now →
    Completes (.pgHoldEnd d) s (fun t => t.gens[d].state = .stopped ∧ t.gens[d].endStatus = s.gens[d].endStatus)) ∧
  (∀ (d : Die) (at_ : Nat) (s : State), s.frozen = false → s.gens[d].state = .waiting → s.gens[d].waitFor = .knot →
    s.gens[d].startAt = some at_ → at_ ≤ s.now →
    Completes (.pgKnotStart d) s (fun t => t.gens[d].state = .running ∧ t.gens[d].entry = (s.curEntry d).target ∧
      t.gens[d].passStart = at_))

/-- Starts by a sync pulse and by a slot's target, and the sync pulse itself (R251, R257, R258). Sync calibration and the loop cache
(R254, R259): a completed load copies deep-store bytes into window 2 of the die's basin and leaves the deep store as it was. Where the
spec leaves a choice or a reading, the model's is that of assumption 23. -/
def Obligations.GeneratorStartsAndLoadsComplete : Prop :=
  (∀ (d : Die) (p : SyncinPulse) (s : State), s.frozen = false → s.gens[d].state = .ready → s.genNat d 3 = 2 → s.gens[d].startAt = none →
    s.syncSeen p = true →
    Completes (.syncinPulse p) s (fun t => t.gens[d].startAt = some (s.now + s.syncDelay d p.phase) ∧ t.gens[d].state = .ready)) ∧
  (∀ (p : SyncinPulse) (s : State), s.objBool 0x5030 1 = true →
    Completes (.syncinPulse p) s (fun t => ∃ rest, t.out = s.out ++ .syncout (s.now + ns 6 - p.phase * 8 / 25)
      (s.now + ns 6 - p.phase * 8 / 25 + p.width * 8 / 25) :: rest)) ∧
  (∀ (d : Die) (at_ : Nat) (s : State), s.frozen = false → s.gens[d].state = .ready → s.genNat d 3 = 2 → s.gens[d].startAt = some at_ →
    at_ ≤ s.now →
    Completes (.pgSyncStart d) s (fun t => t.gens[d].state = .running ∧ t.gens[d].passStart = at_)) ∧
  (∀ (d : Die) (at_ : Nat) (s : State), s.frozen = false → s.gens[d].state = .ready → s.gens[d].timeTarget.isSome = true →
    s.gens[d].startAt = some at_ → at_ ≤ s.now →
    Completes (.pgTimeStart d) s (fun t => t.gens[d].state = .running ∧ t.gens[d].passStart = at_ ∧ t.gens[d].timeTarget = none)) ∧
  (∀ (via : Source) (s : State), s.serves via = true → s.objBool 0x5030 1 = true →
    Completes (.syncoutOriginate via) s (fun t =>
      t.out = s.out ++ [.syncout (s.now + 3200 * s.tb.tickLen) (s.now + 3200 * s.tb.tickLen + ns 300)])) ∧
  (∀ (d : Die) (via : Source) (s : State), s.serves via = true → s.hasDie d = true → s.genStopped d = true →
    s.gens[d].calibrating = false →
    Completes (.pgSyncCalibration d via) s (fun t => t.gens[d].calibrating = true ∧ t.objNat (0x5020 + d.val) 5 = 1)) ∧
  (∀ (d : Die) (r : SyncCalResult) (s : State), s.frozen = false → s.gens[d].calibrating = true →
    s.objNat (0x5020 + d.val) 1 ≤ r.phases.length →
    Completes (.syncCalibrationEnd d r) s (fun t => t.gens[d].calibrating = false ∧ t.gens[d].calibrated = true)) ∧
  (∀ (d : Die) (s : State), s.frozen = false → s.gens[d].calibrating = true → 1 ≤ s.objNat (0x5020 + d.val) 1 →
    s.gens[d].calAt + sec 1 ≤ s.now →
    Completes (.syncCalibrationEnd d { phases := [] }) s (fun t => t.gens[d].calibrating = false ∧
      t.gens[d].calibrated = s.gens[d].calibrated ∧ t.objNat (0x5020 + d.val) 5 = 4)) ∧
  (∀ (d : Die) (via : Source) (s : State), s.serves via = true → s.hasDie d = true → s.gens[d].loading = none → s.genStopped d = true → s.cacheBytes d ≠ 0 →
    s.deep.rangeOk (s.objNat (0x5040 + d.val) 2) (s.objNat (0x5040 + d.val) 3) = true →
    Completes (.loopCacheLoad d via) s (fun t => t.gens[d].loadStatus = 1 ∧ t.gens[d].loading =
      some (s.objNat (0x5040 + d.val) 2, s.objNat (0x5040 + d.val) 4,
        min (s.objNat (0x5040 + d.val) 3) (s.cacheBytes d - s.objNat (0x5040 + d.val) 4)))) ∧
  (∀ (d : Die) (src dst n : Nat) (s : State), s.frozen = false → s.gens[d].loading = some (src, dst, n) →
    Completes (.loopCacheLoadDone d) s (fun t => t.gens[d].loading = none ∧ t.gens[d].cacheValid = true ∧ t.dsMem = s.dsMem ∧
      t.basin[d] = memWriteBlock s.basin[d] ((s.cacheWindow d).1 + dst) (memReadBlock s.dsMem src n) ∧
      t.basin[otherDie d] = s.basin[otherDie d]))

/-! ### Gauges (chapter 11) -/

/-- The life of a gauge (R234, R237, R242). Where the spec leaves a choice or a reading, the model's is that of assumption 20. -/
def Obligations.GaugeLifeCompletes : Prop :=
  (∀ (g : Fin 64) (via : Source) (s : State), s.serves via = true → s.hasDie (gaugeDie g) = true → s.isOn = true → s.gauges[g].state ≠ .running →
    Completes (.gaugeStart g via) s (fun t => t.gauges[g].state = .running ∧ t.gauges[g].startedAt = s.now ∧ t.gauges[g].stamping = false ∧
      ∀ j : Fin 64, j ≠ g → t.gauges[j] = s.gauges[j])) ∧
  (∀ (g : Fin 64) (via : Source) (s : State), s.serves via = true → s.hasDie (gaugeDie g) = true → s.gauges[g].state = .running →
    Completes (.gaugeStop g via) s (fun t => t.gauges[g].state = .aborted ∧ t.gauges[g].gate = none ∧ t.gauges[g].shot = none)) ∧
  (∀ (g : Fin 64) (s : State), s.frozen = false → s.gauges[g].state = .running → s.gauges[g].stamping = false →
    s.gauges[g].startedAt + us 25 ≤ s.now → s.clocks.plls[spll (gaugeDie g)].runs = true → s.gauges[g].set.source = 0 →
    Completes (.gaugeStampingBegin g) s (fun t => t.gauges[g].stamping = true ∧ t.gauges[g].gate = some (s.now, s.time) ∧
      t.gauges[g].gateEnd = s.now + ns s.gauges[g].set.gateNs)) ∧
  (∀ (g : Fin 64) (s : State), s.frozen = false → s.gauges[g].state = .running → s.gauges[g].gate.isSome = true →
    s.gauges[g].set.source ≠ 2 → s.gauges[g].gateEnd ≤ s.now → s.gauges[g].set.again = false →
    Completes (.gateClose g) s (fun t => t.gauges[g].state = .done ∧ t.gauges[g].gate = none)) ∧
  (∀ (g : Fin 64) (s : State), s.gauges[g].state = .running → s.gauges[g].set.timeoutMs ≠ 0 → s.gauges[g].published = false →
    s.gauges[g].startedAt + ms s.gauges[g].set.timeoutMs ≤ s.now →
    Completes (.gaugeTimeout g) s (fun t => t.gauges[g].state = .timeout ∧ t.gauges[g].shot = none))

/-- Edges at a gauge (R235, R238): the prescaler, the first stamp of a gate, the shot that a start opens, the result that its stop gives,
and the shot without one. Where the spec leaves a choice or a reading, the model's is that of assumption 20. -/
def Obligations.GaugeEdgesComplete : Prop :=
  (∀ (g : Fin 64) (e : GaugeEdge) (s : State), s.startHeard g e = true →
    s.gauges[g].set.mode ≠ 2 → s.gauges[g].prescaled + 1 < s.gauges[g].set.prescale →
    Completes (.gaugeStartEdge g e) s (fun t => t.gauges[g].prescaled = s.gauges[g].prescaled + 1 ∧ t.gauges[g].first = s.gauges[g].first)) ∧
  (∀ (g : Fin 64) (e : GaugeEdge) (s : State), s.startHeard g e = true →
    s.gauges[g].set.mode ≠ 2 → s.gauges[g].set.prescale ≤ s.gauges[g].prescaled + 1 → s.gauges[g].gate.isSome = true →
    s.gauges[g].first = none → unitBusy s.gauges[g].startUnit (s.startStamp g e) = false →
    Completes (.gaugeStartEdge g e) s (fun t => t.gauges[g].prescaled = 0 ∧ t.gauges[g].first = some (s.startStamp g e) ∧ t.gauges[g].n = 0)) ∧
  (∀ (g : Fin 64) (e : GaugeEdge) (s : State), s.startHeard g e = true →
    s.gauges[g].set.mode = 2 → s.gauges[g].shot = none → s.gauges[g].gate.isSome = true → s.gauges[g].history = [] →
    heldOff s.gauges[g].holdStart (s.startStamp g e) s.gauges[g].set.holdNs = false →
    Completes (.gaugeStartEdge g e) s (fun t =>
      t.gauges[g].shot = some { start := s.startStamp g e, saturated := unitBusy s.gauges[g].startUnit (s.startStamp g e) } ∧
      t.gauges[g].holdStart = some (s.startStamp g e) ∧ t.gauges[g].count = s.gauges[g].count)) ∧
  (∀ (g : Fin 64) (e : GaugeEdge) (a : Shot) (s : State), s.stopHeard g e = true →
    s.gauges[g].set.mode = 2 → s.gauges[g].shot = some a → a.saturated = false → unitBusy s.gauges[g].stopUnit (s.stopStamp g e) = false →
    heldOff s.gauges[g].holdStop (s.stopStamp g e) s.gauges[g].set.holdNs = false → inWindow s.gauges[g].set a.start (s.stopStamp g e) = true →
    ownStop s.gauges[g].set a.start (s.stopStamp g e) = false → 1024 ≤ (s.stopStamp g e - a.start).toInt.natAbs →
    s.gauges[g].count + 1 ≠ s.gauges[g].set.shots →
    Completes (.gaugeStopEdge g e) s (fun t => t.gauges[g].shot = none ∧ t.gauges[g].count = s.gauges[g].count + 1 ∧
      t.gauges[g].sum = s.gauges[g].sum + (s.stopStamp g e - a.start).toInt ∧ t.gauges[g].unresolved = s.gauges[g].unresolved)) ∧
  (∀ (g : Fin 64) (s : State), s.gauges[g].state = .running → s.gauges[g].shot.isSome = true → s.gauges[g].shotEnd ≤ s.now →
    Completes (.shotTimeout g) s (fun t => t.gauges[g].shot = none ∧ t.gauges[g].state = .running ∧ t.gauges[g].count = s.gauges[g].count))

/-! ### Ethernet and bulk readout (chapter 09) -/

/-- A port's settings, its link and the frames it hears (R188 to R191). A bulk readout begins, and its datagrams leave in order (R192).
Where the spec leaves a choice or a reading, the model's is that of assumptions 66 and 89. -/
def Obligations.EthernetCompletes : Prop :=
  (∀ (p : Fin 2) (sub : Byte) (value : List Byte) (via : Source) (r : ObjRow) (s : State), s.serves via = true → objRow (0x4400 + p.val) sub.toNat = some r →
    portSetting sub.toNat = true → lengthOk r.typ value.length = true →
    Completes (.portReconfigure p sub value via) s (fun t => t.net.ports[p].linkUp = false ∧ t.dies = s.dies ∧ t.dsMem = s.dsMem)) ∧
  (∀ (p : Fin 2) (s : State), s.net.ports[p].linkUp = true →
    Completes (.ethLinkLoss p) s (fun t => t.net.ports[p].linkUp = false ∧ t.events.net.getLsbD (8 + p.val) = true ∧ t.tb = s.tb)) ∧
  (∀ (p : Fin 2) (s : State), s.ethReady p = true → s.net.ports[p].linkUp = false →
    Completes (.ethLinkUp p) s (fun t => t.net.ports[p].linkUp = true ∧ t.dies = s.dies ∧ t.tb = s.tb)) ∧
  (∀ (p : Fin 2) (frame : EthFrame) (v6 : Bool) (data : List Byte) (s : State), s.ethHears p = true →
    frame.vlan.toNat = s.objNat (0x4400 + p.val) 9 → frame.length ≤ s.objNat (0x4400 + p.val) 0x0B → frame.addressed = true →
    frame.body = .echo v6 data → s.hasAddr p v6 = true →
    Completes (.ethFrameReceive p frame) s (fun t => t.out = s.out ++ [.reply p (s.vlanOf p) frame.body] ∧ t.net = s.net)) ∧
  (∀ (p : Fin 2) (frame : EthFrame) (s : State), s.ethHears p = true → frame.addressed = false →
    exec (.ethFrameReceive p frame) s = .next ((s.bump (0x4402 + p.val) 1).bump (0x4402 + p.val) 2)) ∧
  (∀ (via : Source) (p : Fin 2) (addr : List Byte) (s : State), s.serves via = true → s.net.bulk = none → ethPort via = some p →
    (s.objNat (0x4400 + p.val) 0x0A).testBit 1 = true → bulkMtu addr ≤ s.objNat (0x4400 + p.val) 0x0B → s.objNat 0x4470 2 ≠ 0 →
    Completes (.bulkReadoutStart via addr) s (fun t => t.net.bulkJobs = s.net.bulkJobs + 1 ∧
      t.net.bulk.map Bulk.job = some (s.net.bulkJobs + 1) ∧ t.net.bulk.map Bulk.next = some 0 ∧ t.objNat 0x4470 7 = 1)) ∧
  (∀ (b : Bulk) (s : State), s.net.bulk = some b → s.frozenFull = false → b.due ≤ s.now →
    s.ethService b.port 1 = true → (s.bulkBarge b).isSome = true →
    Completes .bulkReadoutDatagram s (fun t =>
      t.out = s.out ++ [.udp b.port
        { dest := b.dest, srcPort := 48621, destPort := b.destPort, vlan := s.vlanOf b.port, priority := none, hops := none }
        (bulkHeader b ++ (s.bulkBarge b).getD [])] ∧
      t.net.bulk.map Bulk.next = (if b.count ≤ b.next + 1 then none else some (b.next + 1)) ∧ t.dsMem = s.dsMem ∧ t.basin = s.basin))

/-! ### IEEE 1588 (chapter 09) -/

/-- Sync and Follow_Up from the parent (R198): a two-step Sync waits, its Follow_Up completes it, and an accepted one is measured as t2 −
t1 − delay − asymmetry. Where the spec leaves a choice or a reading, the model's is that of assumption 24. -/
def Obligations.SyncsComplete : Prop :=
  (∀ (p : Fin 2) (m : SyncMsg) (s : State), s.ptpHears p m.hdr = true → s.fromParent p m.hdr = true → m.twoStep = true →
    Completes (.syncReceive p m) s (fun t => t.net.waiting.map SyncWait.seqId = some m.hdr.seqId ∧
      t.net.waiting.map SyncWait.t2 = some (s.ingress p m.stamp) ∧ t.tb = s.tb)) ∧
  (∀ (p : Fin 2) (m : SyncMsg) (mean : Int) (s : State), s.ptpHears p m.hdr = true → s.fromParent p m.hdr = true → m.twoStep = false →
    s.net.ports[p].mean = some mean → s.net.lastSeq = none → s.xpllCoasts = false → s.net.ports[p].unanswered < 16 → s.tb.owner ≠ .hkc →
    Completes (.syncReceive p m) s (fun t =>
      t.net.last.offset = s.ingress p m.stamp - ((m.origin : Int) + m.hdr.correction) - mean - s.objInt (0x4430 + p.val) 5 ∧
      t.net.last.seqId = m.hdr.seqId ∧ t.net.syncSeen = s.now ∧ t.tb = s.tb)) ∧
  (∀ (p : Fin 2) (m : FollowUpMsg) (w : SyncWait) (s : State), s.ptpHears p m.hdr = true → s.net.waiting = some w → w.port = p →
    w.source = m.hdr.source → w.sourcePort = m.hdr.sourcePort → w.seqId = m.hdr.seqId → s.now ≤ w.arrived + s.syncInterval →
    Completes (.followUpReceive p m) s (fun t => t.net.waiting = none ∧
      t.net.ports[p].lastSync = some ((m.origin : Int) + w.correction + m.hdr.correction, w.t2)))

/-- Announces, delay requests and their answers (R193, R194, R198); every message that a port sends carries the part's domain, clock
identity and port number. Where the spec leaves a choice or a reading, the model's is that of assumptions 8 and 24. -/
def Obligations.DelaysComplete : Prop :=
  (∀ (p : Fin 2) (m : AnnounceMsg) (s : State), s.ptpHears p m.hdr = true → m.hdr.source ≠ s.clockId → m.steps.toNat < 255 →
    Completes (.announceReceive p m) s (fun t => t.net.ports[p].best = s.takeAnnounce s.net.ports[p].best (announceData m) ∧
      t.tb = s.tb)) ∧
  (∀ (p : Fin 2) (m : DelayReqMsg) (s : State), s.ptpHears p m.hdr = true → s.net.ports[p].role = .master → s.peerDelay = false →
    Completes (.delayReqReceive p m) s (fun t => t.net = s.net ∧ t.out = (s.sendPtp p (.delayResp m.hdr.seqId
      (s.ingress p m.stamp).toNat m.hdr.correction m.hdr.source m.hdr.sourcePort)).out)) ∧
  (∀ (p : Fin 2) (m : PtpOut) (s : State), ∃ h, (s.sendPtp p m).out = s.out ++ [.ptp p h m] ∧ h.domain = s.objNat 0x4410 3 ∧
    h.clock = s.clockId ∧ h.portNumber = p.val + 1) ∧
  (∀ (p : Fin 2) (m : DelayRespMsg) (a : DelayAsk) (t3 t1 t2 : Int) (s : State), s.ptpHears p m.hdr = true → s.peerDelay = false →
    s.fromParent p m.hdr = true → s.answersMe p m.reqSource m.reqPort m.hdr.seqId = some a → a.sent = some t3 → s.net.ports[p].lastSync = some (t1, t2) →
    s.net.servo ≠ .locked → s.net.servo ≠ .pathHold →
    Completes (.delayRespReceive p m) s (fun t => t.net.ports[p].ask = none ∧ t.net.ports[p].unanswered = 0 ∧
      t.net.ports[p].mean = some (((t2 - t1) + ((m.received : Int) - m.hdr.correction - t3)) / 2))) ∧
  (∀ (p : Fin 2) (m : DelayReqMsg) (egress : Qword) (s : State), s.ptpHears p m.hdr = true → s.peerDelay = true →
    Completes (.pdelayReqReceive p m egress) s (fun t => ∃ rest, t.out =
      (s.sendPtp p (.pdelayResp m.hdr.seqId (s.ingress p m.stamp).toNat m.hdr.source m.hdr.sourcePort)).out ++ rest)) ∧
  (∀ (p : Fin 2) (m : PdelayRespMsg) (a : DelayAsk) (t1 : Int) (s : State), s.ptpHears p m.hdr = true → s.peerDelay = true →
    s.answersMe p m.reqSource m.reqPort m.hdr.seqId = some a → a.sent = some t1 → m.followUp = false → m.twoStep = false →
    s.net.servo ≠ .locked → s.net.servo ≠ .pathHold →
    Completes (.pdelayRespReceive p m) s (fun t => t.net.ports[p].ask = none ∧
      t.net.ports[p].mean = some ((s.ingress p m.stamp - t1 - m.hdr.correction) / 2))) ∧
  (∀ (p : Fin 2) (s : State), s.ptpLive p = true → exec (.managementMessageReceive p) s = .next ((s.countFrame p).bump (0x4440 + p.val) 7))

/-- What the part sends as master and as slave (R193, R194, R197), each under the next sequence number. The monitors of the parent (R176,
R193): MASTERLOST, HOLDOVER under the built-in servo, the parent's dataset gone. Where the spec leaves a choice or a reading, the model's
is that of assumptions 24 and 84. -/
def Obligations.PtpSendsAndMonitorsComplete : Prop :=
  (∀ (p : Fin 2) (stamp : Qword) (s : State), s.ptpMaster p = true →
    Completes (.syncSend p stamp) s (fun t => t.net.ports[p].syncSeq = s.net.ports[p].syncSeq + 1 ∧
      ∃ rest, t.out = (s.sendPtp p (.sync s.net.ports[p].syncSeq)).out ++ rest)) ∧
  (∀ (p : Fin 2) (s : State), s.ptpMaster p = true → s.power.hkcUp = true →
    Completes (.announceSend p) s (fun t => t.net.ports[p].annSeq = s.net.ports[p].annSeq + 1 ∧
      t.out = (s.sendPtp p (.announce s.net.ports[p].annSeq s.announced)).out)) ∧
  (∀ (p : Fin 2) (stamp : Qword) (s : State), s.ptpAsks p = true → s.net.ports[p].ask = none →
    Completes (.delayReqSend p stamp) s (fun t => t.net.ports[p].reqSeq = s.net.ports[p].reqSeq + 1 ∧
      ∃ rest, t.out = (s.sendPtp p (if s.peerDelay then .pdelayReq s.net.ports[p].reqSeq else .delayReq s.net.ports[p].reqSeq)).out ++ rest)) ∧
  (∀ (s : State), s.net.syncSeen + 3 * s.syncInterval ≤ s.now → s.monitored = true →
    Completes .syncTimeout s (fun t => t.events.ptp.getLsbD 11 = true ∧ t.tb.acc = s.tb.acc ∧
      (s.tb.owner = .hkc → s.tb.state = .disciplined → t.tb.state = .holdover) ∧ (s.tb.owner = .host → t.tb = s.tb))) ∧
  (∀ (s : State), s.net.syncSeen + 3 * s.syncInterval ≤ s.now → s.monitored = false → s.tb.owner = .hkc → s.tb.state = .disciplined →
    Completes .syncTimeout s (fun t => t.tb.state = .holdover ∧ t.tb.acc = s.tb.acc)) ∧
  (∀ (p : Fin 2) (b : MasterData × Nat) (s : State), s.net.ports[p].best = some b → s.announceStale b.2 = true →
    Completes .announceReceiptTimeout s (fun t => t.net.ports[p].best = none ∧ t.tb.acc = s.tb.acc ∧
      (s.parentOn p = true → s.aelopRef = false → t.events.ptp.getLsbD 11 = true)))

/-! ### Knots (chapter 10) -/

/-- The hub takes the dies' knots before the host's, die 0's first (R210, R211). Knots that arrive (R212 to R215): a malformed one is
counted, a good one is accepted, an accepted one is delivered, and an entry of the duplicate cache expires. Where the spec leaves a choice
or a reading, the model's is that of assumptions 65 and 88. -/
def Obligations.KnotsComplete : Prop :=
  (∀ (k : Knot) (rest : List Knot) (s : State), s.frozenFull = false → s.dies[0].stair.knotQueue = k :: rest →
    Completes .knotSend s (fun t => t.dies[0].stair.knotQueue = rest ∧ t.dies[1] = s.dies[1] ∧ t.knots.hostKnots = s.knots.hostKnots)) ∧
  (∀ (k : Knot) (rest : List Knot) (s : State), s.frozenFull = false → s.dies[0].stair.knotQueue = [] →
    s.dies[1].stair.knotQueue = k :: rest →
    Completes .knotSend s (fun t => t.dies[1].stair.knotQueue = rest ∧ t.dies[0] = s.dies[0] ∧ t.knots.hostKnots = s.knots.hostKnots)) ∧
  (∀ (route : KnotRoute) (bytes : List Byte) (s : State), spoiledOn route = none → s.routeOpen route = true → s.frozenFull = false → parseKnot bytes = none →
    exec (.knotReceive route bytes) s = .next (((s.countArrival route).bump 0x4821 1).bump 0x4821 2)) ∧
  (∀ (route : KnotRoute) (bytes : List Byte) (kn : Knot) (s : State), spoiledOn route = none → s.routeOpen route = true → s.frozenFull = false →
    parseKnot bytes = some kn → s.isDuplicate kn = false → (s.objNat 0x4820 1).testBit kn.cls.val = true →
    (kn.holdover = true → s.objBool 0x4820 3 = false) →
    ((knotTime kn - s.time).toInt.natAbs : Int) ≤ (s.objNat 0x4820 2 : Int) * 65536 →
    Completes (.knotReceive route bytes) s (fun t => t.knots.accepted =
      s.knots.accepted ++ [{ knot := kn, aelop := routeFast route, arrived := s.now }] ∧ t.dies = s.dies)) ∧
  (∀ (a : Accepted) (rest : List Accepted) (s : State), s.frozenFull = false → s.knots.accepted = a :: rest →
    Completes .knotDeliver s (fun t => t.knots.accepted = rest)) ∧
  (∀ (node : BitVec 18) (seq : BitVec 16) (s : State),
    Completes (.duplicateEntryExpiry node seq) s (fun t => t.objs = s.objs ∧ ∀ e, e ∈ t.knots.cache ↔
      e ∈ s.knots.cache ∧ ¬(e.node = node ∧ e.seq = seq ∧ e.written + s.dupLife ≤ s.now)))

/-! ### The Aelop link (chapter 10) -/

/-- Heartbeats (R219 to R221). The states of an Aelop port, its measurements and the tunnel's frames (R218, R221, R225, R227). Where the
spec leaves a choice or a reading, the model's is that of assumptions 63, 64 and 90. -/
def Obligations.AelopCompletes : Prop :=
  (∀ (k : Fin 4) (stamp : Qword) (s : State), s.alpPowered k = true → s.knots.ports[k].state ≠ .disabled →
    s.knots.ports[k].nextBeat ≤ s.now + ns 10 →
    Completes (.heartbeatSend k stamp) s (fun t => t.knots.ports[k].seq = s.knots.ports[k].seq + 1 ∧
      t.knots.ports[k].nextBeat = s.now + us 1 ∧ ∃ trx eseq credit data, data = beatBytes s.nodeId s.knots.root s.knots.dist
        (decide (s.knots.parent = some k)) stamp trx s.knots.ports[k].seq eseq credit ∧
        t.out = s.out ++ [.aelop k (alpHeader 1 s.knots.pos k 0 0 data) data])) ∧
  (∀ (k : Fin 4) (h : Heartbeat) (s : State), s.alpHears k = true → h.good = true →
    Completes (.heartbeatReceive k h) s (fun t => t.knots.ports[k].lastGood = s.now ∧
      (s.knots.ports[k].state = .up → t.knots.ports[k].state = .up ∧ t.knots.ports[k].run = s.knots.ports[k].run + 1))) ∧
  (∀ (k : Fin 4) (h : Heartbeat) (s : State), s.alpHears k = true → h.good = false →
    Completes (.heartbeatReceive k h) s (fun t => t.knots.ports[k].run = 0 ∧ t.knots.ports[k].lastGood = s.knots.ports[k].lastGood ∧
      t.knots.tree = s.knots.tree)) ∧
  (∀ (k : Fin 4) (via : Source) (s : State), s.serves via = true → s.knots.ports[k].state = .disabled →
    Completes (.alpPortEnable k true via) s (fun t => t.knots.ports[k].state = .training ∧ t.knots.ports[k].nextBeat = s.now)) ∧
  (∀ (k : Fin 4) (via : Source) (s : State), s.serves via = true →
    Completes (.alpPortEnable k false via) s (fun t => t.knots.ports[k].state = .disabled ∧ t.knots.tree.getLsbD k.val = false)) ∧
  (∀ (k : Fin 4) (s : State), s.frozenFull = false → s.knots.ports[k].lastGood + us 4 ≤ s.now → s.knots.ports[k].state = .up →
    Completes (.alpPortDown k) s (fun t => t.knots.ports[k].state = .down ∧ t.events.alp.getLsbD k.val = true)) ∧
  (∀ (k : Fin 4) (lane : Fin 2) (s : State), s.frozenFull = false → s.knots.ports[k].state = .up →
    Completes (.alpLaneFailure k lane) s (fun t => t.knots.ports[k].state = .down ∧ t.events.alp.getLsbD k.val = true)) ∧
  (∀ (k : Fin 4) (m : LinkMeasure) (rest : List LinkMeasure) (s : State), s.frozenFull = false → s.alpUp k = true →
    s.knots.ports[k].measured = m :: rest →
    Completes (.alpMeasurement k) s (fun t => t.knots.ports[k].measured = rest ∧
      t.knots.ports[k].delay = m.delay ∧ t.knots.ports[k].offset = m.offset)) ∧
  (∀ (k : Fin 4) (f : TunnelFrame) (s : State), s.alpHears k = true → f.good = true → f.typ = 3 → s.alpUp k = true → s.tunnelOn = true →
    f.dest = s.knots.pos → f.frag = 0 → headerOk f.payload = true → frameNeed f.payload ≤ f.payload.length →
    frameBack (f.payload.take (frameNeed f.payload)) = false → s.dict.serving.isSome = true →
    Completes (.tunnelFrameReceive k f) s (fun t => t.dict.tunnelQueue.length = s.dict.tunnelQueue.length + 1 ∧ t.out = s.out ∧
      (t.dict.tunnelQueue.getLast?).map Request.frame = some (f.payload.take (frameNeed f.payload)))) ∧
  (∀ (k : Fin 4) (f : TunnelFrame) (s : State), s.alpHears k = true → f.good = true → f.typ = 3 → s.alpUp k = true → s.tunnelOn = true →
    f.dest ≠ s.knots.pos →
    Completes (.tunnelFrameReceive k f) s (fun t => t.dict.tunnelQueue = s.dict.tunnelQueue ∧ t.dict.serving = s.dict.serving ∧
      t.dies = s.dies)) ∧
  (∀ (k : Fin 4) (f : TunnelFrame) (s : State), s.alpHears k = true → f.good = false →
    exec (.tunnelFrameReceive k f) s = .next (s.bump (0x4810 + k.val) 0x0B))

/-! ### The deep store (chapter 13) -/

/-- The running speed (R267, R270): a guarded request becomes pending, is applied between captures, and completes. Training and the DIMM
sensors (R268, R272). Where the spec leaves a choice or a reading, the model's is that of assumption 55. -/
def Obligations.SpeedAndTrainingComplete : Prop :=
  (∀ (v : Dword) (g : GuardForm) (s : State), s.admits v g = true →
    Completes (.speedChangeRequest v g) s (fun t => t.deep.requested = v.toNat % 4 ∧
      t.deep.pending = decide (s.deep.speedFor (v.toNat % 4) ≠ s.deep.running) ∧ t.deep.running = s.deep.running ∧ t.dsMem = s.dsMem)) ∧
  (∀ (s : State), s.deep.pending = true → s.deep.changing = false → s.isOn = true → s.speedFree = true → s.deep.anyTraining = false →
    Completes .speedChangeApply s (fun t => t.deep.changing = true ∧ t.dsMem = s.dsMem ∧
      ∀ c : Fin 8, s.deep.chans[c].state = .inService → t.deep.chans[c].state = .training)) ∧
  (∀ (s : State), s.deep.pending = true → s.deep.changing = false → s.isOn = true → s.speedFree = true → s.deep.anyTraining = true →
    s.deep.deferred = false →
    Completes .speedChangeApply s (fun t => t.deep.deferred = true ∧ t.events.ds.getLsbD 5 = true ∧ t.deep.chans = s.deep.chans)) ∧
  (∀ (r : TrainReport) (s : State), s.frozenFull = false → s.deep.changing = true →
    Completes (.speedChangeComplete r) s (fun t => t.deep.changing = false ∧ t.deep.pending = false ∧
      t.deep.running = s.deep.speedFor s.deep.requested ∧ t.dsMem = s.dsMem)) ∧
  (∀ (c : Fin 8) (s : State), s.trainingDue c = true → s.trainingFree = true →
    Completes (.trainingDue c) s (fun t => t.deep.chans[c].state = .training ∧ t.health.due[(2 : Fin 5)] = none)) ∧
  (∀ (c : Fin 8) (s : State), s.trainingDue c = true → s.trainingFree = false →
    Completes (.trainingDue c) s (fun t => t.deep = s.deep ∧ t.health.due[(2 : Fin 5)].isSome = true)) ∧
  (∀ (c : Fin 8) (r : TrainReport) (s : State), s.frozenFull = false → s.deep.chans[c].trains = true → s.deep.changing = false →
    r.failed.contains c = false → s.deep.deferred = false →
    Completes (.trainingComplete c r) s (fun t => t.deep.chans[c].state = .inService ∧ t.deep.chans[c].trainResult = 1 ∧
      t.deep.chans[c].trainedAt = s.time ∧ t.deep.chans[c].trainTemp = s.deep.chans[c].tempMc)) ∧
  (∀ (temps : Vector (Option Int) 8) (s : State), s.power.hkcUp = true →
    Completes (.dimmSensorRead temps) s (fun t => ∀ (c : Fin 8) (v : Int), s.deep.chans[c].state ≠ .absent → temps[c] = some v →
      t.deep.chans[c].tempMc = v ∧ t.deep.chans[c].sensorFails = 0 ∧
      (85000 < v → t.deep.chans[c].doubled = true) ∧ (v < 83000 → t.deep.chans[c].doubled = false)))

/-- Requests, their urgency, parity errors, migration and scrub (R273 to R275, R279, R282). Where the spec leaves a choice or a reading,
the model's is that of assumptions 55 and 93. -/
def Obligations.DeepRequestsComplete : Prop :=
  (∀ (p : Fin 8) (g : GroupResult) (q : DsRequest) (s : State), s.frozenFull = false → s.deep.ports[p] = some q → q.granted = true →
    (q.write = true ∨ (g.corrected = false ∧ g.uncorrectable = false)) →
    Completes (.dsRequestComplete p g) s (fun t => t.dsMem = s.dsMem ∧ t.deep.chans = s.deep.chans ∧
      (p.val ∉ [2, 3, 7] → t.deep.ports[p] = none))) ∧
  (∀ (p : Fin 8) (q : DsRequest) (s : State), s.frozenFull = false → s.deep.ports[p] = some q →
    Completes (.urgencyRise p) s (fun t => t.deep.ports[p].map DsRequest.urgency =
      some (max q.urgency (urgencyAt p (s.now - q.entered))) ∧ t.deep.chans = s.deep.chans)) ∧
  (∀ (barge : BitVec 28) (again : Bool) (s : State), s.frozenFull = false → 4096 * barge.toNat < s.deep.top →
    Completes (.dsParityError barge again) s (fun t => t.events.ds.getLsbD 1 = true ∧ t.dsMem = s.dsMem)) ∧
  (∀ (c : Fin 8) (bad : List (BitVec 28)) (m : Migration) (s : State), s.frozenFull = false →
    s.deep.migrations.find? (fun m => m.chan == c) = some m →
    Completes (.migrationDone c bad) s (fun t => t.deep.chans[c].slots[m.slot] = m.spare ∧ t.deep.chans[c].spare = none ∧
      t.events.ds.getLsbD 3 = true ∧ t.dsMem = s.dsMem)) ∧
  (∀ (g : GroupResult) (a : Nat) (s : State), s.objBool 0x5401 3 = true → s.isOn = true → s.deep.changing = false →
    s.deep.scrubNext = some a → s.deep.paused = false →
    Completes (.patrolScrubRead g) s (fun t => t.deep.scrub = (a + 1024) % s.deep.top ∧ t.dsMem = s.dsMem))

/-- DS_RAS past its guard (R276): RETIRE takes a rank out at once; SPARE_EN and CLEAR wait for the next start-up. A coasting channel goes
to self-refresh (R284). Requested and background tests (R299, R302): a preserving test leaves both basins as they were. Where the spec
leaves a choice or a reading, the model's is that of assumptions 54 and 55. -/
def Obligations.RasWritesAndMemoryTestsComplete : Prop :=
  (∀ (c : Fin 8) (r : Fin 4) (g : GuardForm) (s : State), s.admits (rasWord c r true s.deep.spareNext false) g = true →
    r.val < s.deep.chans[c].ranks → s.deep.chans[c].out.getLsbD r.val = false →
    Completes (.rankRetire c r g) s (fun t => t.deep.chans[c].out = s.deep.chans[c].out ||| BitVec.ofNat 4 (2 ^ r.val) ∧
      (c, r) ∈ t.deep.retired ∧ t.events.ds.getLsbD 2 = true ∧ t.dsMem = s.dsMem)) ∧
  (∀ (on : Bool) (g : GuardForm) (s : State), s.admits (rasWord s.deep.rasChan s.deep.rasRank false on false) g = true →
    Completes (.spareEnable on g) s (fun t => t.deep.spareNext = on ∧ t.deep.sparing = s.deep.sparing ∧ t.deep.chans = s.deep.chans)) ∧
  (∀ (g : GuardForm) (s : State), s.admits (rasWord s.deep.rasChan s.deep.rasRank false s.deep.spareNext true) g = true →
    Completes (.retiredListClear g) s (fun t => t.deep.clearNext = true ∧ t.deep.retired = s.deep.retired ∧ t.deep.chans = s.deep.chans)) ∧
  (∀ (c : Fin 8) (s : State), s.clocks.plls[4 + c.val].state = .coast → s.clocks.plls[4 + c.val].coastAt + ms 1 ≤ s.now →
    s.deep.chans[c].state = .inService →
    Completes (.mpllCoastSelfRefresh c) s (fun t => t.deep.chans[c].state = .selfRefresh ∧ t.dsMem = s.dsMem ∧ t.clocks = s.clocks)) ∧
  (∀ (v : Byte) (via : Source) (s : State), s.serves via = true → s.testOk (s.objNat 0x5801 1)
      (if s.objNat 0x5801 1 = 2 ∨ s.objNat 0x5801 1 = 3 then false else if 4 ≤ s.objNat 0x5801 1 then true else s.objBool 0x5801 3) = true →
    Completes (.marchTestCommand v via) s (fun t => t.chip.testStatus = 1 ∧ t.chip.test.map March.target = some (s.objNat 0x5801 1) ∧
      t.basin = s.basin)) ∧
  (∀ (faults : List MarchFault) (m : March) (s : State), s.chip.test = some m → s.frozen = false →
    m.since + m.time (s.testBanks m) ≤ s.now →
    Completes (.marchTestDone faults) s (fun t => t.chip.test = none ∧ t.chip.testStatus = 2 ∧ t.dsMem = s.dsMem ∧
      (m.preserving = true → t.basin = s.basin))) ∧
  (∀ (faults : List MarchFault) (s : State), s.backgroundRuns = true → s.chip.touched = false →
    s.chip.stepAt + us (s.objNat 0x5820 4) ≤ s.now →
    Completes (.backgroundTestStep faults) s (fun t => t.chip.block = (s.chip.block + 1) % blockCount ∧ t.chip.aborts = 0 ∧ SameMem t s)) ∧
  (∀ (s : State), s.power.hkcUp = true →
    Completes .scratchpadUe s (fun t => t.power.hkcUp = false ∧ t.power.ready = false ∧ t.dsMem = s.dsMem ∧
      ∀ d : Die, t.dies[d].convoy = s.dies[d].convoy ∧ (s.dies[d].isOpen = true → t.dies[d].state = s.dies[d].state)))

/-- The BAR2 window (R286, R325, R342): a read of a reachable address answers its bytes and leaves the deep store alone; the base switches
for later commands. Where the spec leaves a choice or a reading, the model's is that of assumptions 11 and 56. -/
def Obligations.WindowReadsComplete : Prop :=
  (∀ (off : BitVec 36) (len : BitVec 13) (s : State), (Instr.windowRead off len).wf = true → s.pcie.answers = true →
    s.windowAddr off.toNat < s.deep.top → s.deep.reachable (s.windowAddr off.toNat) = true →
    Completes (.windowRead off len) s (fun t =>
      t.out = s.out ++ [.completion (memReadBlock s.dsMem (s.windowAddr off.toNat) len.toNat)] ∧ SameMem t s)) ∧
  (∀ (off : BitVec 36) (len : BitVec 13) (s : State), (Instr.windowRead off len).wf = true → s.pcie.answers = true →
    s.windowAddr off.toNat < s.deep.top → s.deep.reachable (s.windowAddr off.toNat) = false →
    Completes (.windowRead off len) s (fun t => t.out.getLast? = some (.completion (List.replicate len.toNat 0xFF)) ∧
      t.events.ds.getLsbD 7 = true ∧ SameMem t s)) ∧
  (∀ (v : Dword) (s : State), s.quiet = true →
    Completes (.windowBaseWrite v) s (fun t => t.pcie.hwinBase = v.toNat % 1024 ∧ SameMem t s))

/-- A window write of a reachable address stores exactly the bytes of its whole dwords, at the window's address, and no other byte of any
memory changes (R325, R342). Where the spec leaves a choice or a reading, the model's is that of assumptions 11 and 56. -/
def Obligations.WindowWriteStores : Prop :=
  ∀ (off : BitVec 36) (bytes : List (Option Byte)) (s : State), MemInv s → (Instr.windowWrite off bytes).wf = true →
    s.pcie.answers = true → s.windowAddr off.toNat < s.deep.top → s.deep.reachable (s.windowAddr off.toNat) = true →
    Completes (.windowWrite off bytes) s (fun t => t.basin = s.basin ∧ t.ram = s.ram ∧
      ∀ x : Nat, memRead t.dsMem x = (storedAt (s.windowAddr off.toNat) bytes x).getD (memRead s.dsMem x))

/-! ### On-chip memories (chapter 14) -/

/-- The host port of the descriptor RAM (R293, R295): outside the mailbox's request word, a write stores exactly the bytes of its whole
dwords below the HKC area; a read answers zeros in that area and changes no byte. Where the HKC port writes a dword in the same cycle, a
read answers what stood there before, and a write of other data wins and is counted (R294). Where the spec leaves a choice or a reading,
the model's is that of assumptions 11, 68 and 92. -/
def Obligations.DescriptorRamCompletes : Prop :=
  (∀ (off : BitVec 16) (w : RamBytes) (s : State), MemInv s → (Instr.descriptorRamHostWrite off w).wf = true →
    s.pcie.answers = true → 4 ≤ off.toNat →
    Completes (.descriptorRamHostWrite off w) s (fun t => t.dsMem = s.dsMem ∧ t.basin = s.basin ∧ t.dies = s.dies ∧
      (∀ x : Nat, x < 0xC000 → memRead t.ram x = (storedAt off.toNat w.bytes x).getD (memRead s.ram x)) ∧
      ∀ x : Nat, 0xC000 ≤ x → memRead t.ram x = memRead s.ram x)) ∧
  (∀ (off : BitVec 16) (w : RamBytes) (s : State), (Instr.descriptorRamHostWrite off w).wf = true → s.pcie.answers = true →
    Completes (.descriptorRamHostWrite off w) s (fun t => t.dsMem = s.dsMem ∧ t.basin = s.basin ∧ t.dies = s.dies)) ∧
  (∀ (off : BitVec 16) (len : BitVec 13) (met : RamMeets) (s : State), (Instr.descriptorRamHostRead off len met).wf = true →
    s.pcie.answers = true →
    Completes (.descriptorRamHostRead off len met) s (fun t => SameMem t s ∧
      t.out.getLast? = some (.completion (s.ramReadWith met.clash off.toNat len.toNat)))) ∧
  (∀ (off : BitVec 16) (len : BitVec 13) (met : RamMeets) (s : State), (Instr.descriptorRamHostRead off len met).wf = true →
    s.pcie.answers = true → met.clash = [] →
    Completes (.descriptorRamHostRead off len met) s (fun t => t.out.getLast? = some (.completion
      ((List.range len.toNat).map (fun i => if 0xC000 ≤ off.toNat + i then 0 else memRead s.ram (off.toNat + i)))))) ∧
  (∀ (off : BitVec 16) (a b c d : Byte) (old : Nat) (s : State), MemInv s → s.quiet = true → 4 ≤ off.toNat → off.toNat < 0xC000 → off.toNat % 4 = 0 →
    s.chip.portAt = s.now → s.chip.port.find? (fun x => decide (x.1 = off.toNat)) = some (off.toNat, old) →
    (d ++ c ++ b ++ a : Dword).toNat ≠ s.ramWord off.toNat →
    Completes (.descriptorRamHostWrite off { bytes := [some a, some b, some c, some d], clash := [off.toNat], flaws := [] }) s (fun t =>
      t.ramWord off.toNat = (d ++ c ++ b ++ a : Dword).toNat ∧ t.objNat 0x5830 1 = (s.bump 0x5830 1).objNat 0x5830 1))

/-! ### Clocks (chapter 15) -/

/-- Losses of the reference and of lock (R312): a locked PLL coasts; the sample PLL of a die with no user left stops (R16). Where the spec
leaves a choice or a reading, the model's is that of assumptions 26 and 28. -/
def Obligations.CoastsComplete : Prop :=
  (∀ (s : State),
    Completes .referenceLoss s (fun t => t.events.clk.getLsbD 16 = true ∧ ∀ i : Fin 13, i.val ≠ 12 → s.clocks.plls[i].state = .locked →
      t.clocks.plls[i].state = .coast ∨ (i.val ≤ 1 ∧ t.clocks.plls[i].state = .off))) ∧
  (∀ (i : Fin 13) (s : State), i.val ≠ 12 → s.clocks.plls[i].state = .locked → s.clocks.plls[i].closed = none →
    Completes (.lockLoss i) s (fun t => t.events.clk.getLsbD i.val = true ∧
      (t.clocks.plls[i].state = .coast ∨ (i.val ≤ 1 ∧ t.clocks.plls[i].state = .off)) ∧
      ∀ j : Fin 13, j ≠ i → t.clocks.plls[j] = s.clocks.plls[j])) ∧
  (∀ (i : Fin 13) (estimate : Int) (s : State), s.power.hkcUp = true → s.clocks.plls[i].state = .coast → i.val ≠ 2 → i.val ≠ 12 →
    Completes (.coastEstimate i estimate) s (fun t => t.clocks.plls[i].estimate = clampInt (-1000000) 1000000 estimate ∧
      t.clocks.plls[i].estimateAt = s.now ∧ (estimate.natAbs ≤ 10000 → t.dies = s.dies))) ∧
  (∀ (i : Fin 13) (d : Die) (s : State), s.clocks.plls[i].state = .coast → s.clocks.plls[i].estimateAt + ms 10 ≤ s.now → d ∈ sealDies i →
    s.dies[d].isOpen = true → s.dies[d].convoy.storing = true →
    Completes (.coastEstimateTimeout i) s (fun t => t.events.clk.getLsbD 18 = true ∧ t.dies[d].convoy.endCause = .clockFault ∧
      t.dies[d].convoy.storing = false)) ∧
  (∀ (d : Die) (s : State), s.clocks.plls[spll d].state = .coast → s.dies[d].isOpen = true → s.dies[d].convoy.storing = true →
    Completes (.elasticBufferSeal d) s (fun t => t.events.clk.getLsbD 18 = true ∧ t.dies[d].convoy.endCause = .clockFault))

/-- Re-entry, lock confirmation, band searches and spread (R309 to R311, R314, R315). Where the spec leaves a choice or a reading, the
model's is that of assumptions 26, 27 and 28. -/
def Obligations.ReentryCompletes : Prop :=
  (∀ (i : Fin 13) (residual : Int) (s : State), s.clocks.plls[i].state = .coast → s.clocks.plls[i].loss = false →
    s.clocks.plls[i].wanted = none → s.clocks.plls[i].attempts < 3 →
    Completes (.reentry i residual) s (fun t => t.clocks.plls[i].state = .locked ∧ t.clocks.plls[i].closed = some s.now ∧
      t.clocks.plls[i].residual = clampInt (-3276800) 3276800 residual ∧ t.events.clk.getLsbD 17 = true)) ∧
  (∀ (i : Fin 13) (residual : Int) (s : State), s.clocks.plls[i].state = .coast → s.clocks.plls[i].loss = true →
    s.clocks.plls[i].noRef = false → s.clocks.plls[i].attempts < 3 → s.clocks.plls[i].coastAt + us 10 ≤ s.now →
    s.clocks.plls[i].wanted = none →
    Completes (.reentryAttempt i residual) s (fun t => t.clocks.plls[i].state = .locked ∧ t.clocks.plls[i].closed = some s.now)) ∧
  (∀ (i : Fin 13) (s : State), s.clocks.plls[i].closed.isSome = true →
    Completes (.lockConfirmed i true) s (fun t => t.clocks.plls[i].closed = none ∧ t.clocks.plls[i].attempts = 0 ∧
      t.clocks.plls[i].state = s.clocks.plls[i].state)) ∧
  (∀ (i : Fin 13) (s : State), s.clocks.plls[i].closed.isSome = true →
    Completes (.lockConfirmed i false) s (fun t => t.clocks.plls[i].closed = none ∧ t.clocks.plls[i].attempts = s.clocks.plls[i].attempts + 1 ∧
      t.clocks.plls[i].state = .coast)) ∧
  (∀ (i : Fin 13) (band : BitVec 6) (tuning : BitVec 12) (s : State), i.val ≠ 12 → s.clocks.plls[i].state = .search →
    s.clocks.plls[i].noRef = false → s.clocks.plls[i].back = none → s.clocks.plls[i].wanted = none →
    Completes (.bandSearchDone i band tuning) s (fun t => t.clocks.plls[i].state = .locked ∧ t.clocks.plls[i].band = band.toNat ∧
      t.clocks.plls[i].vtune = tuning.toNat ∧ t.events.clk.getLsbD 19 = true)) ∧
  (∀ (mask : BitVec 16) (via : Source) (s : State), s.serves via = true →
    Completes (.bandRevalidate mask via) s (fun t => ∀ i : Fin 13, t.clocks.plls[i].state =
      if i.val ≠ 12 ∧ mask.getLsbD i.val = true ∧ s.revalFree i = true then .search else s.clocks.plls[i].state)) ∧
  (∀ (v : Byte) (via : Source) (s : State), s.serves via = true → v.toNat ≤ 2 → s.clocks.plls[(2 : Fin 13)].state ≠ .coast →
    Completes (.spreadChange v via) s (fun t => t.clocks.spread = v.toNat ∧ t.clocks.spreadNext = none ∧ t.clocks.plls = s.clocks.plls))

/-! ### The PCI Express endpoint (chapter 16) -/

/-- Channel control (R327, R332): a started channel takes its ring's registers; a stopped or aborted one has no job. Where the spec leaves
a choice or a reading, the model's is that of assumptions 57 and 59. -/
def Obligations.DmaControlCompletes : Prop :=
  (∀ (k : Fin 8) (s : State), s.quiet = true → s.pcie.dma[k].run = false →
    Completes (.dmaRun k) s (fun t => t.pcie.dma[k].run = true ∧ t.pcie.dma[k].ringLog2 = s.pcie.dma[k].size ∧
      t.pcie.dma[k].ringStaged = s.pcie.dma[k].staged ∧
      t.pcie.dma[k].ringBase = s.pcie.dma[k].baseHi.toNat * 2 ^ 32 + s.pcie.dma[k].baseLo.toNat)) ∧
  (∀ (k : Fin 8) (s : State), s.quiet = true →
    Completes (.dmaStop k) s (fun t => t.pcie.dma[k].run = false ∧ t.pcie.dma[k].job = none ∧ t.dsMem = s.dsMem ∧ t.basin = s.basin ∧
      ∀ j : Fin 8, j ≠ k → t.pcie.dma[j] = s.pcie.dma[j])) ∧
  (∀ (k : Fin 8) (s : State), s.quiet = true → s.pcie.dma[k].busy = true →
    Completes (.dmaAbort k) s (fun t => t.pcie.dma[k].job = none ∧ t.pcie.dma[k].halted = true ∧ t.pcie.dma[k].lastErr = 7 ∧
      t.events.chan[k].getLsbD 7 = true ∧ t.pcie.dma[k].run = s.pcie.dma[k].run ∧ t.dsMem = s.dsMem)) ∧
  (∀ (k : Fin 8) (s : State), s.quiet = true → s.pcie.cfg.bme = true →
    Completes (.dmaResume k) s (fun t => t.pcie.dma[k].halted = false ∧ t.pcie.dma[k].run = s.pcie.dma[k].run)) ∧
  (∀ (k : Fin 8) (i : BitVec 16) (s : State), s.quiet = true →
    Completes (.dmaProducerWrite k i) s (fun t => t.pcie.dma[k].prod = i.toNat ∧ t.pcie.dma[k].run = s.pcie.dma[k].run))

/-- Jobs and completions (R326, R330, R338, R339): a finished job moves CONS on; a job to the host writes its data there; received data
goes to its place in the deep store; a retired tag's completion is dropped. Where the spec leaves a choice or a reading, the model's is
that of assumption 57. -/
def Obligations.DmaJobsComplete : Prop :=
  (∀ (k : Fin 8) (j : DmaJob) (v : Nat) (s : State), s.pcie.dma[k].job = some j → j.verdict = some v →
    Completes (.dmaJobComplete k) s (fun t => t.pcie.dma[k].cons = (s.pcie.dma[k].cons + 1) % s.pcie.dma[k].entries ∧
      t.pcie.dma[k].lastErr = (if v = 1 then s.pcie.dma[k].lastErr else v) ∧ t.dsMem = s.dsMem ∧ t.basin = s.basin)) ∧
  (∀ (k : Fin 8) (j : DmaJob) (s : State), s.pcie.dma[k].job = some j → j.verdict = none → j.desc.op ≠ 1 →
    (s.usesDeep j.desc = true → s.deep.ready = true) → s.pcie.mayIssue = true → (s.jobData j.desc).1 ≠ [] →
    Completes (.dmaJobComplete k) s (fun t => t.pcie.dma[k].cons = (s.pcie.dma[k].cons + 1) % s.pcie.dma[k].entries ∧
      t.dsMem = s.dsMem ∧ t.basin = s.basin ∧ ∃ rest, t.out = s.out ++ hostWrites s.pcie.payload s.pcie.cfg.relaxed
        (s.jobData j.desc).1.length j.desc.haddr (s.jobData j.desc).1 ++ rest)) ∧
  (∀ (tag : BitVec 10) (data : List Byte) (e : TagEntry) (a : Nat) (s : State), mget tag.toNat s.pcie.retired = none →
    s.pcie.tags.find? (fun e => e.tag == tag.toNat) = some e → e.use = .data a → s.deep.rangeOk a e.len = true →
    Completes (.pcieCompletionReceive tag .ok data) s (fun t => t.dsMem = memWriteBlock s.dsMem a (fitBytes e.len data) ∧
      t.basin = s.basin)) ∧
  (∀ (tag : BitVec 10) (st : CplStatus) (data : List Byte) (s : State), (mget tag.toNat s.pcie.retired).isSome = true →
    Completes (.pcieCompletionReceive tag st data) s (fun t => t.events.hdma.getLsbD 27 = true ∧ SameMem t s)) ∧
  (∀ (tag : BitVec 10) (e : TagEntry) (s : State), s.pcie.tags.find? (fun e => e.tag == tag.toNat) = some e →
    s.pcie.cfg.cplTimeoutDisable = false → s.pcie.resetWait = none →
    Completes (.completionTimeout tag) s (fun t => (∀ x ∈ t.pcie.tags, x.tag ≠ tag.toNat) ∧ t.dsMem = s.dsMem)) ∧
  (∀ (tag : BitVec 10) (at_ : Nat) (s : State), mget tag.toNat s.pcie.retired = some at_ → at_ ≤ s.now →
    Completes (.retiredTagExpiry tag) s (fun t => t.pcie.retired = mdel tag.toNat s.pcie.retired ∧ t.dsMem = s.dsMem))

/-- Bus mastering, D-states, MSI-X and PME (R334 to R336, R338). Where the spec leaves a choice or a reading, the model's is that of
assumptions 11 and 58. -/
def Obligations.FunctionStatesComplete : Prop :=
  (∀ (s : State), s.pcie.cfgOpen = true → s.pcie.cfg.bme = true →
    Completes .busMasterDisable s (fun t => t.pcie.cfg.bme = false ∧ (∀ k : Fin 8, t.pcie.dma[k].job = none) ∧ t.dsMem = s.dsMem)) ∧
  (∀ (s : State), s.pcie.cfgOpen = true → s.pcie.cfg.bme = false →
    Completes .busMasterEnable s (fun t => t.pcie.cfg.bme = true ∧ t.dsMem = s.dsMem ∧ t.basin = s.basin)) ∧
  (∀ (s : State), s.pcie.cfgOpen = true → s.pcie.dstate = .d0 →
    Completes .d3hotEntry s (fun t => t.pcie.dstate = .d3hot ∧ t.pcie.cfg = s.pcie.cfg ∧
      ∀ k : Fin 8, t.pcie.dma[k].job = none ∧ (s.pcie.dma[k].run = true → t.pcie.dma[k].halted = true))) ∧
  (∀ (s : State), s.pcie.cfgOpen = true → s.pcie.dstate = .d3hot →
    Completes .d0Return s (fun t => t.pcie.dstate = .d0 ∧ t.pcie.cfg = s.pcie.cfg ∧ t.pcie.dma = s.pcie.dma)) ∧
  (∀ (v : Fin 64) (s : State), s.pcie.answers = true →
    Completes (.msixUnmask (.vector v)) s (fun t => t.pcie.msix.mask = s.pcie.msix.mask &&& ~~~(BitVec.ofNat 64 (2 ^ v.val)) ∧
      t.pcie.msix.enable = s.pcie.msix.enable)) ∧
  (∀ (s : State), s.pcie.cfgOpen = true →
    Completes (.msixUnmask .function) s (fun t => t.pcie.msix.funcMask = false ∧ t.pcie.msix.mask = s.pcie.msix.mask)) ∧
  (∀ (s : State), s.pcie.cfgOpen = true →
    Completes (.msixUnmask .enable) s (fun t => t.pcie.msix.enable = true ∧ t.pcie.msix.mask = s.pcie.msix.mask)) ∧
  (∀ (s : State), s.pcie.cfgOpen = true →
    Completes .pmeStatusClear s (fun t => t.pcie.pmeStatus = false ∧ t.pcie.wakeLow = false ∧ t.power = s.power))

/-- Resets of the function, the link, and configuration writes (R321 to R324, R337, R339 to R341). Where the spec leaves a choice or a
reading, the model's is that of assumption 58. -/
def Obligations.FunctionResetsComplete : Prop :=
  (∀ (s : State), s.pcie.cfgOpen = true →
    Completes .functionLevelReset s (fun t => t.pcie.resetWait = some (true, s.now + ms 10) ∧ (∀ k : Fin 8, t.pcie.dma[k].job = none) ∧
      t.dies = s.dies ∧ t.dsMem = s.dsMem)) ∧
  (∀ (s : State), s.pcie.cfgOpen = true →
    Completes .hotReset s (fun t => t.pcie.resetWait = some (false, s.now + ms 10) ∧ t.pcie.linkUp = false ∧ t.dies = s.dies)) ∧
  (∀ (s : State), s.resetDue = true →
    Completes .flrWaitEnd s (fun t => t.pcie.resetWait = none ∧ t.pcie.cfg = s.pcie.cfg.cleared ∧ t.pcie.tags = [] ∧
      t.pcie.msix = Msix.reset ∧ t.guard.unlocked = none ∧ t.dies = s.dies ∧ t.tb = s.tb ∧ t.dsMem = s.dsMem)) ∧
  (∀ (ltssm : Byte) (s : State), s.pcie.linkUp = true →
    Completes (.pcieLinkLoss ltssm) s (fun t => t.pcie.linkUp = false ∧ t.pcie.tags = [] ∧ t.pcie.cfg = s.pcie.cfg.cleared ∧
      t.dies = s.dies ∧ t.dsMem = s.dsMem)) ∧
  (∀ (rate : Fin 6) (width : BitVec 5) (s : State), s.linkMayTrain = true → s.pcie.linkUp = false → rate ≠ 0 →
    width.toNat ∈ [1, 2, 4, 8, 16] →
    Completes (.pcieLinkUp rate width) s (fun t => t.pcie.linkUp = true ∧ t.pcie.rate = rate.val ∧ t.pcie.width = width.toNat ∧
      t.pcie.cfg = s.pcie.cfg)) ∧
  (∀ (off : BitVec 12) (value : Dword) (be : BitVec 4) (s : State), (Instr.configurationWrite off value be).wf = true →
    s.pcie.cfgOpen = true →
    Completes (.configurationWrite off value be) s (fun t => t.dies = s.dies ∧ t.dsMem = s.dsMem ∧ t.basin = s.basin ∧ t.tb = s.tb)) ∧
  (∀ (value : Dword) (s : State), s.pcie.cfgOpen = true →
    Completes (.configurationWrite 4 value 0xF) s (fun t => t.pcie.cfg.memEnable = value.getLsbD 1 ∧ t.pcie.cfg.bme = value.getLsbD 2 ∧
      t.pcie.cfg.serr = value.getLsbD 8 ∧ t.pcie.cfg.bar0 = s.pcie.cfg.bar0))

/-! ### The dictionary service (chapter 17) -/

/-- Requests arrive (R355, R365): MB_REQ raises the mailbox's request; a datagram joins its port's queue, and a malformed one is counted.
Keys, notifications and leases (R360, R361, R363). Where the spec leaves a choice or a reading, the model's is that of assumptions 61 and
62. -/
def Obligations.RequestsAndNotificationsComplete : Prop :=
  (∀ (seq : BitVec 16) (s : State), MemInv s → s.pcie.answers = true → s.dict.serving.isSome = true → s.mbRsp ≠ seq.toNat →
    (s.ramWord 4).testBit 16 = false →
    Completes (.mailboxSubmit seq) s (fun t => t.dict.mailbox = true ∧ t.ramWord 0 = seq.toNat ∧ t.dsMem = s.dsMem ∧ t.basin = s.basin)) ∧
  (∀ (p : Fin 2) (dg : Datagram) (s : State), s.ethHears p = true → (s.objNat (0x4400 + p.val) 0x0A).testBit 0 = true →
    s.hasAddr p (decide (dg.srcAddr.length = 16)) = true → s.frameFits p dg.vlan.toNat (packetLength dg) = true →
    dg.fragment = false → s.power.hkcUp = true → frameOk dg.payload = true → frameBack dg.payload = false →
    s.mustAuth p dg.payload = false → s.dict.stored[p] = [] → s.dict.ethQueue[p].length < 8 → s.dict.serving.isSome = true →
    Completes (.odpDatagramReceive p dg) s (fun t => t.dict.ethQueue[p].length = s.dict.ethQueue[p].length + 1 ∧
      (t.dict.ethQueue[p].getLast?).map Request.srcAddr = some dg.srcAddr ∧ t.out = s.out)) ∧
  (∀ (p : Fin 2) (dg : Datagram) (s : State), s.ethHears p = true → (s.objNat (0x4400 + p.val) 0x0A).testBit 0 = true →
    s.hasAddr p (decide (dg.srcAddr.length = 16)) = true → s.frameFits p dg.vlan.toNat (packetLength dg) = true →
    dg.fragment = false → s.power.hkcUp = true → frameOk dg.payload = false →
    exec (.odpDatagramReceive p dg) s = .next ((s.countFrame p).bump 0x1120 2)) ∧
  (∀ (n : Fin 4) (key : List Byte) (s : State), s.power.hkcUp = true →
    Completes (.keyWrite n key .mailbox) s (fun t => t.mram.keys[n] = some (fitBytes 32 key) ∧ t.mram.sendSeq[n] = 0 ∧
      (∀ m : Fin 4, m ≠ n → t.mram.keys[m] = s.mram.keys[m]) ∧ ∀ x ∈ t.dict.replays, x.key ≠ n)) ∧
  (∀ (i : Fin 64) (x : Subscription) (s : State), s.dict.subs[i.val]? = some x → s.power.hkcUp = true → s.changed x = true →
    s.intervalOver x = true →
    Completes (.notify i) s (fun t => (t.dict.subs[i.val]?).map Subscription.lastSent = some (some s.now) ∧
      (t.dict.subs[i.val]?).map Subscription.lastVal = some (s.readObj x.index x.sub))) ∧
  (∀ (i : Fin 64) (x : Subscription) (s : State), s.dict.subs[i.val]? = some x → s.power.hkcUp = true → hasLease x.path = true →
    x.renewed + ms (s.objNat 0x1100 3) ≤ s.now →
    Completes (.subscriptionLapse i) s (fun t => t.dict.subs = s.dict.subs.eraseIdx i.val ∧ t.objs = s.objs))

/-- Reads and subscriptions in service (R354, R358, R360): the response goes back to the requester, and a subscription's lease begins.
Writes in service (R347, R350, R354): a servo setting (object 4420) takes an allowed value that is not its default, by WRITE and by
WRITE_BLOCK; an unlisted object changes nothing of the units. Where the spec leaves a choice or a reading, the model's is that of
assumptions 61 and 62. -/
def Obligations.OdpAccessesComplete : Prop :=
  (∀ (p : Fin 2) (r : Request) (items : List Item) (s : State), s.inService 1 = some (r, items) → r.path = (if p = 0 then .eth0 else .eth1) →
    r.key = none → s.net.ports[p].linkUp = true →
    Completes .odpRead s (fun t => t.dies = s.dies ∧ t.tb = s.tb ∧ t.dsMem = s.dsMem ∧ ∃ w rest, t.out = s.out ++
      .udp p w (backFrame 1 (firstStatus (items.map s.readItem)) (frameTag r.frame) items.length
        ((items.map s.readItem).flatMap odpItem)) :: rest ∧
      w.dest = r.srcAddr ∧ w.srcPort = 48620 ∧ w.destPort = r.srcPort ∧ w.vlan = s.vlanOf p)) ∧
  (∀ (p : Fin 2) (r : Request) (i : Item) (s : State), s.inService 3 = some (r, [i]) → r.path = (if p = 0 then .eth0 else .eth1) →
    r.key = none → s.net.ports[p].linkUp = true →
    Completes .odpReadBlock s (fun t => t.dies = s.dies ∧ t.tb = s.tb ∧ t.dsMem = s.dsMem ∧ ∃ w rest, t.out = s.out ++
      .udp p w (backFrame 3 (firstStatus (s.readBlock i)) (frameTag r.frame) (s.readBlock i).length
        ((s.readBlock i).flatMap odpItem)) :: rest ∧
      w.dest = r.srcAddr ∧ w.srcPort = 48620 ∧ w.destPort = r.srcPort ∧ w.vlan = s.vlanOf p)) ∧
  (∀ (r : Request) (i : Item) (row : ObjRow) (s : State), s.inService 5 = some (r, [i]) → s.objectAt i.index i.sub = some row → row.acc ≠ .wo →
    i.value.length = 4 → (leNat i.value).testBit 31 = false → s.dict.subs.length < 64 →
    Completes .odpSubscribe s (fun t => t.dies = s.dies ∧ ∃ x ∈ t.dict.subs, x.path = r.path ∧ x.index = i.index ∧ x.sub = i.sub ∧
      x.srcAddr = r.srcAddr ∧ x.renewed = s.now)) ∧
  (∀ (r : Request) (i : Item) (row : ObjRow) (v : Val) (s : State), s.inService 2 = some (r, [i]) → s.objectAt i.index i.sub = some row →
    i.index = 0x4420 → row.acc = .rw → i.typ = row.typ.code → lengthOk row.typ i.value.length = true →
    clampVal s.variant row (readVal row.typ i.value) = (v, none) → v ≠ objDefault i.index i.sub →
    Completes .odpWrite s (fun t => storeGet t.objs i.index i.sub = v ∧ t.dies = s.dies ∧ t.dsMem = s.dsMem)) ∧
  (∀ (r : Request) (i : Item) (row : ObjRow) (v : Val) (s : State), s.inService 4 = some (r, [i]) → s.objectAt i.index i.sub = some row →
    i.index = 0x4420 → row.acc = .rw → i.typ = row.typ.code → lengthOk row.typ i.value.length = true →
    clampVal s.variant row (readVal row.typ i.value) = (v, none) → v ≠ objDefault i.index i.sub →
    Completes .odpWriteBlock s (fun t => storeGet t.objs i.index i.sub = v ∧ t.dies = s.dies ∧ t.dsMem = s.dsMem)) ∧
  (∀ (r : Request) (i : Item) (s : State), s.inService 2 = some (r, [i]) → s.objectAt i.index i.sub = none →
    Completes .odpWrite s (fun t => t.dies = s.dies ∧ t.gens = s.gens ∧ t.tb = s.tb ∧ t.pins = s.pins ∧ t.dsMem = s.dsMem))

/-! ### Registers and the guard (chapter 18) -/

/-- BAR0 writes (R371, R373): a whole dword reaches its register, here GBL_SCRATCH and TB_INC_LO; a dword that is not whole is dropped and
counted. The guard (R377 to R380): the key opens the lock for 1 ms and another value closes it; the time runs out; the right complement
applies the pending value, a wrong one fails; the mode is selected once. Where the spec leaves a choice or a reading, the model's is that
of assumptions 13 and 68. -/
def Obligations.RegistersAndGuardComplete : Prop :=
  (∀ (a b c d : Byte) (s : State), s.quiet = true →
    Completes (.registerWrite 0x14 [some a, some b, some c, some d]) s (fun t => t.host.scratch = (d ++ c ++ b ++ a : Dword) ∧
      t.objs = s.objs ∧ SameUnits t s ∧ SameMem t s)) ∧
  (∀ (a b c d : Byte) (s : State), s.quiet = true → s.tb.owner = .host →
    Completes (.registerWrite 0x10010 [some a, some b, some c, some d]) s (fun t => t.tb.incLo = some (d ++ c ++ b ++ a : Dword) ∧
      t.tb.inc = s.tb.inc ∧ t.tb.acc = s.tb.acc ∧ t.dies = s.dies ∧ SameMem t s)) ∧
  (∀ (off : BitVec 20) (bytes : List (Option Byte)) (s : State), off.toNat % 4 = 0 → bytes.length = 4 → none ∈ bytes →
    s.pcie.answers = true →
    Completes (.registerWrite off bytes) s (fun t => t.events.gbl.getLsbD 9 = true ∧ SameUnits t s ∧ SameMem t s ∧
      (t.host.accessErr.toNat % 65536 = (s.host.accessErr.toNat + 1) % 65536))) ∧
  (∀ (v : Dword) (s : State), s.quiet = true → s.guard.keyed = true → v.toNat % 65536 = 0x5EA1 →
    Completes (.guardUnlock v) s (fun t => t.guard.unlocked = some (s.now + ms 1) ∧ t.guard.fails = s.guard.fails ∧ SameUnits t s)) ∧
  (∀ (v : Dword) (s : State), s.quiet = true → s.guard.keyed = true → v.toNat % 65536 ≠ 0x5EA1 →
    Completes (.guardUnlock v) s (fun t => t.guard.unlocked = none ∧ t.guard.fails = s.guard.fails + 1 ∧ SameUnits t s)) ∧
  (∀ (at_ : Nat) (s : State), s.guard.unlocked = some at_ → at_ ≤ s.now →
    Completes .guardLockTimeout s (fun t => t.guard.unlocked = none ∧ t.events.grd.getLsbD 9 = true ∧ t.guard.fails = s.guard.fails)) ∧
  (∀ (reg : GuardedReg) (v : Dword) (s : State), s.hasReg reg = true → s.pcie.answers = true → s.guard.keyed = false →
    s.guard.pendingWrite = some (regOffset reg, ~~~v) →
    exec (.guardComplementWrite reg v) s =
      .next (regApply reg (~~~v) { s with guard := { s.guard with pendingWrite := none }.settle })) ∧
  (∀ (reg : GuardedReg) (v w : Dword) (s : State), s.hasReg reg = true → s.pcie.answers = true → s.guard.keyed = false →
    s.guard.pendingWrite = some (regOffset reg, w) → v ≠ ~~~w →
    Completes (.guardComplementWrite reg v) s (fun t => t.guard.pendingWrite = none ∧ t.guard.fails = s.guard.fails + 1 ∧
      t.events.grd.getLsbD 8 = true ∧ SameUnits t s)) ∧
  (∀ (reg : GuardedReg) (a b c d : Byte) (at_ : Nat) (s : State), s.hasReg reg = true → s.quiet = true → s.guard.keyed = true →
    s.guard.unlocked = some at_ → s.now ≤ at_ →
    exec (.registerWrite (BitVec.ofNat 20 (regOffset reg)) [some a, some b, some c, some d]) s =
      .next (regApply reg (d ++ c ++ b ++ a : Dword) { s with guard := { s.guard with unlocked := none }.settle })) ∧
  (∀ (reg : GuardedReg) (a b c d : Byte) (s : State), s.hasReg reg = true → s.quiet = true → s.guard.keyed = true →
    (∀ at_, s.guard.unlocked = some at_ → at_ < s.now) →
    Completes (.registerWrite (BitVec.ofNat 20 (regOffset reg)) [some a, some b, some c, some d]) s (fun t => t.guard.unlocked = none ∧
      t.guard.fails = s.guard.fails + 1 ∧ t.events.grd.getLsbD 8 = true ∧ SameUnits t s ∧ SameMem t s)) ∧
  (∀ (v : Dword) (via : Source) (s : State), s.reaches via = true → s.guard.selWritten = false → v.toNat ≤ 2 →
    Completes (.guardModeSelect v via) s (fun t => t.guard.sel = v.toNat ∧ t.guard.selWritten = true ∧ SameUnits t s))

/-! ### Power, reset and start-up (chapter 19) -/

/-- Accepted power requests begin their transitions (R391, R392): nothing that runs forbids them. Transitions end, idle domains go off,
and OFF keeps its wake detector (R336, R389, R391). Where the spec leaves a choice or a reading, the model's is that of assumptions 41, 69
and 80. -/
def Obligations.PowerCompletes : Prop :=
  (∀ (via : Source) (s : State), s.reaches via = true → s.power.phase = .none → s.power.everReady = true → s.power.transition = none →
    s.power.state = .on → s.powerBusy = false →
    Completes (.requestStandby via) s (fun t => t.power.transition = some { target := .standby, wake := 0, done := s.now + us 200, next := none } ∧
      t.power.state = .on) ∧
    Completes (.requestRetain via) s (fun t => t.power.transition = some { target := .retain, wake := 0, done := s.now + us 200, next := none } ∧
      t.power.state = .on) ∧
    Completes (.requestOff via) s (fun t => t.power.transition = some { target := .off, wake := 0, done := s.now + us 50, next := none } ∧
      t.power.state = .on)) ∧
  (∀ (via : Source) (s : State), s.reaches via = true → s.power.phase = .none → s.power.everReady = true → s.power.transition = none →
    s.power.state = .on → s.powerBusy = false → s.power.ready = true → s.watchOk = true →
    Completes (.requestWatch via) s (fun t => t.power.state = .on ∧ t.power.transition.map PTransition.target =
      (if ((((s.putNat 0x7000 1 3).abortTraining.breakCheck 0).breakCheck 1).clearPlans.watchPlans).2 then some .watch else none))) ∧
  (∀ (via : Source) (s : State), s.reaches via = true → s.power.phase = .none → s.power.everReady = true → s.power.transition = none →
    s.power.state ≠ .on → s.power.state ≠ .off →
    Completes (.requestOn via) s (fun t => t.power.transition.map PTransition.target = some .on ∧
      t.power.transition.map PTransition.wake = some 1 ∧ t.power.state = s.power.state)) ∧
  (∀ (via : Source) (s : State), s.reaches via = true → s.power.phase = .none → s.power.everReady = true → s.power.transition = none →
    s.power.state = .on → s.powerBusy = true →
    Completes (.requestStandby via) s (fun t => t.power = s.power ∧ t.events.pwr.getLsbD 1 = true)) ∧
  (∀ (m : PTransition) (s : State), s.power.transition = some m → s.moveReady m = true → m.next = none →
    Completes .powerTransitionDone s (fun t => t.power.state = m.target ∧ t.power.transition = none ∧
      (m.target = .on → t.power.wake = m.wake) ∧ t.dsMem = s.dsMem)) ∧
  (∀ (n : Fin 44) (at_ : Nat) (s : State), s.power.domains.getLsbD n.val = true → s.domainUsed n.val = some false →
    mget n.val s.power.idleSince = some at_ → at_ + ms 1 ≤ s.now →
    Completes (.domainIdleOff n) s (fun t => t.power.domains.getLsbD n.val = false ∧ t.dies = s.dies ∧
      ∀ j : Nat, j ≠ n.val → t.power.domains.getLsbD j = s.power.domains.getLsbD j)) ∧
  (∀ (rising : Bool) (s : State), s.power.state = .off → s.objBool 0x7002 1 = true → decide (s.objNat 0x7002 2 = 0) = rising →
    Completes (.offWakeEdge rising) s (fun t => t.power.offWoken = true ∧ t.pcie.pmeStatus = true ∧ t.power.state = .off))

/-- Losses of power and resets (R386, R387, R396, R397): what ends, and what they keep. Where the spec leaves a choice or a reading, the
model's is that of assumptions 42, 43 and 44. -/
def Obligations.ResetsComplete : Prop :=
  (∀ (rails : BitVec 16) (s : State), s.power.phase ≠ .powerOn → s.power.state ≠ .off →
    Completes (.powerFailWarning rails) s (fun t => t.power.state = .off ∧ t.power.hkcUp = false ∧ t.power.pfwOff = true ∧
      t.pins = Pins.reset ∧ t.tb = s.tb ∧ t.dsMem = s.dsMem ∧ t.health.ring = s.health.ring)) ∧
  (∀ (s : State),
    Completes .powerOnReset s (fun t => t.power.phase = .powerOn ∧ t.tb = TimeBase.reset ∧ t.dsMem = [] ∧ t.health.ring = s.health.ring ∧
      t.mram.keys = s.mram.keys ∧ t.mram.convoyId = s.mram.convoyId)) ∧
  (∀ (straps : Straps) (h : HistoryCheck) (s : State), s.power.phase = .powerOn → s.power.perstLow = false → s.power.sysrstLow = false →
    Completes (.powerOnResetRelease straps h) s (fun t => t.power.phase = .startup ∧ t.power.lastReset = 0 ∧
      t.mram.bootCount = s.mram.bootCount + 1 ∧ t.knots.pos = straps.nodeid ∧ t.power.ready = false)) ∧
  (∀ (pin : ResetPin) (s : State), s.power.phase = .none → s.power.state ≠ .off →
    Completes (.fundamentalResetAssert pin) s (fun t => t.power.phase = .fundamental ∧ t.power.phaseSince = s.now ∧
      t.power.ready = false ∧ t.power.lastReset = pinCode pin ∧ t.pins = Pins.reset ∧ t.tb = s.tb ∧ t.mram = s.mram ∧
      (∀ d : Die, t.gens[d].state = .stopped) ∧ ∀ g : Fin 64, t.gauges[g].state ≠ .running)) ∧
  (∀ (straps : Straps) (h : HistoryCheck) (s : State), s.power.phase = .fundamental → s.power.state ≠ .off →
    Completes (.fundamentalResetRelease straps h) s (fun t => t.power.phase = .startup ∧ t.power.perstLow = false ∧
      t.power.sysrstLow = false ∧ t.knots.pos = straps.nodeid)) ∧
  (∀ (straps : Straps) (h : HistoryCheck) (s : State), s.power.state = .off → s.power.phase = .none → s.power.perstLow = false →
    s.power.sysrstLow = false → s.health.tripped = false →
    Completes (.mainRailsReturn straps h) s (fun t => t.power.phase = .startup ∧ t.power.state = .on ∧
      t.power.lastReset = (if s.power.pfwOff then 4 else 3) ∧ t.tb = TimeBase.reset))

/-- Start-up ends in ON, and the HKC's own restart (R20, R399): READY is clear while it restarts. Where the spec leaves a choice or a
reading, the model's is that of assumptions 45 and 47. -/
def Obligations.StartsComplete : Prop :=
  (∀ (r : StartupReport) (s : State), s.power.phase = .startup →
    Completes (.startupComplete r) s (fun t => t.power.phase = .none ∧ t.power.state = .on ∧ t.power.hkcUp = true ∧
      t.power.ready = (!t.chip.unusable) ∧ t.events.pwr.getLsbD 4 = true)) ∧
  (∀ (s : State), s.power.hkcUp = true →
    Completes .hkcWatchdogExpiry s (fun t => t.power.hkcUp = false ∧ t.power.ready = false ∧ t.events.gbl.getLsbD 8 = true ∧
      t.dsMem = s.dsMem)) ∧
  (∀ (s : State), s.power.everReady = true → s.power.hkcUp = false → s.power.phase = .none → s.power.state ≠ .off → s.frozenFull = false →
    Completes .hkcRestartComplete s (fun t => t.power.hkcUp = true ∧ t.power.ready = (!s.chip.unusable) ∧ t.dies = s.dies ∧ t.tb = s.tb))

/-! ### Health, freeze and the black box (chapter 20) -/

/-- Sensor readings (R405, R408): below 110 °C nothing is sealed and power stands; at 120 °C the part goes to OFF. Freezes and thaws
(R409, R410): a freeze keeps its moment, and a thaw of what the register or the pin froze ends it. Where the spec leaves a choice or a
reading, the model's is that of assumptions 46 and 51. -/
def Obligations.SensorsAndFreezesComplete : Prop :=
  (∀ (readings : Vector Int 20) (s : State), s.power.phase ≠ .powerOn → s.power.state ≠ .off → (∀ i : Fin 20, readings[i] < 110000) →
    Completes (.sensorRead readings) s (fun t => t.health.sensors = readings ∧ t.power = s.power ∧ t.dies = s.dies)) ∧
  (∀ (readings : Vector Int 20) (i : Fin 20) (s : State), s.power.phase ≠ .powerOn → s.power.state ≠ .off → i.val < 12 →
    120000 ≤ readings[i] →
    Completes (.sensorRead readings) s (fun t => t.power.state = .off ∧ t.health.tripped = true ∧ t.pins = Pins.reset)) ∧
  (∀ (s : State), s.isOn = true → s.health.freezePinLow = false → s.health.freeze = none →
    Completes .freezePinLow s (fun t => t.health.freezePinLow = true ∧ t.health.freeze = some
      { full := decide (s.objNat 0x7420 1 = 1), byReg := false, timeword := s.time, epoch := s.tb.epoch, since := s.now } ∧ t.dies = s.dies)) ∧
  (∀ (f : Freeze) (s : State), s.health.freeze = some f → f.byReg = false → f.full = false →
    Completes .freezePinRelease s (fun t => t.health.freeze = none ∧ t.health.freezePinLow = false)) ∧
  (∀ (full : Bool) (g : GuardForm) (s : State), s.admits (dw (1 + 4 * b2n full)) g = true → s.isOn = true → s.health.freeze = none →
    Completes (.freezeRegister full g) s (fun t => t.health.freeze = some
      { full := full, byReg := true, timeword := s.time, epoch := s.tb.epoch, since := s.now } ∧ t.dies = s.dies)) ∧
  (∀ (f : Freeze) (g : GuardForm) (s : State), s.admits 2 g = true → s.health.freezePinLow = false → s.health.freeze = some f →
    f.byReg = true → f.full = false →
    Completes (.thawRegister g) s (fun t => t.health.freeze = none ∧ t.power = s.power))

/-- The black box (R413, R415): a host mark is queued with its category mask, and the head of the queue is committed under the next
sequence number. Instructions and registers of the TAP: reads shift their register out. Where the spec leaves a choice or a reading, the
model's is that of assumptions 48, 49 and 50. -/
def Obligations.BlackBoxAndJtagComplete : Prop :=
  (∀ (opt : BitVec 5) (g : GuardForm) (s : State), s.admits (dw (1 + 256 * opt.toNat)) g = true → s.health.queue.length < 64 →
    Completes (.hostMark opt g) s (fun t => t.health.opt = opt ∧ t.health.queue.length = s.health.queue.length + 1 ∧
      (t.health.queue.getLast?).map (fun q => q.entry.code) = some 0x400)) ∧
  (∀ (opt : BitVec 5) (g : GuardForm) (s : State), s.admits (dw (256 * opt.toNat)) g = true →
    Completes (.optionalCategoriesWrite opt g) s (fun t => t.health.opt = opt ∧ t.health.queue = s.health.queue)) ∧
  (∀ (q : BbQueued) (rest : List BbQueued) (s : State), s.health.queue = q :: rest → s.power.phase ≠ .powerOn →
    Completes .blackBoxCommit s (fun t => t.health.queue = rest ∧ t.health.nextSeq = s.health.nextSeq + 1 ∧
      mget s.health.nextRing t.health.ring = some (s.committed q) ∧ t.health.nextRing = (s.health.nextRing + 1) % 64512)) ∧
  (∀ (s : State), s.tapUp = true →
    Completes .jtagIdcode s (fun t => t.jtag.ir = .idcode ∧ t.out = s.out ++ [.jtag 32 (leBytes 4 s.idcode)]) ∧
    Completes .jtagSamplePreload s (fun t => t.jtag.ir = .sample ∧ t.out = s.out)) ∧
  (∀ (opcode : Byte) (s : State), s.tapUp = true → listedOpcode opcode.toNat = false →
    Completes (.jtagBypass opcode) s (fun t => t.jtag.ir = .bypass ∧ t.out = s.out)) ∧
  (∀ (seg : Byte) (s : State), s.tapUp = true →
    Completes (.frzSeg seg) s (fun t => t.jtag.ir = .frzSeg ∧ t.jtag.seg = seg.toNat ∧ t.out = s.out)) ∧
  (∀ (s : State), s.tapUp = true → s.health.freeze = none →
    Completes .frzRead s (fun t => t.out = s.out ++ [.jtag (segmentBits s.jtag.seg) (leBytes ((segmentBits s.jtag.seg + 7) / 8) 0)])) ∧
  (∀ (f : Freeze) (s : State), s.tapUp = true → s.health.freeze = some f →
    Completes .frzRead s (fun t => t.out = s.out ++
      [.jtag (segmentBits s.jtag.seg) (leBytes ((segmentBits s.jtag.seg + 7) / 8) (packBits (s.segment f s.jtag.seg)))])) ∧
  (∀ (index : BitVec 16) (s : State), s.tapUp = true →
    Completes (.bbAddr index) s (fun t => t.jtag.ir = .bbAddr ∧ t.jtag.bbIndex = index.toNat)) ∧
  (∀ (s : State), s.tapUp = true →
    Completes .bbRead s (fun t => t.out = s.out ++ [.jtag 512 (s.bbAt s.jtag.bbIndex)] ∧ t.jtag.ir = .bbRead))

/-! ### Rules of the spec, whole -/

/-- R431: EXTEST, EXTEST_PULSE, CLAMP and HIGHZ load only while a fundamental reset is asserted; at any other time BYPASS loads in their
place, and no pin changes; a release of that reset with EXTEST loaded loads BYPASS. -/
def Obligations.ScanOnlyInReset : Prop :=
  (∀ (s : State), s.power.phase = .fundamental →
    Completes .jtagExtest s (fun t => t.jtag.ir = .extest ∧ t.pins = s.pins) ∧
    Completes .jtagExtestPulse s (fun t => t.jtag.ir = .extestPulse ∧ t.pins = s.pins) ∧
    Completes .jtagClamp s (fun t => t.jtag.ir = .clamp ∧ t.pins = s.pins) ∧
    Completes .jtagHighz s (fun t => t.jtag.ir = .highz ∧ t.pins = s.pins)) ∧
  (∀ (s : State), s.tapUp = true → s.power.phase ≠ .fundamental →
    Completes .jtagExtest s (fun t => t.jtag.ir = .bypass ∧ t.pins = s.pins) ∧
    Completes .jtagExtestPulse s (fun t => t.jtag.ir = .bypass ∧ t.pins = s.pins) ∧
    Completes .jtagClamp s (fun t => t.jtag.ir = .bypass ∧ t.pins = s.pins) ∧
    Completes .jtagHighz s (fun t => t.jtag.ir = .bypass ∧ t.pins = s.pins)) ∧
  (∀ (straps : Straps) (h : HistoryCheck) (s : State), s.power.phase = .fundamental → s.jtag.ir = .extest →
    Completes (.fundamentalResetRelease straps h) s (fun t => t.jtag.ir = .bypass))

/-- R211: what a host knot holds, that it is sent under R210 or waits behind two full die queues, and that the waiting one is sent once
the dies' queues are empty. -/
def Obligations.HostKnotsComplete : Prop :=
  (∀ (n : Nat) (s : State), (s.hostKnot n).time = (if s.objNat 0x4840 1 = 0 then s.time else BitVec.ofNat 64 (s.objNat 0x4840 1)) ∧
    (s.hostKnot n).offset = s.objInt 0x4840 2 ∧ (s.hostKnot n).convoy = 0 ∧ (s.hostKnot n).die = 0 ∧ (s.hostKnot n).host = true ∧
    (s.hostKnot n).cls.val = n % 16 ∧ (s.hostKnot n).node = s.nodeId) ∧
  (∀ (cls : Byte) (via : Source) (s : State), s.serves via = true → cls.toNat ≤ 15 → (s.dies[0].queueFull && s.dies[1].queueFull) = false →
    s.knots.hostKnots = [] → exec (.hostKnotSend cls via) s = .next (s.sendKnot (s.hostKnot cls.toNat))) ∧
  (∀ (cls : Byte) (via : Source) (s : State), s.serves via = true → cls.toNat ≤ 15 → (s.dies[0].queueFull && s.dies[1].queueFull) = true →
    Completes (.hostKnotSend cls via) s (fun t => t.knots.hostKnots = s.knots.hostKnots ++ [s.hostKnot cls.toNat] ∧ t.out = s.out)) ∧
  (∀ (k : Knot) (rest : List Knot) (s : State), s.frozenFull = false → s.dies[0].stair.knotQueue = [] → s.dies[1].stair.knotQueue = [] →
    s.knots.hostKnots = k :: rest →
    exec .knotSend s = .next (State.sendKnot { s with knots := { s.knots with hostKnots := rest } } k))

/-- R378, for every guarded register: in paired mode a whole dword waits and changes nothing else; its complement applies it; a dword that
R373 drops and a read fall between without effect; one 64-bit write of both applies it at once. -/
def Obligations.PairedModeTakesTwoWrites : Prop :=
  (∀ (reg : GuardedReg) (a b c d : Byte) (s : State), s.hasReg reg = true → s.pcie.answers = true → s.guard.keyed = false →
    s.guard.pendingWrite = none → s.guard.unlocked = none →
    Completes (.registerWrite (BitVec.ofNat 20 (regOffset reg)) [some a, some b, some c, some d]) s (fun t =>
      t.guard = { s.guard with pendingWrite := some (regOffset reg, (d ++ c ++ b ++ a : Dword)) } ∧ t.objs = s.objs ∧ SameUnits t s ∧
      SameMem t s)) ∧
  (∀ (reg : GuardedReg) (a b c d : Byte) (s : State), s.hasReg reg = true → s.pcie.answers = true → s.guard.keyed = false →
    s.guard.pendingWrite = some (regOffset reg, ~~~(d ++ c ++ b ++ a : Dword)) →
    exec (.registerWrite (BitVec.ofNat 20 (regOffset reg + 4)) [some a, some b, some c, some d]) s =
      .next (regApply reg (~~~(d ++ c ++ b ++ a : Dword)) { s with guard := { s.guard with pendingWrite := none }.settle })) ∧
  (∀ (off : BitVec 20) (bytes : List (Option Byte)) (s : State), off.toNat % 4 = 0 → bytes.length = 4 → none ∈ bytes →
    Completes (.registerWrite off bytes) s (fun t => t.guard = s.guard)) ∧
  (∀ (p : LatchPair) (s : State), Completes (.latchingPairRead p) s (fun t => t.guard = s.guard)) ∧
  (∀ (reg : GuardedReg) (a b c d : Byte) (s : State), s.hasReg reg = true → s.pcie.answers = true → s.guard.keyed = false →
    s.guard.pendingWrite = none → s.guard.unlocked = none →
    exec (.registerWrite (BitVec.ofNat 20 (regOffset reg)) [some a, some b, some c, some d, some (~~~a), some (~~~b), some (~~~c),
      some (~~~d)]) s = .next (regApply reg (d ++ c ++ b ++ a : Dword) { s with guard := s.guard.settle }))

/-- The action order of R75: a counter that is reset and incremented stands at 1, a timer that is stopped and started runs, a stopped
timer that is reset and started runs from 0, and an executed action set gives every counter and timer these values. -/
def Obligations.ActionsInOrder : Prop :=
  (∀ (c : Cond) (i v : Nat), c.cntRst.getLsbD i = true → c.cntInc.getLsbD i = true → countAct c i v = 1) ∧
  (∀ (c : Cond) (i pos : Nat) (tm : Timer), c.tmrStop.getLsbD i = true → c.tmrStart.getLsbD i = true →
    (timerAct c i pos tm).running = true) ∧
  (∀ (c : Cond) (i pos later : Nat) (tm : Timer), tm.running = false → c.tmrRst.getLsbD i = true → c.tmrStart.getLsbD i = true →
    (timerAct c i pos tm).running = true ∧ timerAt (timerAct c i pos tm) later = min ((later - pos) / 5) maxCount) ∧
  (∀ (r : Run) (at_ : SampleAt) (c : Cond) (i : Fin 8),
    (r.localActions at_ c).1.die.stair.counters[i] = countAct c i.val r.die.stair.counters[i] ∧
    (r.localActions at_ c).1.die.stair.timers[i] = timerAct c i.val at_.pos r.die.stair.timers[i])

/-- The time base as one number, epoch and accumulator (R168, R169): a plain tick adds the increment, ten times over a 10 MHz source, and
sets WRAP exactly when the timeword carries out; a step adds its own amount and borrows past zero. -/
def Obligations.EpochCountsWraps : Prop :=
  (∀ (s : State), (s.plainTick.tb.epoch ++ s.plainTick.tb.acc : BitVec 112) =
      (s.tb.epoch ++ s.tb.acc) + BitVec.ofNat 112 (s.tb.inc * s.tb.tickLen) ∧
    s.plainTick.tb.inc = s.tb.inc ∧ s.plainTick.now = s.now + 3200 * s.tb.tickLen ∧
    (s.plainTick.events.tb.getLsbD 13 = true ↔
      s.events.tb.getLsbD 13 = true ∨ 2 ^ 80 ≤ s.tb.acc.toNat + s.tb.inc * s.tb.tickLen)) ∧
  (∀ (s : State) (amt : Int), ((s.addTime amt).tb.epoch ++ (s.addTime amt).tb.acc : BitVec 112) =
      (s.tb.epoch ++ s.tb.acc) + BitVec.ofInt 112 amt ∧
    ((s.addTime amt).events.tb.getLsbD 13 = true ↔
      s.events.tb.getLsbD 13 = true ∨ (s.tb.acc.toNat : Int) + amt < 0 ∨ 2 ^ 80 ≤ (s.tb.acc.toNat : Int) + amt))

/-! ### Steps, reset and invariants -/

/-- A step with a command at the front of the queue is that command on the state with the queue's rest; a step with an empty queue is one
tick (the model's choice, assumption 1), which stores nothing unless a tunnel request that waits for its answer ends with it. -/
def Obligations.StepRunsFront : Prop :=
  (∀ (c : Instr) (rest : List Instr) (s : State), s.pending = c :: rest → step s = exec c { s with pending := rest }) ∧
  (∀ (s : State), s.pending = [] → ∃ t, step s = .next t ∧ t.pending = [] ∧ t.jtag = s.jtag ∧
    t.now = (if s.quartzRuns then s.now + 3200 * s.tb.tickLen else s.now) ∧ (s.knots.asks = [] → SameMem t s ∧ t.mram = s.mram))

/-- What the spec says a power-on leaves: the time base at 0 and not set, FREE, the nominal increment, owner HKC (R169, R171, R187); every
yarn an input (R28); no capture open, no generator or gauge running, no Ethernet port or Aelop port up (R5); READY clear (R399); IDCODE in
the TAP (R430); no key, no armed guard sequence (R377); every object at its default (R345). -/
def Obligations.ResetState : Prop :=
  State.reset.tb.acc = 0 ∧ State.reset.tb.epoch = 0 ∧ State.reset.tb.timeset = false ∧ State.reset.tb.state = .free ∧
  State.reset.tb.inc = 10 * 2 ^ 32 ∧ State.reset.tb.owner = .hkc ∧
  (∀ (d : Die) (k : Fin 4), State.reset.pins.yarnDir[d][k] = 0) ∧
  (∀ d : Die, State.reset.dies[d].state = .idle ∧ State.reset.gens[d].state = .stopped) ∧
  (∀ g : Fin 64, State.reset.gauges[g].state = .idle) ∧
  (∀ p : Fin 2, State.reset.net.ports[p].linkUp = false) ∧ (∀ k : Fin 4, State.reset.knots.ports[k].state = .disabled) ∧
  State.reset.power.ready = false ∧ State.reset.power.phase = .startup ∧ State.reset.jtag.ir = .idcode ∧
  State.reset.guard.pendingWrite = none ∧ State.reset.guard.unlocked = none ∧ State.reset.objs = [] ∧ State.reset.pending = []

/-- The four memories of the reset state are in canonical form. Where the spec leaves a choice or a reading, the model's is that of
assumption 3. -/
def Obligations.ResetInv : Prop := MemInv State.reset

/-- Every command that a sender can give answers a next state, and one that no sender can give is a fault (R325, R372). Where the spec
leaves a choice or a reading, the model's is that of assumptions 9 and 10. -/
def Obligations.EveryCommandAnswers : Prop :=
  ∀ (c : Instr) (s : State), (c.wf = true → ∃ t, exec c s = .next t) ∧ (c.wf = false → exec c s = .fault .illFormed)

/-- Every step keeps the four memories in canonical form. Where the spec leaves a choice or a reading, the model's is that of assumption
3. -/
def Obligations.StepKeepsInvariant : Prop := ∀ (s t : State), MemInv s → step s = .next t → MemInv t

/-- No command touches the queue or the identity of the part, and none takes back what the part has sent. Where the spec leaves a choice
or a reading, the model's is that of assumption 1. -/
def Obligations.QueueAndIdentityKept : Prop :=
  ∀ (c : Instr) (s t : State), exec c s = .next t → t.pending = s.pending ∧ t.variant = s.variant ∧ s.now ≤ t.now ∧ s.out <+: t.out

/-! ### Frames -/

/-- Each memory changes only under the commands that store to it: under every other command every byte of it reads as before. -/
def Obligations.MemoryFrames : Prop :=
  ∀ (c : Instr) (s t : State), exec c s = .next t →
    (c.storesDeep = false → t.dsMem = s.dsMem) ∧ (c.storesBasin = false → t.basin = s.basin) ∧ (c.storesRam = false → t.ram = s.ram)

/-- The time, the time base, the TAP, MRAM and the on-chip memory tests change only under their commands. -/
def Obligations.TimeAndHistoryFrames : Prop :=
  ∀ (c : Instr) (s t : State), exec c s = .next t →
    (c.mayTick = false → t.now = s.now) ∧ (c.changesTime = false → t.tb = s.tb) ∧ (c.changesTap = false → t.jtag = s.jtag) ∧
    (c.changesMram = false → t.mram = s.mram) ∧ (c.changesChip = false → t.chip = s.chip)

/-- The plain registers, the guard, power and the pins change only under their commands. -/
def Obligations.RegisterAndPowerFrames : Prop :=
  ∀ (c : Instr) (s t : State), exec c s = .next t →
    (c.changesHost = false → t.host = s.host) ∧ (c.changesGuard = false → t.guard = s.guard) ∧
    (c.changesPower = false → t.power = s.power) ∧ (c.changesPins = false → t.pins = s.pins)

/-- The Ethernet ports and the servo, the knot engine, the deep store's controllers and the PLLs change only under their commands. -/
def Obligations.NetworkAndStoreFrames : Prop :=
  ∀ (c : Instr) (s t : State), exec c s = .next t →
    (c.changesNet = false → t.net = s.net) ∧ (c.changesKnots = false → t.knots = s.knots) ∧ (c.changesDeep = false → t.deep = s.deep) ∧
    (c.changesClocks = false → t.clocks = s.clocks)

/-- Captures, generators and gauges change only under their commands; a gauge's command leaves every other gauge, a generator's command
the other generator. -/
def Obligations.UnitFrames : Prop :=
  (∀ (c : Instr) (s t : State), exec c s = .next t →
    (c.changesDies = false → t.dies = s.dies) ∧ (c.changesGens = false → t.gens = s.gens) ∧ (c.changesGauges = false → t.gauges = s.gauges)) ∧
  (∀ (g j : Fin 64) (e : GaugeEdge) (via : Source) (c : Instr) (s t : State), j ≠ g →
    c ∈ [.gaugeStart g via, .gaugeStop g via, .gaugeStampingBegin g, .gaugeStartEdge g e, .gaugeStopEdge g e, .gateClose g,
      .gaugeTimeout g, .shotTimeout g] →
    exec c s = .next t → t.gauges[j] = s.gauges[j]) ∧
  (∀ (d : Die) (via : Source) (src : JumpSource) (r : SyncCalResult) (c : Instr) (s t : State),
    c ∈ [.pgPrime d via, .pgReady d, .pgStart d via, .pgStop d via, .pgJumpRequest d src, .pgPassEnd d, .pgUnderrun d, .pgHoldEnd d,
      .pgKnotStart d, .pgSyncStart d, .pgTimeStart d, .pgSyncCalibration d via, .syncCalibrationEnd d r, .loopCacheLoad d via,
      .loopCacheLoadDone d] →
    exec c s = .next t → t.gens[otherDie d] = s.gens[otherDie d])

/-! ### Encodings and memories -/

/-- A knot's 32 bytes spell that knot and no other (R208, R212): every field at every value its bits allow. -/
def Obligations.KnotBytesRoundTrip : Prop :=
  ∀ (k : Knot), k.hops < 256 → -2147483648 ≤ k.offset → k.offset < 2147483648 → parseKnot (knotBytes k) = some k

/-- The items of a dictionary frame spell themselves, the status bytes aside, which a request leaves 0 (R357, R359); a block written to a
memory in canonical form reads back byte for byte, and every byte outside it reads as before. -/
def Obligations.ItemsAndBlocksReadBack : Prop :=
  (∀ (l : List Item), (∀ i ∈ l, i.index < 65536 ∧ i.sub < 256 ∧ i.typ < 256 ∧ i.istat < 256 ∧ i.iflags < 256 ∧ i.value.length < 65536) →
    parseItems l.length (l.flatMap odpItem) = some (l.map (fun i => { i with istat := 0 }))) ∧
  (∀ (m : Memory) (a x : Nat) (bs : List Byte), m.wf = true →
    memRead (memWriteBlock m a bs) x = if a ≤ x ∧ x < a + bs.length then bs.getD (x - a) 0 else memRead m x)
end

