-- ==== Sys2Proof/Laws/State.lean ====
section
/-! SUPPORT. What the shared operations leave alone, one lemma for each operation and field of the state, and what a register file
reads as after one of its members has changed. -/

namespace Sys2Proof.Machine

/-! ### drawn -/

@[simp] theorem State.drawn_now (s : State) : (s.drawn).now = s.now := rfl
@[simp] theorem State.drawn_pending (s : State) : (s.drawn).pending = s.pending := rfl
@[simp] theorem State.drawn_out (s : State) : (s.drawn).out = s.out := rfl
@[simp] theorem State.drawn_variant (s : State) : (s.drawn).variant = s.variant := rfl
@[simp] theorem State.drawn_objs (s : State) : (s.drawn).objs = s.objs := rfl
@[simp] theorem State.drawn_events (s : State) : (s.drawn).events = s.events := rfl
@[simp] theorem State.drawn_guard (s : State) : (s.drawn).guard = s.guard := rfl
@[simp] theorem State.drawn_host (s : State) : (s.drawn).host = s.host := rfl
@[simp] theorem State.drawn_pcie (s : State) : (s.drawn).pcie = s.pcie := rfl
@[simp] theorem State.drawn_dict (s : State) : (s.drawn).dict = s.dict := rfl
@[simp] theorem State.drawn_power (s : State) : (s.drawn).power = s.power := rfl
@[simp] theorem State.drawn_health (s : State) : (s.drawn).health = s.health := rfl
@[simp] theorem State.drawn_mram (s : State) : (s.drawn).mram = s.mram := rfl
@[simp] theorem State.drawn_jtag (s : State) : (s.drawn).jtag = s.jtag := rfl
@[simp] theorem State.drawn_tb (s : State) : (s.drawn).tb = s.tb := rfl
@[simp] theorem State.drawn_net (s : State) : (s.drawn).net = s.net := rfl
@[simp] theorem State.drawn_knots (s : State) : (s.drawn).knots = s.knots := rfl
@[simp] theorem State.drawn_gauges (s : State) : (s.drawn).gauges = s.gauges := rfl
@[simp] theorem State.drawn_gens (s : State) : (s.drawn).gens = s.gens := rfl
@[simp] theorem State.drawn_deep (s : State) : (s.drawn).deep = s.deep := rfl
@[simp] theorem State.drawn_chip (s : State) : (s.drawn).chip = s.chip := rfl
@[simp] theorem State.drawn_clocks (s : State) : (s.drawn).clocks = s.clocks := rfl
@[simp] theorem State.drawn_pins (s : State) : (s.drawn).pins = s.pins := rfl
@[simp] theorem State.drawn_dies (s : State) : (s.drawn).dies = s.dies := rfl
@[simp] theorem State.drawn_dsMem (s : State) : (s.drawn).dsMem = s.dsMem := rfl
@[simp] theorem State.drawn_basin (s : State) : (s.drawn).basin = s.basin := rfl
@[simp] theorem State.drawn_ram (s : State) : (s.drawn).ram = s.ram := rfl

/-! ### emit -/

@[simp] theorem State.emit_now (s : State) (o : Out) : (s.emit o).now = s.now := rfl
@[simp] theorem State.emit_fresh (s : State) (o : Out) : (s.emit o).fresh = s.fresh := rfl
@[simp] theorem State.emit_pending (s : State) (o : Out) : (s.emit o).pending = s.pending := rfl
@[simp] theorem State.emit_variant (s : State) (o : Out) : (s.emit o).variant = s.variant := rfl
@[simp] theorem State.emit_objs (s : State) (o : Out) : (s.emit o).objs = s.objs := rfl
@[simp] theorem State.emit_events (s : State) (o : Out) : (s.emit o).events = s.events := rfl
@[simp] theorem State.emit_guard (s : State) (o : Out) : (s.emit o).guard = s.guard := rfl
@[simp] theorem State.emit_host (s : State) (o : Out) : (s.emit o).host = s.host := rfl
@[simp] theorem State.emit_pcie (s : State) (o : Out) : (s.emit o).pcie = s.pcie := rfl
@[simp] theorem State.emit_dict (s : State) (o : Out) : (s.emit o).dict = s.dict := rfl
@[simp] theorem State.emit_power (s : State) (o : Out) : (s.emit o).power = s.power := rfl
@[simp] theorem State.emit_health (s : State) (o : Out) : (s.emit o).health = s.health := rfl
@[simp] theorem State.emit_mram (s : State) (o : Out) : (s.emit o).mram = s.mram := rfl
@[simp] theorem State.emit_jtag (s : State) (o : Out) : (s.emit o).jtag = s.jtag := rfl
@[simp] theorem State.emit_tb (s : State) (o : Out) : (s.emit o).tb = s.tb := rfl
@[simp] theorem State.emit_net (s : State) (o : Out) : (s.emit o).net = s.net := rfl
@[simp] theorem State.emit_knots (s : State) (o : Out) : (s.emit o).knots = s.knots := rfl
@[simp] theorem State.emit_gauges (s : State) (o : Out) : (s.emit o).gauges = s.gauges := rfl
@[simp] theorem State.emit_gens (s : State) (o : Out) : (s.emit o).gens = s.gens := rfl
@[simp] theorem State.emit_deep (s : State) (o : Out) : (s.emit o).deep = s.deep := rfl
@[simp] theorem State.emit_chip (s : State) (o : Out) : (s.emit o).chip = s.chip := rfl
@[simp] theorem State.emit_clocks (s : State) (o : Out) : (s.emit o).clocks = s.clocks := rfl
@[simp] theorem State.emit_pins (s : State) (o : Out) : (s.emit o).pins = s.pins := rfl
@[simp] theorem State.emit_dies (s : State) (o : Out) : (s.emit o).dies = s.dies := rfl
@[simp] theorem State.emit_dsMem (s : State) (o : Out) : (s.emit o).dsMem = s.dsMem := rfl
@[simp] theorem State.emit_basin (s : State) (o : Out) : (s.emit o).basin = s.basin := rfl
@[simp] theorem State.emit_ram (s : State) (o : Out) : (s.emit o).ram = s.ram := rfl

/-! ### put -/

@[simp] theorem State.put_now (s : State) (i j : Nat) (v : Val) : (s.put i j v).now = s.now := by unfold State.put; split <;> rfl
@[simp] theorem State.put_fresh (s : State) (i j : Nat) (v : Val) : (s.put i j v).fresh = s.fresh := by unfold State.put; split <;> rfl
@[simp] theorem State.put_pending (s : State) (i j : Nat) (v : Val) : (s.put i j v).pending = s.pending := by unfold State.put; split <;> rfl
@[simp] theorem State.put_out (s : State) (i j : Nat) (v : Val) : (s.put i j v).out = s.out := by unfold State.put; split <;> rfl
@[simp] theorem State.put_variant (s : State) (i j : Nat) (v : Val) : (s.put i j v).variant = s.variant := by unfold State.put; split <;> rfl
@[simp] theorem State.put_events (s : State) (i j : Nat) (v : Val) : (s.put i j v).events = s.events := by unfold State.put; split <;> rfl
@[simp] theorem State.put_guard (s : State) (i j : Nat) (v : Val) : (s.put i j v).guard = s.guard := by unfold State.put; split <;> rfl
@[simp] theorem State.put_host (s : State) (i j : Nat) (v : Val) : (s.put i j v).host = s.host := by unfold State.put; split <;> rfl
@[simp] theorem State.put_pcie (s : State) (i j : Nat) (v : Val) : (s.put i j v).pcie = s.pcie := by unfold State.put; split <;> rfl
@[simp] theorem State.put_power (s : State) (i j : Nat) (v : Val) : (s.put i j v).power = s.power := by unfold State.put; split <;> rfl
@[simp] theorem State.put_health (s : State) (i j : Nat) (v : Val) : (s.put i j v).health = s.health := by unfold State.put; split <;> rfl
@[simp] theorem State.put_mram (s : State) (i j : Nat) (v : Val) : (s.put i j v).mram = s.mram := by unfold State.put; split <;> rfl
@[simp] theorem State.put_jtag (s : State) (i j : Nat) (v : Val) : (s.put i j v).jtag = s.jtag := by unfold State.put; split <;> rfl
@[simp] theorem State.put_tb (s : State) (i j : Nat) (v : Val) : (s.put i j v).tb = s.tb := by unfold State.put; split <;> rfl
@[simp] theorem State.put_net (s : State) (i j : Nat) (v : Val) : (s.put i j v).net = s.net := by unfold State.put; split <;> rfl
@[simp] theorem State.put_knots (s : State) (i j : Nat) (v : Val) : (s.put i j v).knots = s.knots := by unfold State.put; split <;> rfl
@[simp] theorem State.put_gauges (s : State) (i j : Nat) (v : Val) : (s.put i j v).gauges = s.gauges := by unfold State.put; split <;> rfl
@[simp] theorem State.put_gens (s : State) (i j : Nat) (v : Val) : (s.put i j v).gens = s.gens := by unfold State.put; split <;> rfl
@[simp] theorem State.put_deep (s : State) (i j : Nat) (v : Val) : (s.put i j v).deep = s.deep := by unfold State.put; split <;> rfl
@[simp] theorem State.put_chip (s : State) (i j : Nat) (v : Val) : (s.put i j v).chip = s.chip := by unfold State.put; split <;> rfl
@[simp] theorem State.put_clocks (s : State) (i j : Nat) (v : Val) : (s.put i j v).clocks = s.clocks := by unfold State.put; split <;> rfl
@[simp] theorem State.put_pins (s : State) (i j : Nat) (v : Val) : (s.put i j v).pins = s.pins := by unfold State.put; split <;> rfl
@[simp] theorem State.put_dies (s : State) (i j : Nat) (v : Val) : (s.put i j v).dies = s.dies := by unfold State.put; split <;> rfl
@[simp] theorem State.put_dsMem (s : State) (i j : Nat) (v : Val) : (s.put i j v).dsMem = s.dsMem := by unfold State.put; split <;> rfl
@[simp] theorem State.put_basin (s : State) (i j : Nat) (v : Val) : (s.put i j v).basin = s.basin := by unfold State.put; split <;> rfl
@[simp] theorem State.put_ram (s : State) (i j : Nat) (v : Val) : (s.put i j v).ram = s.ram := by unfold State.put; split <;> rfl

/-! ### putNat -/

@[simp] theorem State.putNat_now (s : State) (i j n : Nat) : (s.putNat i j n).now = s.now := State.put_now s i j (.num n)
@[simp] theorem State.putNat_fresh (s : State) (i j n : Nat) : (s.putNat i j n).fresh = s.fresh := State.put_fresh s i j (.num n)
@[simp] theorem State.putNat_pending (s : State) (i j n : Nat) : (s.putNat i j n).pending = s.pending := State.put_pending s i j (.num n)
@[simp] theorem State.putNat_out (s : State) (i j n : Nat) : (s.putNat i j n).out = s.out := State.put_out s i j (.num n)
@[simp] theorem State.putNat_variant (s : State) (i j n : Nat) : (s.putNat i j n).variant = s.variant := State.put_variant s i j (.num n)
@[simp] theorem State.putNat_events (s : State) (i j n : Nat) : (s.putNat i j n).events = s.events := State.put_events s i j (.num n)
@[simp] theorem State.putNat_guard (s : State) (i j n : Nat) : (s.putNat i j n).guard = s.guard := State.put_guard s i j (.num n)
@[simp] theorem State.putNat_host (s : State) (i j n : Nat) : (s.putNat i j n).host = s.host := State.put_host s i j (.num n)
@[simp] theorem State.putNat_pcie (s : State) (i j n : Nat) : (s.putNat i j n).pcie = s.pcie := State.put_pcie s i j (.num n)
@[simp] theorem State.putNat_power (s : State) (i j n : Nat) : (s.putNat i j n).power = s.power := State.put_power s i j (.num n)
@[simp] theorem State.putNat_health (s : State) (i j n : Nat) : (s.putNat i j n).health = s.health := State.put_health s i j (.num n)
@[simp] theorem State.putNat_mram (s : State) (i j n : Nat) : (s.putNat i j n).mram = s.mram := State.put_mram s i j (.num n)
@[simp] theorem State.putNat_jtag (s : State) (i j n : Nat) : (s.putNat i j n).jtag = s.jtag := State.put_jtag s i j (.num n)
@[simp] theorem State.putNat_tb (s : State) (i j n : Nat) : (s.putNat i j n).tb = s.tb := State.put_tb s i j (.num n)
@[simp] theorem State.putNat_net (s : State) (i j n : Nat) : (s.putNat i j n).net = s.net := State.put_net s i j (.num n)
@[simp] theorem State.putNat_knots (s : State) (i j n : Nat) : (s.putNat i j n).knots = s.knots := State.put_knots s i j (.num n)
@[simp] theorem State.putNat_gauges (s : State) (i j n : Nat) : (s.putNat i j n).gauges = s.gauges := State.put_gauges s i j (.num n)
@[simp] theorem State.putNat_gens (s : State) (i j n : Nat) : (s.putNat i j n).gens = s.gens := State.put_gens s i j (.num n)
@[simp] theorem State.putNat_deep (s : State) (i j n : Nat) : (s.putNat i j n).deep = s.deep := State.put_deep s i j (.num n)
@[simp] theorem State.putNat_chip (s : State) (i j n : Nat) : (s.putNat i j n).chip = s.chip := State.put_chip s i j (.num n)
@[simp] theorem State.putNat_clocks (s : State) (i j n : Nat) : (s.putNat i j n).clocks = s.clocks := State.put_clocks s i j (.num n)
@[simp] theorem State.putNat_pins (s : State) (i j n : Nat) : (s.putNat i j n).pins = s.pins := State.put_pins s i j (.num n)
@[simp] theorem State.putNat_dies (s : State) (i j n : Nat) : (s.putNat i j n).dies = s.dies := State.put_dies s i j (.num n)
@[simp] theorem State.putNat_dsMem (s : State) (i j n : Nat) : (s.putNat i j n).dsMem = s.dsMem := State.put_dsMem s i j (.num n)
@[simp] theorem State.putNat_basin (s : State) (i j n : Nat) : (s.putNat i j n).basin = s.basin := State.put_basin s i j (.num n)
@[simp] theorem State.putNat_ram (s : State) (i j n : Nat) : (s.putNat i j n).ram = s.ram := State.put_ram s i j (.num n)

/-! ### putInt -/

@[simp] theorem State.putInt_now (s : State) (i j : Nat) (n : Int) : (s.putInt i j n).now = s.now := State.put_now s i j (.num n)
@[simp] theorem State.putInt_fresh (s : State) (i j : Nat) (n : Int) : (s.putInt i j n).fresh = s.fresh := State.put_fresh s i j (.num n)
@[simp] theorem State.putInt_pending (s : State) (i j : Nat) (n : Int) : (s.putInt i j n).pending = s.pending := State.put_pending s i j (.num n)
@[simp] theorem State.putInt_out (s : State) (i j : Nat) (n : Int) : (s.putInt i j n).out = s.out := State.put_out s i j (.num n)
@[simp] theorem State.putInt_variant (s : State) (i j : Nat) (n : Int) : (s.putInt i j n).variant = s.variant := State.put_variant s i j (.num n)
@[simp] theorem State.putInt_events (s : State) (i j : Nat) (n : Int) : (s.putInt i j n).events = s.events := State.put_events s i j (.num n)
@[simp] theorem State.putInt_guard (s : State) (i j : Nat) (n : Int) : (s.putInt i j n).guard = s.guard := State.put_guard s i j (.num n)
@[simp] theorem State.putInt_host (s : State) (i j : Nat) (n : Int) : (s.putInt i j n).host = s.host := State.put_host s i j (.num n)
@[simp] theorem State.putInt_pcie (s : State) (i j : Nat) (n : Int) : (s.putInt i j n).pcie = s.pcie := State.put_pcie s i j (.num n)
@[simp] theorem State.putInt_power (s : State) (i j : Nat) (n : Int) : (s.putInt i j n).power = s.power := State.put_power s i j (.num n)
@[simp] theorem State.putInt_health (s : State) (i j : Nat) (n : Int) : (s.putInt i j n).health = s.health := State.put_health s i j (.num n)
@[simp] theorem State.putInt_mram (s : State) (i j : Nat) (n : Int) : (s.putInt i j n).mram = s.mram := State.put_mram s i j (.num n)
@[simp] theorem State.putInt_jtag (s : State) (i j : Nat) (n : Int) : (s.putInt i j n).jtag = s.jtag := State.put_jtag s i j (.num n)
@[simp] theorem State.putInt_tb (s : State) (i j : Nat) (n : Int) : (s.putInt i j n).tb = s.tb := State.put_tb s i j (.num n)
@[simp] theorem State.putInt_net (s : State) (i j : Nat) (n : Int) : (s.putInt i j n).net = s.net := State.put_net s i j (.num n)
@[simp] theorem State.putInt_knots (s : State) (i j : Nat) (n : Int) : (s.putInt i j n).knots = s.knots := State.put_knots s i j (.num n)
@[simp] theorem State.putInt_gauges (s : State) (i j : Nat) (n : Int) : (s.putInt i j n).gauges = s.gauges := State.put_gauges s i j (.num n)
@[simp] theorem State.putInt_gens (s : State) (i j : Nat) (n : Int) : (s.putInt i j n).gens = s.gens := State.put_gens s i j (.num n)
@[simp] theorem State.putInt_deep (s : State) (i j : Nat) (n : Int) : (s.putInt i j n).deep = s.deep := State.put_deep s i j (.num n)
@[simp] theorem State.putInt_chip (s : State) (i j : Nat) (n : Int) : (s.putInt i j n).chip = s.chip := State.put_chip s i j (.num n)
@[simp] theorem State.putInt_clocks (s : State) (i j : Nat) (n : Int) : (s.putInt i j n).clocks = s.clocks := State.put_clocks s i j (.num n)
@[simp] theorem State.putInt_pins (s : State) (i j : Nat) (n : Int) : (s.putInt i j n).pins = s.pins := State.put_pins s i j (.num n)
@[simp] theorem State.putInt_dies (s : State) (i j : Nat) (n : Int) : (s.putInt i j n).dies = s.dies := State.put_dies s i j (.num n)
@[simp] theorem State.putInt_dsMem (s : State) (i j : Nat) (n : Int) : (s.putInt i j n).dsMem = s.dsMem := State.put_dsMem s i j (.num n)
@[simp] theorem State.putInt_basin (s : State) (i j : Nat) (n : Int) : (s.putInt i j n).basin = s.basin := State.put_basin s i j (.num n)
@[simp] theorem State.putInt_ram (s : State) (i j : Nat) (n : Int) : (s.putInt i j n).ram = s.ram := State.put_ram s i j (.num n)

/-! ### bumpBy -/

@[simp] theorem State.bumpBy_now (s : State) (i j n : Nat) : (s.bumpBy i j n).now = s.now := by unfold State.bumpBy; split <;> rfl
@[simp] theorem State.bumpBy_fresh (s : State) (i j n : Nat) : (s.bumpBy i j n).fresh = s.fresh := by unfold State.bumpBy; split <;> rfl
@[simp] theorem State.bumpBy_pending (s : State) (i j n : Nat) : (s.bumpBy i j n).pending = s.pending := by unfold State.bumpBy; split <;> rfl
@[simp] theorem State.bumpBy_out (s : State) (i j n : Nat) : (s.bumpBy i j n).out = s.out := by unfold State.bumpBy; split <;> rfl
@[simp] theorem State.bumpBy_variant (s : State) (i j n : Nat) : (s.bumpBy i j n).variant = s.variant := by unfold State.bumpBy; split <;> rfl
@[simp] theorem State.bumpBy_events (s : State) (i j n : Nat) : (s.bumpBy i j n).events = s.events := by unfold State.bumpBy; split <;> rfl
@[simp] theorem State.bumpBy_guard (s : State) (i j n : Nat) : (s.bumpBy i j n).guard = s.guard := by unfold State.bumpBy; split <;> rfl
@[simp] theorem State.bumpBy_host (s : State) (i j n : Nat) : (s.bumpBy i j n).host = s.host := by unfold State.bumpBy; split <;> rfl
@[simp] theorem State.bumpBy_pcie (s : State) (i j n : Nat) : (s.bumpBy i j n).pcie = s.pcie := by unfold State.bumpBy; split <;> rfl
@[simp] theorem State.bumpBy_power (s : State) (i j n : Nat) : (s.bumpBy i j n).power = s.power := by unfold State.bumpBy; split <;> rfl
@[simp] theorem State.bumpBy_health (s : State) (i j n : Nat) : (s.bumpBy i j n).health = s.health := by unfold State.bumpBy; split <;> rfl
@[simp] theorem State.bumpBy_mram (s : State) (i j n : Nat) : (s.bumpBy i j n).mram = s.mram := by unfold State.bumpBy; split <;> rfl
@[simp] theorem State.bumpBy_jtag (s : State) (i j n : Nat) : (s.bumpBy i j n).jtag = s.jtag := by unfold State.bumpBy; split <;> rfl
@[simp] theorem State.bumpBy_tb (s : State) (i j n : Nat) : (s.bumpBy i j n).tb = s.tb := by unfold State.bumpBy; split <;> rfl
@[simp] theorem State.bumpBy_net (s : State) (i j n : Nat) : (s.bumpBy i j n).net = s.net := by unfold State.bumpBy; split <;> rfl
@[simp] theorem State.bumpBy_knots (s : State) (i j n : Nat) : (s.bumpBy i j n).knots = s.knots := by unfold State.bumpBy; split <;> rfl
@[simp] theorem State.bumpBy_gauges (s : State) (i j n : Nat) : (s.bumpBy i j n).gauges = s.gauges := by unfold State.bumpBy; split <;> rfl
@[simp] theorem State.bumpBy_gens (s : State) (i j n : Nat) : (s.bumpBy i j n).gens = s.gens := by unfold State.bumpBy; split <;> rfl
@[simp] theorem State.bumpBy_deep (s : State) (i j n : Nat) : (s.bumpBy i j n).deep = s.deep := by unfold State.bumpBy; split <;> rfl
@[simp] theorem State.bumpBy_chip (s : State) (i j n : Nat) : (s.bumpBy i j n).chip = s.chip := by unfold State.bumpBy; split <;> rfl
@[simp] theorem State.bumpBy_clocks (s : State) (i j n : Nat) : (s.bumpBy i j n).clocks = s.clocks := by unfold State.bumpBy; split <;> rfl
@[simp] theorem State.bumpBy_pins (s : State) (i j n : Nat) : (s.bumpBy i j n).pins = s.pins := by unfold State.bumpBy; split <;> rfl
@[simp] theorem State.bumpBy_dies (s : State) (i j n : Nat) : (s.bumpBy i j n).dies = s.dies := by unfold State.bumpBy; split <;> rfl
@[simp] theorem State.bumpBy_dsMem (s : State) (i j n : Nat) : (s.bumpBy i j n).dsMem = s.dsMem := by unfold State.bumpBy; split <;> rfl
@[simp] theorem State.bumpBy_basin (s : State) (i j n : Nat) : (s.bumpBy i j n).basin = s.basin := by unfold State.bumpBy; split <;> rfl
@[simp] theorem State.bumpBy_ram (s : State) (i j n : Nat) : (s.bumpBy i j n).ram = s.ram := by unfold State.bumpBy; split <;> rfl

/-! ### bump -/

@[simp] theorem State.bump_now (s : State) (i j : Nat) : (s.bump i j).now = s.now := State.bumpBy_now s i j 1
@[simp] theorem State.bump_fresh (s : State) (i j : Nat) : (s.bump i j).fresh = s.fresh := State.bumpBy_fresh s i j 1
@[simp] theorem State.bump_pending (s : State) (i j : Nat) : (s.bump i j).pending = s.pending := State.bumpBy_pending s i j 1
@[simp] theorem State.bump_out (s : State) (i j : Nat) : (s.bump i j).out = s.out := State.bumpBy_out s i j 1
@[simp] theorem State.bump_variant (s : State) (i j : Nat) : (s.bump i j).variant = s.variant := State.bumpBy_variant s i j 1
@[simp] theorem State.bump_events (s : State) (i j : Nat) : (s.bump i j).events = s.events := State.bumpBy_events s i j 1
@[simp] theorem State.bump_guard (s : State) (i j : Nat) : (s.bump i j).guard = s.guard := State.bumpBy_guard s i j 1
@[simp] theorem State.bump_host (s : State) (i j : Nat) : (s.bump i j).host = s.host := State.bumpBy_host s i j 1
@[simp] theorem State.bump_pcie (s : State) (i j : Nat) : (s.bump i j).pcie = s.pcie := State.bumpBy_pcie s i j 1
@[simp] theorem State.bump_power (s : State) (i j : Nat) : (s.bump i j).power = s.power := State.bumpBy_power s i j 1
@[simp] theorem State.bump_health (s : State) (i j : Nat) : (s.bump i j).health = s.health := State.bumpBy_health s i j 1
@[simp] theorem State.bump_mram (s : State) (i j : Nat) : (s.bump i j).mram = s.mram := State.bumpBy_mram s i j 1
@[simp] theorem State.bump_jtag (s : State) (i j : Nat) : (s.bump i j).jtag = s.jtag := State.bumpBy_jtag s i j 1
@[simp] theorem State.bump_tb (s : State) (i j : Nat) : (s.bump i j).tb = s.tb := State.bumpBy_tb s i j 1
@[simp] theorem State.bump_net (s : State) (i j : Nat) : (s.bump i j).net = s.net := State.bumpBy_net s i j 1
@[simp] theorem State.bump_knots (s : State) (i j : Nat) : (s.bump i j).knots = s.knots := State.bumpBy_knots s i j 1
@[simp] theorem State.bump_gauges (s : State) (i j : Nat) : (s.bump i j).gauges = s.gauges := State.bumpBy_gauges s i j 1
@[simp] theorem State.bump_gens (s : State) (i j : Nat) : (s.bump i j).gens = s.gens := State.bumpBy_gens s i j 1
@[simp] theorem State.bump_deep (s : State) (i j : Nat) : (s.bump i j).deep = s.deep := State.bumpBy_deep s i j 1
@[simp] theorem State.bump_chip (s : State) (i j : Nat) : (s.bump i j).chip = s.chip := State.bumpBy_chip s i j 1
@[simp] theorem State.bump_clocks (s : State) (i j : Nat) : (s.bump i j).clocks = s.clocks := State.bumpBy_clocks s i j 1
@[simp] theorem State.bump_pins (s : State) (i j : Nat) : (s.bump i j).pins = s.pins := State.bumpBy_pins s i j 1
@[simp] theorem State.bump_dies (s : State) (i j : Nat) : (s.bump i j).dies = s.dies := State.bumpBy_dies s i j 1
@[simp] theorem State.bump_dsMem (s : State) (i j : Nat) : (s.bump i j).dsMem = s.dsMem := State.bumpBy_dsMem s i j 1
@[simp] theorem State.bump_basin (s : State) (i j : Nat) : (s.bump i j).basin = s.basin := State.bumpBy_basin s i j 1
@[simp] theorem State.bump_ram (s : State) (i j : Nat) : (s.bump i j).ram = s.ram := State.bumpBy_ram s i j 1

/-! ### raiseTo -/

@[simp] theorem State.raiseTo_now (s : State) (i j n : Nat) : (s.raiseTo i j n).now = s.now := by unfold State.raiseTo; split <;> simp
@[simp] theorem State.raiseTo_fresh (s : State) (i j n : Nat) : (s.raiseTo i j n).fresh = s.fresh := by unfold State.raiseTo; split <;> simp
@[simp] theorem State.raiseTo_pending (s : State) (i j n : Nat) : (s.raiseTo i j n).pending = s.pending := by unfold State.raiseTo; split <;> simp
@[simp] theorem State.raiseTo_out (s : State) (i j n : Nat) : (s.raiseTo i j n).out = s.out := by unfold State.raiseTo; split <;> simp
@[simp] theorem State.raiseTo_variant (s : State) (i j n : Nat) : (s.raiseTo i j n).variant = s.variant := by unfold State.raiseTo; split <;> simp
@[simp] theorem State.raiseTo_events (s : State) (i j n : Nat) : (s.raiseTo i j n).events = s.events := by unfold State.raiseTo; split <;> simp
@[simp] theorem State.raiseTo_guard (s : State) (i j n : Nat) : (s.raiseTo i j n).guard = s.guard := by unfold State.raiseTo; split <;> simp
@[simp] theorem State.raiseTo_host (s : State) (i j n : Nat) : (s.raiseTo i j n).host = s.host := by unfold State.raiseTo; split <;> simp
@[simp] theorem State.raiseTo_pcie (s : State) (i j n : Nat) : (s.raiseTo i j n).pcie = s.pcie := by unfold State.raiseTo; split <;> simp
@[simp] theorem State.raiseTo_power (s : State) (i j n : Nat) : (s.raiseTo i j n).power = s.power := by unfold State.raiseTo; split <;> simp
@[simp] theorem State.raiseTo_health (s : State) (i j n : Nat) : (s.raiseTo i j n).health = s.health := by unfold State.raiseTo; split <;> simp
@[simp] theorem State.raiseTo_mram (s : State) (i j n : Nat) : (s.raiseTo i j n).mram = s.mram := by unfold State.raiseTo; split <;> simp
@[simp] theorem State.raiseTo_jtag (s : State) (i j n : Nat) : (s.raiseTo i j n).jtag = s.jtag := by unfold State.raiseTo; split <;> simp
@[simp] theorem State.raiseTo_tb (s : State) (i j n : Nat) : (s.raiseTo i j n).tb = s.tb := by unfold State.raiseTo; split <;> simp
@[simp] theorem State.raiseTo_net (s : State) (i j n : Nat) : (s.raiseTo i j n).net = s.net := by unfold State.raiseTo; split <;> simp
@[simp] theorem State.raiseTo_knots (s : State) (i j n : Nat) : (s.raiseTo i j n).knots = s.knots := by unfold State.raiseTo; split <;> simp
@[simp] theorem State.raiseTo_gauges (s : State) (i j n : Nat) : (s.raiseTo i j n).gauges = s.gauges := by unfold State.raiseTo; split <;> simp
@[simp] theorem State.raiseTo_gens (s : State) (i j n : Nat) : (s.raiseTo i j n).gens = s.gens := by unfold State.raiseTo; split <;> simp
@[simp] theorem State.raiseTo_deep (s : State) (i j n : Nat) : (s.raiseTo i j n).deep = s.deep := by unfold State.raiseTo; split <;> simp
@[simp] theorem State.raiseTo_chip (s : State) (i j n : Nat) : (s.raiseTo i j n).chip = s.chip := by unfold State.raiseTo; split <;> simp
@[simp] theorem State.raiseTo_clocks (s : State) (i j n : Nat) : (s.raiseTo i j n).clocks = s.clocks := by unfold State.raiseTo; split <;> simp
@[simp] theorem State.raiseTo_pins (s : State) (i j n : Nat) : (s.raiseTo i j n).pins = s.pins := by unfold State.raiseTo; split <;> simp
@[simp] theorem State.raiseTo_dies (s : State) (i j n : Nat) : (s.raiseTo i j n).dies = s.dies := by unfold State.raiseTo; split <;> simp
@[simp] theorem State.raiseTo_dsMem (s : State) (i j n : Nat) : (s.raiseTo i j n).dsMem = s.dsMem := by unfold State.raiseTo; split <;> simp
@[simp] theorem State.raiseTo_basin (s : State) (i j n : Nat) : (s.raiseTo i j n).basin = s.basin := by unfold State.raiseTo; split <;> simp
@[simp] theorem State.raiseTo_ram (s : State) (i j n : Nat) : (s.raiseTo i j n).ram = s.ram := by unfold State.raiseTo; split <;> simp

/-! ### flushVector -/

@[simp] theorem State.flushVector_now (s : State) (v : Fin 64) : (s.flushVector v).now = s.now := by unfold State.flushVector; split <;> rfl
@[simp] theorem State.flushVector_fresh (s : State) (v : Fin 64) : (s.flushVector v).fresh = s.fresh := by unfold State.flushVector; split <;> rfl
@[simp] theorem State.flushVector_pending (s : State) (v : Fin 64) : (s.flushVector v).pending = s.pending := by unfold State.flushVector; split <;> rfl
@[simp] theorem State.flushVector_variant (s : State) (v : Fin 64) : (s.flushVector v).variant = s.variant := by unfold State.flushVector; split <;> rfl
@[simp] theorem State.flushVector_objs (s : State) (v : Fin 64) : (s.flushVector v).objs = s.objs := by unfold State.flushVector; split <;> rfl
@[simp] theorem State.flushVector_events (s : State) (v : Fin 64) : (s.flushVector v).events = s.events := by unfold State.flushVector; split <;> rfl
@[simp] theorem State.flushVector_guard (s : State) (v : Fin 64) : (s.flushVector v).guard = s.guard := by unfold State.flushVector; split <;> rfl
@[simp] theorem State.flushVector_host (s : State) (v : Fin 64) : (s.flushVector v).host = s.host := by unfold State.flushVector; split <;> rfl
@[simp] theorem State.flushVector_dict (s : State) (v : Fin 64) : (s.flushVector v).dict = s.dict := by unfold State.flushVector; split <;> rfl
@[simp] theorem State.flushVector_power (s : State) (v : Fin 64) : (s.flushVector v).power = s.power := by unfold State.flushVector; split <;> rfl
@[simp] theorem State.flushVector_health (s : State) (v : Fin 64) : (s.flushVector v).health = s.health := by unfold State.flushVector; split <;> rfl
@[simp] theorem State.flushVector_mram (s : State) (v : Fin 64) : (s.flushVector v).mram = s.mram := by unfold State.flushVector; split <;> rfl
@[simp] theorem State.flushVector_jtag (s : State) (v : Fin 64) : (s.flushVector v).jtag = s.jtag := by unfold State.flushVector; split <;> rfl
@[simp] theorem State.flushVector_tb (s : State) (v : Fin 64) : (s.flushVector v).tb = s.tb := by unfold State.flushVector; split <;> rfl
@[simp] theorem State.flushVector_net (s : State) (v : Fin 64) : (s.flushVector v).net = s.net := by unfold State.flushVector; split <;> rfl
@[simp] theorem State.flushVector_knots (s : State) (v : Fin 64) : (s.flushVector v).knots = s.knots := by unfold State.flushVector; split <;> rfl
@[simp] theorem State.flushVector_gauges (s : State) (v : Fin 64) : (s.flushVector v).gauges = s.gauges := by unfold State.flushVector; split <;> rfl
@[simp] theorem State.flushVector_gens (s : State) (v : Fin 64) : (s.flushVector v).gens = s.gens := by unfold State.flushVector; split <;> rfl
@[simp] theorem State.flushVector_deep (s : State) (v : Fin 64) : (s.flushVector v).deep = s.deep := by unfold State.flushVector; split <;> rfl
@[simp] theorem State.flushVector_chip (s : State) (v : Fin 64) : (s.flushVector v).chip = s.chip := by unfold State.flushVector; split <;> rfl
@[simp] theorem State.flushVector_clocks (s : State) (v : Fin 64) : (s.flushVector v).clocks = s.clocks := by unfold State.flushVector; split <;> rfl
@[simp] theorem State.flushVector_pins (s : State) (v : Fin 64) : (s.flushVector v).pins = s.pins := by unfold State.flushVector; split <;> rfl
@[simp] theorem State.flushVector_dies (s : State) (v : Fin 64) : (s.flushVector v).dies = s.dies := by unfold State.flushVector; split <;> rfl
@[simp] theorem State.flushVector_dsMem (s : State) (v : Fin 64) : (s.flushVector v).dsMem = s.dsMem := by unfold State.flushVector; split <;> rfl
@[simp] theorem State.flushVector_basin (s : State) (v : Fin 64) : (s.flushVector v).basin = s.basin := by unfold State.flushVector; split <;> rfl
@[simp] theorem State.flushVector_ram (s : State) (v : Fin 64) : (s.flushVector v).ram = s.ram := by unfold State.flushVector; split <;> rfl

/-! ### raise -/

@[simp] theorem State.raise_now (s : State) (v : Fin 64) : (s.raise v).now = s.now := by unfold State.raise; split <;> simp
@[simp] theorem State.raise_fresh (s : State) (v : Fin 64) : (s.raise v).fresh = s.fresh := by unfold State.raise; split <;> simp
@[simp] theorem State.raise_pending (s : State) (v : Fin 64) : (s.raise v).pending = s.pending := by unfold State.raise; split <;> simp
@[simp] theorem State.raise_variant (s : State) (v : Fin 64) : (s.raise v).variant = s.variant := by unfold State.raise; split <;> simp
@[simp] theorem State.raise_objs (s : State) (v : Fin 64) : (s.raise v).objs = s.objs := by unfold State.raise; split <;> simp
@[simp] theorem State.raise_events (s : State) (v : Fin 64) : (s.raise v).events = s.events := by unfold State.raise; split <;> simp
@[simp] theorem State.raise_guard (s : State) (v : Fin 64) : (s.raise v).guard = s.guard := by unfold State.raise; split <;> simp
@[simp] theorem State.raise_host (s : State) (v : Fin 64) : (s.raise v).host = s.host := by unfold State.raise; split <;> simp
@[simp] theorem State.raise_dict (s : State) (v : Fin 64) : (s.raise v).dict = s.dict := by unfold State.raise; split <;> simp
@[simp] theorem State.raise_power (s : State) (v : Fin 64) : (s.raise v).power = s.power := by unfold State.raise; split <;> simp
@[simp] theorem State.raise_health (s : State) (v : Fin 64) : (s.raise v).health = s.health := by unfold State.raise; split <;> simp
@[simp] theorem State.raise_mram (s : State) (v : Fin 64) : (s.raise v).mram = s.mram := by unfold State.raise; split <;> simp
@[simp] theorem State.raise_jtag (s : State) (v : Fin 64) : (s.raise v).jtag = s.jtag := by unfold State.raise; split <;> simp
@[simp] theorem State.raise_tb (s : State) (v : Fin 64) : (s.raise v).tb = s.tb := by unfold State.raise; split <;> simp
@[simp] theorem State.raise_net (s : State) (v : Fin 64) : (s.raise v).net = s.net := by unfold State.raise; split <;> simp
@[simp] theorem State.raise_knots (s : State) (v : Fin 64) : (s.raise v).knots = s.knots := by unfold State.raise; split <;> simp
@[simp] theorem State.raise_gauges (s : State) (v : Fin 64) : (s.raise v).gauges = s.gauges := by unfold State.raise; split <;> simp
@[simp] theorem State.raise_gens (s : State) (v : Fin 64) : (s.raise v).gens = s.gens := by unfold State.raise; split <;> simp
@[simp] theorem State.raise_deep (s : State) (v : Fin 64) : (s.raise v).deep = s.deep := by unfold State.raise; split <;> simp
@[simp] theorem State.raise_chip (s : State) (v : Fin 64) : (s.raise v).chip = s.chip := by unfold State.raise; split <;> simp
@[simp] theorem State.raise_clocks (s : State) (v : Fin 64) : (s.raise v).clocks = s.clocks := by unfold State.raise; split <;> simp
@[simp] theorem State.raise_pins (s : State) (v : Fin 64) : (s.raise v).pins = s.pins := by unfold State.raise; split <;> simp
@[simp] theorem State.raise_dies (s : State) (v : Fin 64) : (s.raise v).dies = s.dies := by unfold State.raise; split <;> simp
@[simp] theorem State.raise_dsMem (s : State) (v : Fin 64) : (s.raise v).dsMem = s.dsMem := by unfold State.raise; split <;> simp
@[simp] theorem State.raise_basin (s : State) (v : Fin 64) : (s.raise v).basin = s.basin := by unfold State.raise; split <;> simp
@[simp] theorem State.raise_ram (s : State) (v : Fin 64) : (s.raise v).ram = s.ram := by unfold State.raise; split <;> simp

/-! ### setEv -/

@[simp] theorem State.setEv_now (s : State) (r : EvReg) (b : Dword) : (s.setEv r b).now = s.now := by unfold State.setEv; dsimp only; split; rfl; split <;> simp
@[simp] theorem State.setEv_fresh (s : State) (r : EvReg) (b : Dword) : (s.setEv r b).fresh = s.fresh := by unfold State.setEv; dsimp only; split; rfl; split <;> simp
@[simp] theorem State.setEv_pending (s : State) (r : EvReg) (b : Dword) : (s.setEv r b).pending = s.pending := by unfold State.setEv; dsimp only; split; rfl; split <;> simp
@[simp] theorem State.setEv_variant (s : State) (r : EvReg) (b : Dword) : (s.setEv r b).variant = s.variant := by unfold State.setEv; dsimp only; split; rfl; split <;> simp
@[simp] theorem State.setEv_objs (s : State) (r : EvReg) (b : Dword) : (s.setEv r b).objs = s.objs := by unfold State.setEv; dsimp only; split; rfl; split <;> simp
@[simp] theorem State.setEv_guard (s : State) (r : EvReg) (b : Dword) : (s.setEv r b).guard = s.guard := by unfold State.setEv; dsimp only; split; rfl; split <;> simp
@[simp] theorem State.setEv_host (s : State) (r : EvReg) (b : Dword) : (s.setEv r b).host = s.host := by unfold State.setEv; dsimp only; split; rfl; split <;> simp
@[simp] theorem State.setEv_dict (s : State) (r : EvReg) (b : Dword) : (s.setEv r b).dict = s.dict := by unfold State.setEv; dsimp only; split; rfl; split <;> simp
@[simp] theorem State.setEv_power (s : State) (r : EvReg) (b : Dword) : (s.setEv r b).power = s.power := by unfold State.setEv; dsimp only; split; rfl; split <;> simp
@[simp] theorem State.setEv_health (s : State) (r : EvReg) (b : Dword) : (s.setEv r b).health = s.health := by unfold State.setEv; dsimp only; split; rfl; split <;> simp
@[simp] theorem State.setEv_mram (s : State) (r : EvReg) (b : Dword) : (s.setEv r b).mram = s.mram := by unfold State.setEv; dsimp only; split; rfl; split <;> simp
@[simp] theorem State.setEv_jtag (s : State) (r : EvReg) (b : Dword) : (s.setEv r b).jtag = s.jtag := by unfold State.setEv; dsimp only; split; rfl; split <;> simp
@[simp] theorem State.setEv_tb (s : State) (r : EvReg) (b : Dword) : (s.setEv r b).tb = s.tb := by unfold State.setEv; dsimp only; split; rfl; split <;> simp
@[simp] theorem State.setEv_net (s : State) (r : EvReg) (b : Dword) : (s.setEv r b).net = s.net := by unfold State.setEv; dsimp only; split; rfl; split <;> simp
@[simp] theorem State.setEv_knots (s : State) (r : EvReg) (b : Dword) : (s.setEv r b).knots = s.knots := by unfold State.setEv; dsimp only; split; rfl; split <;> simp
@[simp] theorem State.setEv_gauges (s : State) (r : EvReg) (b : Dword) : (s.setEv r b).gauges = s.gauges := by unfold State.setEv; dsimp only; split; rfl; split <;> simp
@[simp] theorem State.setEv_gens (s : State) (r : EvReg) (b : Dword) : (s.setEv r b).gens = s.gens := by unfold State.setEv; dsimp only; split; rfl; split <;> simp
@[simp] theorem State.setEv_deep (s : State) (r : EvReg) (b : Dword) : (s.setEv r b).deep = s.deep := by unfold State.setEv; dsimp only; split; rfl; split <;> simp
@[simp] theorem State.setEv_chip (s : State) (r : EvReg) (b : Dword) : (s.setEv r b).chip = s.chip := by unfold State.setEv; dsimp only; split; rfl; split <;> simp
@[simp] theorem State.setEv_clocks (s : State) (r : EvReg) (b : Dword) : (s.setEv r b).clocks = s.clocks := by unfold State.setEv; dsimp only; split; rfl; split <;> simp
@[simp] theorem State.setEv_pins (s : State) (r : EvReg) (b : Dword) : (s.setEv r b).pins = s.pins := by unfold State.setEv; dsimp only; split; rfl; split <;> simp
@[simp] theorem State.setEv_dies (s : State) (r : EvReg) (b : Dword) : (s.setEv r b).dies = s.dies := by unfold State.setEv; dsimp only; split; rfl; split <;> simp
@[simp] theorem State.setEv_dsMem (s : State) (r : EvReg) (b : Dword) : (s.setEv r b).dsMem = s.dsMem := by unfold State.setEv; dsimp only; split; rfl; split <;> simp
@[simp] theorem State.setEv_basin (s : State) (r : EvReg) (b : Dword) : (s.setEv r b).basin = s.basin := by unfold State.setEv; dsimp only; split; rfl; split <;> simp
@[simp] theorem State.setEv_ram (s : State) (r : EvReg) (b : Dword) : (s.setEv r b).ram = s.ram := by unfold State.setEv; dsimp only; split; rfl; split <;> simp

/-! ### setEvBit -/

@[simp] theorem State.setEvBit_now (s : State) (r : EvReg) (i : Nat) : (s.setEvBit r i).now = s.now := State.setEv_now s r _
@[simp] theorem State.setEvBit_fresh (s : State) (r : EvReg) (i : Nat) : (s.setEvBit r i).fresh = s.fresh := State.setEv_fresh s r _
@[simp] theorem State.setEvBit_pending (s : State) (r : EvReg) (i : Nat) : (s.setEvBit r i).pending = s.pending := State.setEv_pending s r _
@[simp] theorem State.setEvBit_variant (s : State) (r : EvReg) (i : Nat) : (s.setEvBit r i).variant = s.variant := State.setEv_variant s r _
@[simp] theorem State.setEvBit_objs (s : State) (r : EvReg) (i : Nat) : (s.setEvBit r i).objs = s.objs := State.setEv_objs s r _
@[simp] theorem State.setEvBit_guard (s : State) (r : EvReg) (i : Nat) : (s.setEvBit r i).guard = s.guard := State.setEv_guard s r _
@[simp] theorem State.setEvBit_host (s : State) (r : EvReg) (i : Nat) : (s.setEvBit r i).host = s.host := State.setEv_host s r _
@[simp] theorem State.setEvBit_dict (s : State) (r : EvReg) (i : Nat) : (s.setEvBit r i).dict = s.dict := State.setEv_dict s r _
@[simp] theorem State.setEvBit_power (s : State) (r : EvReg) (i : Nat) : (s.setEvBit r i).power = s.power := State.setEv_power s r _
@[simp] theorem State.setEvBit_health (s : State) (r : EvReg) (i : Nat) : (s.setEvBit r i).health = s.health := State.setEv_health s r _
@[simp] theorem State.setEvBit_mram (s : State) (r : EvReg) (i : Nat) : (s.setEvBit r i).mram = s.mram := State.setEv_mram s r _
@[simp] theorem State.setEvBit_jtag (s : State) (r : EvReg) (i : Nat) : (s.setEvBit r i).jtag = s.jtag := State.setEv_jtag s r _
@[simp] theorem State.setEvBit_tb (s : State) (r : EvReg) (i : Nat) : (s.setEvBit r i).tb = s.tb := State.setEv_tb s r _
@[simp] theorem State.setEvBit_net (s : State) (r : EvReg) (i : Nat) : (s.setEvBit r i).net = s.net := State.setEv_net s r _
@[simp] theorem State.setEvBit_knots (s : State) (r : EvReg) (i : Nat) : (s.setEvBit r i).knots = s.knots := State.setEv_knots s r _
@[simp] theorem State.setEvBit_gauges (s : State) (r : EvReg) (i : Nat) : (s.setEvBit r i).gauges = s.gauges := State.setEv_gauges s r _
@[simp] theorem State.setEvBit_gens (s : State) (r : EvReg) (i : Nat) : (s.setEvBit r i).gens = s.gens := State.setEv_gens s r _
@[simp] theorem State.setEvBit_deep (s : State) (r : EvReg) (i : Nat) : (s.setEvBit r i).deep = s.deep := State.setEv_deep s r _
@[simp] theorem State.setEvBit_chip (s : State) (r : EvReg) (i : Nat) : (s.setEvBit r i).chip = s.chip := State.setEv_chip s r _
@[simp] theorem State.setEvBit_clocks (s : State) (r : EvReg) (i : Nat) : (s.setEvBit r i).clocks = s.clocks := State.setEv_clocks s r _
@[simp] theorem State.setEvBit_pins (s : State) (r : EvReg) (i : Nat) : (s.setEvBit r i).pins = s.pins := State.setEv_pins s r _
@[simp] theorem State.setEvBit_dies (s : State) (r : EvReg) (i : Nat) : (s.setEvBit r i).dies = s.dies := State.setEv_dies s r _
@[simp] theorem State.setEvBit_dsMem (s : State) (r : EvReg) (i : Nat) : (s.setEvBit r i).dsMem = s.dsMem := State.setEv_dsMem s r _
@[simp] theorem State.setEvBit_basin (s : State) (r : EvReg) (i : Nat) : (s.setEvBit r i).basin = s.basin := State.setEv_basin s r _
@[simp] theorem State.setEvBit_ram (s : State) (r : EvReg) (i : Nat) : (s.setEvBit r i).ram = s.ram := State.setEv_ram s r _

/-! ### clearEv -/

@[simp] theorem State.clearEv_now (s : State) (r : EvReg) (b : Dword) : (s.clearEv r b).now = s.now := rfl
@[simp] theorem State.clearEv_fresh (s : State) (r : EvReg) (b : Dword) : (s.clearEv r b).fresh = s.fresh := rfl
@[simp] theorem State.clearEv_pending (s : State) (r : EvReg) (b : Dword) : (s.clearEv r b).pending = s.pending := rfl
@[simp] theorem State.clearEv_out (s : State) (r : EvReg) (b : Dword) : (s.clearEv r b).out = s.out := rfl
@[simp] theorem State.clearEv_variant (s : State) (r : EvReg) (b : Dword) : (s.clearEv r b).variant = s.variant := rfl
@[simp] theorem State.clearEv_objs (s : State) (r : EvReg) (b : Dword) : (s.clearEv r b).objs = s.objs := rfl
@[simp] theorem State.clearEv_guard (s : State) (r : EvReg) (b : Dword) : (s.clearEv r b).guard = s.guard := rfl
@[simp] theorem State.clearEv_host (s : State) (r : EvReg) (b : Dword) : (s.clearEv r b).host = s.host := rfl
@[simp] theorem State.clearEv_pcie (s : State) (r : EvReg) (b : Dword) : (s.clearEv r b).pcie = s.pcie := rfl
@[simp] theorem State.clearEv_dict (s : State) (r : EvReg) (b : Dword) : (s.clearEv r b).dict = s.dict := rfl
@[simp] theorem State.clearEv_power (s : State) (r : EvReg) (b : Dword) : (s.clearEv r b).power = s.power := rfl
@[simp] theorem State.clearEv_health (s : State) (r : EvReg) (b : Dword) : (s.clearEv r b).health = s.health := rfl
@[simp] theorem State.clearEv_mram (s : State) (r : EvReg) (b : Dword) : (s.clearEv r b).mram = s.mram := rfl
@[simp] theorem State.clearEv_jtag (s : State) (r : EvReg) (b : Dword) : (s.clearEv r b).jtag = s.jtag := rfl
@[simp] theorem State.clearEv_tb (s : State) (r : EvReg) (b : Dword) : (s.clearEv r b).tb = s.tb := rfl
@[simp] theorem State.clearEv_net (s : State) (r : EvReg) (b : Dword) : (s.clearEv r b).net = s.net := rfl
@[simp] theorem State.clearEv_knots (s : State) (r : EvReg) (b : Dword) : (s.clearEv r b).knots = s.knots := rfl
@[simp] theorem State.clearEv_gauges (s : State) (r : EvReg) (b : Dword) : (s.clearEv r b).gauges = s.gauges := rfl
@[simp] theorem State.clearEv_gens (s : State) (r : EvReg) (b : Dword) : (s.clearEv r b).gens = s.gens := rfl
@[simp] theorem State.clearEv_deep (s : State) (r : EvReg) (b : Dword) : (s.clearEv r b).deep = s.deep := rfl
@[simp] theorem State.clearEv_chip (s : State) (r : EvReg) (b : Dword) : (s.clearEv r b).chip = s.chip := rfl
@[simp] theorem State.clearEv_clocks (s : State) (r : EvReg) (b : Dword) : (s.clearEv r b).clocks = s.clocks := rfl
@[simp] theorem State.clearEv_pins (s : State) (r : EvReg) (b : Dword) : (s.clearEv r b).pins = s.pins := rfl
@[simp] theorem State.clearEv_dies (s : State) (r : EvReg) (b : Dword) : (s.clearEv r b).dies = s.dies := rfl
@[simp] theorem State.clearEv_dsMem (s : State) (r : EvReg) (b : Dword) : (s.clearEv r b).dsMem = s.dsMem := rfl
@[simp] theorem State.clearEv_basin (s : State) (r : EvReg) (b : Dword) : (s.clearEv r b).basin = s.basin := rfl
@[simp] theorem State.clearEv_ram (s : State) (r : EvReg) (b : Dword) : (s.clearEv r b).ram = s.ram := rfl

/-! ### bbPush -/

@[simp] theorem State.bbPush_now (s : State) (e : BbQueued) : (s.bbPush e).now = s.now := rfl
@[simp] theorem State.bbPush_fresh (s : State) (e : BbQueued) : (s.bbPush e).fresh = s.fresh := rfl
@[simp] theorem State.bbPush_pending (s : State) (e : BbQueued) : (s.bbPush e).pending = s.pending := rfl
@[simp] theorem State.bbPush_out (s : State) (e : BbQueued) : (s.bbPush e).out = s.out := rfl
@[simp] theorem State.bbPush_variant (s : State) (e : BbQueued) : (s.bbPush e).variant = s.variant := rfl
@[simp] theorem State.bbPush_objs (s : State) (e : BbQueued) : (s.bbPush e).objs = s.objs := rfl
@[simp] theorem State.bbPush_events (s : State) (e : BbQueued) : (s.bbPush e).events = s.events := rfl
@[simp] theorem State.bbPush_guard (s : State) (e : BbQueued) : (s.bbPush e).guard = s.guard := rfl
@[simp] theorem State.bbPush_host (s : State) (e : BbQueued) : (s.bbPush e).host = s.host := rfl
@[simp] theorem State.bbPush_pcie (s : State) (e : BbQueued) : (s.bbPush e).pcie = s.pcie := rfl
@[simp] theorem State.bbPush_dict (s : State) (e : BbQueued) : (s.bbPush e).dict = s.dict := rfl
@[simp] theorem State.bbPush_power (s : State) (e : BbQueued) : (s.bbPush e).power = s.power := rfl
@[simp] theorem State.bbPush_mram (s : State) (e : BbQueued) : (s.bbPush e).mram = s.mram := rfl
@[simp] theorem State.bbPush_jtag (s : State) (e : BbQueued) : (s.bbPush e).jtag = s.jtag := rfl
@[simp] theorem State.bbPush_tb (s : State) (e : BbQueued) : (s.bbPush e).tb = s.tb := rfl
@[simp] theorem State.bbPush_net (s : State) (e : BbQueued) : (s.bbPush e).net = s.net := rfl
@[simp] theorem State.bbPush_knots (s : State) (e : BbQueued) : (s.bbPush e).knots = s.knots := rfl
@[simp] theorem State.bbPush_gauges (s : State) (e : BbQueued) : (s.bbPush e).gauges = s.gauges := rfl
@[simp] theorem State.bbPush_gens (s : State) (e : BbQueued) : (s.bbPush e).gens = s.gens := rfl
@[simp] theorem State.bbPush_deep (s : State) (e : BbQueued) : (s.bbPush e).deep = s.deep := rfl
@[simp] theorem State.bbPush_chip (s : State) (e : BbQueued) : (s.bbPush e).chip = s.chip := rfl
@[simp] theorem State.bbPush_clocks (s : State) (e : BbQueued) : (s.bbPush e).clocks = s.clocks := rfl
@[simp] theorem State.bbPush_pins (s : State) (e : BbQueued) : (s.bbPush e).pins = s.pins := rfl
@[simp] theorem State.bbPush_dies (s : State) (e : BbQueued) : (s.bbPush e).dies = s.dies := rfl
@[simp] theorem State.bbPush_dsMem (s : State) (e : BbQueued) : (s.bbPush e).dsMem = s.dsMem := rfl
@[simp] theorem State.bbPush_basin (s : State) (e : BbQueued) : (s.bbPush e).basin = s.basin := rfl
@[simp] theorem State.bbPush_ram (s : State) (e : BbQueued) : (s.bbPush e).ram = s.ram := rfl

/-! ### bbDrop -/

@[simp] theorem State.bbDrop_now (s : State) : (s.bbDrop).now = s.now := by unfold State.bbDrop; simp
@[simp] theorem State.bbDrop_fresh (s : State) : (s.bbDrop).fresh = s.fresh := by unfold State.bbDrop; simp
@[simp] theorem State.bbDrop_pending (s : State) : (s.bbDrop).pending = s.pending := by unfold State.bbDrop; simp
@[simp] theorem State.bbDrop_variant (s : State) : (s.bbDrop).variant = s.variant := by unfold State.bbDrop; simp
@[simp] theorem State.bbDrop_guard (s : State) : (s.bbDrop).guard = s.guard := by unfold State.bbDrop; simp
@[simp] theorem State.bbDrop_host (s : State) : (s.bbDrop).host = s.host := by unfold State.bbDrop; simp
@[simp] theorem State.bbDrop_power (s : State) : (s.bbDrop).power = s.power := by unfold State.bbDrop; simp
@[simp] theorem State.bbDrop_mram (s : State) : (s.bbDrop).mram = s.mram := by unfold State.bbDrop; simp
@[simp] theorem State.bbDrop_jtag (s : State) : (s.bbDrop).jtag = s.jtag := by unfold State.bbDrop; simp
@[simp] theorem State.bbDrop_tb (s : State) : (s.bbDrop).tb = s.tb := by unfold State.bbDrop; simp
@[simp] theorem State.bbDrop_net (s : State) : (s.bbDrop).net = s.net := by unfold State.bbDrop; simp
@[simp] theorem State.bbDrop_knots (s : State) : (s.bbDrop).knots = s.knots := by unfold State.bbDrop; simp
@[simp] theorem State.bbDrop_gauges (s : State) : (s.bbDrop).gauges = s.gauges := by unfold State.bbDrop; simp
@[simp] theorem State.bbDrop_gens (s : State) : (s.bbDrop).gens = s.gens := by unfold State.bbDrop; simp
@[simp] theorem State.bbDrop_deep (s : State) : (s.bbDrop).deep = s.deep := by unfold State.bbDrop; simp
@[simp] theorem State.bbDrop_chip (s : State) : (s.bbDrop).chip = s.chip := by unfold State.bbDrop; simp
@[simp] theorem State.bbDrop_clocks (s : State) : (s.bbDrop).clocks = s.clocks := by unfold State.bbDrop; simp
@[simp] theorem State.bbDrop_pins (s : State) : (s.bbDrop).pins = s.pins := by unfold State.bbDrop; simp
@[simp] theorem State.bbDrop_dies (s : State) : (s.bbDrop).dies = s.dies := by unfold State.bbDrop; simp
@[simp] theorem State.bbDrop_dsMem (s : State) : (s.bbDrop).dsMem = s.dsMem := by unfold State.bbDrop; simp
@[simp] theorem State.bbDrop_basin (s : State) : (s.bbDrop).basin = s.basin := by unfold State.bbDrop; simp
@[simp] theorem State.bbDrop_ram (s : State) : (s.bbDrop).ram = s.ram := by unfold State.bbDrop; simp

/-! ### bb -/

@[simp] theorem State.bb_now (s : State) (c v : Nat) (d : List Byte) : (s.bb c v d).now = s.now := by unfold State.bb; dsimp only; split; rfl; split; simp; split <;> simp
@[simp] theorem State.bb_fresh (s : State) (c v : Nat) (d : List Byte) : (s.bb c v d).fresh = s.fresh := by unfold State.bb; dsimp only; split; rfl; split; simp; split <;> simp
@[simp] theorem State.bb_pending (s : State) (c v : Nat) (d : List Byte) : (s.bb c v d).pending = s.pending := by unfold State.bb; dsimp only; split; rfl; split; simp; split <;> simp
@[simp] theorem State.bb_variant (s : State) (c v : Nat) (d : List Byte) : (s.bb c v d).variant = s.variant := by unfold State.bb; dsimp only; split; rfl; split; simp; split <;> simp
@[simp] theorem State.bb_guard (s : State) (c v : Nat) (d : List Byte) : (s.bb c v d).guard = s.guard := by unfold State.bb; dsimp only; split; rfl; split; simp; split <;> simp
@[simp] theorem State.bb_host (s : State) (c v : Nat) (d : List Byte) : (s.bb c v d).host = s.host := by unfold State.bb; dsimp only; split; rfl; split; simp; split <;> simp
@[simp] theorem State.bb_power (s : State) (c v : Nat) (d : List Byte) : (s.bb c v d).power = s.power := by unfold State.bb; dsimp only; split; rfl; split; simp; split <;> simp
@[simp] theorem State.bb_mram (s : State) (c v : Nat) (d : List Byte) : (s.bb c v d).mram = s.mram := by unfold State.bb; dsimp only; split; rfl; split; simp; split <;> simp
@[simp] theorem State.bb_jtag (s : State) (c v : Nat) (d : List Byte) : (s.bb c v d).jtag = s.jtag := by unfold State.bb; dsimp only; split; rfl; split; simp; split <;> simp
@[simp] theorem State.bb_tb (s : State) (c v : Nat) (d : List Byte) : (s.bb c v d).tb = s.tb := by unfold State.bb; dsimp only; split; rfl; split; simp; split <;> simp
@[simp] theorem State.bb_net (s : State) (c v : Nat) (d : List Byte) : (s.bb c v d).net = s.net := by unfold State.bb; dsimp only; split; rfl; split; simp; split <;> simp
@[simp] theorem State.bb_knots (s : State) (c v : Nat) (d : List Byte) : (s.bb c v d).knots = s.knots := by unfold State.bb; dsimp only; split; rfl; split; simp; split <;> simp
@[simp] theorem State.bb_gauges (s : State) (c v : Nat) (d : List Byte) : (s.bb c v d).gauges = s.gauges := by unfold State.bb; dsimp only; split; rfl; split; simp; split <;> simp
@[simp] theorem State.bb_gens (s : State) (c v : Nat) (d : List Byte) : (s.bb c v d).gens = s.gens := by unfold State.bb; dsimp only; split; rfl; split; simp; split <;> simp
@[simp] theorem State.bb_deep (s : State) (c v : Nat) (d : List Byte) : (s.bb c v d).deep = s.deep := by unfold State.bb; dsimp only; split; rfl; split; simp; split <;> simp
@[simp] theorem State.bb_chip (s : State) (c v : Nat) (d : List Byte) : (s.bb c v d).chip = s.chip := by unfold State.bb; dsimp only; split; rfl; split; simp; split <;> simp
@[simp] theorem State.bb_clocks (s : State) (c v : Nat) (d : List Byte) : (s.bb c v d).clocks = s.clocks := by unfold State.bb; dsimp only; split; rfl; split; simp; split <;> simp
@[simp] theorem State.bb_pins (s : State) (c v : Nat) (d : List Byte) : (s.bb c v d).pins = s.pins := by unfold State.bb; dsimp only; split; rfl; split; simp; split <;> simp
@[simp] theorem State.bb_dies (s : State) (c v : Nat) (d : List Byte) : (s.bb c v d).dies = s.dies := by unfold State.bb; dsimp only; split; rfl; split; simp; split <;> simp
@[simp] theorem State.bb_dsMem (s : State) (c v : Nat) (d : List Byte) : (s.bb c v d).dsMem = s.dsMem := by unfold State.bb; dsimp only; split; rfl; split; simp; split <;> simp
@[simp] theorem State.bb_basin (s : State) (c v : Nat) (d : List Byte) : (s.bb c v d).basin = s.basin := by unfold State.bb; dsimp only; split; rfl; split; simp; split <;> simp
@[simp] theorem State.bb_ram (s : State) (c v : Nat) (d : List Byte) : (s.bb c v d).ram = s.ram := by unfold State.bb; dsimp only; split; rfl; split; simp; split <;> simp

/-! ### ignoreOp -/

@[simp] theorem State.ignoreOp_now (s : State) (l : Nat × Nat) (a : Source) (c : Cause) : (s.ignoreOp l a c).now = s.now := by unfold State.ignoreOp; dsimp only; split <;> simp
@[simp] theorem State.ignoreOp_fresh (s : State) (l : Nat × Nat) (a : Source) (c : Cause) : (s.ignoreOp l a c).fresh = s.fresh := by unfold State.ignoreOp; dsimp only; split <;> simp
@[simp] theorem State.ignoreOp_pending (s : State) (l : Nat × Nat) (a : Source) (c : Cause) : (s.ignoreOp l a c).pending = s.pending := by unfold State.ignoreOp; dsimp only; split <;> simp
@[simp] theorem State.ignoreOp_variant (s : State) (l : Nat × Nat) (a : Source) (c : Cause) : (s.ignoreOp l a c).variant = s.variant := by unfold State.ignoreOp; dsimp only; split <;> simp
@[simp] theorem State.ignoreOp_guard (s : State) (l : Nat × Nat) (a : Source) (c : Cause) : (s.ignoreOp l a c).guard = s.guard := by unfold State.ignoreOp; dsimp only; split <;> simp
@[simp] theorem State.ignoreOp_host (s : State) (l : Nat × Nat) (a : Source) (c : Cause) : (s.ignoreOp l a c).host = s.host := by unfold State.ignoreOp; dsimp only; split <;> simp
@[simp] theorem State.ignoreOp_power (s : State) (l : Nat × Nat) (a : Source) (c : Cause) : (s.ignoreOp l a c).power = s.power := by unfold State.ignoreOp; dsimp only; split <;> simp
@[simp] theorem State.ignoreOp_mram (s : State) (l : Nat × Nat) (a : Source) (c : Cause) : (s.ignoreOp l a c).mram = s.mram := by unfold State.ignoreOp; dsimp only; split <;> simp
@[simp] theorem State.ignoreOp_jtag (s : State) (l : Nat × Nat) (a : Source) (c : Cause) : (s.ignoreOp l a c).jtag = s.jtag := by unfold State.ignoreOp; dsimp only; split <;> simp
@[simp] theorem State.ignoreOp_tb (s : State) (l : Nat × Nat) (a : Source) (c : Cause) : (s.ignoreOp l a c).tb = s.tb := by unfold State.ignoreOp; dsimp only; split <;> simp
@[simp] theorem State.ignoreOp_net (s : State) (l : Nat × Nat) (a : Source) (c : Cause) : (s.ignoreOp l a c).net = s.net := by unfold State.ignoreOp; dsimp only; split <;> simp
@[simp] theorem State.ignoreOp_knots (s : State) (l : Nat × Nat) (a : Source) (c : Cause) : (s.ignoreOp l a c).knots = s.knots := by unfold State.ignoreOp; dsimp only; split <;> simp
@[simp] theorem State.ignoreOp_gauges (s : State) (l : Nat × Nat) (a : Source) (c : Cause) : (s.ignoreOp l a c).gauges = s.gauges := by unfold State.ignoreOp; dsimp only; split <;> simp
@[simp] theorem State.ignoreOp_gens (s : State) (l : Nat × Nat) (a : Source) (c : Cause) : (s.ignoreOp l a c).gens = s.gens := by unfold State.ignoreOp; dsimp only; split <;> simp
@[simp] theorem State.ignoreOp_deep (s : State) (l : Nat × Nat) (a : Source) (c : Cause) : (s.ignoreOp l a c).deep = s.deep := by unfold State.ignoreOp; dsimp only; split <;> simp
@[simp] theorem State.ignoreOp_chip (s : State) (l : Nat × Nat) (a : Source) (c : Cause) : (s.ignoreOp l a c).chip = s.chip := by unfold State.ignoreOp; dsimp only; split <;> simp
@[simp] theorem State.ignoreOp_clocks (s : State) (l : Nat × Nat) (a : Source) (c : Cause) : (s.ignoreOp l a c).clocks = s.clocks := by unfold State.ignoreOp; dsimp only; split <;> simp
@[simp] theorem State.ignoreOp_pins (s : State) (l : Nat × Nat) (a : Source) (c : Cause) : (s.ignoreOp l a c).pins = s.pins := by unfold State.ignoreOp; dsimp only; split <;> simp
@[simp] theorem State.ignoreOp_dies (s : State) (l : Nat × Nat) (a : Source) (c : Cause) : (s.ignoreOp l a c).dies = s.dies := by unfold State.ignoreOp; dsimp only; split <;> simp
@[simp] theorem State.ignoreOp_dsMem (s : State) (l : Nat × Nat) (a : Source) (c : Cause) : (s.ignoreOp l a c).dsMem = s.dsMem := by unfold State.ignoreOp; dsimp only; split <;> simp
@[simp] theorem State.ignoreOp_basin (s : State) (l : Nat × Nat) (a : Source) (c : Cause) : (s.ignoreOp l a c).basin = s.basin := by unfold State.ignoreOp; dsimp only; split <;> simp
@[simp] theorem State.ignoreOp_ram (s : State) (l : Nat × Nat) (a : Source) (c : Cause) : (s.ignoreOp l a c).ram = s.ram := by unfold State.ignoreOp; dsimp only; split <;> simp

/-! ### clampOp -/

@[simp] theorem State.clampOp_now (s : State) (l : Nat × Nat) (n : Nat) (a : Source) (x y : Int) : (s.clampOp l n a x y).now = s.now := by unfold State.clampOp; dsimp only; split <;> simp
@[simp] theorem State.clampOp_fresh (s : State) (l : Nat × Nat) (n : Nat) (a : Source) (x y : Int) : (s.clampOp l n a x y).fresh = s.fresh := by unfold State.clampOp; dsimp only; split <;> simp
@[simp] theorem State.clampOp_pending (s : State) (l : Nat × Nat) (n : Nat) (a : Source) (x y : Int) : (s.clampOp l n a x y).pending = s.pending := by unfold State.clampOp; dsimp only; split <;> simp
@[simp] theorem State.clampOp_variant (s : State) (l : Nat × Nat) (n : Nat) (a : Source) (x y : Int) : (s.clampOp l n a x y).variant = s.variant := by unfold State.clampOp; dsimp only; split <;> simp
@[simp] theorem State.clampOp_guard (s : State) (l : Nat × Nat) (n : Nat) (a : Source) (x y : Int) : (s.clampOp l n a x y).guard = s.guard := by unfold State.clampOp; dsimp only; split <;> simp
@[simp] theorem State.clampOp_host (s : State) (l : Nat × Nat) (n : Nat) (a : Source) (x y : Int) : (s.clampOp l n a x y).host = s.host := by unfold State.clampOp; dsimp only; split <;> simp
@[simp] theorem State.clampOp_power (s : State) (l : Nat × Nat) (n : Nat) (a : Source) (x y : Int) : (s.clampOp l n a x y).power = s.power := by unfold State.clampOp; dsimp only; split <;> simp
@[simp] theorem State.clampOp_mram (s : State) (l : Nat × Nat) (n : Nat) (a : Source) (x y : Int) : (s.clampOp l n a x y).mram = s.mram := by unfold State.clampOp; dsimp only; split <;> simp
@[simp] theorem State.clampOp_jtag (s : State) (l : Nat × Nat) (n : Nat) (a : Source) (x y : Int) : (s.clampOp l n a x y).jtag = s.jtag := by unfold State.clampOp; dsimp only; split <;> simp
@[simp] theorem State.clampOp_tb (s : State) (l : Nat × Nat) (n : Nat) (a : Source) (x y : Int) : (s.clampOp l n a x y).tb = s.tb := by unfold State.clampOp; dsimp only; split <;> simp
@[simp] theorem State.clampOp_net (s : State) (l : Nat × Nat) (n : Nat) (a : Source) (x y : Int) : (s.clampOp l n a x y).net = s.net := by unfold State.clampOp; dsimp only; split <;> simp
@[simp] theorem State.clampOp_knots (s : State) (l : Nat × Nat) (n : Nat) (a : Source) (x y : Int) : (s.clampOp l n a x y).knots = s.knots := by unfold State.clampOp; dsimp only; split <;> simp
@[simp] theorem State.clampOp_gauges (s : State) (l : Nat × Nat) (n : Nat) (a : Source) (x y : Int) : (s.clampOp l n a x y).gauges = s.gauges := by unfold State.clampOp; dsimp only; split <;> simp
@[simp] theorem State.clampOp_gens (s : State) (l : Nat × Nat) (n : Nat) (a : Source) (x y : Int) : (s.clampOp l n a x y).gens = s.gens := by unfold State.clampOp; dsimp only; split <;> simp
@[simp] theorem State.clampOp_deep (s : State) (l : Nat × Nat) (n : Nat) (a : Source) (x y : Int) : (s.clampOp l n a x y).deep = s.deep := by unfold State.clampOp; dsimp only; split <;> simp
@[simp] theorem State.clampOp_chip (s : State) (l : Nat × Nat) (n : Nat) (a : Source) (x y : Int) : (s.clampOp l n a x y).chip = s.chip := by unfold State.clampOp; dsimp only; split <;> simp
@[simp] theorem State.clampOp_clocks (s : State) (l : Nat × Nat) (n : Nat) (a : Source) (x y : Int) : (s.clampOp l n a x y).clocks = s.clocks := by unfold State.clampOp; dsimp only; split <;> simp
@[simp] theorem State.clampOp_pins (s : State) (l : Nat × Nat) (n : Nat) (a : Source) (x y : Int) : (s.clampOp l n a x y).pins = s.pins := by unfold State.clampOp; dsimp only; split <;> simp
@[simp] theorem State.clampOp_dies (s : State) (l : Nat × Nat) (n : Nat) (a : Source) (x y : Int) : (s.clampOp l n a x y).dies = s.dies := by unfold State.clampOp; dsimp only; split <;> simp
@[simp] theorem State.clampOp_dsMem (s : State) (l : Nat × Nat) (n : Nat) (a : Source) (x y : Int) : (s.clampOp l n a x y).dsMem = s.dsMem := by unfold State.clampOp; dsimp only; split <;> simp
@[simp] theorem State.clampOp_basin (s : State) (l : Nat × Nat) (n : Nat) (a : Source) (x y : Int) : (s.clampOp l n a x y).basin = s.basin := by unfold State.clampOp; dsimp only; split <;> simp
@[simp] theorem State.clampOp_ram (s : State) (l : Nat × Nat) (n : Nat) (a : Source) (x y : Int) : (s.clampOp l n a x y).ram = s.ram := by unfold State.clampOp; dsimp only; split <;> simp

/-! ### withDie -/

@[simp] theorem State.withDie_now (s : State) (d : Die) (f : DieSt → DieSt) : (s.withDie d f).now = s.now := rfl
@[simp] theorem State.withDie_fresh (s : State) (d : Die) (f : DieSt → DieSt) : (s.withDie d f).fresh = s.fresh := rfl
@[simp] theorem State.withDie_pending (s : State) (d : Die) (f : DieSt → DieSt) : (s.withDie d f).pending = s.pending := rfl
@[simp] theorem State.withDie_out (s : State) (d : Die) (f : DieSt → DieSt) : (s.withDie d f).out = s.out := rfl
@[simp] theorem State.withDie_variant (s : State) (d : Die) (f : DieSt → DieSt) : (s.withDie d f).variant = s.variant := rfl
@[simp] theorem State.withDie_objs (s : State) (d : Die) (f : DieSt → DieSt) : (s.withDie d f).objs = s.objs := rfl
@[simp] theorem State.withDie_events (s : State) (d : Die) (f : DieSt → DieSt) : (s.withDie d f).events = s.events := rfl
@[simp] theorem State.withDie_guard (s : State) (d : Die) (f : DieSt → DieSt) : (s.withDie d f).guard = s.guard := rfl
@[simp] theorem State.withDie_host (s : State) (d : Die) (f : DieSt → DieSt) : (s.withDie d f).host = s.host := rfl
@[simp] theorem State.withDie_pcie (s : State) (d : Die) (f : DieSt → DieSt) : (s.withDie d f).pcie = s.pcie := rfl
@[simp] theorem State.withDie_dict (s : State) (d : Die) (f : DieSt → DieSt) : (s.withDie d f).dict = s.dict := rfl
@[simp] theorem State.withDie_power (s : State) (d : Die) (f : DieSt → DieSt) : (s.withDie d f).power = s.power := rfl
@[simp] theorem State.withDie_health (s : State) (d : Die) (f : DieSt → DieSt) : (s.withDie d f).health = s.health := rfl
@[simp] theorem State.withDie_mram (s : State) (d : Die) (f : DieSt → DieSt) : (s.withDie d f).mram = s.mram := rfl
@[simp] theorem State.withDie_jtag (s : State) (d : Die) (f : DieSt → DieSt) : (s.withDie d f).jtag = s.jtag := rfl
@[simp] theorem State.withDie_tb (s : State) (d : Die) (f : DieSt → DieSt) : (s.withDie d f).tb = s.tb := rfl
@[simp] theorem State.withDie_net (s : State) (d : Die) (f : DieSt → DieSt) : (s.withDie d f).net = s.net := rfl
@[simp] theorem State.withDie_knots (s : State) (d : Die) (f : DieSt → DieSt) : (s.withDie d f).knots = s.knots := rfl
@[simp] theorem State.withDie_gauges (s : State) (d : Die) (f : DieSt → DieSt) : (s.withDie d f).gauges = s.gauges := rfl
@[simp] theorem State.withDie_gens (s : State) (d : Die) (f : DieSt → DieSt) : (s.withDie d f).gens = s.gens := rfl
@[simp] theorem State.withDie_deep (s : State) (d : Die) (f : DieSt → DieSt) : (s.withDie d f).deep = s.deep := rfl
@[simp] theorem State.withDie_chip (s : State) (d : Die) (f : DieSt → DieSt) : (s.withDie d f).chip = s.chip := rfl
@[simp] theorem State.withDie_clocks (s : State) (d : Die) (f : DieSt → DieSt) : (s.withDie d f).clocks = s.clocks := rfl
@[simp] theorem State.withDie_pins (s : State) (d : Die) (f : DieSt → DieSt) : (s.withDie d f).pins = s.pins := rfl
@[simp] theorem State.withDie_dsMem (s : State) (d : Die) (f : DieSt → DieSt) : (s.withDie d f).dsMem = s.dsMem := rfl
@[simp] theorem State.withDie_basin (s : State) (d : Die) (f : DieSt → DieSt) : (s.withDie d f).basin = s.basin := rfl
@[simp] theorem State.withDie_ram (s : State) (d : Die) (f : DieSt → DieSt) : (s.withDie d f).ram = s.ram := rfl

/-! ### withGen -/

@[simp] theorem State.withGen_now (s : State) (d : Die) (f : Gen → Gen) : (s.withGen d f).now = s.now := rfl
@[simp] theorem State.withGen_fresh (s : State) (d : Die) (f : Gen → Gen) : (s.withGen d f).fresh = s.fresh := rfl
@[simp] theorem State.withGen_pending (s : State) (d : Die) (f : Gen → Gen) : (s.withGen d f).pending = s.pending := rfl
@[simp] theorem State.withGen_out (s : State) (d : Die) (f : Gen → Gen) : (s.withGen d f).out = s.out := rfl
@[simp] theorem State.withGen_variant (s : State) (d : Die) (f : Gen → Gen) : (s.withGen d f).variant = s.variant := rfl
@[simp] theorem State.withGen_objs (s : State) (d : Die) (f : Gen → Gen) : (s.withGen d f).objs = s.objs := rfl
@[simp] theorem State.withGen_events (s : State) (d : Die) (f : Gen → Gen) : (s.withGen d f).events = s.events := rfl
@[simp] theorem State.withGen_guard (s : State) (d : Die) (f : Gen → Gen) : (s.withGen d f).guard = s.guard := rfl
@[simp] theorem State.withGen_host (s : State) (d : Die) (f : Gen → Gen) : (s.withGen d f).host = s.host := rfl
@[simp] theorem State.withGen_pcie (s : State) (d : Die) (f : Gen → Gen) : (s.withGen d f).pcie = s.pcie := rfl
@[simp] theorem State.withGen_dict (s : State) (d : Die) (f : Gen → Gen) : (s.withGen d f).dict = s.dict := rfl
@[simp] theorem State.withGen_power (s : State) (d : Die) (f : Gen → Gen) : (s.withGen d f).power = s.power := rfl
@[simp] theorem State.withGen_health (s : State) (d : Die) (f : Gen → Gen) : (s.withGen d f).health = s.health := rfl
@[simp] theorem State.withGen_mram (s : State) (d : Die) (f : Gen → Gen) : (s.withGen d f).mram = s.mram := rfl
@[simp] theorem State.withGen_jtag (s : State) (d : Die) (f : Gen → Gen) : (s.withGen d f).jtag = s.jtag := rfl
@[simp] theorem State.withGen_tb (s : State) (d : Die) (f : Gen → Gen) : (s.withGen d f).tb = s.tb := rfl
@[simp] theorem State.withGen_net (s : State) (d : Die) (f : Gen → Gen) : (s.withGen d f).net = s.net := rfl
@[simp] theorem State.withGen_knots (s : State) (d : Die) (f : Gen → Gen) : (s.withGen d f).knots = s.knots := rfl
@[simp] theorem State.withGen_gauges (s : State) (d : Die) (f : Gen → Gen) : (s.withGen d f).gauges = s.gauges := rfl
@[simp] theorem State.withGen_deep (s : State) (d : Die) (f : Gen → Gen) : (s.withGen d f).deep = s.deep := rfl
@[simp] theorem State.withGen_chip (s : State) (d : Die) (f : Gen → Gen) : (s.withGen d f).chip = s.chip := rfl
@[simp] theorem State.withGen_clocks (s : State) (d : Die) (f : Gen → Gen) : (s.withGen d f).clocks = s.clocks := rfl
@[simp] theorem State.withGen_pins (s : State) (d : Die) (f : Gen → Gen) : (s.withGen d f).pins = s.pins := rfl
@[simp] theorem State.withGen_dies (s : State) (d : Die) (f : Gen → Gen) : (s.withGen d f).dies = s.dies := rfl
@[simp] theorem State.withGen_dsMem (s : State) (d : Die) (f : Gen → Gen) : (s.withGen d f).dsMem = s.dsMem := rfl
@[simp] theorem State.withGen_basin (s : State) (d : Die) (f : Gen → Gen) : (s.withGen d f).basin = s.basin := rfl
@[simp] theorem State.withGen_ram (s : State) (d : Die) (f : Gen → Gen) : (s.withGen d f).ram = s.ram := rfl

/-! ### withGauge -/

@[simp] theorem State.withGauge_now (s : State) (g : Fin 64) (f : Gauge → Gauge) : (s.withGauge g f).now = s.now := rfl
@[simp] theorem State.withGauge_fresh (s : State) (g : Fin 64) (f : Gauge → Gauge) : (s.withGauge g f).fresh = s.fresh := rfl
@[simp] theorem State.withGauge_pending (s : State) (g : Fin 64) (f : Gauge → Gauge) : (s.withGauge g f).pending = s.pending := rfl
@[simp] theorem State.withGauge_out (s : State) (g : Fin 64) (f : Gauge → Gauge) : (s.withGauge g f).out = s.out := rfl
@[simp] theorem State.withGauge_variant (s : State) (g : Fin 64) (f : Gauge → Gauge) : (s.withGauge g f).variant = s.variant := rfl
@[simp] theorem State.withGauge_objs (s : State) (g : Fin 64) (f : Gauge → Gauge) : (s.withGauge g f).objs = s.objs := rfl
@[simp] theorem State.withGauge_events (s : State) (g : Fin 64) (f : Gauge → Gauge) : (s.withGauge g f).events = s.events := rfl
@[simp] theorem State.withGauge_guard (s : State) (g : Fin 64) (f : Gauge → Gauge) : (s.withGauge g f).guard = s.guard := rfl
@[simp] theorem State.withGauge_host (s : State) (g : Fin 64) (f : Gauge → Gauge) : (s.withGauge g f).host = s.host := rfl
@[simp] theorem State.withGauge_pcie (s : State) (g : Fin 64) (f : Gauge → Gauge) : (s.withGauge g f).pcie = s.pcie := rfl
@[simp] theorem State.withGauge_dict (s : State) (g : Fin 64) (f : Gauge → Gauge) : (s.withGauge g f).dict = s.dict := rfl
@[simp] theorem State.withGauge_power (s : State) (g : Fin 64) (f : Gauge → Gauge) : (s.withGauge g f).power = s.power := rfl
@[simp] theorem State.withGauge_health (s : State) (g : Fin 64) (f : Gauge → Gauge) : (s.withGauge g f).health = s.health := rfl
@[simp] theorem State.withGauge_mram (s : State) (g : Fin 64) (f : Gauge → Gauge) : (s.withGauge g f).mram = s.mram := rfl
@[simp] theorem State.withGauge_jtag (s : State) (g : Fin 64) (f : Gauge → Gauge) : (s.withGauge g f).jtag = s.jtag := rfl
@[simp] theorem State.withGauge_tb (s : State) (g : Fin 64) (f : Gauge → Gauge) : (s.withGauge g f).tb = s.tb := rfl
@[simp] theorem State.withGauge_net (s : State) (g : Fin 64) (f : Gauge → Gauge) : (s.withGauge g f).net = s.net := rfl
@[simp] theorem State.withGauge_knots (s : State) (g : Fin 64) (f : Gauge → Gauge) : (s.withGauge g f).knots = s.knots := rfl
@[simp] theorem State.withGauge_gens (s : State) (g : Fin 64) (f : Gauge → Gauge) : (s.withGauge g f).gens = s.gens := rfl
@[simp] theorem State.withGauge_deep (s : State) (g : Fin 64) (f : Gauge → Gauge) : (s.withGauge g f).deep = s.deep := rfl
@[simp] theorem State.withGauge_chip (s : State) (g : Fin 64) (f : Gauge → Gauge) : (s.withGauge g f).chip = s.chip := rfl
@[simp] theorem State.withGauge_clocks (s : State) (g : Fin 64) (f : Gauge → Gauge) : (s.withGauge g f).clocks = s.clocks := rfl
@[simp] theorem State.withGauge_pins (s : State) (g : Fin 64) (f : Gauge → Gauge) : (s.withGauge g f).pins = s.pins := rfl
@[simp] theorem State.withGauge_dies (s : State) (g : Fin 64) (f : Gauge → Gauge) : (s.withGauge g f).dies = s.dies := rfl
@[simp] theorem State.withGauge_dsMem (s : State) (g : Fin 64) (f : Gauge → Gauge) : (s.withGauge g f).dsMem = s.dsMem := rfl
@[simp] theorem State.withGauge_basin (s : State) (g : Fin 64) (f : Gauge → Gauge) : (s.withGauge g f).basin = s.basin := rfl
@[simp] theorem State.withGauge_ram (s : State) (g : Fin 64) (f : Gauge → Gauge) : (s.withGauge g f).ram = s.ram := rfl

/-! ### withPort -/

@[simp] theorem State.withPort_now (s : State) (p : Fin 2) (f : EthPort → EthPort) : (s.withPort p f).now = s.now := rfl
@[simp] theorem State.withPort_fresh (s : State) (p : Fin 2) (f : EthPort → EthPort) : (s.withPort p f).fresh = s.fresh := rfl
@[simp] theorem State.withPort_pending (s : State) (p : Fin 2) (f : EthPort → EthPort) : (s.withPort p f).pending = s.pending := rfl
@[simp] theorem State.withPort_out (s : State) (p : Fin 2) (f : EthPort → EthPort) : (s.withPort p f).out = s.out := rfl
@[simp] theorem State.withPort_variant (s : State) (p : Fin 2) (f : EthPort → EthPort) : (s.withPort p f).variant = s.variant := rfl
@[simp] theorem State.withPort_objs (s : State) (p : Fin 2) (f : EthPort → EthPort) : (s.withPort p f).objs = s.objs := rfl
@[simp] theorem State.withPort_events (s : State) (p : Fin 2) (f : EthPort → EthPort) : (s.withPort p f).events = s.events := rfl
@[simp] theorem State.withPort_guard (s : State) (p : Fin 2) (f : EthPort → EthPort) : (s.withPort p f).guard = s.guard := rfl
@[simp] theorem State.withPort_host (s : State) (p : Fin 2) (f : EthPort → EthPort) : (s.withPort p f).host = s.host := rfl
@[simp] theorem State.withPort_pcie (s : State) (p : Fin 2) (f : EthPort → EthPort) : (s.withPort p f).pcie = s.pcie := rfl
@[simp] theorem State.withPort_dict (s : State) (p : Fin 2) (f : EthPort → EthPort) : (s.withPort p f).dict = s.dict := rfl
@[simp] theorem State.withPort_power (s : State) (p : Fin 2) (f : EthPort → EthPort) : (s.withPort p f).power = s.power := rfl
@[simp] theorem State.withPort_health (s : State) (p : Fin 2) (f : EthPort → EthPort) : (s.withPort p f).health = s.health := rfl
@[simp] theorem State.withPort_mram (s : State) (p : Fin 2) (f : EthPort → EthPort) : (s.withPort p f).mram = s.mram := rfl
@[simp] theorem State.withPort_jtag (s : State) (p : Fin 2) (f : EthPort → EthPort) : (s.withPort p f).jtag = s.jtag := rfl
@[simp] theorem State.withPort_tb (s : State) (p : Fin 2) (f : EthPort → EthPort) : (s.withPort p f).tb = s.tb := rfl
@[simp] theorem State.withPort_knots (s : State) (p : Fin 2) (f : EthPort → EthPort) : (s.withPort p f).knots = s.knots := rfl
@[simp] theorem State.withPort_gauges (s : State) (p : Fin 2) (f : EthPort → EthPort) : (s.withPort p f).gauges = s.gauges := rfl
@[simp] theorem State.withPort_gens (s : State) (p : Fin 2) (f : EthPort → EthPort) : (s.withPort p f).gens = s.gens := rfl
@[simp] theorem State.withPort_deep (s : State) (p : Fin 2) (f : EthPort → EthPort) : (s.withPort p f).deep = s.deep := rfl
@[simp] theorem State.withPort_chip (s : State) (p : Fin 2) (f : EthPort → EthPort) : (s.withPort p f).chip = s.chip := rfl
@[simp] theorem State.withPort_clocks (s : State) (p : Fin 2) (f : EthPort → EthPort) : (s.withPort p f).clocks = s.clocks := rfl
@[simp] theorem State.withPort_pins (s : State) (p : Fin 2) (f : EthPort → EthPort) : (s.withPort p f).pins = s.pins := rfl
@[simp] theorem State.withPort_dies (s : State) (p : Fin 2) (f : EthPort → EthPort) : (s.withPort p f).dies = s.dies := rfl
@[simp] theorem State.withPort_dsMem (s : State) (p : Fin 2) (f : EthPort → EthPort) : (s.withPort p f).dsMem = s.dsMem := rfl
@[simp] theorem State.withPort_basin (s : State) (p : Fin 2) (f : EthPort → EthPort) : (s.withPort p f).basin = s.basin := rfl
@[simp] theorem State.withPort_ram (s : State) (p : Fin 2) (f : EthPort → EthPort) : (s.withPort p f).ram = s.ram := rfl

/-! ### withAlp -/

@[simp] theorem State.withAlp_now (s : State) (k : Fin 4) (f : AlpPort → AlpPort) : (s.withAlp k f).now = s.now := rfl
@[simp] theorem State.withAlp_fresh (s : State) (k : Fin 4) (f : AlpPort → AlpPort) : (s.withAlp k f).fresh = s.fresh := rfl
@[simp] theorem State.withAlp_pending (s : State) (k : Fin 4) (f : AlpPort → AlpPort) : (s.withAlp k f).pending = s.pending := rfl
@[simp] theorem State.withAlp_out (s : State) (k : Fin 4) (f : AlpPort → AlpPort) : (s.withAlp k f).out = s.out := rfl
@[simp] theorem State.withAlp_variant (s : State) (k : Fin 4) (f : AlpPort → AlpPort) : (s.withAlp k f).variant = s.variant := rfl
@[simp] theorem State.withAlp_objs (s : State) (k : Fin 4) (f : AlpPort → AlpPort) : (s.withAlp k f).objs = s.objs := rfl
@[simp] theorem State.withAlp_events (s : State) (k : Fin 4) (f : AlpPort → AlpPort) : (s.withAlp k f).events = s.events := rfl
@[simp] theorem State.withAlp_guard (s : State) (k : Fin 4) (f : AlpPort → AlpPort) : (s.withAlp k f).guard = s.guard := rfl
@[simp] theorem State.withAlp_host (s : State) (k : Fin 4) (f : AlpPort → AlpPort) : (s.withAlp k f).host = s.host := rfl
@[simp] theorem State.withAlp_pcie (s : State) (k : Fin 4) (f : AlpPort → AlpPort) : (s.withAlp k f).pcie = s.pcie := rfl
@[simp] theorem State.withAlp_dict (s : State) (k : Fin 4) (f : AlpPort → AlpPort) : (s.withAlp k f).dict = s.dict := rfl
@[simp] theorem State.withAlp_power (s : State) (k : Fin 4) (f : AlpPort → AlpPort) : (s.withAlp k f).power = s.power := rfl
@[simp] theorem State.withAlp_health (s : State) (k : Fin 4) (f : AlpPort → AlpPort) : (s.withAlp k f).health = s.health := rfl
@[simp] theorem State.withAlp_mram (s : State) (k : Fin 4) (f : AlpPort → AlpPort) : (s.withAlp k f).mram = s.mram := rfl
@[simp] theorem State.withAlp_jtag (s : State) (k : Fin 4) (f : AlpPort → AlpPort) : (s.withAlp k f).jtag = s.jtag := rfl
@[simp] theorem State.withAlp_tb (s : State) (k : Fin 4) (f : AlpPort → AlpPort) : (s.withAlp k f).tb = s.tb := rfl
@[simp] theorem State.withAlp_net (s : State) (k : Fin 4) (f : AlpPort → AlpPort) : (s.withAlp k f).net = s.net := rfl
@[simp] theorem State.withAlp_gauges (s : State) (k : Fin 4) (f : AlpPort → AlpPort) : (s.withAlp k f).gauges = s.gauges := rfl
@[simp] theorem State.withAlp_gens (s : State) (k : Fin 4) (f : AlpPort → AlpPort) : (s.withAlp k f).gens = s.gens := rfl
@[simp] theorem State.withAlp_deep (s : State) (k : Fin 4) (f : AlpPort → AlpPort) : (s.withAlp k f).deep = s.deep := rfl
@[simp] theorem State.withAlp_chip (s : State) (k : Fin 4) (f : AlpPort → AlpPort) : (s.withAlp k f).chip = s.chip := rfl
@[simp] theorem State.withAlp_clocks (s : State) (k : Fin 4) (f : AlpPort → AlpPort) : (s.withAlp k f).clocks = s.clocks := rfl
@[simp] theorem State.withAlp_pins (s : State) (k : Fin 4) (f : AlpPort → AlpPort) : (s.withAlp k f).pins = s.pins := rfl
@[simp] theorem State.withAlp_dies (s : State) (k : Fin 4) (f : AlpPort → AlpPort) : (s.withAlp k f).dies = s.dies := rfl
@[simp] theorem State.withAlp_dsMem (s : State) (k : Fin 4) (f : AlpPort → AlpPort) : (s.withAlp k f).dsMem = s.dsMem := rfl
@[simp] theorem State.withAlp_basin (s : State) (k : Fin 4) (f : AlpPort → AlpPort) : (s.withAlp k f).basin = s.basin := rfl
@[simp] theorem State.withAlp_ram (s : State) (k : Fin 4) (f : AlpPort → AlpPort) : (s.withAlp k f).ram = s.ram := rfl

/-! ### withChan -/

@[simp] theorem State.withChan_now (s : State) (c : Fin 8) (f : DsChan → DsChan) : (s.withChan c f).now = s.now := rfl
@[simp] theorem State.withChan_fresh (s : State) (c : Fin 8) (f : DsChan → DsChan) : (s.withChan c f).fresh = s.fresh := rfl
@[simp] theorem State.withChan_pending (s : State) (c : Fin 8) (f : DsChan → DsChan) : (s.withChan c f).pending = s.pending := rfl
@[simp] theorem State.withChan_out (s : State) (c : Fin 8) (f : DsChan → DsChan) : (s.withChan c f).out = s.out := rfl
@[simp] theorem State.withChan_variant (s : State) (c : Fin 8) (f : DsChan → DsChan) : (s.withChan c f).variant = s.variant := rfl
@[simp] theorem State.withChan_objs (s : State) (c : Fin 8) (f : DsChan → DsChan) : (s.withChan c f).objs = s.objs := rfl
@[simp] theorem State.withChan_events (s : State) (c : Fin 8) (f : DsChan → DsChan) : (s.withChan c f).events = s.events := rfl
@[simp] theorem State.withChan_guard (s : State) (c : Fin 8) (f : DsChan → DsChan) : (s.withChan c f).guard = s.guard := rfl
@[simp] theorem State.withChan_host (s : State) (c : Fin 8) (f : DsChan → DsChan) : (s.withChan c f).host = s.host := rfl
@[simp] theorem State.withChan_pcie (s : State) (c : Fin 8) (f : DsChan → DsChan) : (s.withChan c f).pcie = s.pcie := rfl
@[simp] theorem State.withChan_dict (s : State) (c : Fin 8) (f : DsChan → DsChan) : (s.withChan c f).dict = s.dict := rfl
@[simp] theorem State.withChan_power (s : State) (c : Fin 8) (f : DsChan → DsChan) : (s.withChan c f).power = s.power := rfl
@[simp] theorem State.withChan_health (s : State) (c : Fin 8) (f : DsChan → DsChan) : (s.withChan c f).health = s.health := rfl
@[simp] theorem State.withChan_mram (s : State) (c : Fin 8) (f : DsChan → DsChan) : (s.withChan c f).mram = s.mram := rfl
@[simp] theorem State.withChan_jtag (s : State) (c : Fin 8) (f : DsChan → DsChan) : (s.withChan c f).jtag = s.jtag := rfl
@[simp] theorem State.withChan_tb (s : State) (c : Fin 8) (f : DsChan → DsChan) : (s.withChan c f).tb = s.tb := rfl
@[simp] theorem State.withChan_net (s : State) (c : Fin 8) (f : DsChan → DsChan) : (s.withChan c f).net = s.net := rfl
@[simp] theorem State.withChan_knots (s : State) (c : Fin 8) (f : DsChan → DsChan) : (s.withChan c f).knots = s.knots := rfl
@[simp] theorem State.withChan_gauges (s : State) (c : Fin 8) (f : DsChan → DsChan) : (s.withChan c f).gauges = s.gauges := rfl
@[simp] theorem State.withChan_gens (s : State) (c : Fin 8) (f : DsChan → DsChan) : (s.withChan c f).gens = s.gens := rfl
@[simp] theorem State.withChan_chip (s : State) (c : Fin 8) (f : DsChan → DsChan) : (s.withChan c f).chip = s.chip := rfl
@[simp] theorem State.withChan_clocks (s : State) (c : Fin 8) (f : DsChan → DsChan) : (s.withChan c f).clocks = s.clocks := rfl
@[simp] theorem State.withChan_pins (s : State) (c : Fin 8) (f : DsChan → DsChan) : (s.withChan c f).pins = s.pins := rfl
@[simp] theorem State.withChan_dies (s : State) (c : Fin 8) (f : DsChan → DsChan) : (s.withChan c f).dies = s.dies := rfl
@[simp] theorem State.withChan_dsMem (s : State) (c : Fin 8) (f : DsChan → DsChan) : (s.withChan c f).dsMem = s.dsMem := rfl
@[simp] theorem State.withChan_basin (s : State) (c : Fin 8) (f : DsChan → DsChan) : (s.withChan c f).basin = s.basin := rfl
@[simp] theorem State.withChan_ram (s : State) (c : Fin 8) (f : DsChan → DsChan) : (s.withChan c f).ram = s.ram := rfl

/-! ### withPll -/

@[simp] theorem State.withPll_now (s : State) (i : Fin 13) (f : Pll → Pll) : (s.withPll i f).now = s.now := rfl
@[simp] theorem State.withPll_fresh (s : State) (i : Fin 13) (f : Pll → Pll) : (s.withPll i f).fresh = s.fresh := rfl
@[simp] theorem State.withPll_pending (s : State) (i : Fin 13) (f : Pll → Pll) : (s.withPll i f).pending = s.pending := rfl
@[simp] theorem State.withPll_out (s : State) (i : Fin 13) (f : Pll → Pll) : (s.withPll i f).out = s.out := rfl
@[simp] theorem State.withPll_variant (s : State) (i : Fin 13) (f : Pll → Pll) : (s.withPll i f).variant = s.variant := rfl
@[simp] theorem State.withPll_objs (s : State) (i : Fin 13) (f : Pll → Pll) : (s.withPll i f).objs = s.objs := rfl
@[simp] theorem State.withPll_events (s : State) (i : Fin 13) (f : Pll → Pll) : (s.withPll i f).events = s.events := rfl
@[simp] theorem State.withPll_guard (s : State) (i : Fin 13) (f : Pll → Pll) : (s.withPll i f).guard = s.guard := rfl
@[simp] theorem State.withPll_host (s : State) (i : Fin 13) (f : Pll → Pll) : (s.withPll i f).host = s.host := rfl
@[simp] theorem State.withPll_pcie (s : State) (i : Fin 13) (f : Pll → Pll) : (s.withPll i f).pcie = s.pcie := rfl
@[simp] theorem State.withPll_dict (s : State) (i : Fin 13) (f : Pll → Pll) : (s.withPll i f).dict = s.dict := rfl
@[simp] theorem State.withPll_power (s : State) (i : Fin 13) (f : Pll → Pll) : (s.withPll i f).power = s.power := rfl
@[simp] theorem State.withPll_health (s : State) (i : Fin 13) (f : Pll → Pll) : (s.withPll i f).health = s.health := rfl
@[simp] theorem State.withPll_mram (s : State) (i : Fin 13) (f : Pll → Pll) : (s.withPll i f).mram = s.mram := rfl
@[simp] theorem State.withPll_jtag (s : State) (i : Fin 13) (f : Pll → Pll) : (s.withPll i f).jtag = s.jtag := rfl
@[simp] theorem State.withPll_tb (s : State) (i : Fin 13) (f : Pll → Pll) : (s.withPll i f).tb = s.tb := rfl
@[simp] theorem State.withPll_net (s : State) (i : Fin 13) (f : Pll → Pll) : (s.withPll i f).net = s.net := rfl
@[simp] theorem State.withPll_knots (s : State) (i : Fin 13) (f : Pll → Pll) : (s.withPll i f).knots = s.knots := rfl
@[simp] theorem State.withPll_gauges (s : State) (i : Fin 13) (f : Pll → Pll) : (s.withPll i f).gauges = s.gauges := rfl
@[simp] theorem State.withPll_gens (s : State) (i : Fin 13) (f : Pll → Pll) : (s.withPll i f).gens = s.gens := rfl
@[simp] theorem State.withPll_deep (s : State) (i : Fin 13) (f : Pll → Pll) : (s.withPll i f).deep = s.deep := rfl
@[simp] theorem State.withPll_chip (s : State) (i : Fin 13) (f : Pll → Pll) : (s.withPll i f).chip = s.chip := rfl
@[simp] theorem State.withPll_pins (s : State) (i : Fin 13) (f : Pll → Pll) : (s.withPll i f).pins = s.pins := rfl
@[simp] theorem State.withPll_dies (s : State) (i : Fin 13) (f : Pll → Pll) : (s.withPll i f).dies = s.dies := rfl
@[simp] theorem State.withPll_dsMem (s : State) (i : Fin 13) (f : Pll → Pll) : (s.withPll i f).dsMem = s.dsMem := rfl
@[simp] theorem State.withPll_basin (s : State) (i : Fin 13) (f : Pll → Pll) : (s.withPll i f).basin = s.basin := rfl
@[simp] theorem State.withPll_ram (s : State) (i : Fin 13) (f : Pll → Pll) : (s.withPll i f).ram = s.ram := rfl

/-! ### withDma -/

@[simp] theorem State.withDma_now (s : State) (k : Fin 8) (f : DmaChan → DmaChan) : (s.withDma k f).now = s.now := rfl
@[simp] theorem State.withDma_fresh (s : State) (k : Fin 8) (f : DmaChan → DmaChan) : (s.withDma k f).fresh = s.fresh := rfl
@[simp] theorem State.withDma_pending (s : State) (k : Fin 8) (f : DmaChan → DmaChan) : (s.withDma k f).pending = s.pending := rfl
@[simp] theorem State.withDma_out (s : State) (k : Fin 8) (f : DmaChan → DmaChan) : (s.withDma k f).out = s.out := rfl
@[simp] theorem State.withDma_variant (s : State) (k : Fin 8) (f : DmaChan → DmaChan) : (s.withDma k f).variant = s.variant := rfl
@[simp] theorem State.withDma_objs (s : State) (k : Fin 8) (f : DmaChan → DmaChan) : (s.withDma k f).objs = s.objs := rfl
@[simp] theorem State.withDma_events (s : State) (k : Fin 8) (f : DmaChan → DmaChan) : (s.withDma k f).events = s.events := rfl
@[simp] theorem State.withDma_guard (s : State) (k : Fin 8) (f : DmaChan → DmaChan) : (s.withDma k f).guard = s.guard := rfl
@[simp] theorem State.withDma_host (s : State) (k : Fin 8) (f : DmaChan → DmaChan) : (s.withDma k f).host = s.host := rfl
@[simp] theorem State.withDma_dict (s : State) (k : Fin 8) (f : DmaChan → DmaChan) : (s.withDma k f).dict = s.dict := rfl
@[simp] theorem State.withDma_power (s : State) (k : Fin 8) (f : DmaChan → DmaChan) : (s.withDma k f).power = s.power := rfl
@[simp] theorem State.withDma_health (s : State) (k : Fin 8) (f : DmaChan → DmaChan) : (s.withDma k f).health = s.health := rfl
@[simp] theorem State.withDma_mram (s : State) (k : Fin 8) (f : DmaChan → DmaChan) : (s.withDma k f).mram = s.mram := rfl
@[simp] theorem State.withDma_jtag (s : State) (k : Fin 8) (f : DmaChan → DmaChan) : (s.withDma k f).jtag = s.jtag := rfl
@[simp] theorem State.withDma_tb (s : State) (k : Fin 8) (f : DmaChan → DmaChan) : (s.withDma k f).tb = s.tb := rfl
@[simp] theorem State.withDma_net (s : State) (k : Fin 8) (f : DmaChan → DmaChan) : (s.withDma k f).net = s.net := rfl
@[simp] theorem State.withDma_knots (s : State) (k : Fin 8) (f : DmaChan → DmaChan) : (s.withDma k f).knots = s.knots := rfl
@[simp] theorem State.withDma_gauges (s : State) (k : Fin 8) (f : DmaChan → DmaChan) : (s.withDma k f).gauges = s.gauges := rfl
@[simp] theorem State.withDma_gens (s : State) (k : Fin 8) (f : DmaChan → DmaChan) : (s.withDma k f).gens = s.gens := rfl
@[simp] theorem State.withDma_deep (s : State) (k : Fin 8) (f : DmaChan → DmaChan) : (s.withDma k f).deep = s.deep := rfl
@[simp] theorem State.withDma_chip (s : State) (k : Fin 8) (f : DmaChan → DmaChan) : (s.withDma k f).chip = s.chip := rfl
@[simp] theorem State.withDma_clocks (s : State) (k : Fin 8) (f : DmaChan → DmaChan) : (s.withDma k f).clocks = s.clocks := rfl
@[simp] theorem State.withDma_pins (s : State) (k : Fin 8) (f : DmaChan → DmaChan) : (s.withDma k f).pins = s.pins := rfl
@[simp] theorem State.withDma_dies (s : State) (k : Fin 8) (f : DmaChan → DmaChan) : (s.withDma k f).dies = s.dies := rfl
@[simp] theorem State.withDma_dsMem (s : State) (k : Fin 8) (f : DmaChan → DmaChan) : (s.withDma k f).dsMem = s.dsMem := rfl
@[simp] theorem State.withDma_basin (s : State) (k : Fin 8) (f : DmaChan → DmaChan) : (s.withDma k f).basin = s.basin := rfl
@[simp] theorem State.withDma_ram (s : State) (k : Fin 8) (f : DmaChan → DmaChan) : (s.withDma k f).ram = s.ram := rfl

/-! ### withSlot -/

@[simp] theorem State.withSlot_now (s : State) (k : Fin 8) (f : Slot → Slot) : (s.withSlot k f).now = s.now := rfl
@[simp] theorem State.withSlot_fresh (s : State) (k : Fin 8) (f : Slot → Slot) : (s.withSlot k f).fresh = s.fresh := rfl
@[simp] theorem State.withSlot_pending (s : State) (k : Fin 8) (f : Slot → Slot) : (s.withSlot k f).pending = s.pending := rfl
@[simp] theorem State.withSlot_out (s : State) (k : Fin 8) (f : Slot → Slot) : (s.withSlot k f).out = s.out := rfl
@[simp] theorem State.withSlot_variant (s : State) (k : Fin 8) (f : Slot → Slot) : (s.withSlot k f).variant = s.variant := rfl
@[simp] theorem State.withSlot_objs (s : State) (k : Fin 8) (f : Slot → Slot) : (s.withSlot k f).objs = s.objs := rfl
@[simp] theorem State.withSlot_events (s : State) (k : Fin 8) (f : Slot → Slot) : (s.withSlot k f).events = s.events := rfl
@[simp] theorem State.withSlot_guard (s : State) (k : Fin 8) (f : Slot → Slot) : (s.withSlot k f).guard = s.guard := rfl
@[simp] theorem State.withSlot_host (s : State) (k : Fin 8) (f : Slot → Slot) : (s.withSlot k f).host = s.host := rfl
@[simp] theorem State.withSlot_pcie (s : State) (k : Fin 8) (f : Slot → Slot) : (s.withSlot k f).pcie = s.pcie := rfl
@[simp] theorem State.withSlot_dict (s : State) (k : Fin 8) (f : Slot → Slot) : (s.withSlot k f).dict = s.dict := rfl
@[simp] theorem State.withSlot_power (s : State) (k : Fin 8) (f : Slot → Slot) : (s.withSlot k f).power = s.power := rfl
@[simp] theorem State.withSlot_health (s : State) (k : Fin 8) (f : Slot → Slot) : (s.withSlot k f).health = s.health := rfl
@[simp] theorem State.withSlot_mram (s : State) (k : Fin 8) (f : Slot → Slot) : (s.withSlot k f).mram = s.mram := rfl
@[simp] theorem State.withSlot_jtag (s : State) (k : Fin 8) (f : Slot → Slot) : (s.withSlot k f).jtag = s.jtag := rfl
@[simp] theorem State.withSlot_net (s : State) (k : Fin 8) (f : Slot → Slot) : (s.withSlot k f).net = s.net := rfl
@[simp] theorem State.withSlot_knots (s : State) (k : Fin 8) (f : Slot → Slot) : (s.withSlot k f).knots = s.knots := rfl
@[simp] theorem State.withSlot_gauges (s : State) (k : Fin 8) (f : Slot → Slot) : (s.withSlot k f).gauges = s.gauges := rfl
@[simp] theorem State.withSlot_gens (s : State) (k : Fin 8) (f : Slot → Slot) : (s.withSlot k f).gens = s.gens := rfl
@[simp] theorem State.withSlot_deep (s : State) (k : Fin 8) (f : Slot → Slot) : (s.withSlot k f).deep = s.deep := rfl
@[simp] theorem State.withSlot_chip (s : State) (k : Fin 8) (f : Slot → Slot) : (s.withSlot k f).chip = s.chip := rfl
@[simp] theorem State.withSlot_clocks (s : State) (k : Fin 8) (f : Slot → Slot) : (s.withSlot k f).clocks = s.clocks := rfl
@[simp] theorem State.withSlot_pins (s : State) (k : Fin 8) (f : Slot → Slot) : (s.withSlot k f).pins = s.pins := rfl
@[simp] theorem State.withSlot_dies (s : State) (k : Fin 8) (f : Slot → Slot) : (s.withSlot k f).dies = s.dies := rfl
@[simp] theorem State.withSlot_dsMem (s : State) (k : Fin 8) (f : Slot → Slot) : (s.withSlot k f).dsMem = s.dsMem := rfl
@[simp] theorem State.withSlot_basin (s : State) (k : Fin 8) (f : Slot → Slot) : (s.withSlot k f).basin = s.basin := rfl
@[simp] theorem State.withSlot_ram (s : State) (k : Fin 8) (f : Slot → Slot) : (s.withSlot k f).ram = s.ram := rfl

/-! ### Members of a register file -/

theorem vmod_same {α : Type} {n : Nat} (v : Vector α n) (i : Fin n) (f : α → α) : (vmod v i f)[i] = f v[i] := by
  simp [vmod]

theorem vmod_other {α : Type} {n : Nat} (v : Vector α n) (i j : Fin n) (f : α → α) (h : j ≠ i) : (vmod v i f)[j] = v[j] := by
  have h' : i.val ≠ j.val := fun e => h (Fin.ext e.symm)
  simp [vmod, h']

@[simp] theorem State.withDie_same (s : State) (i : Die) (f : DieSt → DieSt) : (s.withDie i f).dies[i] = f s.dies[i] := vmod_same _ i f
theorem State.withDie_other (s : State) (i j : Die) (f : DieSt → DieSt) (h : j ≠ i) : (s.withDie i f).dies[j] = s.dies[j] := vmod_other _ i j f h
@[simp] theorem State.withGen_same (s : State) (i : Die) (f : Gen → Gen) : (s.withGen i f).gens[i] = f s.gens[i] := vmod_same _ i f
theorem State.withGen_other (s : State) (i j : Die) (f : Gen → Gen) (h : j ≠ i) : (s.withGen i f).gens[j] = s.gens[j] := vmod_other _ i j f h
@[simp] theorem State.withGauge_same (s : State) (i : Fin 64) (f : Gauge → Gauge) : (s.withGauge i f).gauges[i] = f s.gauges[i] := vmod_same _ i f
theorem State.withGauge_other (s : State) (i j : Fin 64) (f : Gauge → Gauge) (h : j ≠ i) : (s.withGauge i f).gauges[j] = s.gauges[j] := vmod_other _ i j f h
@[simp] theorem State.withChan_same (s : State) (i : Fin 8) (f : DsChan → DsChan) : (s.withChan i f).deep.chans[i] = f s.deep.chans[i] := vmod_same _ i f
theorem State.withChan_other (s : State) (i j : Fin 8) (f : DsChan → DsChan) (h : j ≠ i) : (s.withChan i f).deep.chans[j] = s.deep.chans[j] := vmod_other _ i j f h
@[simp] theorem State.withPll_same (s : State) (i : Fin 13) (f : Pll → Pll) : (s.withPll i f).clocks.plls[i] = f s.clocks.plls[i] := vmod_same _ i f
theorem State.withPll_other (s : State) (i j : Fin 13) (f : Pll → Pll) (h : j ≠ i) : (s.withPll i f).clocks.plls[j] = s.clocks.plls[j] := vmod_other _ i j f h
@[simp] theorem State.withDma_same (s : State) (i : Fin 8) (f : DmaChan → DmaChan) : (s.withDma i f).pcie.dma[i] = f s.pcie.dma[i] := vmod_same _ i f
theorem State.withDma_other (s : State) (i j : Fin 8) (f : DmaChan → DmaChan) (h : j ≠ i) : (s.withDma i f).pcie.dma[j] = s.pcie.dma[j] := vmod_other _ i j f h
@[simp] theorem State.withSlot_same (s : State) (i : Fin 8) (f : Slot → Slot) : (s.withSlot i f).tb.slots[i] = f s.tb.slots[i] := vmod_same _ i f
theorem State.withSlot_other (s : State) (i j : Fin 8) (f : Slot → Slot) (h : j ≠ i) : (s.withSlot i f).tb.slots[j] = s.tb.slots[j] := vmod_other _ i j f h
@[simp] theorem State.withPort_same (s : State) (i : Fin 2) (f : EthPort → EthPort) : (s.withPort i f).net.ports[i] = f s.net.ports[i] := vmod_same _ i f
theorem State.withPort_other (s : State) (i j : Fin 2) (f : EthPort → EthPort) (h : j ≠ i) : (s.withPort i f).net.ports[j] = s.net.ports[j] := vmod_other _ i j f h
@[simp] theorem State.withAlp_same (s : State) (i : Fin 4) (f : AlpPort → AlpPort) : (s.withAlp i f).knots.ports[i] = f s.knots.ports[i] := vmod_same _ i f
theorem State.withAlp_other (s : State) (i j : Fin 4) (f : AlpPort → AlpPort) (h : j ≠ i) : (s.withAlp i f).knots.ports[j] = s.knots.ports[j] := vmod_other _ i j f h

end Sys2Proof.Machine
end

