-- ==== Sys2Proof/Laws/Capture.lean ====
section
/-! SUPPORT. What running a die changes in the part: the die and its basin are what the run leaves, and its effects reach no further
than the other die, the generators, the pins, the counters, the logs and the interrupts. -/

namespace Sys2Proof.Machine

/-- A die is not the other one. -/
theorem otherDie_ne : ∀ d : Die, d ≠ otherDie d := by decide

/-- A jump request leaves the dies alone. -/
@[simp] theorem State.genJump_dies (s : State) (d : Die) (src : JumpSource) (ref : Nat) : (s.genJump d src ref).dies = s.dies := by
  unfold State.genJump
  dsimp only
  split
  · split <;> simp
  · split
    · split
      · simp
      · split <;> simp
    · split <;> simp
    all_goals simp

/-- The end of a pulse on TRIGOUT leaves the dies alone. -/
@[simp] theorem State.pulseOver_dies (s : State) (p : Fin 2) (a : Nat) : (s.pulseOver p a).dies = s.dies := by
  unfold State.pulseOver
  split
  · split <;> simp
  · rfl

/-- An edge of a TRIGIN input leaves the dies alone. -/
@[simp] theorem State.genTrigin_dies (s : State) (d : Die) (p : Fin 4) (b : Bool) (ref : Nat) : (s.genTrigin d p b ref).dies = s.dies := by
  unfold State.genTrigin
  split <;> simp

/-- A pulse on TRIGOUT leaves the dies alone, on its way to the pin. -/
@[simp] theorem State.pulse_dies (s : State) (p : Fin 2) (d : Die) (a : Nat) : (s.pulse p d a).dies = s.dies := by
  unfold State.pulse
  dsimp only
  split <;> rfl

/-- A pulse on TRIGOUT leaves the dies alone, at the pin. -/
@[simp] theorem State.startPulse_dies (s : State) (p : Fin 2) (x : Nat × Nat) : (s.startPulse p x).dies = s.dies := by
  unfold State.startPulse
  dsimp only
  split <;> simp

/-- The actions that reach a pin leave the dies alone. -/
@[simp] theorem State.settlePin_dies (s : State) (p : Fin 2) : (s.settlePin p).dies = s.dies := by
  have key : ∀ (l : List (Nat × Nat)) (t : State), (l.foldl (State.startPulse p) t).dies = t.dies := by
    intro l
    induction l with
    | nil => intro t; rfl
    | cons x l ih => intro t; rw [List.foldl_cons, ih, State.startPulse_dies]
  unfold State.settlePin
  rw [key]

/-- The actions that reach the pins leave the dies alone. -/
@[simp] theorem State.settlePins_dies (s : State) : s.settlePins.dies = s.dies := by simp [State.settlePins]

/-- An effect of a die does not change the die itself. -/
theorem State.applyFx_own (d : Die) (s : State) (x : Fx) : (State.applyFx d s x).dies[d] = s.dies[d] := by
  cases x with
  | bump i j n => simp [State.applyFx]
  | most i j n => simp [State.applyFx]
  | tow f l =>
    simp only [State.applyFx, State.towFlags]
    split <;> split <;> simp [State.withDie_other _ _ _ _ (otherDie_ne d)]
  | trigout p l =>
    simp only [State.applyFx]
    split <;> split <;> simp
  | lateDeep l => rfl
  | trigEdge p b l => simp [State.applyFx]
  | vector v => simp [State.applyFx]
  | ended c =>
    simp only [State.applyFx, State.endPartner]
    split
    · simp [State.withDie_other _ _ _ _ (otherDie_ne d)]
    · rfl
  | blackBox c v b => simp [State.applyFx]

/-- A run leaves the die as it says. -/
theorem State.runDie_own (s : State) (d : Die) (f : Run → Run) : (s.runDie d f).dies[d] = (f (s.toRun d)).die := by
  have key : ∀ (l : List Fx) (t : State), (l.foldl (State.applyFx d) t).dies[d] = t.dies[d] := by
    intro l
    induction l with
    | nil => intro t; rfl
    | cons x l ih => intro t; rw [List.foldl_cons, ih, State.applyFx_own]
  have last : ∀ (t : State) (a b : Option Trigger), (t.noteTrigTime d a b).dies[d] = t.dies[d] := by
    intro t a b
    unfold State.noteTrigTime
    split
    · split <;> simp
    · rfl
  unfold State.runDie
  rw [last, State.settlePins_dies, key]
  simp

end Sys2Proof.Machine
end

