-- ==== Sys2Proof/Laws/Memory.lean ====
section
/-! SUPPORT. The canonical form of memories and maps, and that every operation on them keeps it. -/

namespace Sys2Proof.Machine

/-! ### Sorted maps -/

/-- The keys of a map rise strictly: `mwf` as a proposition about all pairs. -/
theorem mwf_iff {α : Type} (m : SMap α) : mwf m = true ↔ m.Pairwise (fun x y => x.1 < y.1) := by
  induction m with
  | nil => simp [mwf]
  | cons p m ih =>
    cases m with
    | nil => simp [mwf]
    | cons q m =>
      simp only [mwf, Bool.and_eq_true, decide_eq_true_eq, ih, List.pairwise_cons]
      constructor
      · rintro ⟨h, hq, hm⟩
        refine ⟨?_, hq, hm⟩
        intro y hy
        rcases List.mem_cons.mp hy with rfl | hy
        · exact h
        · exact Nat.lt_trans h (hq y hy)
      · rintro ⟨h, hq, hm⟩
        exact ⟨h q (List.mem_cons_self ..), hq, hm⟩

/-- An entry of a map after a store is the one stored or one from before. -/
theorem mem_mput {α : Type} {k : Nat} {v : α} {m : SMap α} {x : Nat × α} (h : x ∈ mput k v m) : x = (k, v) ∨ x ∈ m := by
  induction m with
  | nil => simpa [mput] using h
  | cons p m ih =>
    obtain ⟨j, w⟩ := p
    simp only [mput] at h
    split at h
    · simpa using h
    · split at h
      · rcases List.mem_cons.mp h with h | h
        · exact .inl h
        · exact .inr (List.mem_cons_of_mem _ h)
      · rcases List.mem_cons.mp h with h | h
        · exact .inr (by simp [h])
        · rcases ih h with h | h
          · exact .inl h
          · exact .inr (List.mem_cons_of_mem _ h)

/-- A store keeps the keys rising. -/
theorem mput_wf {α : Type} (k : Nat) (v : α) (m : SMap α) (h : mwf m = true) : mwf (mput k v m) = true := by
  rw [mwf_iff] at *
  induction m with
  | nil => simp [mput]
  | cons p m ih =>
    obtain ⟨j, w⟩ := p
    rw [List.pairwise_cons] at h
    simp only [mput]
    split
    · rename_i hk
      refine List.pairwise_cons.mpr ⟨?_, List.pairwise_cons.mpr h⟩
      intro y hy
      rcases List.mem_cons.mp hy with rfl | hy
      · exact hk
      · exact Nat.lt_trans hk (h.1 y hy)
    · split
      · rename_i hk
        subst hk
        exact List.pairwise_cons.mpr h
      · refine List.pairwise_cons.mpr ⟨?_, ih h.2⟩
        intro y hy
        rcases mem_mput hy with rfl | hy
        · show j < k
          omega
        · exact h.1 y hy

/-- A removal leaves a sublist. -/
theorem mdel_sublist {α : Type} (k : Nat) (m : SMap α) : (mdel k m).Sublist m := by
  induction m with
  | nil => simp [mdel]
  | cons p m ih =>
    obtain ⟨j, w⟩ := p
    simp only [mdel]
    split
    · exact List.sublist_cons_self _ _
    · exact ih.cons_cons _

/-- A sublist of a map with rising keys has rising keys. -/
theorem mwf_sublist {α : Type} {m n : SMap α} (hs : n.Sublist m) (h : mwf m = true) : mwf n = true := by
  rw [mwf_iff] at *
  exact h.sublist hs

/-- A removal keeps the keys rising. -/
theorem mdel_wf {α : Type} (k : Nat) (m : SMap α) (h : mwf m = true) : mwf (mdel k m) = true := mwf_sublist (mdel_sublist k m) h

/-! ### Memories -/

/-- The canonical form as a proposition. -/
theorem memory_wf_iff (m : Memory) : m.wf = true ↔ m.Pairwise (fun x y => x.1 < y.1) ∧ ∀ c ∈ m, c.2 ≠ unlistedByte := by
  simp [Memory.wf, mwf_iff]

/-- The empty memory is canonical. -/
theorem memory_wf_nil : Memory.wf [] = true := rfl

/-- Part of a canonical memory is canonical. -/
theorem memory_wf_sublist {m n : Memory} (hs : n.Sublist m) (h : m.wf = true) : n.wf = true := by
  rw [memory_wf_iff] at *
  exact ⟨h.1.sublist hs, fun c hc => h.2 c (hs.subset hc)⟩

/-- A filtered memory is canonical. -/
theorem memory_wf_filter (p : Host.Cell → Bool) (m : Memory) (h : m.wf = true) : Memory.wf (m.filter p) = true :=
  memory_wf_sublist List.filter_sublist h

/-- A byte store keeps the canonical form. -/
theorem memWrite_wf (m : Memory) (a : Nat) (b : Byte) (h : m.wf = true) : (memWrite m a b).wf = true := by
  unfold memWrite
  split
  · exact memory_wf_sublist (mdel_sublist a m) h
  · rename_i hb
    have h' := (memory_wf_iff m).mp h
    refine (memory_wf_iff _).mpr ⟨?_, ?_⟩
    · exact (mwf_iff _).mp (mput_wf a b m ((mwf_iff m).mpr h'.1))
    · intro c hc
      rcases mem_mput hc with rfl | hc
      · exact hb
      · exact h'.2 c hc

/-- The cells of a byte string rise from its address and stay within it. -/
theorem blockCells_spec (a : Nat) (bs : List Byte) :
    (blockCells a bs).Pairwise (fun x y => x.1 < y.1) ∧
      ∀ c ∈ blockCells a bs, a ≤ c.1 ∧ c.1 < a + bs.length ∧ c.2 ≠ unlistedByte := by
  induction bs generalizing a with
  | nil => simp [blockCells]
  | cons b bs ih =>
    obtain ⟨h1, h2⟩ := ih (a + 1)
    simp only [blockCells, List.length_cons]
    split
    · refine ⟨h1, fun c hc => ?_⟩
      have := h2 c hc
      exact ⟨by omega, by omega, this.2.2⟩
    · rename_i hb
      refine ⟨List.pairwise_cons.mpr ⟨fun c hc => ?_, h1⟩, fun c hc => ?_⟩
      · have := h2 c hc
        show a < c.1
        omega
      · rcases List.mem_cons.mp hc with rfl | hc
        · exact ⟨Nat.le_refl _, by show a < a + (bs.length + 1); omega, hb⟩
        · have := h2 c hc
          exact ⟨by omega, by omega, this.2.2⟩

/-- What `takeWhile` keeps of a list meets its condition. -/
theorem takeWhile_lt (m : Memory) (a : Nat) : ∀ c ∈ m.takeWhile (fun c => decide (c.1 < a)), c.1 < a := by
  induction m with
  | nil => simp
  | cons p m ih =>
    intro c hc
    rw [List.takeWhile_cons] at hc
    split at hc
    · rename_i hp
      rcases List.mem_cons.mp hc with rfl | hc
      · simpa using hp
      · exact ih c hc
    · simp at hc

/-- What `dropWhile` leaves of a list with rising keys lies at or above the bound. -/
theorem dropWhile_ge (m : Memory) (a : Nat) (h : m.Pairwise (fun x y => x.1 < y.1)) :
    ∀ c ∈ m.dropWhile (fun c => decide (c.1 < a)), a ≤ c.1 := by
  induction m with
  | nil => simp
  | cons p m ih =>
    rw [List.pairwise_cons] at h
    rw [List.dropWhile_cons]
    split
    · exact ih h.2
    · rename_i hp
      have hp : a ≤ p.1 := by simpa using hp
      intro c hc
      rcases List.mem_cons.mp hc with rfl | hc
      · exact hp
      · exact Nat.le_trans hp (Nat.le_of_lt (h.1 c hc))

/-- A block store keeps the canonical form. -/
theorem memWriteBlock_wf (m : Memory) (a : Nat) (bs : List Byte) (h : m.wf = true) : (memWriteBlock m a bs).wf = true := by
  obtain ⟨hs, hn⟩ := (memory_wf_iff m).mp h
  obtain ⟨c1, c2⟩ := blockCells_spec a bs
  have d1 : (m.dropWhile (fun c => decide (c.1 < a))).Sublist m := List.dropWhile_sublist _
  have d2 : ((m.dropWhile (fun c => decide (c.1 < a))).dropWhile (fun c => decide (c.1 < a + bs.length))).Sublist m :=
    (List.dropWhile_sublist _).trans d1
  have t1 : (m.takeWhile (fun c => decide (c.1 < a))).Sublist m := List.takeWhile_sublist _
  have up := dropWhile_ge _ (a + bs.length) (hs.sublist d1)
  refine (memory_wf_iff _).mpr ⟨?_, ?_⟩
  · unfold memWriteBlock
    refine List.pairwise_append.mpr ⟨hs.sublist t1, List.pairwise_append.mpr ⟨c1, hs.sublist d2, ?_⟩, ?_⟩
    · intro x hx y hy
      have := c2 x hx
      have := up y hy
      omega
    · intro x hx y hy
      have hx := takeWhile_lt m a x hx
      rcases List.mem_append.mp hy with hy | hy
      · have := c2 y hy
        omega
      · have := up y hy
        omega
  · intro c hc
    unfold memWriteBlock at hc
    rcases List.mem_append.mp hc with hc | hc
    · exact hn c (t1.subset hc)
    · rcases List.mem_append.mp hc with hc | hc
      · exact (c2 c hc).2.2
      · exact hn c (d2.subset hc)

/-! ### The operations built on them -/

/-- Cells moved to another base keep the canonical form. -/
theorem moveCells_wf (m : Memory) (a b n : Nat) (h : m.wf = true) : (moveCells m a b n).wf = true := by
  unfold moveCells
  split
  · exact h
  · exact memWriteBlock_wf m b _ h

/-- A flag patched into a barge keeps the canonical form. -/
theorem patchFlag_wf (m : Memory) (a bit : Nat) (h : m.wf = true) : (patchFlag m a bit).wf = true := memWriteBlock_wf m a _ h

/-- What a destructive test leaves lists rising addresses from `a` on, and no unlisted byte. -/
theorem freeCells_spec (lost : Nat → Bool) (m : Memory) (k a n : Nat) :
    (freeCells lost m k a n).Pairwise (fun x y => x.1 < y.1) ∧ ∀ c ∈ freeCells lost m k a n, a ≤ c.1 ∧ c.2 ≠ unlistedByte := by
  induction n generalizing a with
  | zero => simp [freeCells]
  | succ n ih =>
    obtain ⟨hs, hc⟩ := ih (a + 1)
    have hw : ∀ c ∈ freeCells lost m k (a + 1) n, a ≤ c.1 ∧ c.2 ≠ unlistedByte := fun c h => ⟨by have := (hc c h).1; omega, (hc c h).2⟩
    rw [freeCells]
    generalize (if lost a then Config.freeByte k a else memRead m a) = b
    split
    · exact ⟨hs, hw⟩
    · rename_i hb
      refine ⟨List.pairwise_cons.mpr ⟨fun c h => (hc c h).1, hs⟩, fun c h => ?_⟩
      rcases List.mem_cons.mp h with rfl | h
      · exact ⟨Nat.le_refl a, hb⟩
      · exact hw c h

/-- A destructive test leaves the canonical form. -/
theorem freeCells_wf (lost : Nat → Bool) (m : Memory) (k a n : Nat) : (freeCells lost m k a n).wf = true :=
  (memory_wf_iff _).mpr ⟨(freeCells_spec lost m k a n).1, fun c h => ((freeCells_spec lost m k a n).2 c h).2⟩

end Sys2Proof.Machine
end

