-- ==== Sys2Proof/Tests/Slice0.lean ====
section
/-! SUPPORT. Tests: a witness for every hypothesis of the statements, the malformed accesses, the worked examples of the spec. -/

open Sys2Proof Sys2Proof.Machine

namespace Sys2Proof.Tests

/-! ### States for the tests -/

/-- A part in ON that serves, its link up, memory requests and bus mastering enabled. -/
def up : State :=
  { State.reset with
    now := 10 ^ 15
    power := { Power.reset with phase := .none, ready := true, everReady := true, hkcUp := true }
    pcie := { Pcie.reset with linkUp := true, rate := 5, width := 16, cfg := { CfgSpace.reset with memEnable := true, bme := true } } }

/-- An object set. -/
def obj (idx sub n : Nat) (s : State) : State := { s with objs := mput (objKey idx sub) (.num n) s.objs }

/-- `up` with die 0 changed. -/
def die (f : DieSt → DieSt) : State := up.withDie 0 f

/-- `up` with die 0 in ARMED, storing, at sample 16. -/
def armed (f : DieSt → DieSt) : State :=
  die (fun x => f { x with state := .armed, convoy := { x.convoy with storing := true, nextSample := 16, id := 1 } })

/-- `up` with the other state of the time base. -/
def timed (f : TimeBase → TimeBase) : State := { up with tb := f up.tb }

/-- A condition that does nothing. -/
def noCond : Cond :=
  { enable := false, sel := Vector.replicate 4 0, invert := 0, table := 0, cmpSrc := 0, cmpOp := 0, cmpVal := 0, advance := none,
    trigger := false, qual := 0, cntInc := 0, cntRst := 0, tmrStart := 0, tmrStop := 0, tmrRst := 0, tow := 0, knot := none, trigout := 0,
    wake := false }

/-- A trigger at time 0. -/
def trig0 : Trigger := { sample := 0, time := 5, kind := .action, late := false, foundAt := 0 }

/-- An event barge of die 0. -/
def evBarge (items : List BItem) : Barge :=
  { kind := .event, ewidth := 0, esigned := false, stream := 8, die := 0, coupled := false, node := 0, convoy := 1, anchor := 0, endTime := 0, itemTime := 0,
    flags := 0, period := 80, interval := 0, xstart := 0, xend := 0, seq := 0, anchorPos := 0, endPos := 0, firstSample := 0, lastSample := 0,
    items := items }

/-- A generator of die 0 changed, with its sample PLL locked. -/
def gen (f : Gen → Gen) : State := ({ up with clocks := { Clocks.reset with plls := Clocks.reset.plls.set 0 { Pll.reset with state := .locked } } }).withGen 0 f

/-- A running gauge 0 that has begun to stamp, changed, with its sample PLL locked. -/
def gauge (f : Gauge → Gauge) : State :=
  ({ up with clocks := { Clocks.reset with plls := Clocks.reset.plls.set 0 { Pll.reset with state := .locked } } }).withGauge 0
    (fun x => f { x with state := .running, stamping := true })

/-- Port 0 enabled and its link up. -/
def netS (f : Net → Net) : State :=
  let s := ((up.putNat 0x4400 1 1).putNat 0x4400 5 0x0A000001).putNat 0x4400 0x0A 7
  { s with net := f { s.net with ports := s.net.ports.set 0 { EthPort.reset with linkUp := true } } }

/-- Port 0 with PTP enabled. -/
def ptpS (f : Net → Net) : State := (((netS f).putNat 0x4400 0x0A 15).putNat 0x4410 1 0)

/-- A PTP header of a sender. -/
def hdr : PtpHdr := { domain := 0, source := 7, sourcePort := 1, seqId := 9, correction := 0 }

/-- A master's dataset. -/
def masterData : MasterData :=
  { gm := 7, timeTraceable := false, timeSource := 0xA0, priority1 := 128, clockClass := 6, accuracy := 0x21, variance := 0, priority2 := 128, steps := 0, source := 7, sourcePort := 1 }

/-- One Aelop port changed. -/
def alp (f : AlpPort → AlpPort) : State := up.withAlp 0 f

/-- A knot of another package. -/
def knot1 : Knot :=
  { cls := 3, node := 65, die := 1, convoy := 2, time := 77, offset := -4, hops := 1, holdover := true, relayed := false, host := false, seq := 5 }

/-- One channel of one 16 GiB rank in service. -/
def deepS (f : Deep → Deep) : State :=
  { up with
    deep := f { Deep.reset with
      mapChans := [0], mapRanks := 1, rankGiB := 16
      chans := Deep.reset.chans.set 0 { DsChan.reset with state := .inService, ranks := 1 } } }

/-- PLL `i` changed. -/
def pll (i : Fin 13) (f : Pll → Pll) : State := { up with clocks := { up.clocks with plls := vmod up.clocks.plls i f } }

/-- DMA channel 0 changed. -/
def dma (f : DmaChan → DmaChan) : State := { up with pcie := { up.pcie with dma := vmod up.pcie.dma 0 f } }

/-- The endpoint changed. -/
def ep (f : Pcie → Pcie) : State := { up with pcie := f up.pcie }

/-- The guard changed. -/
def grd (f : Guard → Guard) : State := { up with guard := f up.guard }

/-- Power changed. -/
def pwr (f : Power → Power) : State := { up with power := f up.power }

/-- Health changed. -/
def hlt (f : Health → Health) : State := { up with health := f up.health }

/-- A request frame. -/
def reqFrame (op count : Nat) (payload : List Byte) : List Byte :=
  leBytes 2 0x5E1E ++ leBytes 1 1 ++ leBytes 1 op ++ zeros 4 ++ leBytes 4 1 ++ leBytes 2 payload.length ++ leBytes 2 count ++ payload

/-- A request of one item on a path. -/
def reqOf (path : Source) (op : Nat) (i : Item) : Request :=
  { path := path, srcAddr := [1, 2, 3, 4], srcPort := 5000, key := none, frame := reqFrame op 1 (odpItem i), silent := false }

/-- An item of 4420:05, the path-step threshold. -/
def item1 (v : List Byte) : Item := { index := 0x4420, sub := 5, typ := 3, istat := 0, iflags := 0, value := v }

/-- A request in service, with port 0 up. -/
def served (r : Request) : State := { netS id with dict := { Dict.reset with serving := some r } }

/-- A freeze. -/
def frozenAt (byReg : Bool) : Freeze := { full := false, byReg := byReg, timeword := 0, epoch := 0, since := 0 }

/-- A generator of die 0 whose entry 0 loops five times over 64 samples of the loop cache, and then ends. -/
def genTable (f : Gen → Gen) : State :=
  { gen f with
    objs := storePut ((up.putNat 0x5040 1 1).objs) 0x5100 0 (.bytes (zeros 8 ++ leBytes 4 4 ++ leBytes 3 5 ++ leBytes 1 0x0C ++ zeros 4080)) }

/-! ### Witnesses of the statements, clause by clause -/

/-- The hypotheses of `EvaluationCompletes` can be met, clause by clause. -/
theorem witness_evaluationCompletes :
    (∃ (d : Die) (s : State), s.evaluates d = true) ∧
    (∃ (d : Die) (df : Deferred) (s : State), s.evaluates d = true ∧ s.dies[d].plan.state = false ∧ s.dies[d].convoy.nextSample % 16 = 0 ∧
      s.dies[d].stair.deferred = some df) ∧
    (∃ (d : Die) (k : Fin 8) (s : State), s.evaluates d = true ∧ s.dies[d].plan.state = false ∧ s.dies[d].stair.timers[k].running = true ∧
      timerAt s.dies[d].stair.timers[k] ((s.toRun d).nextAt).pos = maxCount ∧ s.dies[d].stair.atMax.getLsbD (8 + k.val) = false) ∧
    (∃ (d : Die) (b : Barge) (s : State), s.evaluates d = true ∧ s.dies[d].store.eventOpen = some b ∧ b.room false = false ∧ 126 ≤
      eventBacklog s.dies[d].store ∧ (hasRoom s.dies[d] = true ∨ s.dies[d].convoy.storing = false)) ∧
    (∃ (d : Die) (s : State), s.evaluates d = true ∧ (s.sluiceOne d).isSome = true) :=
  ⟨⟨0, armed id, by decide⟩,
  ⟨0, { target := 3, source := 0, length := 2, begun := true, also := 0 }, armed (fun x =>
    { x with stair := { x.stair with deferred := some { target := 3, source := 0, length := 2, begun := true, also := 0 } } }), by
    decide⟩,
  ⟨0, 7, armed (fun x =>
    { x with stair := { x.stair with timers := x.stair.timers.set 7 { running := true, value := maxCount, start := 0 } } }),
    by decide +kernel⟩,
  ⟨0, evBarge (List.replicate 126 (.event (blankEvent 0 0))), armed (fun x =>
    { x with convoy := { x.convoy with storing := false }, store := { x.store with eventOpen := some (evBarge (List.replicate 126 (.event (blankEvent 0 0)))) } }),
    by decide +kernel⟩,
  ⟨0,
    { (deepS id).withDie 0 (fun x => { x with state := .postfill, plan := { x.plan with deep := true, regionBarges := 4 }, win := { x.win with ring := [{ slot := 0, closed := 0, stream := 0, die := 0, kind := .full, seq := 0, anchor := 0, endTime := 0, firstSample := 0, lastSample := 0, flags := 0 }], size := 4, sluicing := true } }) with now := 5 },
    by decide⟩⟩

/-- The hypotheses of `TriggerCommandsComplete` can be met, clause by clause. -/
theorem witness_triggerCommandsComplete :
    (∃ (d : Die) (s : State), s.quiet = true ∧ s.hasDie d = true ∧ (s.dies[d].isOpen = true ∨ s.dies[d].state = .arming)) ∧
    (∃ (d : Die) (s : State), s.quiet = true ∧ s.hasDie d = true ∧ (s.dies[d].isOpen = true ∨ s.dies[d].state = .arming)) ∧
    (∃ (d : Die) (p : Placement) (s : State), s.evaluates d = true ∧ s.dies[d].stair.placement = some p ∧ s.dies[d].state = .armed ∧
      s.dies[d].stair.trigger = none ∧ 0 < s.dies[d].convoy.nextSample ∧ atOrAfter s.dies[d].convoy.lastTime p.target = true) ∧
    (∃ (d : Die) (tr : Trigger) (s : State), s.evaluates d = true ∧ s.dies[d].plan.coupled = true ∧ s.dies[otherDie d].stair.lineOut =
      some tr ∧ tr.foundAt + ns 32 ≤ s.now ∧ s.dies[d].stair.trigger = none) ∧
    (∃ (p : Fin 2) (e : Nat) (s : State), s.pins.pulseEnd[p] = some e ∧ e ≤ s.now ∧ s.pins.waiting[p] = []) :=
  ⟨⟨0, armed id, by decide⟩,
  ⟨0, die (fun x => { x with state := .arming }), by decide⟩,
  ⟨0, { target := 0, node := 1 }, armed (fun x => { x with stair := { x.stair with placement := some { target := 0, node := 1 } } }), by
    decide⟩,
  ⟨0, trig0, (armed (fun x => { x with plan := { x.plan with coupled := true } })).withDie 1 (fun x =>
    { x with plan := { x.plan with coupled := true }, stair := { x.stair with lineOut := some trig0 } }), by decide⟩,
  ⟨1, 10 ^ 15, { up with pins := { Pins.reset with pulseEnd := Pins.reset.pulseEnd.set 1 (some (10 ^ 15)), trigout := 2 } }, by decide⟩⟩

/-- The hypotheses of `ConvoyLifeCompletes` can be met, clause by clause. -/
theorem witness_convoyLifeCompletes :
    (∃ (d : Die) (s : State), s.quiet = true ∧ s.hasDie d = true ∧ s.objBool 0x3930 1 = false ∧ s.power.ready = true ∧ s.isOn = true ∧
      s.dies[d].state = .idle ∧ s.genHolds d = false) ∧
    (∃ (d : Die) (ram : Vector RamCheck 2) (s : State), s.convoyDies d = [d] ∧ s.armReady d = true ∧ s.frozen = false ∧ ram[d].load ≠
      .failed) ∧
    (∃ (d : Die) (s : State), s.quiet = true ∧ s.hasDie d = true ∧ s.dies[d].isOpen = true ∧ s.dies[d].convoy.storing = true) ∧
    (∃ (d : Die) (s : State), s.quiet = true ∧ s.hasDie d = true ∧ s.dies[d].state = .sealed ∧ s.dies[d].plan.coupled = false) ∧
    (∃ (d : Die) (s : State), s.frozen = false ∧ s.dies[d].plan.coupled = false ∧ s.dies[d].state = .postfill ∧ s.dies[d].closing = true ∧
      s.dies[d].plan.deep = false) :=
  ⟨⟨1, up, by decide⟩,
  ⟨0, Vector.replicate 2 { corrected := 1, load := .clean }, (gen id).withDie 0 (fun x => { x with state := .arming }), by decide⟩,
  ⟨0, armed id, by decide⟩,
  ⟨0, die (fun x => { x with state := .sealed }), by decide⟩,
  ⟨0, die (fun x => { x with state := .postfill, closing := true }), by decide⟩⟩

/-- The hypotheses of `SealedCopyAndWatchComplete` can be met, clause by clause. -/
theorem witness_sealedCopyAndWatchComplete :
    (∃ (d : Die) (via : Source) (s : State), s.serves via = true ∧ s.hasDie d = true ∧ s.dies[d].state = .sealed ∧ s.dies[d].plan.deep =
      false ∧ s.objBool (0x3910 + d.val) 8 = false ∧ s.dies[d].win.copy = none ∧ (s.convoyBarges (s.convoyDies d)).length ≤ s.deep.barges
      (s.regionNow d).1 (s.regionNow d).2 ∧ s.dies[otherDie d].isOpen = false) ∧
    (∃ (d : Die) (base : Nat) (s : State), s.dies[d].win.copy = some base ∧ s.deep.paused = false ∧ s.isOn = true ∧ s.frozen = false) ∧
    (∃ (d : Die) (s : State), s.dies[d].win.homeLimit.isSome = true ∧ s.dies[d].armAt + us 60 ≤ s.now ∧ s.isOn = true) ∧
    (∃ (d : Die) (slot : Fin 64) (c : Fin 1024) (level : Bool) (s : State), s.dies[d].watch.slots[slot] = some c ∧ s.dies[d].watch.running
      = true ∧ s.dies[d].watch.levels.getLsbD slot.val = (!level)) ∧
    (∃ (d : Die) (s : State), s.watching d = true ∧ s.dies[d].watch.advance.conds.find? s.dies[d].watch.advance.holds = none) ∧
    (∃ (d : Die) (c : Cond) (s : State), s.watching d = true ∧ s.dies[d].watch.advance.conds.find? s.dies[d].watch.advance.holds = some c
      ∧ c.wake = false) :=
  ⟨⟨0, .mailbox, die (fun x => { x with state := .sealed }), by decide⟩,
  ⟨0, 0, die (fun x => { x with state := .sealed, win := { x.win with copy := some 0 } }), by decide⟩,
  ⟨0, die (fun x => { x with win := { x.win with homeLimit := some 4 } }), by decide⟩,
  ⟨0, 63, 1023, true, die (fun x => { x with watch := { x.watch with running := true, slots := Vector.replicate 64 (some 1023) } }), by
    decide⟩,
  ⟨0,
    { (die (fun x => { x with watch := { x.watch with running := true, conds := [] } })) with power := { up.power with state := .watch } },
    by decide⟩,
  ⟨0, { noCond with enable := true, table := 0xFFFF },
    { (die (fun x => { x with watch := { x.watch with running := true, conds := [{ noCond with enable := true, table := 0xFFFF }] } })) with power := { up.power with state := .watch } },
    by decide⟩⟩

/-- The hypotheses of `CalibrationCompletes` can be met, clause by clause. -/
theorem witness_calibrationCompletes :
    (∃ (via : Source) (s : State), s.serves via = true ∧ s.isOn = true ∧ s.dies[0].state = .idle ∧ s.dies[1].state = .idle ∧ s.eyeRunning
      = false) ∧
    (∃ (d : Die) (e : EyeRun) (s : State), s.frozen = false ∧ s.eyeOn = some (d, e) ∧ s.dies[d].calRunning = false) ∧
    (∃ (s : State), s.frozen = false ∧ s.eyeRunning = true) ∧
    (∃ (via : Source) (s : State), s.serves via = true ∧ s.isOn = true ∧ s.dies[0].state = .idle) ∧
    (∃ (d : Die) (s : State), s.frozen = false ∧ s.dies[d].calRunning = true) :=
  ⟨⟨.mailbox, up, by decide⟩,
  ⟨0, { deskew := false, edges := 1, points := 1, step := 0, ref := 0, auto := false }, die (fun x =>
    { x with fe := { x.fe with eye := some { deskew := false, edges := 1, points := 1, step := 0, ref := 0, auto := false } } }), by
    decide⟩,
  ⟨die (fun x =>
    { x with fe := { x.fe with eye := some { deskew := false, edges := 1, points := 1, step := 0, ref := 0, auto := false } } }), by
    decide⟩,
  ⟨.mailbox, up, by decide⟩,
  ⟨0, die (fun x => { x with calRunning := true }), by decide⟩⟩

/-- The hypotheses of `MaintenanceAndYarnWritesComplete` can be met, clause by clause. -/
theorem witness_maintenanceAndYarnWritesComplete :
    (∃ (d : Die) (s : State), s.hasDie d = true ∧ s.dies[d].driftAt + sec 60 ≤ s.now ∧ s.dieFree d = true) ∧
    (∃ (d : Die) (s : State), s.hasDie d = true ∧ s.deskewDue d = true ∧ s.dieFree d = true) ∧
    (∃ (d : Die) (s : State), s.hasDie d = true ∧ s.dies[d].cal.valid = true ∧ calLimit ≤ s.calAge d ∧ s.dieFree d = true) ∧
    (∃ (m : TaskRun) (s : State), m.task = 4 ∧ s.health.due[4].isSome = true ∧ s.power.ready = true ∧ s.isOn = true ∧ s.anyBusy = false) ∧
    (∃ (d : Die) (v : Dword) (g : GuardForm) (s : State), s.admits v g = true ∧ s.hasDie d = true ∧ s.yarnFree d = true) ∧
    (∃ (d : Die) (v : Dword) (g : GuardForm) (s : State), s.admits v g = true ∧ s.hasDie d = true ∧ s.yarnFree d = true) ∧
    (∃ (d : Die) (v : Dword) (g : GuardForm) (s : State), s.admits v g = true ∧ s.hasDie d = true ∧ s.yarnFree d = true) :=
  ⟨⟨0, up, by decide⟩,
  ⟨1, up.withDie 1 (fun x => { x with deskewTemp := 5001 }), by decide⟩,
  ⟨0, { die (fun x => { x with cal := { x.cal with valid := true } }) with now := calLimit }, by decide⟩,
  ⟨{ task := 4, moved := [] }, hlt (fun h => { h with due := h.due.set 4 (some 0) }), by decide⟩,
  ⟨0, 5, .pair (~~~5), up, by decide⟩,
  ⟨0, 5, .single, grd (fun g => { g with keyed := true, unlocked := some (10 ^ 16) }), by decide⟩,
  ⟨1, 5, .pair (~~~5), up, by decide⟩⟩

/-- The hypotheses of `DisciplineCompletes` can be met, clause by clause. -/
theorem witness_disciplineCompletes :
    (∃ (s : State), s.quiet = true ∧ s.tb.owner = .host) ∧
    (∃ (hi : Dword) (s : State), s.quiet = true ∧ s.tb.owner = .host ∧ s.tb.stepPend = none ∧ s.objInt 0x4010 1 ≠ 0 ∧ (((hi ++ s.tb.stepLo
      : Qword).toInt.natAbs : Nat) : Int) ≤ s.objInt 0x4010 1 * 65536) ∧
    (∃ (s : State), s.quiet = true ∧ s.tb.owner ≠ .host) ∧
    (∃ (s : State), s.quiet = true ∧ s.tb.owner = .host) ∧
    (∃ (s : State), s.quiet = true ∧ s.tb.owner = .host ∧ s.tb.disc = true ∧ s.tb.state = .disciplined) ∧
    (∃ (s : State), s.watchdogDue = true) ∧
    (∃ (v : Byte) (via : Source) (s : State), s.serves via = true ∧ v.toNat ≤ 2 ∧ s.tb.owner ≠ ownerOf v.toNat) :=
  ⟨⟨timed (fun t => { t with owner := .host }), by decide⟩,
  ⟨0, timed (fun t => { t with owner := .host, stepLo := 0x3E80000 }), by decide⟩,
  ⟨up, by decide⟩,
  ⟨timed (fun t => { t with owner := .host }), by decide⟩,
  ⟨timed (fun t => { t with owner := .host, disc := true, state := .disciplined }), by decide⟩,
  ⟨{ timed (fun t => { t with owner := .host, disc := true, state := .disciplined, watchdog := some 0 }) with objs := (up.putNat 0x4000 5 1000).objs },
    by decide⟩,
  ⟨2, .mailbox, up, by decide⟩⟩

/-- The hypotheses of `StepsComplete` can be met, clause by clause. -/
theorem witness_stepsComplete :
    (∃ (amt : Int) (s : State), s.quartzRuns = true ∧ s.tb.stepPend = some amt) ∧
    (∃ (s : State), s.quartzRuns = true ∧ s.tb.stepPend = none ∧ s.tb.inc ≤ incMax ∧ s.willWrap = true) ∧
    (∃ (g : GuardForm) (s : State), s.admits 1 g = true ∧ s.mayForce = true) ∧
    (∃ (g : GuardForm) (s : State), s.admits 3 g = true ∧ s.mayForce = true) ∧
    (∃ (via : Source) (s : State), s.reaches via = true ∧ s.anyBusy = false) ∧
    (∃ (via : Source) (s : State), s.reaches via = true ∧ s.anyBusy = true) :=
  ⟨⟨-5, timed (fun t => { t with stepPend := some (-5) }), by decide⟩,
  ⟨timed (fun t => { t with acc := BitVec.allOnes 80 }), by decide⟩,
  ⟨.pair (~~~1), up, by decide⟩,
  ⟨.pair (~~~3), up, by decide⟩,
  ⟨.bar0, up, by decide⟩,
  ⟨.mailbox, armed id, by decide⟩⟩

/-- The hypotheses of `CompareSlotsComplete` can be met, clause by clause. -/
theorem witness_compareSlotsComplete :
    (∃ (via : Source) (s : State), s.reaches via = true) ∧
    (∃ (k : Fin 8) (via : Source) (s : State), s.reaches via = true ∧ s.tb.slots[k].en = false) ∧
    (∃ (k : Fin 8) (s : State), s.slotDue k = true) :=
  ⟨⟨.bar0, up, by decide⟩,
  ⟨0, .mailbox, up, by decide⟩,
  ⟨3, timed (fun t => { t with slots := t.slots.set 3 { Slot.reset with en := true, lateDue := true } }), by decide⟩⟩

/-- The hypotheses of `SourcesAndAgeingComplete` can be met, clause by clause. -/
theorem witness_sourcesAndAgeingComplete :
    (∃ (v : Byte) (via : Source) (s : State), s.serves via = true ∧ v.toNat ≤ 2 ∧ s.bothIdle = true) ∧
    (∃ (v : Nat) (s : State), s.clocks.sourceNext = some v ∧ s.anyCoast = false) ∧
    (∃ (s : State), s.tb.source ≠ 0) ∧
    (∃ (s : State), s.objBool 0x4001 3 = true ∧ s.tb.source = 0 ∧ s.tb.wanted ≠ 0 ∧ s.anyCoast = false) ∧
    (∃ (s : State), s.power.hkcUp = true ∧ s.tb.state = .free ∧ s.tb.owner ≠ .host ∧ s.tb.updatedAt + day ≤ s.now) ∧
    (∃ (pick : LearnPair) (a b : Period) (s : State), s.power.hkcUp = true ∧ s.longPeriods[pick.first]? = some a ∧
      s.longPeriods[pick.second]? = some b ∧ a.apart b = true) :=
  ⟨⟨2, .mailbox, up, by decide⟩,
  ⟨1, { up with clocks := { Clocks.reset with sourceNext := some 1 } }, by decide⟩,
  ⟨timed (fun t => { t with source := 1 }), by decide⟩,
  ⟨{ timed (fun t => { t with wanted := 1 }) with objs := (up.putNat 0x4001 3 1).objs }, by decide⟩,
  ⟨{ up with now := day }, by decide⟩,
  ⟨{ first := 0, second := 1 }, { from_ := 0, to_ := 2 * day, mean := 42949672960 },
    { from_ := 9 * day, to_ := 11 * day, mean := 42949672961 }, timed (fun t =>
    { t with periods := [{ from_ := 0, to_ := 2 * day, mean := 42949672960 }, { from_ := 9 * day, to_ := 11 * day, mean := 42949672961 }] }),
    by decide⟩⟩

/-- The hypotheses of `LatchingReadsComplete` can be met, clause by clause. -/
theorem witness_latchingReadsComplete :
    (∃ (s : State), s.pcie.answers = true) ∧
    (∃ (s : State), s.pcie.answers = true) :=
  ⟨⟨up, by decide⟩,
  ⟨up, by decide⟩⟩

/-- The hypotheses of `GeneratorControlCompletes` can be met, clause by clause. -/
theorem witness_generatorControlCompletes :
    (∃ (d : Die) (via : Source) (s : State), s.reaches via = true ∧ s.hasDie d = true ∧ s.genStopped d = true ∧ s.isOn = true) ∧
    (∃ (d : Die) (via : Source) (s : State), s.reaches via = true ∧ s.hasDie d = true ∧ s.genNat d 3 = 0 ∧ s.gens[d].state = .ready) ∧
    (∃ (d : Die) (s : State), s.frozen = false ∧ s.gens[d].state = .priming ∧ s.clocks.plls[spll d].runs = true ∧ s.genCheck d = none ∧
      s.genFilled d = true ∧ s.gens[d].startCmd = false ∧ s.gens[d].timeTarget = none) ∧
    (∃ (d : Die) (e : GenEnd) (i : Nat) (s : State), s.frozen = false ∧ s.gens[d].state = .priming ∧ s.clocks.plls[spll d].runs = true ∧
      s.genCheck d = some (e, i)) ∧
    (∃ (d : Die) (via : Source) (s : State), s.reaches via = true ∧ s.hasDie d = true ∧ s.gens[d].state = .ready) ∧
    (∃ (d : Die) (via : Source) (s : State), s.reaches via = true ∧ s.hasDie d = true ∧ s.gens[d].state = .running ∧ s.genNat d 4 ≠ 0 ∧
      s.genDue d ≤ s.genHas d) :=
  ⟨⟨1, .bar0, up, by decide⟩,
  ⟨0, .mailbox, gen (fun g => { g with state := .ready }), by decide⟩,
  ⟨0, genTable (fun g => { g with state := .priming, yarns := [0], fBase := 80, m := 2, cacheValid := true }), by decide +kernel⟩,
  ⟨0, .cache, 0, genTable (fun g => { g with state := .priming, yarns := [0] }), by decide +kernel⟩,
  ⟨0, .bar0, gen (fun g => { g with state := .ready }), by decide⟩,
  ⟨0, .bar0, { gen (fun g => { g with state := .running }) with objs := (up.putNat 0x5000 4 1).objs }, by decide⟩⟩

/-- The hypotheses of `GeneratorPassesComplete` can be met, clause by clause. -/
theorem witness_generatorPassesComplete :
    (∃ (d : Die) (src : JumpSource) (s : State), (∀ via, src = .request via → s.reaches via = true ∧ s.hasDie d = true) ∧ (∀ pin rising,
      src = .trigin pin rising → s.dies[d].isOpen = false ∧ s.frozen = false ∧ s.genNat d 9 = pin.val ∧ decide (s.genNat d 0x0A = 0) =
      rising) ∧ (s.genNat d 7).testBit (jumpLead s.dies[d].plan.program.towDelay src).1 = true ∧ s.gens[d].state = .running ∧
      s.gens[d].jump = none ∧ s.now + ns (jumpLead s.dies[d].plan.program.towDelay src).2 + 65 * s.gens[d].period ≤ s.passEnd d) ∧
    (∃ (d : Die) (src : JumpSource) (s : State), (∀ via, src = .request via → s.reaches via = true ∧ s.hasDie d = true) ∧ (∀ pin rising,
      src = .trigin pin rising → s.dies[d].isOpen = false ∧ s.frozen = false ∧ s.genNat d 9 = pin.val ∧ decide (s.genNat d 0x0A = 0) =
      rising) ∧ (s.genNat d 7).testBit (jumpLead s.dies[d].plan.program.towDelay src).1 = true ∧ s.gens[d].state = .running ∧
      s.gens[d].jump = none ∧ s.now + ns (jumpLead s.dies[d].plan.program.towDelay src).2 + 65 * s.gens[d].period ≤ s.passEnd d) ∧
    (∃ (d : Die) (s : State), s.frozen = false ∧ s.gens[d].state = .running ∧ s.passEnd d ≤ s.now ∧ s.gens[d].endPass = false ∧ s.genDue d
      ≤ s.genHas d ∧ s.gens[d].jump = none ∧ ((s.curEntry d).endless = true ∨ s.gens[d].pass < (s.curEntry d).loops)) ∧
    (∃ (d : Die) (s : State), s.frozen = false ∧ s.gens[d].state = .running ∧ s.passEnd d ≤ s.now ∧ s.gens[d].endPass = false ∧ s.genDue d
      ≤ s.genHas d ∧ s.gens[d].jump = some false) ∧
    (∃ (d : Die) (s : State), s.frozen = false ∧ s.gens[d].state = .running ∧ (s.curEntry d).cache = false ∧ s.gens[d].played < s.genDue d
      ∧ s.genHas d < s.genDue d) ∧
    (∃ (d : Die) (s : State), s.frozen = false ∧ s.gens[d].state = .running ∧ (s.curEntry d).cache = false ∧ s.gens[d].played < s.genDue d
      ∧ s.genHas d < s.genDue d) ∧
    (∃ (d : Die) (s : State), s.frozen = false ∧ s.gens[d].state = .running ∧ s.genDue d ≤ s.genHas d) ∧
    (∃ (d : Die) (s : State), s.frozen = false ∧ s.gens[d].state = .ending ∧ s.gens[d].holdUntil ≤ s.now) ∧
    (∃ (d : Die) (at_ : Nat) (s : State), s.frozen = false ∧ s.gens[d].state = .waiting ∧ s.gens[d].waitFor = .knot ∧ s.gens[d].startAt =
      some at_ ∧ at_ ≤ s.now) :=
  ⟨⟨0, .trigin 0 true, (gen (fun g => { g with state := .running, passStart := 10 ^ 16 })).putNat 0x5000 7 4, nofun, by decide⟩,
  ⟨0, .staircase, (gen (fun g => { g with state := .running, passStart := 10 ^ 16 })).putNat 0x5000 7 2, nofun, by decide⟩,
  ⟨0, genTable (fun g => { g with state := .running, passStart := 0, pass := 4 }), by decide⟩,
  ⟨0, genTable (fun g => { g with state := .running, passStart := 0, yarns := [0], fBase := 80, m := 2, jump := some false }), by decide⟩,
  ⟨0,
    { genTable (fun g => { g with state := .running, passStart := 0, yarns := [0], fBase := 80, m := 2 }) with objs := storePut up.objs 0x5100 0 (.bytes (zeros 8 ++ leBytes 4 4 ++ leBytes 3 5 ++ leBytes 1 4 ++ zeros 4080)) },
    by decide⟩,
  ⟨0,
    { genTable (fun g => { g with state := .running, passStart := 0, yarns := [0], fBase := 80, m := 2, preBad := true }) with objs := storePut up.objs 0x5100 0 (.bytes (zeros 8 ++ leBytes 4 4 ++ leBytes 3 5 ++ leBytes 1 4 ++ zeros 4080)) },
    by decide⟩,
  ⟨0, genTable (fun g => { g with state := .running, passStart := 0, yarns := [0], fBase := 80, m := 2 }), by decide⟩,
  ⟨0, gen (fun g => { g with state := .ending }), by decide⟩,
  ⟨0, 10 ^ 15, gen (fun g => { g with state := .waiting, waitFor := .knot, startAt := some (10 ^ 15) }), by decide⟩⟩

/-- The hypotheses of `GeneratorStartsAndLoadsComplete` can be met, clause by clause. -/
theorem witness_generatorStartsAndLoadsComplete :
    (∃ (d : Die) (p : SyncinPulse) (s : State), s.frozen = false ∧ s.gens[d].state = .ready ∧ s.genNat d 3 = 2 ∧ s.gens[d].startAt = none
      ∧ s.syncSeen p = true) ∧
    (∃ (s : State), s.objBool 0x5030 1 = true) ∧
    (∃ (d : Die) (at_ : Nat) (s : State), s.frozen = false ∧ s.gens[d].state = .ready ∧ s.genNat d 3 = 2 ∧ s.gens[d].startAt = some at_ ∧
      at_ ≤ s.now) ∧
    (∃ (d : Die) (at_ : Nat) (s : State), s.frozen = false ∧ s.gens[d].state = .ready ∧ s.gens[d].timeTarget.isSome = true ∧
      s.gens[d].startAt = some at_ ∧ at_ ≤ s.now) ∧
    (∃ (via : Source) (s : State), s.serves via = true ∧ s.objBool 0x5030 1 = true) ∧
    (∃ (d : Die) (via : Source) (s : State), s.serves via = true ∧ s.hasDie d = true ∧ s.genStopped d = true ∧ s.gens[d].calibrating =
      false) ∧
    (∃ (d : Die) (r : SyncCalResult) (s : State), s.frozen = false ∧ s.gens[d].calibrating = true ∧ s.objNat (0x5020 + d.val) 1 ≤
      r.phases.length) ∧
    (∃ (d : Die) (s : State), s.frozen = false ∧ s.gens[d].calibrating = true ∧ 1 ≤ s.objNat (0x5020 + d.val) 1 ∧ s.gens[d].calAt + sec 1
      ≤ s.now) ∧
    (∃ (d : Die) (via : Source) (s : State), s.serves via = true ∧ s.hasDie d = true ∧ s.gens[d].loading = none ∧ s.genStopped d = true ∧
      s.cacheBytes d ≠ 0 ∧ s.deep.rangeOk (s.objNat (0x5040 + d.val) 2) (s.objNat (0x5040 + d.val) 3) = true) ∧
    (∃ (d : Die) (src dst n : Nat) (s : State), s.frozen = false ∧ s.gens[d].loading = some (src, dst, n)) :=
  ⟨⟨0, { phase := 3, width := 100000, seen := true },
    { gen (fun g => { g with state := .ready }) with objs := (up.putNat 0x5000 3 2).objs }, by decide⟩,
  ⟨up.putNat 0x5030 1 1, by decide⟩,
  ⟨0, 10 ^ 15, { gen (fun g => { g with state := .ready, startAt := some (10 ^ 15) }) with objs := (up.putNat 0x5000 3 2).objs }, by
    decide⟩,
  ⟨0, 10 ^ 15, gen (fun g => { g with state := .ready, timeTarget := some 5, startAt := some (10 ^ 15) }), by decide⟩,
  ⟨.mailbox, up.putNat 0x5030 1 1, by decide⟩,
  ⟨0, .mailbox, up, by decide⟩,
  ⟨1, { phases := [3] }, (up.withGen 1 (fun g => { g with calibrating := true })).putNat 0x5021 1 1, by decide⟩,
  ⟨0, gen (fun g => { g with calibrating := true }), by decide⟩,
  ⟨0, .mailbox, { deepS id with objs := ((up.putNat 0x5040 1 1).putNat 0x5040 3 64).objs }, by decide⟩,
  ⟨0, 64, 128, 2, { gen (fun g => { g with loading := some (64, 128, 2) }) with dsMem := [(64, 1), (65, 2)] }, by decide⟩⟩

/-- The hypotheses of `GaugeLifeCompletes` can be met, clause by clause. -/
theorem witness_gaugeLifeCompletes :
    (∃ (g : Fin 64) (via : Source) (s : State), s.serves via = true ∧ s.hasDie (gaugeDie g) = true ∧ s.isOn = true ∧ s.gauges[g].state ≠
      .running) ∧
    (∃ (g : Fin 64) (via : Source) (s : State), s.serves via = true ∧ s.hasDie (gaugeDie g) = true ∧ s.gauges[g].state = .running) ∧
    (∃ (g : Fin 64) (s : State), s.frozen = false ∧ s.gauges[g].state = .running ∧ s.gauges[g].stamping = false ∧ s.gauges[g].startedAt +
      us 25 ≤ s.now ∧ s.clocks.plls[spll (gaugeDie g)].runs = true ∧ s.gauges[g].set.source = 0) ∧
    (∃ (g : Fin 64) (s : State), s.frozen = false ∧ s.gauges[g].state = .running ∧ s.gauges[g].gate.isSome = true ∧ s.gauges[g].set.source
      ≠ 2 ∧ s.gauges[g].gateEnd ≤ s.now ∧ s.gauges[g].set.again = false) ∧
    (∃ (g : Fin 64) (s : State), s.gauges[g].state = .running ∧ s.gauges[g].set.timeoutMs ≠ 0 ∧ s.gauges[g].published = false ∧
      s.gauges[g].startedAt + ms s.gauges[g].set.timeoutMs ≤ s.now) :=
  ⟨⟨63, .mailbox, up, by decide⟩,
  ⟨0, .mailbox, gauge id, by decide⟩,
  ⟨0, gauge (fun x => { x with stamping := false }), by decide⟩,
  ⟨0, gauge (fun x => { x with gate := some (0, 0) }), by decide⟩,
  ⟨0, gauge (fun x => { x with set := { x.set with timeoutMs := 1 } }), by decide⟩⟩

/-- The hypotheses of `GaugeEdgesComplete` can be met, clause by clause. -/
theorem witness_gaugeEdgesComplete :
    (∃ (g : Fin 64) (e : GaugeEdge) (s : State), s.startHeard g e = true ∧ s.gauges[g].set.mode ≠ 2 ∧ s.gauges[g].prescaled + 1 <
      s.gauges[g].set.prescale) ∧
    (∃ (g : Fin 64) (e : GaugeEdge) (s : State), s.startHeard g e = true ∧ s.gauges[g].set.mode ≠ 2 ∧ s.gauges[g].set.prescale ≤
      s.gauges[g].prescaled + 1 ∧ s.gauges[g].gate.isSome = true ∧ s.gauges[g].first = none ∧ unitBusy s.gauges[g].startUnit (s.startStamp
      g e) = false) ∧
    (∃ (g : Fin 64) (e : GaugeEdge) (s : State), s.startHeard g e = true ∧ s.gauges[g].set.mode = 2 ∧ s.gauges[g].shot = none ∧
      s.gauges[g].gate.isSome = true ∧ s.gauges[g].history = [] ∧ heldOff s.gauges[g].holdStart (s.startStamp g e) s.gauges[g].set.holdNs
      = false) ∧
    (∃ (g : Fin 64) (e : GaugeEdge) (a : Shot) (s : State), s.stopHeard g e = true ∧ s.gauges[g].set.mode = 2 ∧ s.gauges[g].shot = some a
      ∧ a.saturated = false ∧ unitBusy s.gauges[g].stopUnit (s.stopStamp g e) = false ∧ heldOff s.gauges[g].holdStop (s.stopStamp g e)
      s.gauges[g].set.holdNs = false ∧ inWindow s.gauges[g].set a.start (s.stopStamp g e) = true ∧ ownStop s.gauges[g].set a.start
      (s.stopStamp g e) = false ∧ 1024 ≤ (s.stopStamp g e - a.start).toInt.natAbs ∧ s.gauges[g].count + 1 ≠ s.gauges[g].set.shots) ∧
    (∃ (g : Fin 64) (s : State), s.gauges[g].state = .running ∧ s.gauges[g].shot.isSome = true ∧ s.gauges[g].shotEnd ≤ s.now) :=
  ⟨⟨0, { at_ := -7, rising := true }, gauge (fun x => { x with set := { x.set with prescale := 2 } }), by decide⟩,
  ⟨0, { at_ := -7, rising := true }, gauge (fun x => { x with gate := some (0, 0), gateEnd := 10 ^ 16 }), by decide⟩,
  ⟨0, { at_ := -7, rising := true }, gauge (fun x => { x with gate := some (0, 0), gateEnd := 10 ^ 16, set := { x.set with mode := 2 } }),
    by decide⟩,
  ⟨0, { at_ := 0, rising := false }, { start := -1000000, saturated := false }, gauge (fun x =>
    { x with shot := some { start := -1000000, saturated := false }, set := { x.set with mode := 2, shots := 5, w2 := 1000000000, startChan := 1 } }),
    by decide⟩,
  ⟨0, gauge (fun x => { x with shot := some { start := 1, saturated := false } }), by decide⟩⟩

/-- The hypotheses of `EthernetCompletes` can be met, clause by clause. -/
theorem witness_ethernetCompletes :
    (∃ (p : Fin 2) (sub : Byte) (value : List Byte) (via : Source) (r : ObjRow) (s : State), s.serves via = true ∧ objRow (0x4400 + p.val)
      sub.toNat = some r ∧ portSetting sub.toNat = true ∧ lengthOk r.typ value.length = true) ∧
    (∃ (p : Fin 2) (s : State), s.net.ports[p].linkUp = true) ∧
    (∃ (p : Fin 2) (s : State), s.ethReady p = true ∧ s.net.ports[p].linkUp = false) ∧
    (∃ (p : Fin 2) (frame : EthFrame) (v6 : Bool) (data : List Byte) (s : State), s.ethHears p = true ∧ frame.vlan.toNat = s.objNat
      (0x4400 + p.val) 9 ∧ frame.length ≤ s.objNat (0x4400 + p.val) 0x0B ∧ frame.addressed = true ∧ frame.body = .echo v6 data ∧ s.hasAddr
      p v6 = true) ∧
    (∃ (p : Fin 2) (frame : EthFrame) (s : State), s.ethHears p = true ∧ frame.addressed = false) ∧
    (∃ (via : Source) (p : Fin 2) (addr : List Byte) (s : State), s.serves via = true ∧ s.net.bulk = none ∧ ethPort via = some p ∧
      (s.objNat (0x4400 + p.val) 0x0A).testBit 1 = true ∧ bulkMtu addr ≤ s.objNat (0x4400 + p.val) 0x0B ∧ s.objNat 0x4470 2 ≠ 0) ∧
    (∃ (b : Bulk) (s : State), s.net.bulk = some b ∧ s.frozenFull = false ∧ b.due ≤ s.now ∧ s.ethService b.port 1 = true ∧ (s.bulkBarge
      b).isSome = true) :=
  ⟨⟨1, 5, leBytes 4 1, .mailbox, (objRow 0x4401 5).get (by decide), up, by decide⟩,
  ⟨0, netS id, by decide⟩,
  ⟨0, up.putNat 0x4400 1 1, by decide⟩,
  ⟨0, { vlan := 0, length := 64, addressed := true, body := .echo false [1] }, false, [1], (netS id).putNat 0x4400 5 5, by decide⟩,
  ⟨0, { vlan := 0, length := 64, addressed := false, body := .echo false [1] }, netS id, by decide⟩,
  ⟨.eth0, 0, [1, 2, 3, 4], ((netS id).putNat 0x4400 0x0B 9000).putNat 0x4470 2 1, by decide⟩,
  ⟨{ port := 0, dest := [1, 2, 3, 4], destPort := 5, job := 1, next := 0, start := 0, count := 1, source := 0, rate := 1, due := 0 }, netS
    (fun n =>
    { n with bulk := some { port := 0, dest := [1, 2, 3, 4], destPort := 5, job := 1, next := 0, start := 0, count := 1, source := 0, rate := 1, due := 0 } }),
    by decide +kernel⟩⟩

/-- The hypotheses of `SyncsComplete` can be met, clause by clause. -/
theorem witness_syncsComplete :
    (∃ (p : Fin 2) (m : SyncMsg) (s : State), s.ptpHears p m.hdr = true ∧ s.fromParent p m.hdr = true ∧ m.twoStep = true) ∧
    (∃ (p : Fin 2) (m : SyncMsg) (mean : Int) (s : State), s.ptpHears p m.hdr = true ∧ s.fromParent p m.hdr = true ∧ m.twoStep = false ∧
      s.net.ports[p].mean = some mean ∧ s.net.lastSeq = none ∧ s.xpllCoasts = false ∧ s.net.ports[p].unanswered < 16 ∧ s.tb.owner ≠ .hkc)
      ∧
    (∃ (p : Fin 2) (m : FollowUpMsg) (w : SyncWait) (s : State), s.ptpHears p m.hdr = true ∧ s.net.waiting = some w ∧ w.port = p ∧
      w.source = m.hdr.source ∧ w.sourcePort = m.hdr.sourcePort ∧ w.seqId = m.hdr.seqId ∧ s.now ≤ w.arrived + s.syncInterval) :=
  ⟨⟨0, { hdr := hdr, twoStep := true, origin := 5, stamp := 9 }, ptpS (fun n =>
    { n with parent := some { port := 0, data := masterData } }), by decide⟩,
  ⟨0, { hdr := hdr, twoStep := false, origin := 5, stamp := 9 }, 3,
    { ptpS (fun n => { n with parent := some { port := 0, data := masterData }, ports := n.ports.set 0 { EthPort.reset with linkUp := true, mean := some 3 } }) with tb := { up.tb with owner := .host } },
    by decide⟩,
  ⟨0, { hdr := hdr, origin := 5 },
    { port := 0, source := 7, sourcePort := 1, seqId := 9, t2 := 5, correction := 0, arrived := 10 ^ 15, coasted := false }, ptpS (fun n
    =>
    { n with waiting := some { port := 0, source := 7, sourcePort := 1, seqId := 9, t2 := 5, correction := 0, arrived := 10 ^ 15, coasted := false } }),
    by decide⟩⟩

/-- The hypotheses of `DelaysComplete` can be met, clause by clause. -/
theorem witness_delaysComplete :
    (∃ (p : Fin 2) (m : AnnounceMsg) (s : State), s.ptpHears p m.hdr = true ∧ m.hdr.source ≠ s.clockId ∧ m.steps.toNat < 255) ∧
    (∃ (p : Fin 2) (m : DelayReqMsg) (s : State), s.ptpHears p m.hdr = true ∧ s.net.ports[p].role = .master ∧ s.peerDelay = false) ∧
    (∃ (p : Fin 2) (m : DelayRespMsg) (a : DelayAsk) (t3 t1 t2 : Int) (s : State), s.ptpHears p m.hdr = true ∧ s.peerDelay = false ∧
      s.fromParent p m.hdr = true ∧ s.answersMe p m.reqSource m.reqPort m.hdr.seqId = some a ∧ a.sent = some t3 ∧ s.net.ports[p].lastSync
      = some (t1, t2) ∧ s.net.servo ≠ .locked ∧ s.net.servo ≠ .pathHold) ∧
    (∃ (p : Fin 2) (m : DelayReqMsg) (s : State), s.ptpHears p m.hdr = true ∧ s.peerDelay = true) ∧
    (∃ (p : Fin 2) (m : PdelayRespMsg) (a : DelayAsk) (t1 : Int) (s : State), s.ptpHears p m.hdr = true ∧ s.peerDelay = true ∧ s.answersMe
      p m.reqSource m.reqPort m.hdr.seqId = some a ∧ a.sent = some t1 ∧ m.followUp = false ∧ m.twoStep = false ∧ s.net.servo ≠ .locked ∧
      s.net.servo ≠ .pathHold) ∧
    (∃ (p : Fin 2) (s : State), s.ptpLive p = true) :=
  ⟨⟨0,
    { hdr := hdr, gm := 7, priority1 := 1, clockClass := 6, accuracy := 0x21, variance := 0, priority2 := 1, steps := 254, timeTraceable := true, timeSource := 0x20 },
    obj 0x4410 0x0C 0x5E (ptpS id), by decide⟩,
  ⟨0, { hdr := hdr, stamp := 9 }, ptpS (fun n =>
    { n with ports := n.ports.set 0 { EthPort.reset with linkUp := true, role := .master } }), by decide⟩,
  ⟨0, { hdr := hdr, received := 11, reqSource := 0x5E, reqPort := 1 }, { seqId := 9, sent := some 4, peer := none }, 4, 1, 2, obj 0x4410
    0x0C 0x5E (ptpS (fun n =>
    { n with parent := some { port := 0, data := masterData }, ports := n.ports.set 0 { EthPort.reset with linkUp := true, ask := some { seqId := 9, sent := some 4, peer := none }, lastSync := some (1, 2) } })),
    by decide⟩,
  ⟨0, { hdr := hdr, stamp := 9 }, (ptpS id).putNat 0x4410 5 1, by decide⟩,
  ⟨0, { hdr := hdr, followUp := false, twoStep := false, time := 11, reqSource := 0x5E, reqPort := 1, stamp := 3 },
    { seqId := 9, sent := some 4, peer := none }, 4, obj 0x4410 0x0C 0x5E ((ptpS (fun n =>
    { n with parent := some { port := 0, data := masterData }, ports := n.ports.set 0 { EthPort.reset with linkUp := true, ask := some { seqId := 9, sent := some 4, peer := none }, lastSync := some (1, 2) } })).putNat
    0x4410 5 1), by decide⟩,
  ⟨0, ptpS id, by decide⟩⟩

/-- The hypotheses of `PtpSendsAndMonitorsComplete` can be met, clause by clause. -/
theorem witness_ptpSendsAndMonitorsComplete :
    (∃ (p : Fin 2) (s : State), s.ptpMaster p = true) ∧
    (∃ (p : Fin 2) (s : State), s.ptpMaster p = true ∧ s.power.hkcUp = true) ∧
    (∃ (p : Fin 2) (s : State), s.ptpAsks p = true ∧ s.net.ports[p].ask = none) ∧
    (∃ (s : State), s.net.syncSeen + 3 * s.syncInterval ≤ s.now ∧ s.monitored = true) ∧
    (∃ (s : State), s.net.syncSeen + 3 * s.syncInterval ≤ s.now ∧ s.monitored = false ∧ s.tb.owner = .hkc ∧ s.tb.state = .disciplined) ∧
    (∃ (p : Fin 2) (b : MasterData × Nat) (s : State), s.net.ports[p].best = some b ∧ s.announceStale b.2 = true) :=
  ⟨⟨0, (ptpS (fun n => { n with ports := n.ports.set 0 { EthPort.reset with linkUp := true, role := .master } })).putNat 0x4410 2 0, by
    decide⟩,
  ⟨0, (ptpS (fun n => { n with ports := n.ports.set 0 { EthPort.reset with linkUp := true, role := .master } })).putNat 0x4410 2 0, by
    decide⟩,
  ⟨0, ptpS (fun n => { n with parent := some { port := 0, data := masterData } }), by decide⟩,
  ⟨{ ptpS (fun n => { n with servo := .locked, parent := some { port := 0, data := masterData } }) with tb := { up.tb with state := .disciplined } },
    by decide⟩,
  ⟨timed (fun t => { t with state := .disciplined }), by decide⟩,
  ⟨0, (masterData, 0), ptpS (fun n =>
    { n with parent := some { port := 0, data := masterData }, ports := n.ports.set 0 { EthPort.reset with linkUp := true, best := some (masterData, 0) } }),
    by decide⟩⟩

/-- The hypotheses of `KnotsComplete` can be met, clause by clause. -/
theorem witness_knotsComplete :
    (∃ (k : Knot) (rest : List Knot) (s : State), s.frozenFull = false ∧ s.dies[0].stair.knotQueue = k :: rest) ∧
    (∃ (k : Knot) (rest : List Knot) (s : State), s.frozenFull = false ∧ s.dies[0].stair.knotQueue = [] ∧ s.dies[1].stair.knotQueue = k ::
      rest) ∧
    (∃ (route : KnotRoute) (bytes : List Byte) (s : State), spoiledOn route = none ∧ s.routeOpen route = true ∧ s.frozenFull = false ∧
      parseKnot bytes = none) ∧
    (∃ (route : KnotRoute) (bytes : List Byte) (kn : Knot) (s : State), spoiledOn route = none ∧ s.routeOpen route = true ∧ s.frozenFull =
      false ∧ parseKnot bytes = some kn ∧ s.isDuplicate kn = false ∧ (s.objNat 0x4820 1).testBit kn.cls.val = true ∧ (kn.holdover = true →
      s.objBool 0x4820 3 = false) ∧ ((knotTime kn - s.time).toInt.natAbs : Int) ≤ (s.objNat 0x4820 2 : Int) * 65536) ∧
    (∃ (a : Accepted) (rest : List Accepted) (s : State), s.frozenFull = false ∧ s.knots.accepted = a :: rest) :=
  ⟨⟨knot1, [], die (fun x => { x with stair := { x.stair with knotQueue := [knot1] } }), by decide⟩,
  ⟨knot1, [knot1], up.withDie 1 (fun x => { x with stair := { x.stair with knotQueue := [knot1, knot1] } }), by decide⟩,
  ⟨.alp 0 true, [1], alp (fun p => { p with state := .up }), by decide⟩,
  ⟨.alp 0 true, knotBytes { knot1 with time := 262221 }, { knot1 with time := 262221 }, (((alp (fun p => { p with state := .up })).putNat
    0x4820 1 8).putNat 0x4820 3 0), by decide +kernel⟩,
  ⟨{ knot := knot1, aelop := false, arrived := 0 }, [],
    { up with knots := { up.knots with accepted := [{ knot := knot1, aelop := false, arrived := 0 }] } }, by decide⟩⟩

/-- The hypotheses of `AelopCompletes` can be met, clause by clause. -/
theorem witness_aelopCompletes :
    (∃ (k : Fin 4) (s : State), s.alpPowered k = true ∧ s.knots.ports[k].state ≠ .disabled ∧ s.knots.ports[k].nextBeat ≤ s.now + ns 10) ∧
    (∃ (k : Fin 4) (h : Heartbeat) (s : State), s.alpHears k = true ∧ h.good = true) ∧
    (∃ (k : Fin 4) (h : Heartbeat) (s : State), s.alpHears k = true ∧ h.good = true) ∧
    (∃ (k : Fin 4) (h : Heartbeat) (s : State), s.alpHears k = true ∧ h.good = false) ∧
    (∃ (k : Fin 4) (via : Source) (s : State), s.serves via = true ∧ s.knots.ports[k].state = .disabled) ∧
    (∃ (via : Source) (s : State), s.serves via = true) ∧
    (∃ (k : Fin 4) (s : State), s.frozenFull = false ∧ s.knots.ports[k].lastGood + us 4 ≤ s.now ∧ s.knots.ports[k].state = .up) ∧
    (∃ (k : Fin 4) (s : State), s.frozenFull = false ∧ s.knots.ports[k].state = .up) ∧
    (∃ (k : Fin 4) (m : LinkMeasure) (rest : List LinkMeasure) (s : State), s.frozenFull = false ∧ s.alpUp k = true ∧
      s.knots.ports[k].measured = m :: rest) ∧
    (∃ (k : Fin 4) (f : TunnelFrame) (s : State), s.alpHears k = true ∧ f.good = true ∧ f.typ = 3 ∧ s.alpUp k = true ∧ s.tunnelOn = true ∧
      f.dest = s.knots.pos ∧ f.frag = 0 ∧ headerOk f.payload = true ∧ frameNeed f.payload ≤ f.payload.length ∧ frameBack (f.payload.take
      (frameNeed f.payload)) = false ∧ s.dict.serving.isSome = true) ∧
    (∃ (k : Fin 4) (f : TunnelFrame) (s : State), s.alpHears k = true ∧ f.good = true ∧ f.typ = 3 ∧ s.alpUp k = true ∧ s.tunnelOn = true ∧
      f.dest ≠ s.knots.pos) ∧
    (∃ (k : Fin 4) (f : TunnelFrame) (s : State), s.alpHears k = true ∧ f.good = false) :=
  ⟨⟨0, alp (fun p => { p with state := .training }), by decide⟩,
  ⟨0,
    { node := 66, root := 1, dist := 0, parent := false, ttx := 5, trx := 4, seq := 1, eseq := 0, credit := 16, good := true, arrival := 9 },
    alp (fun p => { p with state := .up }), by decide⟩,
  ⟨0,
    { node := 66, root := 1, dist := 0, parent := false, ttx := 5, trx := 4, seq := 1, eseq := 0, credit := 16, good := true, arrival := 9 },
    alp (fun p => { p with state := .down }), by decide⟩,
  ⟨0,
    { node := 66, root := 1, dist := 0, parent := false, ttx := 5, trx := 4, seq := 1, eseq := 0, credit := 16, good := false, arrival := 9 },
    alp (fun p => { p with state := .training }), by decide⟩,
  ⟨3, .mailbox, up, by decide⟩,
  ⟨.mailbox, alp (fun p => { p with state := .up }), by decide⟩,
  ⟨0, alp (fun p => { p with state := .up }), by decide⟩,
  ⟨0, alp (fun p => { p with state := .up }), by decide⟩,
  ⟨0, { delay := 5, offset := -6, coasted := false }, [], alp (fun p =>
    { p with state := .up, measured := [{ delay := 5, offset := -6, coasted := false }] }), by decide⟩,
  ⟨0, { typ := 3, dest := 0, source := 3, frag := 0, payload := reqFrame 1 0 [], good := true },
    { (alp (fun p => { p with state := .up })).putNat 0x4860 1 1 with dict := { Dict.reset with serving := some (reqOf .mailbox 1 (item1 [])) } },
    by decide⟩,
  ⟨0, { typ := 3, dest := 9, source := 3, frag := 0, payload := reqFrame 1 0 [], good := true },
    { (alp (fun p => { p with state := .up })).putNat 0x4860 1 1 with dict := { Dict.reset with serving := some (reqOf .mailbox 1 (item1 [])) } },
    by decide⟩,
  ⟨0, { typ := 3, dest := 9, source := 3, frag := 0, payload := reqFrame 1 0 [], good := false },
    { (alp (fun p => { p with state := .up })).putNat 0x4860 1 1 with dict := { Dict.reset with serving := some (reqOf .mailbox 1 (item1 [])) } },
    by decide⟩⟩

/-- The hypotheses of `SpeedAndTrainingComplete` can be met, clause by clause. -/
theorem witness_speedAndTrainingComplete :
    (∃ (v : Dword) (g : GuardForm) (s : State), s.admits v g = true) ∧
    (∃ (s : State), s.deep.pending = true ∧ s.deep.changing = false ∧ s.isOn = true ∧ s.speedFree = true ∧ s.deep.anyTraining = false) ∧
    (∃ (s : State), s.deep.pending = true ∧ s.deep.changing = false ∧ s.isOn = true ∧ s.speedFree = true ∧ s.deep.anyTraining = true ∧
      s.deep.deferred = false) ∧
    (∃ (s : State), s.frozenFull = false ∧ s.deep.changing = true) ∧
    (∃ (c : Fin 8) (s : State), s.trainingDue c = true ∧ s.trainingFree = true) ∧
    (∃ (c : Fin 8) (s : State), s.trainingDue c = true ∧ s.trainingFree = false) ∧
    (∃ (c : Fin 8) (r : TrainReport) (s : State), s.frozenFull = false ∧ s.deep.chans[c].trains = true ∧ s.deep.changing = false ∧
      r.failed.contains c = false ∧ s.deep.deferred = false) ∧
    (∃ (s : State), s.power.hkcUp = true) ∧
    (∃ (s : State), s.power.hkcUp = true) :=
  ⟨⟨1, .pair (~~~1), deepS id, by decide⟩,
  ⟨deepS (fun d => { d with pending := true }), by decide⟩,
  ⟨deepS (fun d => { d with pending := true, chans := d.chans.set 0 { DsChan.reset with state := .training } }), by decide⟩,
  ⟨deepS (fun d => { d with changing := true }), by decide⟩,
  ⟨0, { deepS id with now := sec 360000 }, by decide⟩,
  ⟨0, { (deepS id).withDie 0 (fun x => { x with state := .armed }) with now := sec 360000 }, by decide⟩,
  ⟨0, { failed := [1], property := 0 }, deepS (fun d => { d with chans := d.chans.set 0 { DsChan.reset with state := .training } }), by
    decide⟩,
  ⟨deepS id, by decide⟩,
  ⟨deepS id, by decide⟩⟩

/-- The hypotheses of `DeepRequestsComplete` can be met, clause by clause. -/
theorem witness_deepRequestsComplete :
    (∃ (p : Fin 8) (g : GroupResult) (q : DsRequest) (s : State), s.frozenFull = false ∧ s.deep.ports[p] = some q ∧ q.granted = true ∧
      (q.write = true ∨ (g.corrected = false ∧ g.uncorrectable = false))) ∧
    (∃ (p : Fin 8) (q : DsRequest) (s : State), s.frozenFull = false ∧ s.deep.ports[p] = some q) ∧
    (∃ (barge : BitVec 28) (s : State), s.frozenFull = false ∧ 4096 * barge.toNat < s.deep.top) ∧
    (∃ (c : Fin 8) (m : Migration) (s : State), s.frozenFull = false ∧ s.deep.migrations.find? (fun m => m.chan == c) = some m) ∧
    (∃ (a : Nat) (s : State), s.objBool 0x5401 3 = true ∧ s.isOn = true ∧ s.deep.changing = false ∧ s.deep.scrubNext = some a ∧
      s.deep.paused = false) :=
  ⟨⟨1, { corrected := false, uncorrectable := false }, { addr := 0, write := false, entered := 0, urgency := 0, granted := true }, deepS
    (fun d => { d with ports := d.ports.set 1 (some { addr := 0, write := false, entered := 0, urgency := 0, granted := true }) }), by
    decide⟩,
  ⟨1, { addr := 0, write := false, entered := 0, urgency := 0, granted := true }, deepS (fun d =>
    { d with ports := d.ports.set 1 (some { addr := 0, write := false, entered := 0, urgency := 0, granted := true }) }), by decide⟩,
  ⟨0, deepS id, by decide⟩,
  ⟨0, { chan := 0, slot := 0, rank := 0, spare := 1, copied := 0 }, deepS (fun d =>
    { d with migrations := [{ chan := 0, slot := 0, rank := 0, spare := 1, copied := 0 }], sparing := true }), by decide⟩,
  ⟨0, deepS id, by decide⟩⟩

/-- The hypotheses of `RasWritesAndMemoryTestsComplete` can be met, clause by clause. -/
theorem witness_rasWritesAndMemoryTestsComplete :
    (∃ (c : Fin 8) (r : Fin 4) (g : GuardForm) (s : State), s.admits (rasWord c r true s.deep.spareNext false) g = true ∧ r.val <
      s.deep.chans[c].ranks ∧ s.deep.chans[c].out.getLsbD r.val = false) ∧
    (∃ (on : Bool) (g : GuardForm) (s : State), s.admits (rasWord s.deep.rasChan s.deep.rasRank false on false) g = true) ∧
    (∃ (g : GuardForm) (s : State), s.admits (rasWord s.deep.rasChan s.deep.rasRank false s.deep.spareNext true) g = true) ∧
    (∃ (c : Fin 8) (s : State), s.clocks.plls[4 + c.val].state = .coast ∧ s.clocks.plls[4 + c.val].coastAt + ms 1 ≤ s.now ∧
      s.deep.chans[c].state = .inService) ∧
    (∃ (via : Source) (s : State), s.serves via = true ∧ s.testOk (s.objNat 0x5801 1) (if s.objNat 0x5801 1 = 2 ∨ s.objNat 0x5801 1 = 3
      then false else if 4 ≤ s.objNat 0x5801 1 then true else s.objBool 0x5801 3) = true) ∧
    (∃ (m : March) (s : State), s.chip.test = some m ∧ s.frozen = false ∧ m.since + m.time (s.testBanks m) ≤ s.now) ∧
    (∃ (s : State), s.backgroundRuns = true ∧ s.chip.touched = false ∧ s.chip.stepAt + us (s.objNat 0x5820 4) ≤ s.now) ∧
    (∃ (s : State), s.power.hkcUp = true) :=
  ⟨⟨0, 0, .pair (~~~(rasWord 0 0 true false false)), deepS id, by decide⟩,
  ⟨true, .pair (~~~(rasWord 0 0 false true false)), up, by decide⟩,
  ⟨.pair (~~~(rasWord 0 0 false false true)), up, by decide⟩,
  ⟨0, { deepS id with clocks := (pll 4 (fun p => { p with state := .coast })).clocks }, by decide⟩,
  ⟨.mailbox, up.putNat 0x5801 1 4, by decide⟩,
  ⟨{ target := 2, sophisticated := false, preserving := true, backgrounds := 1, mask := 0, since := 0 },
    { up with chip := { OnChip.reset with test := some { target := 2, sophisticated := false, preserving := true, backgrounds := 1, mask := 0, since := 0 } } },
    by decide⟩,
  ⟨up, by decide⟩,
  ⟨armed id, by decide⟩⟩

/-- The hypotheses of `WindowReadsComplete` can be met, clause by clause. -/
theorem witness_windowReadsComplete :
    (∃ (off : BitVec 36) (len : BitVec 13) (s : State), (Instr.windowRead off len).wf = true ∧ s.pcie.answers = true ∧ s.windowAddr
      off.toNat < s.deep.top ∧ s.deep.reachable (s.windowAddr off.toNat) = true) ∧
    (∃ (off : BitVec 36) (len : BitVec 13) (s : State), (Instr.windowRead off len).wf = true ∧ s.pcie.answers = true ∧ s.windowAddr
      off.toNat < s.deep.top ∧ s.deep.reachable (s.windowAddr off.toNat) = false) ∧
    (∃ (s : State), s.quiet = true) :=
  ⟨⟨0x1000, 8, { deepS id with dsMem := [(4097, 7)] }, by decide⟩,
  ⟨0x1000, 8, deepS (fun d => { d with changing := true }), by decide⟩,
  ⟨up, by decide⟩⟩

/-- The hypotheses of `WindowWriteStores` can be met, clause by clause. -/
theorem witness_windowWriteStores :
    ∃ (off : BitVec 36) (bytes : List (Option Byte)) (s : State), MemInv s ∧ (Instr.windowWrite off bytes).wf = true ∧ s.pcie.answers =
      true ∧ s.windowAddr off.toNat < s.deep.top ∧ s.deep.reachable (s.windowAddr off.toNat) = true :=
  ⟨0x1002, [some 1, some 2, some 3, some 4, none, some 6], deepS id, by decide⟩

/-- The hypotheses of `DescriptorRamCompletes` can be met, clause by clause. -/
theorem witness_descriptorRamCompletes :
    (∃ (off : BitVec 16) (w : RamBytes) (s : State), MemInv s ∧ (Instr.descriptorRamHostWrite off w).wf = true ∧ s.pcie.answers = true ∧ 4
      ≤ off.toNat) ∧
    (∃ (off : BitVec 16) (w : RamBytes) (s : State), MemInv s ∧ (Instr.descriptorRamHostWrite off w).wf = true ∧ s.pcie.answers = true ∧ 4
      ≤ off.toNat) ∧
    (∃ (off : BitVec 16) (w : RamBytes) (s : State), MemInv s ∧ (Instr.descriptorRamHostWrite off w).wf = true ∧ s.pcie.answers = true ∧ 4
      ≤ off.toNat) ∧
    (∃ (off : BitVec 16) (w : RamBytes) (s : State), (Instr.descriptorRamHostWrite off w).wf = true ∧ s.pcie.answers = true) ∧
    (∃ (off : BitVec 16) (len : BitVec 13) (met : RamMeets) (s : State), (Instr.descriptorRamHostRead off len met).wf = true ∧
      s.pcie.answers = true) ∧
    (∃ (off : BitVec 16) (len : BitVec 13) (met : RamMeets) (s : State), (Instr.descriptorRamHostRead off len met).wf = true ∧
      s.pcie.answers = true ∧ met.clash = []) ∧
    (∃ (off : BitVec 16) (len : BitVec 13) (met : RamMeets) (s : State), (Instr.descriptorRamHostRead off len met).wf = true ∧
      s.pcie.answers = true ∧ met.clash = []) ∧
    (∃ (off : BitVec 16) (a b c d : Byte) (old : Nat) (s : State), MemInv s ∧ s.quiet = true ∧ 4 ≤ off.toNat ∧ off.toNat < 0xC000 ∧
      off.toNat % 4 = 0 ∧ s.chip.portAt = s.now ∧ s.chip.port.find? (fun x => decide (x.1 = off.toNat)) = some (off.toNat, old) ∧ (d ++ c
      ++ b ++ a : Dword).toNat ≠ s.ramWord off.toNat) :=
  ⟨⟨0xBFF8, { bytes := [some 1, some 2, some 3, some 4, some 5, some 6, none, some 8], clash := [], flaws := [] }, up, by decide⟩,
  ⟨0xC000, { bytes := [some 1, some 2, some 3, some 4], clash := [], flaws := [] }, up, by decide⟩,
  ⟨4, { bytes := [some 1, some 2, some 3, some 4], clash := [], flaws := [] }, up, by decide⟩,
  ⟨0, { bytes := [some 1, some 0, some 0, some 0], clash := [], flaws := [] }, up, by decide⟩,
  ⟨0x10, 4, { ecc := [(4, false)], clash := [0x10] },
    { up with ram := [(0x10, 9)], chip := { OnChip.reset with port := [(0x10, 7)], portAt := 10 ^ 15 } }, by decide⟩,
  ⟨0xBFFC, 4, { ecc := [(5, false)], clash := [] }, { up with ram := [(0xBFFF, 9)] }, by decide⟩,
  ⟨0xC000, 1, { ecc := [(5, false)], clash := [] }, { up with ram := [(0xC000, 9)] }, by decide⟩,
  ⟨0xBFFC, 1, 2, 3, 4, 7, { up with chip := { OnChip.reset with port := [(0xBFFC, 7)], portAt := 10 ^ 15 } }, by decide⟩⟩

/-- The hypotheses of `CoastsComplete` can be met, clause by clause. -/
theorem witness_coastsComplete :
    (∃ (i : Fin 13) (s : State), i.val ≠ 12 ∧ s.clocks.plls[i].state = .locked ∧ s.clocks.plls[i].closed = none) ∧
    (∃ (i : Fin 13) (s : State), i.val ≠ 12 ∧ s.clocks.plls[i].state = .locked ∧ s.clocks.plls[i].closed = none) ∧
    (∃ (i : Fin 13) (s : State), s.power.hkcUp = true ∧ s.clocks.plls[i].state = .coast ∧ i.val ≠ 2 ∧ i.val ≠ 12) ∧
    (∃ (i : Fin 13) (s : State), s.power.hkcUp = true ∧ s.clocks.plls[i].state = .coast ∧ i.val ≠ 2 ∧ i.val ≠ 12) ∧
    (∃ (i : Fin 13) (d : Die) (s : State), s.clocks.plls[i].state = .coast ∧ s.clocks.plls[i].estimateAt + ms 10 ≤ s.now ∧ d ∈ sealDies i
      ∧ s.dies[d].isOpen = true ∧ s.dies[d].convoy.storing = true) ∧
    (∃ (d : Die) (s : State), s.clocks.plls[spll d].state = .coast ∧ s.dies[d].isOpen = true ∧ s.dies[d].convoy.storing = true) :=
  ⟨⟨1, pll 1 (fun p => { p with state := .locked }), by decide⟩,
  ⟨4, pll 4 (fun p => { p with state := .locked }), by decide⟩,
  ⟨0, pll 0 (fun p => { p with state := .coast }), by decide⟩,
  ⟨11, pll 11 (fun p => { p with state := .coast }), by decide⟩,
  ⟨0, 0, { armed id with clocks := (pll 0 (fun p => { p with state := .coast })).clocks }, by decide⟩,
  ⟨0, { armed id with clocks := (pll 0 (fun p => { p with state := .coast })).clocks }, by decide⟩⟩

/-- The hypotheses of `ReentryCompletes` can be met, clause by clause. -/
theorem witness_reentryCompletes :
    (∃ (i : Fin 13) (s : State), s.clocks.plls[i].state = .coast ∧ s.clocks.plls[i].loss = false ∧ s.clocks.plls[i].wanted = none ∧
      s.clocks.plls[i].attempts < 3) ∧
    (∃ (i : Fin 13) (s : State), s.clocks.plls[i].state = .coast ∧ s.clocks.plls[i].loss = true ∧ s.clocks.plls[i].noRef = false ∧
      s.clocks.plls[i].attempts < 3 ∧ s.clocks.plls[i].coastAt + us 10 ≤ s.now ∧ s.clocks.plls[i].wanted = none) ∧
    (∃ (i : Fin 13) (s : State), s.clocks.plls[i].closed.isSome = true) ∧
    (∃ (i : Fin 13) (s : State), s.clocks.plls[i].closed.isSome = true) ∧
    (∃ (i : Fin 13) (s : State), i.val ≠ 12 ∧ s.clocks.plls[i].state = .search ∧ s.clocks.plls[i].noRef = false ∧ s.clocks.plls[i].back =
      none ∧ s.clocks.plls[i].wanted = none) ∧
    (∃ (via : Source) (s : State), s.serves via = true) ∧
    (∃ (v : Byte) (via : Source) (s : State), s.serves via = true ∧ v.toNat ≤ 2 ∧ s.clocks.plls[(2 : Fin 13)].state ≠ .coast) :=
  ⟨⟨0, pll 0 (fun p => { p with state := .coast }), by decide⟩,
  ⟨2, pll 2 (fun p => { p with state := .coast, loss := true, attempts := 2 }), by decide⟩,
  ⟨0, pll 0 (fun p => { p with state := .locked, closed := some 0 }), by decide⟩,
  ⟨0, pll 0 (fun p => { p with state := .locked, closed := some 0 }), by decide⟩,
  ⟨11, pll 11 (fun p => { p with state := .search }), by decide⟩,
  ⟨.mailbox, pll 5 (fun p => { p with state := .locked }), by decide⟩,
  ⟨2, .mailbox, up, by decide⟩⟩

/-- The hypotheses of `DmaControlCompletes` can be met, clause by clause. -/
theorem witness_dmaControlCompletes :
    (∃ (k : Fin 8) (s : State), s.quiet = true ∧ s.pcie.dma[k].run = false) ∧
    (∃ (s : State), s.quiet = true) ∧
    (∃ (k : Fin 8) (s : State), s.quiet = true ∧ s.pcie.dma[k].busy = true) ∧
    (∃ (s : State), s.quiet = true ∧ s.pcie.cfg.bme = true) ∧
    (∃ (s : State), s.quiet = true) :=
  ⟨⟨7, up, by decide⟩,
  ⟨dma (fun c =>
    { c with run := true, job := some { desc := { haddr := 64, daddr := 0, len := 64, op := 0, ctl := 0 }, requested := 64, moved := 0, hole := false, verdict := none } }),
    by decide⟩,
  ⟨0, dma (fun c =>
    { c with run := true, job := some { desc := { haddr := 64, daddr := 0, len := 64, op := 0, ctl := 0 }, requested := 64, moved := 0, hole := false, verdict := none } }),
    by decide⟩,
  ⟨dma (fun c => { c with run := true, halted := true }), by decide⟩,
  ⟨up, by decide⟩⟩

/-- The hypotheses of `DmaJobsComplete` can be met, clause by clause. -/
theorem witness_dmaJobsComplete :
    (∃ (k : Fin 8) (j : DmaJob) (v : Nat) (s : State), s.pcie.dma[k].job = some j ∧ j.verdict = some v) ∧
    (∃ (k : Fin 8) (j : DmaJob) (s : State), s.pcie.dma[k].job = some j ∧ j.verdict = none ∧ j.desc.op ≠ 1 ∧ (s.usesDeep j.desc = true →
      s.deep.ready = true) ∧ s.pcie.mayIssue = true ∧ (s.jobData j.desc).1 ≠ []) ∧
    (∃ (tag : BitVec 10) (e : TagEntry) (a : Nat) (s : State), mget tag.toNat s.pcie.retired = none ∧ s.pcie.tags.find? (fun e => e.tag ==
      tag.toNat) = some e ∧ e.use = .data a ∧ s.deep.rangeOk a e.len = true) ∧
    (∃ (tag : BitVec 10) (s : State), (mget tag.toNat s.pcie.retired).isSome = true) ∧
    (∃ (tag : BitVec 10) (e : TagEntry) (s : State), s.pcie.tags.find? (fun e => e.tag == tag.toNat) = some e ∧
      s.pcie.cfg.cplTimeoutDisable = false ∧ s.pcie.resetWait = none) ∧
    (∃ (tag : BitVec 10) (at_ : Nat) (s : State), mget tag.toNat s.pcie.retired = some at_ ∧ at_ ≤ s.now) :=
  ⟨⟨0,
    { desc := { haddr := 64, daddr := 0, len := 64, op := 0, ctl := 0 }, requested := 64, moved := 0, hole := false, verdict := some 7 },
    7, dma (fun c =>
    { c with run := true, job := some { desc := { haddr := 64, daddr := 0, len := 64, op := 0, ctl := 0 }, requested := 64, moved := 0, hole := false, verdict := some 7 } }),
    by decide⟩,
  ⟨0, { desc := { haddr := 64, daddr := 0, len := 64, op := 0, ctl := 0 }, requested := 64, moved := 0, hole := false, verdict := none },
    { deepS id with pcie := (dma (fun c => { c with run := true, job := some { desc := { haddr := 64, daddr := 0, len := 64, op := 0, ctl := 0 }, requested := 64, moved := 0, hole := false, verdict := none } })).pcie },
    by decide⟩,
  ⟨3, { tag := 3, chan := 0, use := .data 0, len := 4 }, 0,
    { deepS id with pcie := { (dma (fun c => { c with run := true, job := some { desc := { haddr := 64, daddr := 0, len := 64, op := 0, ctl := 0 }, requested := 64, moved := 0, hole := false, verdict := none } })).pcie with tags := [{ tag := 3, chan := 0, use := .data 0, len := 4 }] } },
    by decide⟩,
  ⟨3, ep (fun p => { p with retired := [(3, 10 ^ 15)] }), by decide⟩,
  ⟨3, { tag := 3, chan := 0, use := .data 0, len := 4 }, ep (fun p =>
    { p with tags := [{ tag := 3, chan := 0, use := .data 0, len := 4 }] }), by decide⟩,
  ⟨3, 10 ^ 15, ep (fun p => { p with retired := [(3, 10 ^ 15)] }), by decide⟩⟩

/-- The hypotheses of `FunctionStatesComplete` can be met, clause by clause. -/
theorem witness_functionStatesComplete :
    (∃ (s : State), s.pcie.cfgOpen = true ∧ s.pcie.cfg.bme = true) ∧
    (∃ (s : State), s.pcie.cfgOpen = true ∧ s.pcie.cfg.bme = false) ∧
    (∃ (s : State), s.pcie.cfgOpen = true ∧ s.pcie.dstate = .d0) ∧
    (∃ (s : State), s.pcie.cfgOpen = true ∧ s.pcie.dstate = .d3hot) ∧
    (∃ (s : State), s.pcie.answers = true) ∧
    (∃ (s : State), s.pcie.cfgOpen = true) ∧
    (∃ (s : State), s.pcie.cfgOpen = true) ∧
    (∃ (s : State), s.pcie.cfgOpen = true) :=
  ⟨⟨up, by decide⟩,
  ⟨ep (fun p => { p with cfg := CfgSpace.reset }), by decide⟩,
  ⟨dma (fun c => { c with run := true }), by decide⟩,
  ⟨ep (fun p => { p with dstate := .d3hot }), by decide⟩,
  ⟨up, by decide⟩,
  ⟨up, by decide⟩,
  ⟨up, by decide⟩,
  ⟨ep (fun p => { p with pmeStatus := true }), by decide⟩⟩

/-- The hypotheses of `FunctionResetsComplete` can be met, clause by clause. -/
theorem witness_functionResetsComplete :
    (∃ (s : State), s.pcie.cfgOpen = true) ∧
    (∃ (s : State), s.pcie.cfgOpen = true) ∧
    (∃ (s : State), s.resetDue = true) ∧
    (∃ (s : State), s.pcie.linkUp = true) ∧
    (∃ (rate : Fin 6) (width : BitVec 5) (s : State), s.linkMayTrain = true ∧ s.pcie.linkUp = false ∧ rate ≠ 0 ∧ width.toNat ∈ [1, 2, 4,
      8, 16]) ∧
    (∃ (off : BitVec 12) (value : Dword) (be : BitVec 4) (s : State), (Instr.configurationWrite off value be).wf = true ∧ s.pcie.cfgOpen =
      true) ∧
    (∃ (s : State), s.pcie.cfgOpen = true) :=
  ⟨⟨up, by decide⟩,
  ⟨up, by decide⟩,
  ⟨ep (fun p => { p with resetWait := some (true, 10 ^ 15) }), by decide⟩,
  ⟨up, by decide⟩,
  ⟨5, 16, ep (fun p => { p with linkUp := false }), by decide⟩,
  ⟨0xFFC, 7, 0xF, up, by decide⟩,
  ⟨up, by decide⟩⟩

/-- The hypotheses of `RequestsAndNotificationsComplete` can be met, clause by clause. -/
theorem witness_requestsAndNotificationsComplete :
    (∃ (seq : BitVec 16) (s : State), MemInv s ∧ s.pcie.answers = true ∧ s.dict.serving.isSome = true ∧ s.mbRsp ≠ seq.toNat ∧ (s.ramWord
      4).testBit 16 = false) ∧
    (∃ (p : Fin 2) (dg : Datagram) (s : State), s.ethHears p = true ∧ (s.objNat (0x4400 + p.val) 0x0A).testBit 0 = true ∧ s.hasAddr p
      (decide (dg.srcAddr.length = 16)) = true ∧ s.frameFits p dg.vlan.toNat (packetLength dg) = true ∧ dg.fragment = false ∧
      s.power.hkcUp = true ∧ frameOk dg.payload = true ∧ frameBack dg.payload = false ∧ s.mustAuth p dg.payload = false ∧ s.dict.stored[p]
      = [] ∧ s.dict.ethQueue[p].length < 8 ∧ s.dict.serving.isSome = true) ∧
    (∃ (p : Fin 2) (dg : Datagram) (s : State), s.ethHears p = true ∧ (s.objNat (0x4400 + p.val) 0x0A).testBit 0 = true ∧ s.hasAddr p
      (decide (dg.srcAddr.length = 16)) = true ∧ s.frameFits p dg.vlan.toNat (packetLength dg) = true ∧ dg.fragment = false ∧
      s.power.hkcUp = true ∧ frameOk dg.payload = false) ∧
    (∃ (s : State), s.power.hkcUp = true) ∧
    (∃ (i : Fin 64) (x : Subscription) (s : State), s.dict.subs[i.val]? = some x ∧ s.power.hkcUp = true ∧ s.changed x = true ∧
      s.intervalOver x = true) ∧
    (∃ (i : Fin 64) (x : Subscription) (s : State), s.dict.subs[i.val]? = some x ∧ s.power.hkcUp = true ∧ hasLease x.path = true ∧
      x.renewed + ms (s.objNat 0x1100 3) ≤ s.now) :=
  ⟨⟨0xFFFF, { up with dict := { Dict.reset with serving := some (reqOf .eth0 1 (item1 [])) } }, by decide⟩,
  ⟨0, { srcAddr := [1, 2, 3, 4], srcPort := 5000, vlan := 0, fragment := false, payload := reqFrame 1 0 [] }, served (reqOf .eth0 1 (item1
    [])), by decide⟩,
  ⟨0, { srcAddr := [1, 2, 3, 4], srcPort := 5000, vlan := 0, fragment := false, payload := [1] }, netS id, by decide⟩,
  ⟨up, by decide⟩,
  ⟨0,
    { path := .eth0, srcAddr := [1, 2, 3, 4], srcPort := 5000, tag := 1, index := 0x4420, sub := 5, interval := 0, renewed := 0, merged := 1, changedAt := 0, lastSent := none, lastVal := .num 1 },
    { netS id with dict := { Dict.reset with subs := [{ path := .eth0, srcAddr := [1, 2, 3, 4], srcPort := 5000, tag := 1, index := 0x4420, sub := 5, interval := 0, renewed := 0, merged := 1, changedAt := 0, lastSent := none, lastVal := .num 1 }] } },
    by decide⟩,
  ⟨0,
    { path := .eth0, srcAddr := [1, 2, 3, 4], srcPort := 5000, tag := 1, index := 0x4420, sub := 5, interval := 0, renewed := 0, merged := 0, changedAt := 0, lastSent := none, lastVal := .num 1 },
    { up with dict := { Dict.reset with subs := [{ path := .eth0, srcAddr := [1, 2, 3, 4], srcPort := 5000, tag := 1, index := 0x4420, sub := 5, interval := 0, renewed := 0, merged := 0, changedAt := 0, lastSent := none, lastVal := .num 1 }] } },
    by decide⟩⟩

/-- The hypotheses of `OdpAccessesComplete` can be met, clause by clause. -/
theorem witness_odpAccessesComplete :
    (∃ (p : Fin 2) (r : Request) (items : List Item) (s : State), s.inService 1 = some (r, items) ∧ r.path = (if p = 0 then .eth0 else
      .eth1) ∧ r.key = none ∧ s.net.ports[p].linkUp = true) ∧
    (∃ (p : Fin 2) (r : Request) (i : Item) (s : State), s.inService 3 = some (r, [i]) ∧ r.path = (if p = 0 then .eth0 else .eth1) ∧ r.key
      = none ∧ s.net.ports[p].linkUp = true) ∧
    (∃ (r : Request) (i : Item) (row : ObjRow) (s : State), s.inService 5 = some (r, [i]) ∧ s.objectAt i.index i.sub = some row ∧ row.acc
      ≠ .wo ∧ i.value.length = 4 ∧ (leNat i.value).testBit 31 = false ∧ s.dict.subs.length < 64) ∧
    (∃ (r : Request) (i : Item) (row : ObjRow) (v : Val) (s : State), s.inService 2 = some (r, [i]) ∧ s.objectAt i.index i.sub = some row
      ∧ i.index = 0x4420 ∧ row.acc = .rw ∧ i.typ = row.typ.code ∧ lengthOk row.typ i.value.length = true ∧ clampVal s.variant row (readVal
      row.typ i.value) = (v, none) ∧ v ≠ objDefault i.index i.sub) ∧
    (∃ (r : Request) (i : Item) (row : ObjRow) (v : Val) (s : State), s.inService 4 = some (r, [i]) ∧ s.objectAt i.index i.sub = some row
      ∧ i.index = 0x4420 ∧ row.acc = .rw ∧ i.typ = row.typ.code ∧ lengthOk row.typ i.value.length = true ∧ clampVal s.variant row (readVal
      row.typ i.value) = (v, none) ∧ v ≠ objDefault i.index i.sub) ∧
    (∃ (r : Request) (i : Item) (s : State), s.inService 2 = some (r, [i]) ∧ s.objectAt i.index i.sub = none) :=
  ⟨⟨0, reqOf .eth0 1 (item1 []), [item1 []], served (reqOf .eth0 1 (item1 [])), by decide⟩,
  ⟨0, reqOf .eth0 3 (item1 []), item1 [], served (reqOf .eth0 3 (item1 [])), by decide⟩,
  ⟨reqOf .eth0 5 (item1 (leBytes 4 100)), item1 (leBytes 4 100), (objRow 0x4420 5).get (by decide), served (reqOf .eth0 5 (item1 (leBytes
    4 100))), by decide⟩,
  ⟨reqOf .eth0 2 (item1 (leBytes 4 100)), item1 (leBytes 4 100), (objRow 0x4420 5).get (by decide), .num 100, served (reqOf .eth0 2 (item1
    (leBytes 4 100))), by decide⟩,
  ⟨reqOf .eth0 4 (item1 (leBytes 4 100)), item1 (leBytes 4 100), (objRow 0x4420 5).get (by decide), .num 100, served (reqOf .eth0 4 (item1
    (leBytes 4 100))), by decide⟩,
  ⟨reqOf .eth0 2 ({ item1 [1] with index := 0xFFFF }), { item1 [1] with index := 0xFFFF }, served (reqOf .eth0 2
    ({ item1 [1] with index := 0xFFFF })), by decide⟩⟩

/-- The hypotheses of `RegistersAndGuardComplete` can be met, clause by clause. -/
theorem witness_registersAndGuardComplete :
    (∃ (s : State), s.quiet = true) ∧
    (∃ (s : State), s.quiet = true ∧ s.tb.owner = .host) ∧
    (∃ (off : BitVec 20) (bytes : List (Option Byte)) (s : State), off.toNat % 4 = 0 ∧ bytes.length = 4 ∧ none ∈ bytes ∧ s.pcie.answers =
      true) ∧
    (∃ (off : BitVec 20) (bytes : List (Option Byte)) (s : State), off.toNat % 4 = 0 ∧ bytes.length = 4 ∧ none ∈ bytes ∧ s.pcie.answers =
      true) ∧
    (∃ (v : Dword) (s : State), s.quiet = true ∧ s.guard.keyed = true ∧ v.toNat % 65536 = 0x5EA1) ∧
    (∃ (v : Dword) (s : State), s.quiet = true ∧ s.guard.keyed = true ∧ v.toNat % 65536 ≠ 0x5EA1) ∧
    (∃ (at_ : Nat) (s : State), s.guard.unlocked = some at_ ∧ at_ ≤ s.now) ∧
    (∃ (reg : GuardedReg) (v : Dword) (s : State), s.hasReg reg = true ∧ s.pcie.answers = true ∧ s.guard.keyed = false ∧
      s.guard.pendingWrite = some (regOffset reg, ~~~v)) ∧
    (∃ (reg : GuardedReg) (v w : Dword) (s : State), s.hasReg reg = true ∧ s.pcie.answers = true ∧ s.guard.keyed = false ∧
      s.guard.pendingWrite = some (regOffset reg, w) ∧ v ≠ ~~~w) ∧
    (∃ (reg : GuardedReg) (at_ : Nat) (s : State), s.hasReg reg = true ∧ s.quiet = true ∧ s.guard.keyed = true ∧ s.guard.unlocked = some
      at_ ∧ s.now ≤ at_) ∧
    (∃ (reg : GuardedReg) (s : State), s.hasReg reg = true ∧ s.quiet = true ∧ s.guard.keyed = true ∧ (∀ at_, s.guard.unlocked = some at_ →
      at_ < s.now)) ∧
    (∃ (reg : GuardedReg) (s : State), s.hasReg reg = true ∧ s.quiet = true ∧ s.guard.keyed = true ∧ (∀ at_, s.guard.unlocked = some at_ →
      at_ < s.now)) ∧
    (∃ (v : Dword) (via : Source) (s : State), s.reaches via = true ∧ s.guard.selWritten = false ∧ v.toNat ≤ 2) :=
  ⟨⟨up, by decide⟩,
  ⟨timed (fun t => { t with owner := .host }), by decide⟩,
  ⟨0x6C000, [some 1, none, some 2, some 3], up, by decide⟩,
  ⟨0xFFFFC, [none, none, none, none], up, by decide⟩,
  ⟨0xFFFF5EA1, grd (fun g => { g with keyed := true, sel := 2 }), by decide⟩,
  ⟨0x5EA0, grd (fun g => { g with keyed := true, sel := 2 }), by decide⟩,
  ⟨10 ^ 15, grd (fun g => { g with keyed := true, sel := 2, unlocked := some (10 ^ 15) }), by decide⟩,
  ⟨.dsSpeed, ~~~1, grd (fun g => { g with pendingWrite := some (regOffset .dsSpeed, ~~~(~~~1)) }), by decide⟩,
  ⟨.ydrv 1 7, 0, 1, grd (fun g => { g with pendingWrite := some (regOffset (.ydrv 1 7), 1) }), by decide⟩,
  ⟨.hltFrz, 10 ^ 15, grd (fun g => { g with keyed := true, sel := 2, unlocked := some (10 ^ 15) }), by decide⟩,
  ⟨.ydir 1 3, grd (fun g => { g with keyed := true, sel := 2 }), by decide⟩,
  ⟨.ydrv 0 7, grd (fun g => { g with keyed := true, sel := 2, unlocked := some (10 ^ 15 - 1) }), by decide⟩,
  ⟨2, .bar0, up, by decide⟩⟩

/-- The hypotheses of `PowerCompletes` can be met, clause by clause. -/
theorem witness_powerCompletes :
    (∃ (via : Source) (s : State), s.reaches via = true ∧ s.power.phase = .none ∧ s.power.everReady = true ∧ s.power.transition = none ∧
      s.power.state = .on ∧ s.powerBusy = false) ∧
    (∃ (via : Source) (s : State), s.reaches via = true ∧ s.power.phase = .none ∧ s.power.everReady = true ∧ s.power.transition = none ∧
      s.power.state = .on ∧ s.powerBusy = false ∧ s.power.ready = true ∧ s.watchOk = true) ∧
    (∃ (via : Source) (s : State), s.reaches via = true ∧ s.power.phase = .none ∧ s.power.everReady = true ∧ s.power.transition = none ∧
      s.power.state = .on ∧ s.powerBusy = false ∧ s.power.ready = true ∧ s.watchOk = true) ∧
    (∃ (via : Source) (s : State), s.reaches via = true ∧ s.power.phase = .none ∧ s.power.everReady = true ∧ s.power.transition = none ∧
      s.power.state ≠ .on ∧ s.power.state ≠ .off) ∧
    (∃ (via : Source) (s : State), s.reaches via = true ∧ s.power.phase = .none ∧ s.power.everReady = true ∧ s.power.transition = none ∧
      s.power.state = .on ∧ s.powerBusy = true) ∧
    (∃ (m : PTransition) (s : State), s.power.transition = some m ∧ s.moveReady m = true ∧ m.next = none) ∧
    (∃ (m : PTransition) (s : State), s.power.transition = some m ∧ s.moveReady m = true ∧ m.next = none) ∧
    (∃ (n : Fin 44) (at_ : Nat) (s : State), s.power.domains.getLsbD n.val = true ∧ s.domainUsed n.val = some false ∧ mget n.val
      s.power.idleSince = some at_ ∧ at_ + ms 1 ≤ s.now) ∧
    (∃ (rising : Bool) (s : State), s.power.state = .off ∧ s.objBool 0x7002 1 = true ∧ decide (s.objNat 0x7002 2 = 0) = rising) :=
  ⟨⟨.bar0, up, by decide⟩,
  ⟨.mailbox,
    { up with objs := (up.putNat 0x3860 1 1).objs, chip := { OnChip.reset with bankMask := Vector.replicate 2 (BitVec.allOnes 64) } },
    by decide +kernel⟩,
  ⟨.bar0, up.putNat 0x3860 1 1, by decide +kernel⟩,
  ⟨.mailbox, pwr (fun p => { p with state := .retain }), by decide⟩,
  ⟨.mailbox, armed id, by decide⟩,
  ⟨{ target := .standby, wake := 0, done := 10 ^ 15, next := none }, pwr (fun p =>
    { p with transition := some { target := .standby, wake := 0, done := 10 ^ 15, next := none } }), by decide⟩,
  ⟨{ target := .on, wake := 1, done := 10 ^ 15, next := none }, pwr (fun p =>
    { p with state := .standby, transition := some { target := .on, wake := 1, done := 10 ^ 15, next := none } }), by decide⟩,
  ⟨0, 0, pwr (fun p => { p with domains := 1, idleSince := [(0, 0)] }), by decide⟩,
  ⟨true, (pwr (fun p => { p with state := .off })).putNat 0x7002 1 1, by decide⟩⟩

/-- The hypotheses of `ResetsComplete` can be met, clause by clause. -/
theorem witness_resetsComplete :
    (∃ (s : State), s.power.phase ≠ .powerOn ∧ s.power.state ≠ .off) ∧
    (∃ (s : State), s.power.phase = .powerOn ∧ s.power.perstLow = false ∧ s.power.sysrstLow = false) ∧
    (∃ (s : State), s.power.phase = .none ∧ s.power.state ≠ .off) ∧
    (∃ (s : State), s.power.phase = .fundamental ∧ s.power.state ≠ .off) ∧
    (∃ (s : State), s.power.state = .off ∧ s.power.phase = .none ∧ s.power.perstLow = false ∧ s.power.sysrstLow = false ∧ s.health.tripped
      = false) :=
  ⟨⟨armed id, by decide⟩,
  ⟨pwr (fun p => { p with phase := .powerOn }), by decide⟩,
  ⟨armed id, by decide⟩,
  ⟨pwr (fun p => { p with phase := .fundamental, perstLow := true }), by decide⟩,
  ⟨pwr (fun p => { p with state := .off, pfwOff := true }), by decide⟩⟩

/-- The hypotheses of `StartsComplete` can be met, clause by clause. -/
theorem witness_startsComplete :
    (∃ (s : State), s.power.phase = .startup) ∧
    (∃ (s : State), s.power.hkcUp = true) ∧
    (∃ (s : State), s.power.everReady = true ∧ s.power.hkcUp = false ∧ s.power.phase = .none ∧ s.power.state ≠ .off ∧ s.frozenFull =
      false) :=
  ⟨⟨State.reset, by decide⟩,
  ⟨up, by decide⟩,
  ⟨pwr (fun p => { p with hkcUp := false, ready := false }), by decide⟩⟩

/-- The hypotheses of `SensorsAndFreezesComplete` can be met, clause by clause. -/
theorem witness_sensorsAndFreezesComplete :
    (∃ (readings : Vector Int 20) (s : State), s.power.phase ≠ .powerOn ∧ s.power.state ≠ .off ∧ (∀ i : Fin 20, readings[i] < 110000)) ∧
    (∃ (readings : Vector Int 20) (i : Fin 20) (s : State), s.power.phase ≠ .powerOn ∧ s.power.state ≠ .off ∧ i.val < 12 ∧ 120000 ≤
      readings[i]) ∧
    (∃ (s : State), s.isOn = true ∧ s.health.freezePinLow = false ∧ s.health.freeze = none) ∧
    (∃ (f : Freeze) (s : State), s.health.freeze = some f ∧ f.byReg = false ∧ f.full = false) ∧
    (∃ (full : Bool) (g : GuardForm) (s : State), s.admits (dw (1 + 4 * b2n full)) g = true ∧ s.isOn = true ∧ s.health.freeze = none) ∧
    (∃ (full : Bool) (g : GuardForm) (s : State), s.admits (dw (1 + 4 * b2n full)) g = true ∧ s.isOn = true ∧ s.health.freeze = none) ∧
    (∃ (f : Freeze) (g : GuardForm) (s : State), s.admits 2 g = true ∧ s.health.freezePinLow = false ∧ s.health.freeze = some f ∧ f.byReg
      = true ∧ f.full = false) :=
  ⟨⟨Vector.replicate 20 109999, armed id, by decide⟩,
  ⟨Vector.replicate 20 120000, 11, armed id, by decide⟩,
  ⟨up, by decide⟩,
  ⟨frozenAt false, hlt (fun h => { h with freeze := some (frozenAt false), freezePinLow := true }), by decide⟩,
  ⟨false, .pair (~~~1), up, by decide⟩,
  ⟨true, .pair (~~~5), armed id, by decide⟩,
  ⟨frozenAt true, .pair (~~~2), hlt (fun h => { h with freeze := some (frozenAt true) }), by decide⟩⟩

/-- The hypotheses of `BlackBoxAndJtagComplete` can be met, clause by clause. -/
theorem witness_blackBoxAndJtagComplete :
    (∃ (opt : BitVec 5) (g : GuardForm) (s : State), s.admits (dw (1 + 256 * opt.toNat)) g = true ∧ s.health.queue.length < 64) ∧
    (∃ (opt : BitVec 5) (g : GuardForm) (s : State), s.admits (dw (256 * opt.toNat)) g = true) ∧
    (∃ (q : BbQueued) (rest : List BbQueued) (s : State), s.health.queue = q :: rest ∧ s.power.phase ≠ .powerOn) ∧
    (∃ (s : State), s.tapUp = true) ∧
    (∃ (opcode : Byte) (s : State), s.tapUp = true ∧ listedOpcode opcode.toNat = false) ∧
    (∃ (s : State), s.tapUp = true) ∧
    (∃ (s : State), s.tapUp = true ∧ s.health.freeze = none) ∧
    (∃ (f : Freeze) (s : State), s.tapUp = true ∧ s.health.freeze = some f) ∧
    (∃ (s : State), s.tapUp = true) ∧
    (∃ (s : State), s.tapUp = true) :=
  ⟨⟨31, .pair (~~~(dw (1 + 256 * 31))), up, by decide⟩,
  ⟨16, .pair (~~~(dw (256 * 16))), up, by decide⟩,
  ⟨{ entry := { code := 0x400, sev := 0, first := false, late := false, dropped := false, epoch := 0, time := 0, seq := 0, data := [], boot := 1 }, detected := 0 },
    [], hlt (fun h =>
    { h with queue := [{ entry := { code := 0x400, sev := 0, first := false, late := false, dropped := false, epoch := 0, time := 0, seq := 0, data := [], boot := 1 }, detected := 0 }] }),
    by decide⟩,
  ⟨up, by decide⟩,
  ⟨0xFF, up, by decide⟩,
  ⟨up, by decide⟩,
  ⟨up, by decide⟩,
  ⟨frozenAt false, hlt (fun h => { h with freeze := some (frozenAt false) }), by decide⟩,
  ⟨up, by decide⟩,
  ⟨up, by decide⟩⟩

/-- The hypotheses of `ScanOnlyInReset` can be met, clause by clause. -/
theorem witness_scanOnlyInReset :
    (∃ (s : State), s.power.phase = .fundamental) ∧
    (∃ (s : State), s.tapUp = true ∧ s.power.phase ≠ .fundamental) ∧
    (∃ (s : State), s.power.phase = .fundamental ∧ s.jtag.ir = .extest) :=
  ⟨⟨pwr (fun p => { p with phase := .fundamental }), by decide⟩,
  ⟨up, by decide⟩,
  ⟨{ up with power := { up.power with phase := .fundamental }, jtag := { up.jtag with ir := .extest } }, by decide⟩⟩

/-- The hypotheses of `HostKnotsComplete` can be met, clause by clause. -/
theorem witness_hostKnotsComplete :
    (∃ (cls : Byte) (via : Source) (s : State), s.serves via = true ∧ cls.toNat ≤ 15 ∧ (s.dies[0].queueFull && s.dies[1].queueFull) =
      false ∧ s.knots.hostKnots = []) ∧
    (∃ (cls : Byte) (via : Source) (s : State), s.serves via = true ∧ cls.toNat ≤ 15 ∧ (s.dies[0].queueFull && s.dies[1].queueFull) =
      true) ∧
    (∃ (k : Knot) (rest : List Knot) (s : State), s.frozenFull = false ∧ s.dies[0].stair.knotQueue = [] ∧ s.dies[1].stair.knotQueue = [] ∧
      s.knots.hostKnots = k :: rest) :=
  ⟨⟨15, .mailbox, up, by decide⟩,
  ⟨0, .mailbox, ((die (fun x => { x with stair := { x.stair with knotQueue := List.replicate 8 knot1 } })).withDie 1 (fun x =>
    { x with stair := { x.stair with knotQueue := List.replicate 8 knot1 } })), by decide⟩,
  ⟨knot1, [], { up with knots := { up.knots with hostKnots := [knot1] } }, by decide⟩⟩

/-- The hypotheses of `PairedModeTakesTwoWrites` can be met, clause by clause. -/
theorem witness_pairedModeTakesTwoWrites :
    (∃ (reg : GuardedReg) (s : State), s.hasReg reg = true ∧ s.pcie.answers = true ∧ s.guard.keyed = false ∧ s.guard.pendingWrite = none ∧
      s.guard.unlocked = none) ∧
    (∃ (reg : GuardedReg) (a b c d : Byte) (s : State), s.hasReg reg = true ∧ s.pcie.answers = true ∧ s.guard.keyed = false ∧
      s.guard.pendingWrite = some (regOffset reg, ~~~(d ++ c ++ b ++ a : Dword))) ∧
    (∃ (off : BitVec 20) (bytes : List (Option Byte)), off.toNat % 4 = 0 ∧ bytes.length = 4 ∧ none ∈ bytes) ∧
    (∃ (reg : GuardedReg) (s : State), s.hasReg reg = true ∧ s.pcie.answers = true ∧ s.guard.keyed = false ∧ s.guard.pendingWrite = none ∧
      s.guard.unlocked = none) :=
  ⟨⟨.ydir 1 3, up, by decide⟩,
  ⟨.dsSpeed, 0xFE, 0xFF, 0xFF, 0xFF, grd (fun g => { g with pendingWrite := some (regOffset .dsSpeed, 1) }), by decide⟩,
  ⟨0x90014, [some 1, none, some 2, some 3], by decide⟩,
  ⟨.hltFrz, up, by decide⟩⟩

/-- The hypotheses of `ActionsInOrder` can be met, clause by clause. -/
theorem witness_actionsInOrder :
    (∃ (c : Cond) (i : Nat), c.cntRst.getLsbD i = true ∧ c.cntInc.getLsbD i = true) ∧
    (∃ (c : Cond) (i : Nat), c.tmrStop.getLsbD i = true ∧ c.tmrStart.getLsbD i = true) ∧
    (∃ (c : Cond) (i : Nat) (tm : Timer), tm.running = false ∧ c.tmrRst.getLsbD i = true ∧ c.tmrStart.getLsbD i = true) :=
  ⟨⟨{ noCond with cntRst := 0x80, cntInc := 0x80 }, 7, by decide⟩,
  ⟨{ noCond with tmrStop := 1, tmrStart := 1 }, 0, by decide⟩,
  ⟨{ noCond with tmrRst := 1, tmrStart := 1 }, 0, { running := false, value := 3, start := 0 }, by decide⟩⟩

/-- The hypotheses of `StepRunsFront` can be met, clause by clause. -/
theorem witness_stepRunsFront :
    (∃ (c : Instr) (rest : List Instr) (s : State), s.pending = c :: rest) ∧
    (∃ (s : State), s.pending = []) :=
  ⟨⟨.jtagIdcode, [.jtagHighz], { up with pending := [.jtagIdcode, .jtagHighz] }, by decide⟩,
  ⟨up, by decide⟩⟩

/-! ### Witnesses of the statements over all commands -/

/-- The hypotheses of `QueueAndIdentityKept` and of the frame statements can be met: a command answers a next state. -/
theorem witness_frames : ∃ (c : Instr) (s t : State), exec c s = .next t ∧ c.storesDeep = false ∧ c.storesBasin = false ∧
    c.storesRam = false ∧ c.mayTick = false ∧ c.changesTime = false ∧ c.changesMram = false ∧ c.changesChip = false ∧
    c.changesHost = false ∧ c.changesGuard = false ∧ c.changesPower = false ∧ c.changesPins = false ∧ c.changesNet = false ∧
    c.changesKnots = false ∧ c.changesDeep = false ∧ c.changesClocks = false ∧ c.changesDies = false ∧ c.changesGens = false ∧
    c.changesGauges = false := ⟨.jtagIdcode, up, _, rfl, by decide⟩

/-- The clause of `TimeAndHistoryFrames` about the TAP can be met. -/
theorem witness_tapFrame : ∃ (c : Instr) (s t : State), exec c s = .next t ∧ c.changesTap = false := ⟨.sourceSwap 0, up, _, rfl, by decide⟩

/-- The hypotheses of `UnitFrames` about one gauge can be met. -/
theorem witness_gaugeFrame : ∃ (g j : Fin 64) (c : Instr) (s t : State), j ≠ g ∧ c ∈ [Instr.gaugeStop g .bar0] ∧ exec c s = .next t :=
  ⟨63, 0, .gaugeStop 63 .bar0, gauge id, _, by decide, by decide, rfl⟩

/-- The hypotheses of `UnitFrames` about one generator can be met. -/
theorem witness_genFrame : ∃ (d : Die) (c : Instr) (s t : State), c ∈ [Instr.pgStop d .bar0] ∧ exec c s = .next t :=
  ⟨1, .pgStop 1 .bar0, gen id, _, by decide, rfl⟩

/-- Both clauses of `EveryCommandAnswers` can be met. -/
theorem witness_everyCommandAnswers : (∃ c : Instr, c.wf = true) ∧ ∃ c : Instr, c.wf = false :=
  ⟨⟨.jtagIdcode, rfl⟩, ⟨.windowWrite 0 [], rfl⟩⟩

/-- The hypotheses of `StepKeepsInvariant` can be met. -/
theorem witness_stepKeepsInvariant : ∃ s t : State, MemInv s ∧ step s = .next t :=
  ⟨{ State.reset with pending := [.jtagIdcode] }, _, by decide, rfl⟩

/-- The hypotheses of `KnotBytesRoundTrip` can be met, at both ends of its ranges. -/
theorem witness_knotBytesRoundTrip : (∃ k : Knot, k.hops < 256 ∧ -2147483648 ≤ k.offset ∧ k.offset < 2147483648) ∧
    ∃ k : Knot, k.hops < 256 ∧ -2147483648 ≤ k.offset ∧ k.offset < 2147483648 :=
  ⟨⟨{ knot1 with hops := 255, offset := -2147483648 }, by decide⟩, ⟨{ knot1 with hops := 0, offset := 2147483647 }, by decide⟩⟩

/-- The hypotheses of `ItemsAndBlocksReadBack` can be met. -/
theorem witness_itemsAndBlocksReadBack :
    (∃ l : List Item, ∀ i ∈ l, i.index < 65536 ∧ i.sub < 256 ∧ i.typ < 256 ∧ i.istat < 256 ∧ i.iflags < 256 ∧ i.value.length < 65536) ∧
    ∃ m : Memory, m.wf = true ∧ m ≠ [] :=
  ⟨⟨[{ index := 65535, sub := 255, typ := 255, istat := 255, iflags := 255, value := [] }, item1 [1, 2, 3]], by decide⟩,
    ⟨[(0, 1), (68719476735, 255)], by decide⟩⟩

/-! ### Accesses that no request can carry -/

theorem test_wf_windowRead : (Instr.windowRead 0 0).wf = false ∧ (Instr.windowRead 0xFFFFFFFFF 2).wf = false := by decide

theorem test_wf_windowWrite : (Instr.windowWrite 0 []).wf = false ∧ (Instr.windowWrite 0xFFF [some 1, some 2]).wf = false := by decide

theorem test_wf_descriptorRam : (Instr.descriptorRamHostWrite 0xFFFF { bytes := [some 1, none], clash := [], flaws := [] }).wf = false ∧
    (Instr.descriptorRamHostRead 0 0 { ecc := [], clash := [] }).wf = false := by decide

theorem test_wf_registerWrite : (Instr.registerWrite 0xFFFFF [some 1, some 2]).wf = false ∧ (Instr.registerWrite 0 []).wf = false := by decide

theorem test_wf_configurationWrite : (Instr.configurationWrite 6 0xF 0).wf = false := by decide

/-- A malformed access is a fault. -/
theorem test_illFormed : exec (.registerWrite 0 []) up = .fault .illFormed ∧ exec (.windowRead 0 0) up = .fault .illFormed := ⟨rfl, rfl⟩

/-! ### The worked examples of the spec -/

/-- The next state's property; false where there is none. -/
def after (r : Result) (p : State → Bool) : Bool := match r with | .next t => p t | .fault _ => false | .refused _ => false

/-- R55: the signed 12-bit group reads −90 and −101. -/
theorem test_group_value :
    groupValue { signed := true, members := (List.range 12).map (300 + ·) } (BitVec.ofNat 1024 (0xFA6 <<< 300)) = -90 ∧
    groupValue { signed := true, members := (List.range 12).map (300 + ·) } (BitVec.ofNat 1024 (0xF9B <<< 300)) = -101 := by decide +kernel

/-- R32: a yarn phase of 13 and channel deskews of 0, −1, 3, 1, −2, 0, 2 and −1 delay the channels of Y010 by 13, 12, 16, 14, 11, 13,
15 and 12 steps. -/
theorem test_deskew_sums :
    (let s := [0, -1, 3, 1, -2, 0, 2, -1].zipIdx.foldl (fun s v => s.putInt 0x2020 (80 + v.2) v.1) (up.putInt 0x2030 10 13)
     (List.range 8).map (fun i => s.delayOf (80 + i))) = [13, 12, 16, 14, 11, 13, 15, 12] := by decide +kernel

/-- R183: a quartz 1,250 ppb fast gives the increment 0x0009_FFFF_2E49. -/
theorem test_free_run : (obj 0x4040 1 1250000 (obj 0x4040 5 1 up)).freeRunInc = 0x0009FFFF2E49 := by
  decide +kernel

/-- R265: address 0x12_3456_7000 of eight channels with two ranks lies on channel H, rank slot 0. -/
theorem test_stripe :
    ({ Deep.reset with mapChans := [0, 1, 2, 3, 4, 5, 6, 7], mapRanks := 2, rankGiB := 32 } : Deep).place (0x1234567000 / 4096) = (7, 0) ∧
    ({ Deep.reset with mapChans := [0, 1, 2, 3, 4, 5, 6, 7], mapRanks := 2, rankGiB := 32 } : Deep).top = 512 * 2 ^ 30 := by decide

/-- R290: with bank 5 of quadrant 2 out of service, unit 9,000 lies in bank 13 of quadrant 3, slot 142. -/
theorem test_basin_place : (slotRows (stripeBanks (~~~(BitVec.ofNat 64 (2 ^ 37)))))[9000]? = some (16 * 3 + 13, 142) := by decide +kernel

/-- R406: 38 °C of room in a rise of 38.5 °C with a time constant of 20 s lasts 86.88 s. -/
theorem test_admission : (longest 150000 40000 350 20000 100000 62000).map (· / 10000000) = some 8687 := by decide +kernel

/-- R235: 39,999 prescaled intervals over 99,996.75 ns at m = 4 are 1,600,012,000.39 Hz. -/
theorem test_frequency :
    (frequencyVals
      { Gauge.reset with
        set := { Gauge.reset.set with prescale := 4 }
        first := some 77824
        last := some (77824 + 6553387008)
        nLast := 39999 }).head? = some 1600012000390013 := by decide +kernel

/-- R241: the statistics of −200 ps, +125 ps, 0 and +312.5 ps, in 2^−16 ns. -/
theorem test_interval :
    ((intervalVals { Gauge.reset with count := 4, unresolved := 1, sum := 15564, sumSq := 1, least := -13107, greatest := 20480 }).drop 4).take 3
      = [3891, -13107, 20480] := by decide +kernel

/-- R178: a slot whose target lies across the wrap does not fire at once. -/
theorem test_slot_across_wrap :
    atOrAfter 0xFFFF000000000000 0x0000B2D05E000000 = false ∧ atOrAfter 0x0000B2D05E000000 0x0000B2D05E000000 = true := by decide

/-- R378: one 64-bit write to CAP0_YDIR_1 makes yarns 40 and 41 outputs. -/
theorem test_yarn_direction :
    after (exec (.writeYarnDirection 0 1 0x00000300 (.pair 0xFFFFFCFF)) up) (fun t => decide (t.pins.yarnDir[0][1] = 0x00000300)) = true := by
  decide +kernel

/-- R357: the WRITE_BLOCK with one clamp, byte for byte. -/
theorem test_odp_clamp :
    let frame : List Byte :=
      [0x1E, 0x5E, 0x01, 0x04, 0, 0, 0, 0, 0x2A, 0, 0, 0, 0x18, 0, 2, 0, 0x10, 0x20, 5, 1, 0, 0, 1, 0, 0x14, 0, 0, 0,
        0x00, 0x20, 5, 2, 0, 0, 2, 0, 0x80, 1, 0, 0]
    let answer : List Byte :=
      [0x1E, 0x5E, 0x01, 0x84, 1, 0, 0, 0, 0x2A, 0, 0, 0, 0x18, 0, 2, 0, 0x10, 0x20, 5, 1, 1, 0, 1, 0, 0x0F, 0, 0, 0,
        0x00, 0x20, 5, 2, 0, 0, 2, 0, 0x80, 1, 0, 0]
    after (exec .odpWriteBlock (served { reqOf .eth0 4 (item1 []) with frame := frame }))
      (fun t => decide (t.out.getLast? = some (.udp 0
      { dest := [1, 2, 3, 4], srcPort := 48620, destPort := 5000, vlan := 0, priority := none, hops := none } answer))) = true := by decide +kernel

/-- R420: CH1573 lies at ball 45.79, its pair partner at 45.80. -/
theorem test_ball : ballOf 1573 = (45, 79) ∧ ballOf 1572 = (45, 80) := by decide

end Sys2Proof.Tests
end

section
/-! PROOFS. No command touches the queue or the variant, takes time back or takes back what was sent (O53).

`Keeps a s` says so of a state `s` that is reached from `a`. Each operation of the model has one lemma, with the operation's name, from
`Keeps a s` to `Keeps a` of what the operation makes of `s`; its proof names, from the outside in, the operations that the definition
applies. Each command has one lemma `Kept.<command>`, and `exec_kept` gathers them. -/

namespace Sys2Proof.Machine

/-! ### The relation -/

/-- `s` has the queue and the variant of `a`, its time is no earlier, and what it has sent begins with what `a` had sent. -/
def Keeps (a s : State) : Prop := s.pending = a.pending ∧ s.variant = a.variant ∧ a.now ≤ s.now ∧ a.out <+: s.out

/-- The next state of a result, where there is one, keeps what `a` has. -/
def Kept (a : State) : Result → Prop
  | .next s => Keeps a s
  | .fault _ => True
  | .refused _ => True

variable {a s t : State}

theorem Keeps.refl (s : State) : Keeps s s := ⟨rfl, rfl, Nat.le_refl _, List.prefix_rfl⟩

theorem Keeps.now_le (h : Keeps a s) : a.now ≤ s.now := h.2.2.1

/-- A change of the fields that `Keeps` does not name, with something sent besides. -/
theorem Keeps.send {f l ob ev gu ho pc di po he mr jt tb ne kn ga ge de ch cl pi ds dm ba ra} (h : Keeps a s) (hl : s.out <+: l) :
    Keeps a ⟨s.now, f, s.pending, l, s.variant, ob, ev, gu, ho, pc, di, po, he, mr, jt, tb, ne, kn, ga, ge, de, ch, cl, pi, ds, dm,
      ba, ra⟩ := by
  obtain ⟨hp, hv, hn, ho⟩ := h
  exact ⟨hp, hv, hn, ho.trans hl⟩

/-- A change of the fields that `Keeps` does not name. -/
theorem Keeps.update {f ob ev gu ho pc di po he mr jt tb ne kn ga ge de ch cl pi ds dm ba ra} (h : Keeps a s) :
    Keeps a ⟨s.now, f, s.pending, s.out, s.variant, ob, ev, gu, ho, pc, di, po, he, mr, jt, tb, ne, kn, ga, ge, de, ch, cl, pi, ds, dm,
      ba, ra⟩ := .send h List.prefix_rfl

/-- Time passes. -/
theorem Keeps.advance {n} (h : Keeps a s) (hn : s.now ≤ n) : Keeps a { s with now := n } := by
  obtain ⟨hp, hv, ht, ho⟩ := h
  exact ⟨hp, hv, Nat.le_trans ht hn, ho⟩

/-! ### Choices and repetitions -/

theorem Keeps.ite {c : Prop} [Decidable c] (hs : Keeps a s) (ht : Keeps a t) : Keeps a (if c then s else t) := by
  split
  · exact hs
  · exact ht

/-- A further operation, on one side of a choice. -/
theorem Keeps.when {c : Prop} [Decidable c] (hs : Keeps a s) (ht : Keeps a s → Keeps a t) : Keeps a (if c then t else s) :=
  .ite (ht hs) hs

/-- A further operation, on the other side of a choice. -/
theorem Keeps.unless {c : Prop} [Decidable c] (hs : Keeps a s) (ht : Keeps a s → Keeps a t) : Keeps a (if c then s else t) :=
  .ite hs (ht hs)

theorem Keeps.ite_fst {β} {c : Prop} [Decidable c] {p q : State × β} (hp : Keeps a p.1) (hq : Keeps a q.1) :
    Keeps a (if c then p else q).1 := by
  split
  · exact hp
  · exact hq

theorem Keeps.foldl {α} {f : State → α → State} {l : List α} (hf : ∀ {t x}, Keeps a t → Keeps a (f t x)) (h : Keeps a s) :
    Keeps a (l.foldl f s) := by
  induction l generalizing s with
  | nil => exact h
  | cons x l ih => exact ih (hf h)

theorem Keeps.foldl_fst {α β} {f : State × β → α → State × β} {l : List α} {p : State × β}
    (hf : ∀ {q x}, Keeps a q.1 → Keeps a (f q x).1) (h : Keeps a p.1) : Keeps a (l.foldl f p).1 := by
  induction l generalizing p with
  | nil => exact h
  | cons x l ih => exact ih (hf h)

theorem Kept.next (h : Keeps a s) : Kept a (.next s) := h

theorem Kept.fault {r} : Kept a (.fault r) := trivial

theorem Kept.ite {c : Prop} [Decidable c] {p q : Result} (hp : Kept a p) (hq : Kept a q) : Kept a (if c then p else q) := by
  split
  · exact hp
  · exact hq

/-- A reset sends at most that REFOUT goes to high impedance (R307). -/
theorem State.out_prefix_outAfterReset (s : State) : s.out <+: s.outAfterReset := by
  unfold State.outAfterReset
  split
  · exact List.prefix_append ..
  · exact List.prefix_rfl

/-! ### Shared operations -/

theorem Keeps.drawn (h : Keeps a s) : Keeps a s.drawn := .update h
theorem Keeps.emit {o} (h : Keeps a s) : Keeps a (s.emit o) := .send h (List.prefix_append ..)
theorem Keeps.put {idx sub v} (h : Keeps a s) : Keeps a (s.put idx sub v) := .ite h (.update h)
theorem Keeps.putNat {idx sub n} (h : Keeps a s) : Keeps a (s.putNat idx sub n) := .put h
theorem Keeps.putInt {idx sub n} (h : Keeps a s) : Keeps a (s.putInt idx sub n) := .put h
theorem Keeps.bumpBy {idx sub n} (h : Keeps a s) : Keeps a (s.bumpBy idx sub n) := .ite h (.update h)
theorem Keeps.bump {idx sub} (h : Keeps a s) : Keeps a (s.bump idx sub) := .bumpBy h
theorem Keeps.raiseTo {idx sub n} (h : Keeps a s) : Keeps a (s.raiseTo idx sub n) := .ite (.putNat h) h
theorem Keeps.flushVector {v} (h : Keeps a s) : Keeps a (s.flushVector v) := .ite (.emit (.update h)) h
theorem Keeps.flushAll (h : Keeps a s) : Keeps a s.flushAll := .foldl .flushVector h
theorem Keeps.raise {v} (h : Keeps a s) : Keeps a (s.raise v) := .ite (.flushVector (.update h)) h

theorem Keeps.setEv {r bits} (h : Keeps a s) : Keeps a (s.setEv r bits) := by
  unfold State.setEv
  refine .unless (.update h) (fun h1 => ?_)
  split
  · exact .raise h1
  · exact h1

theorem Keeps.setEvBit {r i} (h : Keeps a s) : Keeps a (s.setEvBit r i) := .setEv h
theorem Keeps.clearEv {r bits} (h : Keeps a s) : Keeps a (s.clearEv r bits) := .update h
theorem Keeps.bbDrop (h : Keeps a s) : Keeps a s.bbDrop := .setEvBit (.bump (.update h))
theorem Keeps.bbPush {e} (h : Keeps a s) : Keeps a (s.bbPush e) := .update h

theorem Keeps.bb {code sev data} (h : Keeps a s) : Keeps a (s.bb code sev data) := by
  unfold State.bb
  refine .ite (.bbPush h) (.ite (.bbDrop h) ?_)
  split
  · exact .bbDrop (.bbPush (.update h))
  · exact .bbDrop h

theorem Keeps.ignoreOp {loc via c} (h : Keeps a s) : Keeps a (s.ignoreOp loc via c) := .when (.setEvBit (.bump (.update h))) .bb

theorem Keeps.clampOp {loc reason via requested applied} (h : Keeps a s) : Keeps a (s.clampOp loc reason via requested applied) :=
  .when (.setEvBit (.bump (.update h))) .bb

theorem Keeps.withDie {d f} (h : Keeps a s) : Keeps a (s.withDie d f) := .update h
theorem Keeps.withGen {d f} (h : Keeps a s) : Keeps a (s.withGen d f) := .update h
theorem Keeps.withGauge {g f} (h : Keeps a s) : Keeps a (s.withGauge g f) := .update h

/-! ### BAR0 writes and the guard -/

theorem Keeps.guardFail {cause off value via} (h : Keeps a s) : Keeps a (s.guardFail cause off value via) :=
  .bb (.setEvBit (.setEvBit (.update h)))

theorem Keeps.interrupt {off} (h : Keeps a s) : Keeps a (s.interrupt off) := by
  unfold State.interrupt
  split
  · exact .ite h (.guardFail (.update h))
  · exact h

theorem Keeps.onBar0 {off f} (hf : ∀ {t}, Keeps a t → Keeps a (f t)) (h : Keeps a s) : Keeps a (s.onBar0 off f) :=
  .ite (hf (.interrupt h)) (.emit h)

theorem Keeps.onPath {via f} (hf : ∀ {t}, Keeps a t → Keeps a (f t)) (h : Keeps a s) : Keeps a (s.onPath via f) := .ite (hf h) h

theorem Keeps.byPath {via off f} (hf : ∀ {t}, Keeps a t → Keeps a (f t)) (h : Keeps a s) : Keeps a (s.byPath via off f) :=
  .ite (.onBar0 hf h) (.onPath hf h)

theorem Keeps.closeLock (h : Keeps a s) : Keeps a s.closeLock := by
  unfold State.closeLock
  split
  · exact .ite (.setEvBit (.update h)) h
  · exact h

theorem Keeps.guardedWrite {off v apply} (happly : ∀ {x t}, Keeps a t → Keeps a (apply x t)) (h : Keeps a s) :
    Keeps a (s.guardedWrite off v apply) := by
  unfold State.guardedWrite
  refine .onBar0 (fun h1 => .ite ?_ (.update (.closeLock h1))) h
  split
  · exact happly (.update (.closeLock h1))
  · exact .guardFail (.closeLock h1)

theorem Keeps.complementWrite {off c apply} (happly : ∀ {x t}, Keeps a t → Keeps a (apply x t)) (h : Keeps a s) :
    Keeps a (s.complementWrite off c apply) := by
  unfold State.complementWrite
  refine .onBar0 (fun h1 => .ite h1 ?_) h
  split
  · exact .ite (happly (.update h1)) (.guardFail (.update h1))
  · exact .guardFail h1

theorem Keeps.partialDword (h : Keeps a s) : Keeps a s.partialDword := .setEvBit (.update h)
theorem Keeps.hkcAreaDword (h : Keeps a s) : Keeps a s.hkcAreaDword := .setEvBit (.update h)

theorem Keeps.guardForm {off v g apply} (happly : ∀ {x t}, Keeps a t → Keeps a (apply x t)) (h : Keeps a s) :
    Keeps a (s.guardForm off v g apply) := by
  unfold State.guardForm
  split
  · exact .guardedWrite happly h
  · exact .complementWrite happly (.guardedWrite happly h)

/-! ### The time base: ticks, steps, slots, sources -/

theorem Keeps.addTime {amt} (h : Keeps a s) : Keeps a (s.addTime amt) := .unless (.update h) .setEvBit
theorem Keeps.stepDies {amt} (h : Keeps a s) : Keeps a (s.stepDies amt) := .update h
theorem Keeps.bbStep {amt kind srv} (h : Keeps a s) : Keeps a (s.bbStep amt kind srv) := .ite (.bb h) h
theorem Keeps.plainTick (h : Keeps a s) : Keeps a s.plainTick := .addTime (.advance h (Nat.le_add_right ..))

theorem Keeps.applyStep (h : Keeps a s) : Keeps a s.applyStep := by
  unfold State.applyStep
  split
  · exact h
  · exact .bbStep (.putInt (.put (.bump (.stepDies (.addTime (.update h))))))

theorem Keeps.tick (h : Keeps a s) : Keeps a s.tick := .ite (.applyStep (.plainTick h)) h

theorem Keeps.knowTime (h : Keeps a s) : Keeps a s.knowTime := by
  unfold State.knowTime
  split
  · exact h
  · exact .update h

theorem Keeps.setTimeset (h : Keeps a s) : Keeps a s.setTimeset := .ite h (.knowTime (.update h))
theorem Keeps.setDisciplined (h : Keeps a s) : Keeps a s.setDisciplined := .ite h (.setTimeset (.update h))
theorem Keeps.markGauges {bit} (h : Keeps a s) : Keeps a (s.markGauges bit) := .update h
theorem Keeps.markDieGauges {d bit} (h : Keeps a s) : Keeps a (s.markDieGauges d bit) := .update h

theorem Keeps.dropHold (h : Keeps a s) : Keeps a s.dropHold := by
  unfold State.dropHold
  split
  · exact .bb (.update h)
  · exact h

theorem Keeps.enterHoldover {cause} (h : Keeps a s) : Keeps a (s.enterHoldover cause) := .ite (.bb (.markGauges (.update (.dropHold h)))) h
theorem Keeps.setInc {v} (h : Keeps a s) : Keeps a (s.setInc v) := .update h

theorem Keeps.commitInc {v via} (h : Keeps a s) : Keeps a (s.commitInc v via) := by
  unfold State.commitInc
  exact .unless (.setInc h) (fun h1 => .clampOp (.bump (.setEvBit h1)))

theorem Keeps.loadInc (h : Keeps a s) : Keeps a s.loadInc := .when (.update h) (fun h1 => .update (.setInc h1))
theorem Keeps.feedWatchdog (h : Keeps a s) : Keeps a s.feedWatchdog := .update h

theorem Keeps.commitStep {amt via srv} (h : Keeps a s) : Keeps a (s.commitStep amt via srv) :=
  .ite (.ignoreOp (.setEvBit h)) (.ite (.bump (.setEvBit h)) (.update h))

/-- The time of a tick, with or without its increment (R173). -/
theorem Keeps.tickTime {c : Prop} [Decidable c] (h : Keeps a s) :
    Keeps a (if c then { s with now := s.plainTick.now } else s.plainTick) :=
  .ite (.advance h (plainTick (.refl s)).now_le) (.plainTick h)

theorem Keeps.forceStep {v abs srv} (h : Keeps a s) : Keeps a (s.forceStep v abs srv) := by
  unfold State.forceStep
  exact have h1 := .tickTime (.ite (.ignoreOp (.setEvBit (.update h))) h)
    .when (.enterHoldover (.bbStep (.bb (.bump (.setTimeset (.ite (.update h1) (.addTime h1))))))) .update

theorem Keeps.fstepGo {v} (h : Keeps a s) : Keeps a (s.fstepGo v) := .ite (.ignoreOp (.bump (.setEvBit h))) (.when (.update h) .forceStep)

theorem Keeps.writeEpoch {v loc via} (h : Keeps a s) : Keeps a (s.writeEpoch v loc via) :=
  .ite (.ignoreOp h) (.bb (.setTimeset (.update h)))

theorem Keeps.withSlot {k f} (h : Keeps a s) : Keeps a (s.withSlot k f) := .update h
theorem Keeps.judgeSlot {k} (h : Keeps a s) : Keeps a (s.judgeSlot k) := .ite (.withSlot h) h
theorem Keeps.commitTarget {k x} (h : Keeps a s) : Keeps a (s.commitTarget k x) := .judgeSlot (.withSlot h)
theorem Keeps.enableSlot {k} (h : Keeps a s) : Keeps a (s.enableSlot k) := .ite h (.judgeSlot (.withSlot h))

theorem Keeps.fireSlot {k} (h : Keeps a s) : Keeps a (s.fireSlot k) :=
  .when (.raise (.when (.when (.bump (.withSlot h)) .bump) .bumpBy)) .bb

theorem Keeps.driveRefout (h : Keeps a s) : Keeps a s.driveRefout := .ite h (.emit (.update h))

theorem Keeps.swapSource {src interval fallback} (h : Keeps a s) : Keeps a (s.swapSource src interval fallback) :=
  .unless (.bb (.putInt (.driveRefout (.update (.applyStep (.addTime (.advance h (Nat.le_add_right ..)))))))) .setInc

/-! ### PLLs -/

theorem Keeps.withPll {i f} (h : Keeps a s) : Keeps a (s.withPll i f) := .update h

theorem Keeps.startPll {i n} (h : Keeps a s) : Keeps a (s.startPll i n) := by
  unfold State.startPll
  refine .ite (.withPll h) (.ite h ?_)
  split
  · exact .withPll (.update h)
  · exact .withPll h

theorem Keeps.stopPll {i} (h : Keeps a s) : Keeps a (s.stopPll i) := .withPll h
theorem Keeps.needSpll {d} (h : Keeps a s) : Keeps a (s.needSpll d) := .ite h (.startPll h)
theorem Keeps.restSpll {d} (h : Keeps a s) : Keeps a (s.restSpll d) := .ite h (.stopPll h)

/-! ### The deep store -/

theorem Keeps.withChan {c f} (h : Keeps a s) : Keeps a (s.withChan c f) := .update h

theorem Keeps.dsGrant {c} (h : Keeps a s) : Keeps a (s.dsGrant c) := by
  unfold State.dsGrant
  split
  · exact .update h
  · exact h

theorem Keeps.dsAsk {p addr write} (h : Keeps a s) : Keeps a (s.dsAsk p addr write) := .ite h (.ite (.bump h) (.dsGrant (.update h)))

theorem Keeps.dsServed {p} (h : Keeps a s) : Keeps a (s.dsServed p) := by
  unfold State.dsServed
  split
  · exact h
  · exact .dsGrant (.raiseTo (.when (.bump (.update h)) .bump))

theorem Keeps.dsGroups {p n} (h : Keeps a s) : Keeps a (s.dsGroups p n) := .bumpBy h
theorem Keeps.dsAccess {p addr write n} (h : Keeps a s) : Keeps a (s.dsAccess p addr write n) := .ite (.dsGroups h) (.dsGroups (.dsAsk h))
theorem Keeps.damage {barge cause} (h : Keeps a s) : Keeps a (s.damage barge cause) := .bump (.update (.put h))
theorem Keeps.retireRank {c r} (h : Keeps a s) : Keeps a (s.retireRank c r) := .bb (.bump (.setEvBit (.update (.withChan (.update h)))))

theorem Keeps.failChannel {c property} (h : Keeps a s) : Keeps a (s.failChannel c property) :=
  .bb (.bump (.setEvBit (.damage (.withChan h))))

/-! ### Pattern generators -/

theorem Keeps.showIdle {d} (h : Keeps a s) : Keeps a (s.showIdle d) := .emit h
theorem Keeps.genPlay {d} (h : Keeps a s) : Keeps a (s.genPlay d) := .ite h (.emit (.withGen h))

theorem Keeps.genAsk {d} (h : Keeps a s) : Keeps a (s.genAsk d) := by
  unfold State.genAsk
  refine .ite ?_ h
  split
  · exact .dsAsk (.withGen h)
  · exact h

theorem Keeps.genTake {d bad} (h : Keeps a s) : Keeps a (s.genTake d bad) := by
  unfold State.genTake
  split
  · exact h
  · exact .withGen h

theorem Keeps.genLand {d i} (h : Keeps a s) : Keeps a (s.genLand d i) := .withGen h
theorem Keeps.clampSync {d} (h : Keeps a s) : Keeps a (s.clampSync d) := .ite (.clampOp (.putNat h)) h

theorem Keeps.genPrime {d startCmd target} (h : Keeps a s) : Keeps a (s.genPrime d startCmd target) :=
  .when (.startPll (.putNat (.withGen (.foldl .putNat (.clampSync h))))) .genAsk

theorem Keeps.genRest {d} (h : Keeps a s) : Keeps a (s.genRest d) := .showIdle (.raise (.restSpll (.withGen h)))
theorem Keeps.genRefuse {d e entry} (h : Keeps a s) : Keeps a (s.genRefuse d e entry) := .genRest (.withGen h)
theorem Keeps.genRun {d x} (h : Keeps a s) : Keeps a (s.genRun d x) := .put (.withGen h)
theorem Keeps.genEnd {d e from_} (h : Keeps a s) : Keeps a (s.genEnd d e from_) := .put (.withGen h)
theorem Keeps.genStopIdle {d e} (h : Keeps a s) : Keeps a (s.genStopIdle d e) := .genRest (.withGen h)
theorem Keeps.genFail {d e} (h : Keeps a s) : Keeps a (s.genFail d e) := .bb (.setEvBit (.bump (.putNat (.putNat (.putNat (.genEnd h))))))
theorem Keeps.genSettle {d} (h : Keeps a s) : Keeps a (s.genSettle d) := .when (.genPlay h) .genFail
theorem Keeps.genRefilled {d bad} (h : Keeps a s) : Keeps a (s.genRefilled d bad) := .genAsk (.genTake (.genSettle h))

theorem Keeps.genHalt {d e} (h : Keeps a s) : Keeps a (s.genHalt d e) := by
  unfold State.genHalt
  dsimp only
  split
  · exact .genStopIdle (.genSettle h)
  · exact .genStopIdle (.genSettle h)
  · exact .genEnd (.genSettle h)
  · exact .ite (.withGen (.genSettle h)) (.genEnd (.genSettle h))
  · exact .genSettle h
  · exact .genSettle h

theorem Keeps.genEnter {d i x} (h : Keeps a s) : Keeps a (s.genEnter d i x) := .withGen h

theorem Keeps.genExit {d e x} (h : Keeps a s) : Keeps a (s.genExit d e x) := by
  unfold State.genExit
  split
  · exact .ite (.genEnd h) (.genEnter h)
  · exact .genEnter h
  · exact .withGen h
  · exact .withGen h
  · exact .genEnd h

theorem Keeps.genPass {d x} (h : Keeps a s) : Keeps a (s.genPass d x) :=
  .ite (.genEnd h) (.ite (.genEnter (.genLand (.bump (.withGen h)))) (.ite (.withGen (.withGen h)) (.genExit (.withGen h))))

theorem Keeps.genJump {d src ref} (h : Keeps a s) : Keeps a (s.genJump d src ref) := by
  unfold State.genJump
  refine .ite ?_ ?_
  · split
    · exact .ignoreOp h
    · exact h
    · exact h
  · split
    · exact .ite (.bump h) (.ite (.withGen h) (.setEvBit (.bump (.withGen h))))
    · exact .ite (.bump h) (.setEvBit (.bump (.withGen h)))
    · exact .bump h
    · exact .bump h
    · exact .bump h
    · exact .bump h

theorem Keeps.genTrigin {d pin rising ref} (h : Keeps a s) : Keeps a (s.genTrigin d pin rising ref) := .ite (.genJump h) h

theorem Keeps.genTimeStart {d target} (h : Keeps a s) : Keeps a (s.genTimeStart d target) := by
  unfold State.genTimeStart
  refine .ite (.ignoreOp h) ?_
  split
  · exact .ite (.genPrime h) (.ignoreOp h)
  · exact .withGen h
  · exact .ignoreOp h
  · exact .ignoreOp h
  · exact .ignoreOp h
  · exact .ignoreOp h

theorem Keeps.genSync {d phase} (h : Keeps a s) : Keeps a (s.genSync d phase) :=
  .ite (.when (.withGen h) (fun h1 => .when (.putInt h1) (fun h2 => .setEvBit (.bump h2)))) h

theorem Keeps.genKnot {d cls k} (h : Keeps a s) : Keeps a (s.genKnot d cls k).1 :=
  .ite_fst (.ite_fst (.setEvBit (.bump (.withGen h))) (.withGen h)) h

theorem Keeps.genCoast {d} (h : Keeps a s) : Keeps a (s.genCoast d) := .genHalt h
theorem Keeps.genAbort {d} (h : Keeps a s) : Keeps a (s.genAbort d) := .withGen (.unless (.genPlay h) .emit)

/-! ### Running a die -/

theorem Keeps.pulseOver {p at_} (h : Keeps a s) : Keeps a (s.pulseOver p at_) := by
  unfold State.pulseOver
  split
  · exact .ite (.emit (.update h)) h
  · exact h

theorem Keeps.startPulse {p x} (h : Keeps a s) : Keeps a (s.startPulse p x) := .unless (.update (.pulseOver h)) .emit
theorem Keeps.settlePin {p} (h : Keeps a s) : Keeps a (s.settlePin p) := .foldl .startPulse (.update h)
theorem Keeps.settlePins (h : Keeps a s) : Keeps a s.settlePins := .settlePin (.settlePin h)
theorem Keeps.pulse {p d at_} (h : Keeps a s) : Keeps a (s.pulse p d at_) := .ite (.update h) h
theorem Keeps.loadTrigRam {d} (h : Keeps a s) : Keeps a (s.loadTrigRam d) := .withDie h
theorem Keeps.towFlags {d flags latch} (h : Keeps a s) : Keeps a (s.towFlags d flags latch) := .when (.ite (.withDie h) h) .genJump
theorem Keeps.endPartner {d cause} (h : Keeps a s) : Keeps a (s.endPartner d cause) := .ite (.withDie h) h

theorem Keeps.applyFx {d x} (h : Keeps a s) : Keeps a (s.applyFx d x) := by
  unfold State.applyFx
  split
  · exact .bumpBy h
  · exact .raiseTo h
  · exact .towFlags h
  · exact .when (.ite (.pulse h) h) .pulse
  · exact .genTrigin h
  · exact .update h
  · exact .raise h
  · exact .endPartner h
  · exact .bb h

theorem Keeps.noteTrigTime {d was now_} (h : Keeps a s) : Keeps a (s.noteTrigTime d was now_) := by
  unfold State.noteTrigTime
  split
  · exact .ite h (.put h)
  · exact h

theorem Keeps.runDie {d f} (h : Keeps a s) : Keeps a (s.runDie d f) := .noteTrigTime (.settlePins (.foldl .applyFx (.update h)))
theorem Keeps.endDie {d cause} (h : Keeps a s) : Keeps a (s.endDie d cause) := .ite (.runDie h) h

/-! ### Written values -/

theorem Keeps.clampField {r idx sub v via} (h : Keeps a s) : Keeps a (s.clampField r idx sub v via).1 := by
  unfold State.clampField
  dsimp only
  split
  · exact .clampOp h
  · exact h

theorem Keeps.writeField {idx sub v via} (h : Keeps a s) : Keeps a (s.writeField idx sub v via) := by
  unfold State.writeField
  split
  · exact .put (.clampField h)
  · exact h

/-! ### Commands of the time base -/

theorem Keeps.ownHost {off f} (hf : ∀ {t}, Keeps a t → Keeps a (f t)) (h : Keeps a s) : Keeps a (s.ownHost off f) :=
  .ite (hf h) (.ignoreOp (.setEvBit h))

theorem Keeps.writeIncHi {hi} (h : Keeps a s) : Keeps a (s.writeIncHi hi) := .ownHost (fun h1 => .feedWatchdog (.commitInc (.update h1))) h
theorem Kept.incrementCommit {hi} (h : Keeps a s) : Kept a (execIncrementCommit hi s) := .next (.onBar0 .writeIncHi h)
theorem Keeps.writeIncLo {lo} (h : Keeps a s) : Keeps a (s.writeIncLo lo) := .ownHost .update h
theorem Keeps.writeStepLo {lo} (h : Keeps a s) : Keeps a (s.writeStepLo lo) := .ownHost .update h
theorem Keeps.writeStepHi {hi} (h : Keeps a s) : Keeps a (s.writeStepHi hi) := .ownHost .commitStep h
theorem Kept.stepCommit {hi} (h : Keeps a s) : Kept a (execStepCommit hi s) := .next (.onBar0 .writeStepHi h)
theorem Kept.stepApply (h : Keeps a s) : Kept a (execStepApply s) := .next (.ite (.tick h) h)
theorem Kept.forceStepAmount {g} (h : Keeps a s) : Kept a (execForceStepAmount g s) := .next (.guardForm .fstepGo h)
theorem Kept.forceStepAbsolute {g} (h : Keeps a s) : Kept a (execForceStepAbsolute g s) := .next (.guardForm .fstepGo h)
theorem Kept.epochWrite {v via} (h : Keeps a s) : Kept a (execEpochWrite v via s) := .next (.byPath .writeEpoch h)
theorem Kept.timewordWrap (h : Keeps a s) : Kept a (execTimewordWrap s) := .next (.ite (.tick h) h)
theorem Keeps.discSet (h : Keeps a s) : Keeps a s.discSet := .ownHost (fun h1 => .feedWatchdog (.setDisciplined (.update h1))) h
theorem Keeps.discClear (h : Keeps a s) : Keeps a s.discClear := .ownHost (fun h1 => .feedWatchdog (.when (.update h1) .enterHoldover)) h
theorem Kept.discSet (h : Keeps a s) : Kept a (execDiscSet s) := .next (.onBar0 .discSet h)
theorem Kept.discClear (h : Keeps a s) : Kept a (execDiscClear s) := .next (.onBar0 .discClear h)

theorem Kept.hostWatchdogExpiry (h : Keeps a s) : Kept a (execHostWatchdogExpiry s) :=
  .next (.ite (.bb (.bump (.enterHoldover (.update h)))) h)

theorem Keeps.freeRun (h : Keeps a s) : Keeps a s.freeRun := .put (.update (.setInc h))
theorem Keeps.writeOwner {o} (h : Keeps a s) : Keeps a (s.writeOwner o) := .ite h (.when (.update (.enterHoldover h)) .freeRun)

theorem Kept.servoOwnerWrite {v via} (h : Keeps a s) : Kept a (execServoOwnerWrite v via s) :=
  .next (.onPath (fun h1 => .writeOwner (.ite h1 (.clampOp h1))) h)

theorem Kept.compareTargetCommit {k x via} (h : Keeps a s) : Kept a (execCompareTargetCommit k x via s) :=
  .next (.byPath (.byPath .commitTarget) h)

theorem Kept.compareSlotEnable {k via} (h : Keeps a s) : Kept a (execCompareSlotEnable k via s) := .next (.byPath .enableSlot h)
theorem Keeps.selectSource {v via} (h : Keeps a s) : Keeps a (s.selectSource v via) := .ite (.update (.ite h (.clampOp h))) (.ignoreOp h)
theorem Kept.sourceSelect {v via} (h : Keeps a s) : Kept a (execSourceSelect v via s) := .next (.onPath .selectSource h)

theorem Kept.sourceSwap {interval} (h : Keeps a s) : Kept a (execSourceSwap interval s) := by
  unfold execSourceSwap
  refine .next ?_
  split
  · exact .ite h (.swapSource h)
  · exact h

theorem Kept.refinFallback {interval} (h : Keeps a s) : Kept a (execRefinFallback interval s) :=
  .next (.ite h (.enterHoldover (.bump (.setEvBit (.swapSource h)))))

theorem Kept.refinAutoReturn {interval} (h : Keeps a s) : Kept a (execRefinAutoReturn interval s) := .next (.ite (.swapSource h) h)
theorem Kept.freeRunUpdate (h : Keeps a s) : Kept a (execFreeRunUpdate s) := .next (.ite (.freeRun h) h)

theorem Kept.ageingLearned {pick} (h : Keeps a s) : Kept a (execAgeingLearned pick s) := by
  unfold execAgeingLearned
  refine .next ?_
  split
  · exact .ite (.update h) h
  · exact h

theorem Keeps.latchPair {p} (h : Keeps a s) : Keeps a (s.latchPair p).1 := by
  unfold State.latchPair
  split
  · exact .update h
  · exact .ite_fst (.update h) h
  · exact .withGen h
  · exact .update h
  · exact .update h

theorem Kept.latchingPairRead {p} (h : Keeps a s) : Kept a (execLatchingPairRead p s) := .next (.ite (.emit (.latchPair h)) (.emit h))

/-! ### The PTP engine -/

theorem Keeps.withPort {p f} (h : Keeps a s) : Keeps a (s.withPort p f) := .update h
theorem Keeps.countFrame {p} (h : Keeps a s) : Keeps a (s.countFrame p) := .bump h
theorem Keeps.dropFrame {p} (h : Keeps a s) : Keeps a (s.dropFrame p) := .bump h

theorem Keeps.ptpFrame {p f} (hf : ∀ {t}, Keeps a t → Keeps a (f t)) (h : Keeps a s) : Keeps a (s.ptpFrame p f) :=
  .ite (.ite (hf (.countFrame h)) (.dropFrame (.countFrame h))) h

theorem Keeps.sendPtp {p m} (h : Keeps a s) : Keeps a (s.sendPtp p m) := .emit h

theorem Keeps.dropWaiting (h : Keeps a s) : Keeps a s.dropWaiting := by
  unfold State.dropWaiting
  split
  · exact .bump (.update h)
  · exact h

theorem Keeps.newParent {parent} (h : Keeps a s) : Keeps a (s.newParent parent) := .update (.unless (.dropWaiting h) .dropHold)
theorem Keeps.elect (h : Keeps a s) : Keeps a s.elect := .update (.ite (.update h) (.newParent h))
theorem Keeps.ptpSettle (h : Keeps a s) : Keeps a s.ptpSettle := .elect (.update (.unless (.ite (.enterHoldover h) h) .dropHold))

theorem Keeps.takeStamp {p e} (h : Keeps a s) : Keeps a (s.takeStamp p e) := by
  unfold State.takeStamp
  dsimp only
  split
  · exact .withPort h
  · split
    · exact .sendPtp (.withPort h)
    · exact .sendPtp (.withPort h)
    · exact .withPort h
    · exact .withPort h

theorem Keeps.takeStamps {p} (h : Keeps a s) : Keeps a (s.takeStamps p) := .ite (.foldl .takeStamp (.withPort h)) h

theorem Keeps.queueStamp {p typ seq mii} (h : Keeps a s) : Keeps a (s.queueStamp p typ seq mii) :=
  .ite (.withPort (.bump (.bump (.setEvBit h)))) (.takeStamps (.withPort h))

theorem Keeps.steerRate {wide} (h : Keeps a s) : Keeps a (s.steerRate wide) := by
  unfold State.steerRate
  exact .commitInc (.drawn (.drawn (.update h)))

theorem Keeps.publishSync {m} (h : Keeps a s) : Keeps a (s.publishSync m) :=
  .putNat (.put (.putInt (.putInt (.put (.putNat (.putNat (.update h)))))))

theorem Keeps.countLock {offset} (h : Keeps a s) : Keeps a (s.countLock offset) :=
  .when (.update h) (fun h1 => .setDisciplined (.update h1))

theorem Keeps.acquire {offset} (h : Keeps a s) : Keeps a (s.acquire offset) :=
  .ite (.countLock (.steerRate h)) (.ite (.countLock (.commitStep h)) (.ite (.forceStep (.writeEpoch h)) (.countLock (.steerRate
    (.setEvBit h)))))

theorem Keeps.servoOffset {offset} (h : Keeps a s) : Keeps a (s.servoOffset offset) := by
  unfold State.servoOffset
  split
  · exact .acquire (.update h)
  · exact .acquire (.update h)
  · exact .acquire h
  · exact .ite (.steerRate h) (.commitStep h)
  · exact h
  · exact h
  · exact h

theorem Keeps.takeSync {p seq t1 t2 coasted} (h : Keeps a s) : Keeps a (s.takeSync p seq t1 t2 coasted) := by
  unfold State.takeSync
  dsimp only
  split
  · exact .ite (.when (.publishSync (.update (.bump (.withPort h)))) .servoOffset) (.bump (.withPort h))
  · exact .bump (.withPort h)

theorem Keeps.bbPath {port phase step} (h : Keeps a s) : Keeps a (s.bbPath port phase step) := .bb h
theorem Keeps.raiseHold {port old v} (h : Keeps a s) : Keeps a (s.raiseHold port old v) := .bbPath (.setEvBit (.update h))
theorem Keeps.endHold (h : Keeps a s) : Keeps a s.endHold := .update h

theorem Keeps.judgeDelay {mine port old v adopt forget} (hadopt : ∀ {t}, Keeps a t → Keeps a (adopt t))
    (hforget : ∀ {t}, Keeps a t → Keeps a (forget t)) (h : Keeps a s) :
    Keeps a (s.judgeDelay mine port old v adopt forget) := by
  unfold State.judgeDelay
  dsimp only
  split
  · exact .ite (.when (.raiseHold h) .bump) (hadopt h)
  · refine .ite (hadopt h) ?_
    split
    · exact .bbPath (.when (.endHold h) .bump)
    · exact .bbPath (.when (hadopt (.endHold h)) .putInt)
    · exact .enterHoldover (hforget h)
    · exact .update h
  · exact hadopt h

theorem Keeps.takeDelay {p v} (h : Keeps a s) : Keeps a (s.takeDelay p v) :=
  .judgeDelay (fun h1 => .putInt (.withPort h1)) .withPort (.withPort h)

theorem Keeps.missDelay {p} (h : Keeps a s) : Keeps a (s.missDelay p) := .ite h (.when (.withPort h) (fun h1 => .bb (.bump (.setEvBit h1))))

/-! ### Knots on their way -/

theorem Keeps.withAlp {k f} (h : Keeps a s) : Keeps a (s.withAlp k f) := .update h
theorem Keeps.sendFrame {k typ data} (h : Keeps a s) : Keeps a (s.sendFrame k typ data) := .emit h
theorem Keeps.discardFrame {k} (h : Keeps a s) : Keeps a (s.discardFrame k) := .bump h

theorem Keeps.sendAlp {k kn} (h : Keeps a s) : Keeps a (s.sendAlp k kn) :=
  .ite (.bb (.bump (.setEvBit h))) (.sendFrame (.raiseTo (.withAlp h)))

theorem Keeps.remember {kn} (h : Keeps a s) : Keeps a (s.remember kn) := .update h
theorem Keeps.reportGroup {p v6} (h : Keeps a s) : Keeps a (s.reportGroup p v6) := .ite (.emit h) h
theorem Keeps.reportGroups {p} (h : Keeps a s) : Keeps a (s.reportGroups p) := .reportGroup (.reportGroup h)
theorem Keeps.sendKnotOver {p kn v6} (h : Keeps a s) : Keeps a (s.sendKnotOver p kn v6) := .ite (.emit h) h
theorem Keeps.sendEth {p kn} (h : Keeps a s) : Keeps a (s.sendEth p kn) := .sendKnotOver (.sendKnotOver h)
theorem Keeps.cacheKnot {kn} (h : Keeps a s) : Keeps a (s.cacheKnot kn) := .when (.update h) .bump
theorem Keeps.forwardAlp {ports kn} (h : Keeps a s) : Keeps a (s.forwardAlp ports kn) := .foldl (fun h1 => .bump (.sendAlp h1)) h
theorem Keeps.relayEth {kn} (h : Keeps a s) : Keeps a (s.relayEth kn) := .foldl .sendEth h

theorem Keeps.forward {route kn} (h : Keeps a s) : Keeps a (s.forward route kn) := by
  unfold State.forward
  split
  · exact h
  · exact .ite (.bump h) (.when (.remember (.forwardAlp h)) .relayEth)
  · exact .ite h (.ite (.bump h) (.remember (.forwardAlp h)))

theorem Keeps.refuseKnot {bs} (h : Keeps a s) : Keeps a (s.refuseKnot bs) := .unless (.setEvBit (.bump h)) (fun h1 => .bb (.update h1))

theorem Keeps.judgeKnot {route kn bs} (h : Keeps a s) : Keeps a (s.judgeKnot route kn bs) :=
  .ite (.bump h) (.ite (.refuseKnot h) (.ite (.put (.refuseKnot h)) (.update (.when (.put (.bump h)) .bump))))

theorem Keeps.takeKnot {route bs} (h : Keeps a s) : Keeps a (s.takeKnot route bs) := by
  unfold State.takeKnot
  split
  · exact .bump (.bump h)
  · exact .ite (.bump (.bump h)) (.judgeKnot (.forward (.cacheKnot (.bump h))))

theorem Keeps.sendKnot {kn} (h : Keeps a s) : Keeps a (s.sendKnot kn) := by
  unfold State.sendKnot
  exact .takeKnot (.ite (.bump (.putNat h)) (.remember (.relayEth (.foldl .sendAlp (.putNat h)))))

/-! ### The dictionary service -/

theorem Keeps.touchRam {off len} (h : Keeps a s) : Keeps a (s.touchRam off len) := .ite (.bump (.update h)) h
theorem Keeps.ramError {e} (h : Keeps a s) : Keeps a (s.ramError e) := .ite (.bb (.bump h)) (.bump h)
theorem Keeps.meetFlaws {off len} (h : Keeps a s) : Keeps a (s.meetFlaws off len) := .foldl .ramError (.update h)
theorem Keeps.ramStore {off bs} (h : Keeps a s) : Keeps a (s.ramStore off bs) := .update h
theorem Keeps.hkcReads {off len} (h : Keeps a s) : Keeps a (s.hkcReads off len) := .meetFlaws (.touchRam h)
theorem Keeps.hkcRam {off bs} (h : Keeps a s) : Keeps a (s.hkcRam off bs) := .ramStore (.update (.touchRam h))
theorem Keeps.setMbRsp {seq serving} (h : Keeps a s) : Keeps a (s.setMbRsp seq serving) := .hkcRam h
theorem Keeps.mbServing (h : Keeps a s) : Keeps a s.mbServing := .setMbRsp h
theorem Keeps.mbAnswer {f} (h : Keeps a s) : Keeps a (s.mbAnswer f) := .raise (.setMbRsp (.hkcRam (.ite (.bumpBy h) h)))

theorem Keeps.mbNotify {idx sub typ merged x value} (h : Keeps a s) : Keeps a (s.mbNotify idx sub typ merged x value) := by
  unfold State.mbNotify
  exact .ite (.bump (.update h)) (.raise (.bump (.hkcRam (.hkcRam (.update h)))))

theorem Keeps.mbReset (h : Keeps a s) : Keeps a s.mbReset := .update (.setMbRsp h)

theorem Keeps.authentic {key f} (h : Keeps a s) : Keeps a (s.authentic key f).1 := by
  unfold State.authentic
  split
  · exact h
  · exact .update h

theorem Keeps.sendTunnelFrame {k f} (h : Keeps a s) : Keeps a (s.sendTunnelFrame k f) := .emit h

theorem Keeps.drainTunnel {k n} (h : Keeps a s) : Keeps a (s.drainTunnel k n) := by
  induction n generalizing s with
  | zero => exact h
  | succ n ih =>
    unfold State.drainTunnel
    split
    · exact h
    · exact .ite (ih (.sendTunnelFrame (.withAlp h))) h

theorem Keeps.sendTunnelOn {f k} (h : Keeps a s) : Keeps a (s.sendTunnelOn f k) := .drainTunnel (.withAlp h)
theorem Keeps.sendTunnel {ports dest frame} (h : Keeps a s) : Keeps a (s.sendTunnel ports dest frame) := .foldl (.foldl .sendTunnelOn) h
theorem Keeps.keep {p r f} (h : Keeps a s) : Keeps a (s.keep p r f) := .update h
theorem Keeps.sendUdp {p addr port key f} (h : Keeps a s) : Keeps a (s.sendUdp p addr port key f) := .ite (.emit (.authentic h)) h

theorem Keeps.sendBack {r f} (h : Keeps a s) : Keeps a (s.sendBack r f) := by
  unfold State.sendBack
  split
  · exact .ite h (.mbAnswer h)
  · exact .keep (.sendUdp h)
  · exact .keep (.sendUdp h)
  · exact .sendTunnel h
  · exact h
  · exact h

theorem Keeps.answerStatus {r status} (h : Keeps a s) : Keeps a (s.answerStatus r status) := .sendBack h
theorem Keeps.unreachable {r} (h : Keeps a s) : Keeps a (s.unreachable r) := .answerStatus (.bump h)

theorem Keeps.tunnelAway {r} (h : Keeps a s) : Keeps a (s.tunnelAway r) :=
  .ite (.answerStatus h) (.ite (.unreachable h) (.sendTunnel (.update h)))

theorem Keeps.endAsks {p} (h : Keeps a s) : Keeps a (s.endAsks p) := .ite (.foldl .unreachable (.update h)) h
theorem Keeps.noteRelayed {x f} (h : Keeps a s) : Keeps a (s.noteRelayed x f) := .ite (.update h) h

theorem Keeps.tunnelReply {from_ f} (h : Keeps a s) : Keeps a (s.tunnelReply from_ f) := by
  unfold State.tunnelReply
  dsimp only
  split
  · exact h
  · exact .sendBack (.noteRelayed (.update h))

theorem Keeps.tunnelNotify {from_ f} (h : Keeps a s) : Keeps a (s.tunnelNotify from_ f) := by
  unfold State.tunnelNotify
  split
  · exact h
  · split
    · exact .sendUdp h
    · exact .sendUdp h
    · exact .mbNotify h
    · exact h
    · exact h
    · exact h

theorem Keeps.admitRequest {r} (h : Keeps a s) : Keeps a (s.admitRequest r) := by
  unfold State.admitRequest
  refine have h1 := .ite (.mbServing h) h; .ite (.tunnelAway h1) (.ite h1 (.ite (.answerStatus h1) ?_))
  split
  · exact .answerStatus h1
  · exact .ite (.answerStatus h1) (.ite (.answerStatus h1) (.update h1))

theorem Keeps.takeMailbox (h : Keeps a s) : Keeps a s.takeMailbox := by
  unfold State.takeMailbox
  refine .unless (.hkcReads (.update h)) (fun h1 => ?_)
  split
  · exact .admitRequest h1
  · exact .bump h1

theorem Keeps.takeEth {p} (h : Keeps a s) : Keeps a (s.takeEth p) := by
  unfold State.takeEth
  dsimp only
  split
  · exact h
  · split
    · exact .bump (.sendUdp (.update h))
    · exact .admitRequest (.update h)

theorem Keeps.takeTunnel (h : Keeps a s) : Keeps a s.takeTunnel := by
  unfold State.takeTunnel
  split
  · exact h
  · exact .admitRequest (.update h)

theorem Keeps.takeFrom {i} (h : Keeps a s) : Keeps a (s.takeFrom i) := by
  unfold State.takeFrom
  split
  · exact .takeMailbox (.update h)
  · exact .takeEth (.update h)
  · exact .takeEth (.update h)
  · exact .takeTunnel (.update h)

theorem Keeps.takeUpTo {n} (h : Keeps a s) : Keeps a (State.takeUpTo n s) := by
  induction n generalizing s with
  | zero => exact h
  | succ n ih =>
    unfold State.takeUpTo
    refine .ite h ?_
    split
    · exact ih (.takeFrom h)
    · exact h

theorem Keeps.takeNext (h : Keeps a s) : Keeps a s.takeNext := .takeUpTo h
theorem Keeps.mbSubmit (h : Keeps a s) : Keeps a s.mbSubmit := .ite h (.takeNext (.update h))
theorem Keeps.restartAnswers (h : Keeps a s) : Keeps a s.restartAnswers := .takeNext (.foldl .answerStatus (.update h))

/-! ### The Aelop ports -/

theorem Keeps.servoOrphaned (h : Keeps a s) : Keeps a s.servoOrphaned := .update (.enterHoldover h)

theorem Keeps.parentChange {wasRef old new} (h : Keeps a s) : Keeps a (s.parentChange wasRef old new) :=
  .ite h (.when (.update h) .servoOrphaned)

theorem Keeps.setReference {v} (h : Keeps a s) : Keeps a (s.setReference v) := .when (.ptpSettle (.put h)) .servoOrphaned
theorem Keeps.resend {k} (h : Keeps a s) : Keeps a (s.resend k) := .foldl .sendAlp h
theorem Keeps.retree (h : Keeps a s) : Keeps a s.retree := .ite h (.parentChange (.foldl .resend (.setEvBit (.update h))))
theorem Keeps.noNeighbour {k} (h : Keeps a s) : Keeps a (s.noNeighbour k) := .putNat h

theorem Keeps.alpDown {k} (h : Keeps a s) : Keeps a (s.alpDown k) :=
  .ite (.endAsks (.retree (.bb (.bump (.setEvBit (.noNeighbour (.withAlp h))))))) h

theorem Keeps.alpEnable {k on} (h : Keeps a s) : Keeps a (s.alpEnable k on) :=
  .ite (.ite (.retree (.withAlp (.putNat h))) (.putNat h)) (.endAsks (.retree (.noNeighbour (.withAlp (.putNat h)))))

theorem Keeps.setDomain {v} (h : Keeps a s) : Keeps a (s.setDomain v) := .unless (.put h) .update
theorem Keeps.alpHold {k st node} (h : Keeps a s) : Keeps a (s.alpHold k st node) := .bb (.setEvBit (.withAlp h))
theorem Keeps.publishLink {k delay offset} (h : Keeps a s) : Keeps a (s.publishLink k delay offset) := .putInt (.putInt (.withAlp h))

theorem Keeps.takeExchange {k x} (h : Keeps a s) : Keeps a (s.takeExchange k x) := by
  unfold State.takeExchange
  split
  · exact .withAlp h
  · exact .withAlp h
  · exact h
  · exact h
  · exact h
  · exact h

theorem Keeps.maybeUp {k} (h : Keeps a s) : Keeps a (s.maybeUp k) := .ite (.publishLink (.withAlp h)) h

theorem Keeps.goodBeat {k x} (h : Keeps a s) : Keeps a (s.goodBeat k x) := by
  unfold State.goodBeat
  refine .ite (.alpHold (.putNat (.withAlp h))) (.ite (.alpHold (.putNat (.withAlp h))) (.drainTunnel (.retree (.maybeUp ?_))))
  split
  · exact .takeExchange (.putNat (.withAlp h))
  · exact .putNat (.withAlp h)

theorem Keeps.badBeat {k} (h : Keeps a s) : Keeps a (s.badBeat k) := .withAlp (.discardFrame h)

theorem Keeps.alpServo {k delay offset coasted} (h : Keeps a s) : Keeps a (s.alpServo k delay offset coasted) :=
  .when (.judgeDelay .withAlp .withAlp h) (fun h1 => .servoOffset (.bump (.update h1)))

theorem Keeps.alpMeasure {k m} (h : Keeps a s) : Keeps a (s.alpMeasure k m) := .alpServo (.publishLink (.withAlp h))

theorem Keeps.tunnelHere {source bs} (h : Keeps a s) : Keeps a (s.tunnelHere source bs) :=
  .ite (.bump h) (.ite (.ite (.tunnelNotify h) (.tunnelReply h)) (.takeNext (.update h)))

theorem Keeps.tunnelFragment {f} (h : Keeps a s) : Keeps a (s.tunnelFragment f) := by
  unfold State.tunnelFragment
  split
  · exact .update h
  · exact .ite (.update h) (.tunnelHere (.update h))

theorem Keeps.tunnelOnward {k f} (h : Keeps a s) : Keeps a (s.tunnelOnward k f) := .unless (.foldl .sendTunnelOn h) .bump

/-! ### Commands of the Aelop link -/

theorem Keeps.sendBeat {k stamp} (h : Keeps a s) : Keeps a (s.sendBeat k stamp) := .sendFrame (.drawn (.withAlp h))
theorem Kept.heartbeatSend {k stamp} (h : Keeps a s) : Kept a (execHeartbeatSend k stamp s) := .next (.ite (.sendBeat h) h)

theorem Kept.heartbeatReceive {k x} (h : Keeps a s) : Kept a (execHeartbeatReceive k x s) :=
  .next (.ite h (.ite (.goodBeat h) (.badBeat h)))

theorem Kept.alpPortEnable {k on via} (h : Keeps a s) : Kept a (execAlpPortEnable k on via s) := .next (.onPath .alpEnable h)
theorem Kept.alpPortDown {k} (h : Keeps a s) : Kept a (execAlpPortDown k s) := .next (.ite (.alpDown h) h)

theorem Keeps.laneFailure {k} (h : Keeps a s) : Keeps a (s.laneFailure k) := by
  unfold State.laneFailure
  split
  · exact .alpDown h
  · exact .withAlp h
  · exact h

theorem Kept.alpLaneFailure {k lane} (h : Keeps a s) : Kept a (execAlpLaneFailure k lane s) := .next (.ite h (.laneFailure h))

theorem Kept.alpMeasurement {k} (h : Keeps a s) : Kept a (execAlpMeasurement k s) := by
  unfold execAlpMeasurement
  refine .next ?_
  split
  · exact .ite (.alpMeasure h) h
  · exact h

theorem Kept.tunnelFrameReceive {k f} (h : Keeps a s) : Kept a (execTunnelFrameReceive k f s) :=
  .next (.ite h (.ite (.discardFrame h) (.ite (.ite (.tunnelFragment h) (.tunnelOnward h)) h)))

/-! ### Maintenance tasks -/

theorem Keeps.makeDue {x} (h : Keeps a s) : Keeps a (s.makeDue x) := .ite h (.update h)

theorem Keeps.startTask {x} (h : Keeps a s) : Keeps a (s.startTask x) :=
  .when (.raiseTo (.putNat (.put (.update h)))) (fun h1 => .setEvBit (.bump h1))

/-! ### Commands of the deep store -/

theorem Keeps.writeSpeed {v} (h : Keeps a s) : Keeps a (s.writeSpeed v) :=
  have h1 := .ite (.clampOp (.update h)) (.update h); .ite (.update h1) (.makeDue (.update h1))

theorem Kept.speedChangeRequest {v g} (h : Keeps a s) : Kept a (execSpeedChangeRequest v g s) := .next (.guardForm .writeSpeed h)
theorem Keeps.applySpeed (h : Keeps a s) : Keeps a s.applySpeed := .foldl .startPll (.update (.startTask h))

theorem Kept.speedChangeApply (h : Keeps a s) : Kept a (execSpeedChangeApply s) :=
  .next (.ite (.ite (.ite h (.bb (.setEvBit (.bump (.update h))))) (.applySpeed h)) h)

theorem Keeps.trained {r c} (h : Keeps a s) : Keeps a (s.trained r c) :=
  .ite (.failChannel (.update (.withChan h))) (.withChan (.update (.withChan h)))

theorem Kept.speedChangeComplete {r} (h : Keeps a s) : Kept a (execSpeedChangeComplete r s) :=
  .next (.ite (.bump (.foldl .trained (.update h))) h)

theorem Keeps.beginTraining {c} (h : Keeps a s) : Keeps a (s.beginTraining c) := .withChan (.startTask h)
theorem Kept.trainingDue {c} (h : Keeps a s) : Kept a (execTrainingDue c s) := .next (.ite (.ite (.beginTraining h) (.makeDue h)) h)
theorem Kept.trainingComplete {c r} (h : Keeps a s) : Kept a (execTrainingComplete c r s) := .next (.ite (.when (.trained h) .applySpeed) h)
theorem Keeps.abortTraining (h : Keeps a s) : Keeps a s.abortTraining := .ite (.makeDue (.update h)) h
theorem Keeps.bumpHeat {c doubled hot} (h : Keeps a s) : Keeps a (s.bumpHeat c doubled hot) := .putNat h

theorem Keeps.readDimm {temps c} (h : Keeps a s) : Keeps a (s.readDimm temps c) := by
  unfold State.readDimm
  refine .ite h ?_
  split
  · exact .when (.bumpHeat (.withChan h)) (fun h1 => .bb (.setEvBit h1))
  · exact .when (.bumpHeat (.withChan h)) .bb

theorem Kept.dimmSensorRead {temps} (h : Keeps a s) : Kept a (execDimmSensorRead temps s) := .next (.ite (.foldl .readDimm h) h)

theorem Keeps.damaged {b cause} (h : Keeps a s) : Keeps a (s.damaged b cause) := by
  unfold State.damaged
  split
  · exact .withDie h
  · exact .withDie h
  · exact .damage h

theorem Keeps.migrateNext (h : Keeps a s) : Keeps a s.migrateNext := by
  unfold State.migrateNext
  split
  · exact .ite (.dsAsk h) h
  · exact h

theorem Keeps.leaveService {c r} (h : Keeps a s) : Keeps a (s.leaveService c r) := by
  unfold State.leaveService
  split
  · exact .migrateNext (.putNat (.update h))
  · exact .retireRank h

theorem Keeps.rankOut {c r} (h : Keeps a s) : Keeps a (s.rankOut c r) := .ite h (.ite (.retireRank (.update h)) (.leaveService h))
theorem Keeps.correctedRead {c r} (h : Keeps a s) : Keeps a (s.correctedRead c r) := .when (.bump (.update h)) .rankOut
theorem Keeps.lostRead {b c r} (h : Keeps a s) : Keeps a (s.lostRead b c r) := .damaged (.bb (.setEvBit (.bump h)))
theorem Keeps.badRead {b c r} (h : Keeps a s) : Keeps a (s.badRead b c r) := .rankOut (.lostRead h)
theorem Keeps.groupRead {addr g} (h : Keeps a s) : Keeps a (s.groupRead addr g) := .ite h (.when (.ite (.correctedRead h) h) .badRead)

theorem Keeps.migrated {addr g} (h : Keeps a s) : Keeps a (s.migrated addr g) := by
  unfold State.migrated
  split
  · exact .groupRead h
  · exact .migrateNext (.putNat (.update (.when (.ite (.bump h) h) .lostRead)))

theorem Kept.dsRequestComplete {p g} (h : Keeps a s) : Kept a (execDsRequestComplete p g s) := by
  unfold execDsRequestComplete
  refine .next (.ite h ?_)
  split
  · exact h
  · exact .ite h
      (have h1 := .ite (.dsServed h) (.ite (.migrated (.dsServed h)) (.groupRead (.dsServed h)))
       .ite (.genRefilled h1) (.ite (.genRefilled h1) h1))

theorem Kept.dsParityError {barge again} (h : Keeps a s) : Kept a (execDsParityError barge again s) :=
  .next (.ite h (.rankOut (.when (.bb (.setEvBit (.bump h))) .damaged)))

theorem Kept.migrationDone {c bad} (h : Keeps a s) : Kept a (execMigrationDone c bad s) := by
  unfold execMigrationDone
  refine .next (.ite h ?_)
  split
  · exact h
  · exact .bb (.setEvBit (.bump (.putNat (.dsServed (.withChan (.update (.foldl .damaged h)))))))

theorem Kept.urgencyRise {p} (h : Keeps a s) : Kept a (execUrgencyRise p s) := by
  unfold execUrgencyRise
  refine .next (.ite h ?_)
  split
  · exact h
  · exact .update h

theorem Kept.patrolScrubRead {g} (h : Keeps a s) : Kept a (execPatrolScrubRead g s) := by
  unfold execPatrolScrubRead
  refine .next (.ite ?_ h)
  split
  · exact h
  · exact .ite (.bump h) (.groupRead (.dsGroups (.update h)))

theorem Keeps.writeRas {v} (h : Keeps a s) : Keeps a (s.writeRas v) := .when (.update h) (fun h1 => .retireRank (.update h1))
theorem Kept.rankRetire {c r g} (h : Keeps a s) : Kept a (execRankRetire c r g s) := .next (.guardForm .writeRas h)
theorem Kept.spareEnable {on g} (h : Keeps a s) : Kept a (execSpareEnable on g s) := .next (.guardForm .writeRas h)
theorem Kept.retiredListClear {g} (h : Keeps a s) : Kept a (execRetiredListClear g s) := .next (.guardForm .writeRas h)
theorem Keeps.windowHole {sub} (h : Keeps a s) : Keeps a (s.windowHole sub) := .setEvBit (.bump (.bump h))

theorem Kept.windowRead {off len} (h : Keeps a s) : Kept a (execWindowRead off len s) :=
  .ite .fault (.next (.ite (.emit h) (.ite (.emit (.bump h)) (.ite (.emit (.dsAccess h)) (.emit (.windowHole h))))))

theorem Keeps.windowStore {x bytes} (h : Keeps a s) : Keeps a (s.windowStore x bytes) := by
  unfold State.windowStore
  refine .foldl (fun h1 => ?_) h
  split
  · exact .update h1
  · exact .bump h1

theorem Kept.windowWrite {off bytes} (h : Keeps a s) : Kept a (execWindowWrite off bytes s) :=
  .ite .fault (.next (.ite (.emit h) (.ite (.bump (.update h)) (.ite (.windowStore (.dsAccess h)) (.windowHole h)))))

theorem Keeps.writeWindowBase {v} (h : Keeps a s) : Keeps a (s.writeWindowBase v) := .bump (.update h)
theorem Kept.windowBaseWrite {v} (h : Keeps a s) : Kept a (execWindowBaseWrite v s) := .next (.onBar0 .writeWindowBase h)

/-! ### Commands of the on-chip memories -/

theorem Keeps.scrambleBasin {d mask} (h : Keeps a s) : Keeps a (s.scrambleBasin d mask) := .drawn (.update h)
theorem Keeps.beginTest {target preserving} (h : Keeps a s) : Keeps a (s.beginTest target preserving) := .putNat (.putNat (.update h))

theorem Keeps.commandTest {via} (h : Keeps a s) : Keeps a (s.commandTest via) :=
  .ite (.beginTest (.ite (.clampOp h) h)) (.ignoreOp (.update h))

theorem Keeps.commandClamp {idx sub v via} (h : Keeps a s) : Keeps a (s.commandClamp idx sub v via) := .ite (.clampOp h) h

theorem Kept.marchTestCommand {v via} (h : Keeps a s) : Kept a (execMarchTestCommand v via s) :=
  .next (.onPath (fun h1 => .commandTest (.commandClamp h1)) h)

theorem Keeps.keepMaps (h : Keeps a s) : Keeps a s.keepMaps := .update h
theorem Keeps.basinBankOut {d bank} (h : Keeps a s) : Keeps a (s.basinBankOut d bank) := .when (.keepMaps (.update h)) .withGen

theorem Keeps.bankOut {mem f} (h : Keeps a s) : Keeps a (s.bankOut mem f) := by
  unfold State.bankOut
  split
  · exact .basinBankOut (.bb h)
  · exact .basinBankOut (.bb h)
  · exact .update (.bb h)

theorem Keeps.repairRow {mem f} (h : Keeps a s) : Keeps a (s.repairRow mem f).1 :=
  .ite_fst (.keepMaps (.bb (.update h))) (.bankOut (.update h))

theorem Keeps.testFault {m f} (h : Keeps a s) : Keeps a (s.testFault m f) := .ite (.ite (.bump (.repairRow h)) (.bump (.repairRow h))) h
theorem Keeps.endTest {status} (h : Keeps a s) : Keeps a (s.endTest status) := .put (.update h)

theorem Kept.marchTestDone {faults} (h : Keeps a s) : Kept a (execMarchTestDone faults s) := by
  unfold execMarchTestDone
  refine .next ?_
  split
  · exact h
  · refine .ite h (.endTest ?_)
    split
    · exact .ite (.ite (.foldl .testFault h) (.scrambleBasin (.foldl .testFault h))) (.loadTrigRam (.foldl .testFault h))
    · exact .foldl .testFault h

theorem Keeps.abortTest (h : Keeps a s) : Keeps a s.abortTest := by
  unfold State.abortTest
  split
  · exact h
  · refine .endTest ?_
    split
    · exact .ite (.ite h (.scrambleBasin h)) (.loadTrigRam h)
    · exact h

theorem Keeps.nextBlock (h : Keeps a s) : Keeps a s.nextBlock := .when (.update h) .bump
theorem Keeps.blockFault {f} (h : Keeps a s) : Keeps a (s.blockFault f) := .repairRow (.bump h)

theorem Kept.backgroundTestStep {faults} (h : Keeps a s) : Kept a (execBackgroundTestStep faults s) :=
  .next (.ite (.ite (.ite (.nextBlock (.update h)) (.update (.update h))) (.nextBlock (.foldl .blockFault (.update h)))) h)

theorem Keeps.ramDword {d} (h : Keeps a s) : Keeps a (s.ramDword d) := by
  unfold State.ramDword
  split
  · exact .partialDword h
  · exact .ite (.hkcAreaDword h) (.when (.ramStore (.touchRam (.interrupt h))) .mbSubmit)

theorem Keeps.ramClash {clash d} (h : Keeps a s) : Keeps a (s.ramClash clash d) := by
  unfold State.ramClash
  split
  · exact .ite h (.bump h)
  · exact h

theorem Keeps.ramWrite {off w} (h : Keeps a s) : Keeps a (s.ramWrite off w) := .update (.foldl (fun h1 => .ramDword (.ramClash h1)) h)

theorem Kept.descriptorRamHostWrite {off w} (h : Keeps a s) : Kept a (execDescriptorRamHostWrite off w s) :=
  .ite .fault (.next (.ite (.ramWrite h) (.emit h)))

theorem Kept.descriptorRamHostRead {off len met} (h : Keeps a s) : Kept a (execDescriptorRamHostRead off len met s) :=
  .ite .fault (.next (.ite (.emit (.meetFlaws (.touchRam (.update h)))) (.emit h)))

/-! ### ARMING -/

theorem Keeps.endEye {status} (h : Keeps a s) : Keeps a (s.endEye status) := .restSpll (.restSpll (.putNat (.withDie (.withDie h))))

theorem Keeps.endCheck {d} (h : Keeps a s) : Keeps a (s.endCheck d) := by
  unfold State.endCheck
  split
  · exact .ite (.restSpll (.bumpBy (.withDie h))) h
  · exact h

theorem Keeps.breakCheck {d} (h : Keeps a s) : Keeps a (s.breakCheck d) := by
  unfold State.breakCheck
  dsimp only
  split
  · exact .restSpll (.makeDue (.withDie (.endCheck h)))
  · exact .endCheck h

theorem Keeps.layout {d home} (h : Keeps a s) : Keeps a (s.layout d home) := .withDie (.ite (.update h) h)
theorem Keeps.thermal (h : Keeps a s) : Keeps a s.thermal.1 := .putNat (.putNat (.drawn (.drawn h)))
theorem Keeps.armClamp {c} (h : Keeps a s) : Keeps a (s.armClamp c) := .clampOp h

theorem Keeps.readPlans {ds} (h : Keeps a s) : Keeps a (s.readPlans ds).1 := by
  unfold State.readPlans
  refine .foldl_fst (fun hq => ?_) h
  dsimp only
  exact .foldl .armClamp hq

theorem Keeps.admitPlans {ds} (h : Keeps a s) : Keeps a (s.admitPlans ds).1 := by
  unfold State.admitPlans
  dsimp only
  split
  · exact .foldl .putNat (.putNat (.thermal (.readPlans (.foldl .layout h))))
  · split
    · exact .foldl .putNat (.putNat (.thermal (.readPlans (.foldl .layout h))))
    · exact .foldl .armClamp (.foldl .putNat (.putNat (.thermal (.readPlans (.foldl .layout h)))))

theorem Keeps.endArming {d status} (h : Keeps a s) : Keeps a (s.endArming d status) :=
  .raise (.restSpll (.putNat (.when (.withDie h) .ignoreOp)))

theorem Keeps.beginArming {took calibrate x} (h : Keeps a t) : Keeps a (s.beginArming took calibrate t x) :=
  .putNat (.putNat (.putNat (.when (.withDie (.unless (.startPll h) .markDieGauges)) .putNat)))

theorem Keeps.arm {ds} (h : Keeps a s) : Keeps a (s.arm ds) := by
  unfold State.arm
  extract_lets s1 s2 s3 s4
  have h4 : Keeps a s4 := by
    have h3 : Keeps a s3 := .abortTraining (.foldl .breakCheck (.ite (.endEye h) h))
    unfold s4
    split
    · exact .ite (.abortTest h3) h3
    · exact h3
  have h5 := Keeps.admitPlans (ds := ds) h4
  split
  next e =>
    rw [e] at h5
    exact .foldl .endArming h5
  next e =>
    rw [e] at h5
    exact .foldl .beginArming h5

theorem Keeps.armCommand {d loc via} (h : Keeps a s) : Keeps a (s.armCommand d loc via) :=
  .ite h (.ite (.ignoreOp h) (.ite (.ignoreOp h) (.ite (.ignoreOp h) (.ite (.ignoreOp h) (.ite (.ignoreOp h) (.arm h))))))

/-! ### The sluice and sealing -/

theorem Keeps.deepDrop {d} (h : Keeps a s) : Keeps a (s.deepDrop d) := .withDie h
theorem Keeps.deepPut {lead slot bytes} (h : Keeps a s) : Keeps a (s.deepPut lead slot bytes) := .withDie (.update h)
theorem Keeps.deepStop {d} (h : Keeps a s) : Keeps a (s.deepStop d) := .endDie (.withDie h)
theorem Keeps.moveBarge {d m slot ring} (h : Keeps a s) : Keeps a (s.moveBarge d m slot ring) := .withDie (.dsGroups (.deepPut h))

theorem Keeps.sluiceOne {d} (h : Keeps a s) (e : s.sluiceOne d = some t) : Keeps a t := by
  unfold State.sluiceOne at e
  extract_lets _ _ _ _ _ _ old _ s' at e
  split at e
  · cases e
  split at e
  · cases e
  split at e
  · cases e
  split at e
  · exact Option.some.inj e ▸ .deepStop h
  · refine Option.some.inj e ▸ .moveBarge ?_
    unfold s'
    cases old with
    | none => exact h
    | some m => exact .deepDrop h

theorem Keeps.sluiceAll {ds n} (h : Keeps a s) : Keeps a (s.sluiceAll ds n) := by
  induction n generalizing s with
  | zero => exact h
  | succ n ih =>
    unfold State.sluiceAll
    split
    next t e =>
      obtain ⟨d, -, e⟩ := Option.bind_eq_some_iff.mp e
      exact ih (.sluiceOne h e)
    next => exact h

theorem Keeps.reserveMove {d m} (h : Keeps a s) : Keeps a (s.reserveMove d m) := by
  unfold State.reserveMove
  dsimp only
  split
  · exact h
  · exact .ite (.moveBarge h) h

theorem Keeps.reserveEvents {d} (h : Keeps a s) : Keeps a (s.reserveEvents d) := .ite (.foldl .reserveMove h) h
theorem Keeps.markFault {d} (h : Keeps a s) : Keeps a (s.markFault d) := .ite h (.withDie (.update h))
theorem Keeps.closeDie {d} (h : Keeps a s) : Keeps a (s.closeDie d) := .foldl .putNat (.runDie h)

/-! ### The convoy directory -/

theorem Keeps.putDir {lead b} (h : Keeps a s) : Keeps a (s.putDir lead b) := by
  unfold State.putDir
  refine .ite ?_ (.withDie (.update h))
  split
  · exact h
  · exact .withDie (.deepPut h)

theorem Keeps.sealDie {addr short d} (h : Keeps a s) : Keeps a (s.sealDie addr short d) := .restSpll (.withDie (.putNat (.putNat h)))

theorem Keeps.sealConvoy {ds lead} (h : Keeps a s) : Keeps a (s.sealConvoy ds lead) :=
  .raise (.when (.foldl .sealDie (.foldl .putDir h)) .bb)

/-! ### Commands of a capture -/

theorem Kept.coreWord {d w} (h : Keeps a s) : Kept a (execCoreWord d w s) := .next (.ite (.runDie h) h)

theorem Kept.deferredAdvanceExecute {d} (h : Keeps a s) : Kept a (execDeferredAdvanceExecute d s) := by
  unfold execDeferredAdvanceExecute
  refine .next ?_
  split
  · exact .ite (.runDie h) h
  · exact h

theorem Kept.timerSaturation {d x} (h : Keeps a s) : Kept a (execTimerSaturation d x s) := .next (.ite (.runDie h) h)
theorem Kept.trigoutPulseEnd {p} (h : Keeps a s) : Kept a (execTrigoutPulseEnd p s) := .next (.unless (.settlePin h) .pulseOver)
theorem Kept.eventBargeClose {d} (h : Keeps a s) : Kept a (execEventBargeClose d s) := .next (.ite (.runDie h) h)
theorem Keeps.forceTrigger {d loc via} (h : Keeps a s) : Keeps a (s.forceTrigger d loc via) := .ite h (.ite (.withDie h) (.ignoreOp h))
theorem Kept.forceTrigger {d} (h : Keeps a s) : Kept a (execForceTrigger d s) := .next (.onBar0 .forceTrigger h)

theorem Kept.pendingPlacementCommit {d} (h : Keeps a s) : Kept a (execPendingPlacementCommit d s) := by
  unfold execPendingPlacementCommit
  refine .next ?_
  split
  · exact .ite (.runDie h) h
  · exact h

theorem Kept.triggerLineArrival {d} (h : Keeps a s) : Kept a (execTriggerLineArrival d s) := by
  unfold execTriggerLineArrival
  refine .next ?_
  split
  · refine .ite h ?_
    split
    · exact .raise (.runDie (.withDie h))
    · exact .ite (.runDie (.withDie h)) (.withDie h)
  · exact h

theorem Kept.arm {d} (h : Keeps a s) : Kept a (execArm d s) := .next (.onBar0 .armCommand h)

theorem Keeps.ramFound {d r} (h : Keeps a s) : Keeps a (s.ramFound d r) := by
  unfold State.ramFound
  split
  · exact .bumpBy h
  · exact .bb (.bump (.loadTrigRam (.bumpBy h)))
  · exact .bb (.bump (.loadTrigRam (.bumpBy h)))

theorem Keeps.openObjects {d id delay} (h : Keeps a s) : Keeps a (s.openObjects d id delay) :=
  .putNat (.foldl .putNat (.foldl .putNat (.foldl .putNat (.put (.putNat h)))))

theorem Keeps.openDie {id thin d} (h : Keeps a s) : Keeps a (s.openDie id thin d) := .raise (.when (.withDie (.openObjects h)) .runDie)
theorem Keeps.openConvoy {ds lead} (h : Keeps a s) : Keeps a (s.openConvoy ds lead) := .when (.when (.foldl .openDie (.update h)) .bb) .bb

theorem Kept.convoyOpen {d ram} (h : Keeps a s) : Kept a (execConvoyOpen d ram s) :=
  .next (.ite (have h1 := .foldl .ramFound h; .ite (.foldl .endArming h1) (.openConvoy h1)) h)

theorem Keeps.captureStop {d loc via} (h : Keeps a s) : Keeps a (s.captureStop d loc via) :=
  .ite h (.ite (.foldl .endArming h) (.ite (.foldl .endDie h) (.ignoreOp h)))

theorem Kept.stop {d} (h : Keeps a s) : Kept a (execStop d s) := .next (.onBar0 .captureStop h)
theorem Keeps.releaseDie {d} (h : Keeps a s) : Keeps a (s.releaseDie d) := .withDie h

theorem Keeps.releaseCommand {d loc via} (h : Keeps a s) : Keeps a (s.releaseCommand d loc via) :=
  .ite h (.ite (.foldl .releaseDie h) (.ignoreOp h))

theorem Kept.release {d} (h : Keeps a s) : Kept a (execRelease d s) := .next (.onBar0 .releaseCommand h)

theorem Kept.sluiceCopy {d} (h : Keeps a s) : Kept a (execSluiceCopy d s) := by
  refine .next (.ite ?_ h)
  cases e : s.sluiceOne d with
  | none => exact h
  | some t => exact .sluiceOne h e

theorem Keeps.sluiceBegin {d} (h : Keeps a s) : Keeps a (s.sluiceBegin d) := .withDie h

theorem Kept.convoySealed {d} (h : Keeps a s) : Kept a (execConvoySealed d s) :=
  .next (.ite (.ite (.sealConvoy (.foldl .markFault (.foldl .reserveEvents (.sluiceAll (.foldl .sluiceBegin (.foldl .closeDie h)))))) h) h)

theorem Kept.sluiceSealedConvoy {d via} (h : Keeps a s) : Kept a (execSluiceSealedConvoy d via s) :=
  .next (.onPath (fun h1 => .ite h1 (.ite (.withDie h1) (.ignoreOp h1))) h)

theorem Keeps.copyBarges {l b} (h : Keeps a s) : Keeps a (s.copyBarges l b) := by
  induction l generalizing s b with
  | nil => exact h
  | cons x l ih => exact ih (.update h)

theorem Kept.sluiceSealedCopyDone {d} (h : Keeps a s) : Kept a (execSluiceSealedCopyDone d s) := by
  unfold execSluiceSealedCopyDone
  refine .next ?_
  split
  · exact .ite h (.foldl .putNat (.withDie (.dsGroups (.copyBarges h))))
  · exact h

theorem Kept.quadrantReturn {d} (h : Keeps a s) : Kept a (execQuadrantReturn d s) := .next (.ite (.withDie h) h)

/-! ### Commands of the clocks -/

theorem Keeps.coastDie {d} (h : Keeps a s) : Keeps a (s.coastDie d) := .genCoast (.markDieGauges (.withDie h))

theorem Keeps.enterCoast {i lock} (h : Keeps a s) : Keeps a (s.enterCoast i lock) := by
  unfold State.enterCoast
  dsimp only
  split
  · exact .coastDie (.bb (.setEvBit (.bump (.withPll h))))
  · exact .bb (.setEvBit (.bump (.withPll h)))

theorem Keeps.refLost {i} (h : Keeps a s) : Keeps a (s.refLost i) := by
  unfold State.refLost
  refine .ite h ?_
  split
  · exact .bump (.enterCoast h)
  · exact .bump (.withPll h)
  · exact .withPll h
  · exact .withPll h
  · exact h

theorem Kept.referenceLoss (h : Keeps a s) : Kept a (execReferenceLoss s) := .next (.setEvBit (.foldl .refLost h))
theorem Keeps.failAttempt {i} (h : Keeps a s) : Keeps a (s.failAttempt i) := .bump (.withPll h)

theorem Kept.lockLoss {i} (h : Keeps a s) : Kept a (execLockLoss i s) :=
  .next (.ite h (.ite (.failAttempt (.enterCoast h)) (.enterCoast h)))

theorem Keeps.clockSeal {ds estimate} (h : Keeps a s) : Keeps a (s.clockSeal ds estimate) := .ite h (.bb (.setEvBit (.foldl .endDie h)))

theorem Kept.coastEstimate {i estimate} (h : Keeps a s) : Kept a (execCoastEstimate i estimate s) :=
  .next (.ite (.when (.putInt (.withPll h)) .clockSeal) h)

theorem Kept.coastEstimateTimeout {i} (h : Keeps a s) : Kept a (execCoastEstimateTimeout i s) := .next (.ite (.clockSeal h) h)

theorem Keeps.reenter {i residual} (h : Keeps a s) : Keeps a (s.reenter i residual) := by
  unfold State.reenter
  extract_lets r s1 s2 s3 _ s4
  have h3 : Keeps a s3 := .bb (.setEvBit (.put (.putInt (.withPll h))))
  have h4 : Keeps a s4 := by
    refine .ite ?_ h3
    split
    · exact .update h3
    · exact h3
  split
  · exact .when (.withDie h4) .runDie
  · exact h4

theorem Keeps.takeWanted {i} (h : Keeps a s) : Keeps a (s.takeWanted i) := by
  unfold State.takeWanted
  split
  · exact .startPll (.withPll h)
  · exact h

theorem Kept.reentry {i residual} (h : Keeps a s) : Kept a (execReentry i residual s) :=
  .next (.ite (.takeWanted (.reenter h)) (.ite (.withPll h) h))

theorem Kept.reentryAttempt {i residual} (h : Keeps a s) : Kept a (execReentryAttempt i residual s) :=
  .next (.ite (.takeWanted (.reenter h)) h)

theorem Keeps.relockChan {i} (h : Keeps a s) : Keeps a (s.relockChan i) := by
  unfold State.relockChan
  split
  · exact .ite (.withChan h) h
  · exact h

theorem Kept.lockConfirmed {i locked} (h : Keeps a s) : Kept a (execLockConfirmed i locked s) :=
  .next (.ite (.ite (.relockChan (.withPll h)) (.failAttempt (.enterCoast h))) h)

theorem Keeps.bandFound {i band tuning} (h : Keeps a s) : Keeps a (s.bandFound i band tuning) := .setEvBit (.bump (.withPll (.update h)))

theorem Keeps.returnPll {i back} (h : Keeps a s) : Keeps a (s.returnPll i back) := by
  unfold State.returnPll
  split
  · exact h
  · exact .startPll h
  · exact .restSpll h
  · exact .stopPll h

theorem Kept.bandSearchDone {i band tuning} (h : Keeps a s) : Kept a (execBandSearchDone i band tuning s) :=
  .next (.ite (.relockChan (.takeWanted (.returnPll (.bandFound h)))) h)

theorem Keeps.beginReval {i} (h : Keeps a s) : Keeps a (s.beginReval i) := .withPll h

theorem Kept.bandRevalidate {mask via} (h : Keeps a s) : Kept a (execBandRevalidate mask via s) :=
  .next (.onPath (.foldl (fun h2 => .ite (.beginReval h2) (.ignoreOp h2))) h)

theorem Keeps.dueBands (h : Keeps a s) : Keeps a s.dueBands := .foldl .makeDue h

theorem Kept.spreadChange {v via} (h : Keeps a s) : Kept a (execSpreadChange v via s) :=
  .next (.onPath (fun h1 => have h2 := .ite h1 (.clampOp h1); .ite (.update (.putNat h2)) (.update (.putNat h2))) h)

theorem Kept.elasticBufferSeal {d} (h : Keeps a s) : Kept a (execElasticBufferSeal d s) :=
  .next (.ite (.clockSeal h) (.ite (.clockSeal h) h))

theorem Kept.mpllCoastSelfRefresh {c} (h : Keeps a s) : Kept a (execMpllCoastSelfRefresh c s) := .next (.ite (.bb (.bump (.withChan h))) h)

/-! ### Gauges -/

theorem Keeps.clampGauge {g} (h : Keeps a s) : Keeps a (s.clampGauge g).1 :=
  .when (.ite (.clampOp (.putNat h)) h) (fun h1 => .clampOp (.putInt h1))

theorem Keeps.freshResult {g} (h : Keeps a s) : Keeps a (s.freshResult g) := .withGauge h
theorem Keeps.openGate {g at_ tw len} (h : Keeps a s) : Keeps a (s.openGate g at_ tw len) := .withGauge (.freshResult h)

theorem Keeps.sendResult {g at_ flags vals} (h : Keeps a s) : Keeps a (s.sendResult g at_ flags vals) :=
  .bump (.foldl .putInt (.putNat (.put h)))

theorem Keeps.publish {g at_ flags vals} (h : Keeps a s) : Keeps a (s.publish g at_ flags vals) :=
  .ite (.sendResult (.withGauge h)) (.withGauge (.withGauge h))

theorem Keeps.sendUnsent (h : Keeps a s) : Keeps a s.sendUnsent := .foldl (fun h1 => .withGauge (.foldl .sendResult h1)) h
theorem Keeps.publishPartial {g at_} (h : Keeps a s) : Keeps a (s.publishPartial g at_) := .ite (.publish h) h
theorem Keeps.endGauge {g st} (h : Keeps a s) : Keeps a (s.endGauge g st) := .restSpll (.withGauge h)
theorem Keeps.setDone {g at_} (h : Keeps a s) : Keeps a (s.setDone g at_) := .ite (.freshResult (.publish h)) (.endGauge (.publish h))
theorem Keeps.overspeed {g} (h : Keeps a s) : Keeps a (s.overspeed g) := .bump (.withGauge h)

theorem Keeps.freqEdge {g x} (h : Keeps a s) : Keeps a (s.freqEdge g x) := by
  unfold State.freqEdge
  refine .ite (.withGauge h) ?_
  split
  · exact .withGauge h
  · exact .ite (.overspeed (.withGauge h)) (.withGauge (.withGauge h))
  · exact .ite (.overspeed (.withGauge (.withGauge h))) (.withGauge (.withGauge h))

theorem Keeps.shotMissed {g} (h : Keeps a s) : Keeps a (s.shotMissed g) := by
  unfold State.shotMissed
  dsimp only
  split
  · exact .when (.bump (.withGauge h)) .overspeed
  · exact .bump (.withGauge h)

theorem Keeps.pairShot {g x b} (h : Keeps a s) : Keeps a (s.pairShot g x b) :=
  .ite (.overspeed (.withGauge h)) (.when (.withGauge (.withGauge h)) .setDone)

theorem Keeps.stopUnused {g e} (h : Keeps a s) : Keeps a (s.stopUnused g e) := .bump h
theorem Keeps.pruneStops {g before} (h : Keeps a s) : Keeps a (s.pruneStops g before) := .foldl .stopUnused (.withGauge h)

theorem Keeps.expireShot {g x} (h : Keeps a s) : Keeps a (s.expireShot g x) := by
  unfold State.expireShot
  split
  · exact .ite (.shotMissed h) h
  · exact h

theorem Keeps.shotEdge {g x} (h : Keeps a s) : Keeps a (s.shotEdge g x) := by
  unfold State.shotEdge
  dsimp only
  refine .ite (.bump (.expireShot h)) (.ite (.bump (.withGauge (.expireShot h))) (.ite (.withGauge (.expireShot h)) ?_))
  split
  · exact .pairShot (.withGauge (.withGauge (.pruneStops (.withGauge (.expireShot h)))))
  · exact .withGauge (.pruneStops (.withGauge (.expireShot h)))

theorem Keeps.keepStop {g e} (h : Keeps a s) : Keeps a (s.keepStop g e) :=
  .ite (.withGauge (.pruneStops h)) (.foldl .stopUnused (.withGauge (.pruneStops h)))

theorem Keeps.stopEdge {g x} (h : Keeps a s) : Keeps a (s.stopEdge g x) := by
  unfold State.stopEdge
  dsimp only
  refine .ite (.bump (.expireShot h)) ?_
  split
  · exact .pairShot (.withGauge (.expireShot h))
  · exact .ite (.keepStop (.withGauge (.expireShot h))) (.stopUnused (.withGauge (.expireShot h)))

theorem Keeps.afterGate {g} (h : Keeps a s) : Keeps a (s.afterGate g) := by
  unfold State.afterGate
  refine .ite (.endGauge h) (.ite (.withGauge (.freshResult h)) ?_)
  split
  · exact .withGauge (.openGate h)
  · exact .openGate h

theorem Keeps.closeGate {g} (h : Keeps a s) : Keeps a (s.closeGate g) := .afterGate (.ite (.publishPartial h) (.publish h))
theorem Keeps.gatePast {g at_} (h : Keeps a s) : Keeps a (s.gatePast g at_) := .ite (.closeGate h) h

theorem Keeps.slotGate {k target} (h : Keeps a s) : Keeps a (s.slotGate k target) :=
  .foldl (fun h1 => .ite (.ite (.bump h1) (.openGate h1)) h1) h

theorem Keeps.abortGauges (h : Keeps a s) : Keeps a s.abortGauges := .update h

/-! ### Commands of the gauges -/

theorem Kept.gaugeStart {g via} (h : Keeps a s) : Kept a (execGaugeStart g via s) :=
  .next (.onPath (fun h1 => .ite h1 (.ite (.ignoreOp h1) (.ite (.ignoreOp h1) (.freshResult (.needSpll (.withGauge (.foldl .putNat
    (.putNat (.clampGauge h1))))))))) h)

theorem Kept.gaugeStop {g via} (h : Keeps a s) : Kept a (execGaugeStop g via s) :=
  .next (.onPath (fun h1 => .ite h1 (.ite (.endGauge (.publishPartial h1)) (.ignoreOp h1))) h)

theorem Kept.gaugeStampingBegin {g} (h : Keeps a s) : Kept a (execGaugeStampingBegin g s) := by
  unfold execGaugeStampingBegin
  refine .next (.ite ?_ h)
  split
  · exact .openGate (.withGauge h)
  · exact .withGauge h
  · exact .openGate (.withGauge h)

theorem Kept.gateClose {g} (h : Keeps a s) : Kept a (execGateClose g s) := .next (.ite (.closeGate h) h)

theorem Keeps.gaugeEdge {g ch at_ f} (hf : ∀ {t x}, Keeps a t → Keeps a (f t x)) (h : Keeps a s) : Keeps a (s.gaugeEdge g ch at_ f) :=
  .ite h (.when (.gatePast h) hf)

theorem Kept.gaugeStartEdge {g e} (h : Keeps a s) : Kept a (execGaugeStartEdge g e s) :=
  .next (.ite (.gaugeEdge (fun h1 => .ite (.shotEdge h1) (.freqEdge h1)) h) h)

theorem Kept.gaugeStopEdge {g e} (h : Keeps a s) : Kept a (execGaugeStopEdge g e s) := .next (.ite (.gaugeEdge .stopEdge h) h)
theorem Kept.shotTimeout {g} (h : Keeps a s) : Kept a (execShotTimeout g s) := .next (.ite (.shotMissed h) h)
theorem Kept.gaugeTimeout {g} (h : Keeps a s) : Kept a (execGaugeTimeout g s) := .next (.ite (.endGauge (.publishPartial h)) h)

/-! ### Ethernet ports -/

theorem Keeps.bulkEnd {status} (h : Keeps a s) : Keeps a (s.bulkEnd status) := .putNat (.update h)

theorem Keeps.bulkAbort {p} (h : Keeps a s) : Keeps a (s.bulkAbort p) := by
  unfold State.bulkAbort
  split
  · exact .ite (.bulkEnd h) h
  · exact h

theorem Keeps.bulkBegin {p addr} (h : Keeps a s) : Keeps a (s.bulkBegin p addr) := .ite (.bulkEnd (.update h)) (.putNat (.update h))

theorem Keeps.bulkStart {via addr} (h : Keeps a s) : Keeps a (s.bulkStart via addr) := by
  unfold State.bulkStart
  refine .ite (.ignoreOp h) ?_
  split
  · exact .ignoreOp h
  · exact .ite (.ignoreOp h) (.ite (.putNat h) (.bulkBegin h))

theorem Keeps.bulkSend {b data} (h : Keeps a s) : Keeps a (s.bulkSend b data) := .when (.update (.emit (.ite (.dsAccess h) h))) .bulkEnd

theorem Keeps.ethDown {p} (h : Keeps a s) : Keeps a (s.ethDown p) := by
  unfold State.ethDown
  refine .when (.bulkAbort h) (fun h1 => .elect (.withPort ?_))
  split
  · exact .when (.bump (.setEvBit h1)) .bb
  · exact .bump (.setEvBit h1)

theorem Keeps.ethEnable {p on} (h : Keeps a s) : Keeps a (s.ethEnable p on) := .ptpSettle (.unless (.putNat h) .ethDown)
theorem Keeps.settleFec {p via} (h : Keeps a s) : Keeps a (s.settleFec p via) := .ite (.putNat (.clampOp h)) h

theorem Keeps.setPort {p sub v via} (h : Keeps a s) : Keeps a (s.setPort p sub v via) :=
  .ite (.putNat (.clampOp h)) (.settleFec (.writeField h))

theorem Keeps.reconfigure {p sub v via} (h : Keeps a s) : Keeps a (s.reconfigure p sub v via) := .ethDown (.setPort h)

/-! ### Commands of the Ethernet ports -/

theorem Kept.portReconfigure {p sub value via} (h : Keeps a s) : Kept a (execPortReconfigure p sub value via s) := by
  unfold execPortReconfigure
  refine .next (.onPath (fun h1 => ?_) h)
  split
  · exact .ite (.reconfigure h1) h1
  · exact h1

theorem Kept.ethLinkLoss {p} (h : Keeps a s) : Kept a (execEthLinkLoss p s) := .next (.ethDown h)
theorem Kept.ethLinkUp {p} (h : Keeps a s) : Kept a (execEthLinkUp p s) := .next (.ite (.ptpSettle (.reportGroups (.withPort h))) h)
theorem Kept.bulkReadoutStart {via addr} (h : Keeps a s) : Kept a (execBulkReadoutStart via addr s) := .next (.onPath .bulkStart h)

theorem Kept.bulkReadoutDatagram (h : Keeps a s) : Kept a (execBulkReadoutDatagram s) := by
  unfold execBulkReadoutDatagram
  refine .next ?_
  split
  · exact h
  · refine .ite ?_ h
    split
    · exact .bulkSend h
    · exact h

/-! ### Commands of IEEE 1588 time -/

theorem Keeps.hearSync {p m} (h : Keeps a s) : Keeps a (s.hearSync p m) :=
  .ite h (.ite (.bump h) (.ite (.update (.dropWaiting h)) (.takeSync h)))

theorem Kept.syncReceive {p m} (h : Keeps a s) : Kept a (execSyncReceive p m s) := .next (.ptpFrame .hearSync h)

theorem Keeps.hearFollowUp {p m} (h : Keeps a s) : Keeps a (s.hearFollowUp p m) := by
  unfold State.hearFollowUp
  refine .ite h ?_
  split
  · exact h
  · exact .ite (.ite (.bump (.update h)) (.takeSync (.update h))) h

theorem Kept.followUpReceive {p m} (h : Keeps a s) : Kept a (execFollowUpReceive p m s) := .next (.ptpFrame .hearFollowUp h)
theorem Keeps.hearAnnounce {p m} (h : Keeps a s) : Keeps a (s.hearAnnounce p m) := .ite h (.elect (.withPort h))
theorem Kept.announceReceive {p m} (h : Keeps a s) : Kept a (execAnnounceReceive p m s) := .next (.ptpFrame .hearAnnounce h)
theorem Keeps.hearDelayReq {p m} (h : Keeps a s) : Keeps a (s.hearDelayReq p m) := .ite (.sendPtp h) h
theorem Kept.delayReqReceive {p m} (h : Keeps a s) : Kept a (execDelayReqReceive p m s) := .next (.ptpFrame .hearDelayReq h)

theorem Keeps.hearDelayResp {p m} (h : Keeps a s) : Keeps a (s.hearDelayResp p m) := by
  unfold State.hearDelayResp
  dsimp only
  refine .ite h ?_
  split
  · exact h
  · split
    · exact .takeDelay (.withPort h)
    · exact .withPort h

theorem Kept.delayRespReceive {p m} (h : Keeps a s) : Kept a (execDelayRespReceive p m s) := .next (.ptpFrame .hearDelayResp h)

theorem Keeps.hearPdelayReq {p m egress} (h : Keeps a s) : Keeps a (s.hearPdelayReq p m egress) :=
  .ite (.queueStamp (.withPort (.sendPtp h))) h

theorem Kept.pdelayReqReceive {p m egress} (h : Keeps a s) : Kept a (execPdelayReqReceive p m egress s) :=
  .next (.ptpFrame .hearPdelayReq h)

theorem Keeps.hearPdelayResp {p m} (h : Keeps a s) : Keeps a (s.hearPdelayResp p m) := by
  unfold State.hearPdelayResp
  refine .ite h ?_
  split
  · exact h
  · refine .ite ?_ (.ite (.withPort h) ?_)
    · split
      · exact .takeDelay (.withPort h)
      · exact h
    · split
      · exact .takeDelay (.withPort h)
      · exact .withPort h

theorem Kept.pdelayRespReceive {p m} (h : Keeps a s) : Kept a (execPdelayRespReceive p m s) := .next (.ptpFrame .hearPdelayResp h)
theorem Keeps.hearManagement {p} (h : Keeps a s) : Keeps a (s.hearManagement p) := .ite (.bump h) h
theorem Kept.managementMessageReceive {p} (h : Keeps a s) : Kept a (execManagementMessageReceive p s) := .next (.ptpFrame .hearManagement h)
theorem Kept.syncSend {p stamp} (h : Keeps a s) : Kept a (execSyncSend p stamp s) := .next (.ite (.queueStamp (.sendPtp (.withPort h))) h)
theorem Kept.announceSend {p} (h : Keeps a s) : Kept a (execAnnounceSend p s) := .next (.ite (.sendPtp (.withPort h)) h)

theorem Kept.delayReqSend {p stamp} (h : Keeps a s) : Kept a (execDelayReqSend p stamp s) :=
  .next (.ite (.ite (.queueStamp (.sendPtp (.withPort (.missDelay h)))) (.queueStamp (.sendPtp (.withPort (.missDelay h))))) h)

theorem Keeps.monitorExpired {cause} (h : Keeps a s) : Keeps a (s.monitorExpired cause) := .when (.setEvBit h) .enterHoldover

theorem Kept.syncTimeout (h : Keeps a s) : Kept a (execSyncTimeout s) :=
  .next (.ite (.ite (.monitorExpired h) (.ite (.enterHoldover h) h)) h)

theorem Keeps.announceLost {p} (h : Keeps a s) : Keeps a (s.announceLost p) := by
  unfold State.announceLost
  split
  · exact h
  · exact .ite (.elect (.withPort (.ite (.monitorExpired h) h))) h

theorem Kept.announceReceiptTimeout (h : Keeps a s) : Kept a (execAnnounceReceiptTimeout s) := .next (.announceLost (.announceLost h))

/-! ### DMA jobs and the function -/

theorem Keeps.withDma {k f} (h : Keeps a s) : Keeps a (s.withDma k f) := .update h

theorem Keeps.issueRead {k use addr len} (h : Keeps a s) (e : s.issueRead k use addr len = some t) : Keeps a t := by
  unfold State.issueRead at e
  split at e
  · split at e
    · exact Option.some.inj e ▸ .emit (.update h)
    · cases e
  · cases e

theorem Keeps.pumpJob {k n} (h : Keeps a s) : Keeps a (s.pumpJob k n) := by
  induction n generalizing s with
  | zero => exact h
  | succ n ih =>
    unfold State.pumpJob
    split
    · exact h
    · refine .ite ?_ h
      dsimp only
      split
      next t e => exact ih (.withDma (.issueRead h e))
      next => exact h

theorem Keeps.pump {k} (h : Keeps a s) : Keeps a (s.pump k) := .pumpJob h
theorem Keeps.toHost {relaxed addr bs} (h : Keeps a s) : Keeps a (s.toHost relaxed addr bs) := .send h (List.prefix_append ..)
theorem Keeps.dataToHost {addr bs} (h : Keeps a s) : Keeps a (s.dataToHost addr bs) := .toHost h
theorem Keeps.intoDeep {x bs} (h : Keeps a s) : Keeps a (s.intoDeep x bs) := .ite (.update h) (.update h)
theorem Keeps.writeStatus {k status done} (h : Keeps a s) : Keeps a (s.writeStatus k status done) := .unless (.hkcRam h) .toHost
theorem Keeps.jobVector {k status irq} (h : Keeps a s) : Keeps a (s.jobVector k status irq) := .ite (.ite (.raise h) h) (.raise h)
theorem Keeps.countJob {k status moved} (h : Keeps a s) : Keeps a (s.countJob k status moved) := .bumpBy (.bump h)

theorem Keeps.endJob {k status} (h : Keeps a s) : Keeps a (s.endJob k status) :=
  .jobVector (.unless (.withDma (.update (.countJob (.writeStatus h)))) .setEvBit)

theorem Keeps.cutShort {k} (h : Keeps a s) : Keeps a (s.cutShort k) := by
  unfold State.cutShort
  split
  · exact h
  · exact .ite h (.withDma (.dataToHost (.drawn h)))

theorem Keeps.haltJob {k status} (h : Keeps a s) : Keeps a (s.haltJob k status) := .ite (.endJob (.cutShort h)) h
theorem Keeps.haltAll {status} (h : Keeps a s) : Keeps a (s.haltAll status) := .foldl .haltJob h
theorem Keeps.beginJob {k d} (h : Keeps a s) : Keeps a (s.beginJob k d) := .pump (.when (.withDma h) .dsAsk)

theorem Keeps.kick {k} (h : Keeps a s) : Keeps a (s.kick k) := by
  unfold State.kick
  refine .ite (.ite (.unless (.hkcReads h) .beginJob) ?_) h
  split
  next t e => exact .withDma (.issueRead h e)
  next => exact h

theorem Keeps.kickAll (h : Keeps a s) : Keeps a s.kickAll := .foldl (fun h1 => .pump (.kick h1)) h
theorem Keeps.bmeOff (h : Keeps a s) : Keeps a s.bmeOff := .ite (.when (.haltAll (.update h)) .setEvBit) h
theorem Keeps.bmeOn (h : Keeps a s) : Keeps a s.bmeOn := .ite h (.kickAll (.flushAll (.update h)))
theorem Keeps.enterD3 (h : Keeps a s) : Keeps a s.enterD3 := .ite (.update (.when (.haltAll (.update h)) .setEvBit)) h
theorem Keeps.leaveD3 (h : Keeps a s) : Keeps a s.leaveD3 := .ite (.flushAll (.update h)) h
theorem Keeps.resetFunction (h : Keeps a s) : Keeps a s.resetFunction := .mbReset (.update h)
theorem Keeps.retireTags (h : Keeps a s) : Keeps a s.retireTags := .update h
theorem Keeps.beginReset {flr} (h : Keeps a s) : Keeps a (s.beginReset flr) := .bump (.update (.haltAll h))

theorem Keeps.linkLost {ltssm} (h : Keeps a s) : Keeps a (s.linkLost ltssm) := by
  unfold State.linkLost
  exact .bb (.bump (.resetFunction (.retireTags (.haltAll (.update h)))))

theorem Keeps.withCfg {f} (h : Keeps a s) : Keeps a (s.withCfg f) := .update h
theorem Keeps.withMsix {f} (h : Keeps a s) : Keeps a (s.withMsix f) := .update h
theorem Keeps.startFlr (h : Keeps a s) : Keeps a s.startFlr := .ite (.beginReset h) h
theorem Keeps.clearPme (h : Keeps a s) : Keeps a s.clearPme := .update h

theorem Keeps.writeCommand {v be} (h : Keeps a s) : Keeps a (s.writeCommand v be) :=
  .when (.when (.ite (.ite (.bmeOn (.withCfg h)) (.bmeOff (.withCfg h))) h) .withCfg) .update

theorem Keeps.writePmcsr {v be} (h : Keeps a s) : Keeps a (s.writePmcsr v be) :=
  .when (.ite (.ite (.enterD3 h) (.ite (.leaveD3 h) h)) h) (fun h1 => .when (.withCfg h1) .clearPme)

theorem Keeps.writeMsixCtl {v be} (h : Keeps a s) : Keeps a (s.writeMsixCtl v be) := .ite (.flushAll (.withMsix h)) h

theorem Keeps.writeDevCtl {v be} (h : Keeps a s) : Keeps a (s.writeDevCtl v be) :=
  .when (.ite (.withCfg h) h) (fun h1 => .when (.withCfg h1) .startFlr)

theorem Keeps.writeDevCtl2 {v be} (h : Keeps a s) : Keeps a (s.writeDevCtl2 v be) := .when (.ite (.withCfg h) h) .withCfg

theorem Keeps.writeCfg {off v be} (h : Keeps a s) : Keeps a (s.writeCfg off v be) := by
  unfold State.writeCfg
  split
  · exact .writeCommand h
  · exact .ite (.withCfg h) h
  · exact .withCfg h
  · exact .withCfg h
  · exact .withCfg h
  · exact .withCfg h
  · exact .withCfg h
  · exact .withCfg h
  · exact .ite (.withCfg h) h
  · exact .writePmcsr h
  · exact .writeMsixCtl h
  · exact .writeDevCtl h
  · exact .ite (.withCfg h) h
  · exact .writeDevCtl2 h
  · exact .update h
  · exact .withCfg h
  · exact .withCfg h
  · exact .withCfg h
  · exact h

/-! ### Commands of the endpoint -/

theorem Keeps.dmaRun {k} (h : Keeps a s) : Keeps a (s.dmaRun k) := .ite h (.kick (.withDma h))
theorem Keeps.dmaAbort {k} (h : Keeps a s) : Keeps a (s.dmaAbort k) := .haltJob h
theorem Keeps.dmaStop {k} (h : Keeps a s) : Keeps a (s.dmaStop k) := .withDma (.dmaAbort h)
theorem Keeps.dmaResume {k} (h : Keeps a s) : Keeps a (s.dmaResume k) := .ite (.ignoreOp h) (.ite (.kick (.withDma h)) h)
theorem Kept.dmaRun {k} (h : Keeps a s) : Kept a (execDmaRun k s) := .next (.onBar0 .dmaRun h)
theorem Kept.dmaStop {k} (h : Keeps a s) : Kept a (execDmaStop k s) := .next (.onBar0 .dmaStop h)
theorem Kept.dmaAbort {k} (h : Keeps a s) : Kept a (execDmaAbort k s) := .next (.onBar0 .dmaAbort h)
theorem Kept.dmaResume {k} (h : Keeps a s) : Kept a (execDmaResume k s) := .next (.onBar0 .dmaResume h)
theorem Keeps.dmaProd {k i} (h : Keeps a s) : Keeps a (s.dmaProd k i) := .kick (.withDma h)
theorem Kept.dmaProducerWrite {k i} (h : Keeps a s) : Kept a (execDmaProducerWrite k i s) := .next (.onBar0 .dmaProd h)
theorem Keeps.finishToHost {k j} (h : Keeps a s) : Keeps a (s.finishToHost k j) := .endJob (.withDma (.when (.dataToHost h) .dsServed))

theorem Keeps.finishJob {k j} (h : Keeps a s) : Keeps a (s.finishJob k j) := by
  unfold State.finishJob
  split
  · exact .endJob h
  · exact .ite h (.ite (.ite (.endJob (.dsServed h)) h) (.ite (.finishToHost h) h))

theorem Kept.dmaJobComplete {k} (h : Keeps a s) : Kept a (execDmaJobComplete k s) := by
  unfold execDmaJobComplete
  refine .next ?_
  split
  · exact h
  · exact .kick (.finishJob h)

theorem Keeps.logRead {tag cause} (h : Keeps a s) : Keeps a (s.logRead tag cause) := .update h
theorem Keeps.readFailed {e} (h : Keeps a s) : Keeps a (s.readFailed e) := .ite (.endJob h) h
theorem Keeps.descriptorHere {k bs} (h : Keeps a s) : Keeps a (s.descriptorHere k bs) := .beginJob (.hkcRam h)
theorem Keeps.dataHere {e x bs} (h : Keeps a s) : Keeps a (s.dataHere e x bs) := .pump (.withDma (.intoDeep h))

theorem Keeps.completed {e st bs} (h : Keeps a s) : Keeps a (s.completed e st bs) := by
  unfold State.completed
  split
  · exact .bump (.update h)
  · exact .readFailed (.logRead (.update h))
  · exact .readFailed (.logRead (.update h))
  · exact .readFailed (.logRead (.update h))
  · exact .descriptorHere (.update h)
  · exact .dataHere (.update h)

theorem Kept.pcieCompletionReceive {tag st data} (h : Keeps a s) : Kept a (execPcieCompletionReceive tag st data s) := by
  unfold execPcieCompletionReceive
  refine .next (.ite (.bump (.setEvBit h)) ?_)
  split
  · exact .kickAll (.completed h)
  · exact h

theorem Kept.completionTimeout {tag} (h : Keeps a s) : Kept a (execCompletionTimeout tag s) := by
  unfold execCompletionTimeout
  refine .next ?_
  split
  · refine .ite h ?_
    split
    · exact .logRead (.bump (.update h))
    · exact .readFailed (.logRead (.bump (.update h)))
    · exact .readFailed (.logRead (.bump (.update h)))
  · exact h

theorem Kept.busMasterDisable (h : Keeps a s) : Kept a (execBusMasterDisable s) := .next (.ite (.bmeOff h) h)
theorem Kept.busMasterEnable (h : Keeps a s) : Kept a (execBusMasterEnable s) := .next (.ite (.bmeOn h) h)
theorem Kept.d3hotEntry (h : Keeps a s) : Kept a (execD3hotEntry s) := .next (.ite (.enterD3 h) h)
theorem Kept.d0Return (h : Keeps a s) : Kept a (execD0Return s) := .next (.ite (.leaveD3 h) h)
theorem Keeps.maskVector {v on} (h : Keeps a s) : Keeps a (s.maskVector v on) := .flushVector (.withMsix h)

theorem Kept.msixUnmask {what} (h : Keeps a s) : Kept a (execMsixUnmask what s) := by
  unfold execMsixUnmask
  refine .next ?_
  split
  · exact .ite (.maskVector h) (.emit h)
  · exact .ite (.flushAll (.withMsix h)) h
  · exact .ite (.flushAll (.withMsix h)) h

theorem Kept.pmeStatusClear (h : Keeps a s) : Kept a (execPmeStatusClear s) := .next (.ite (.clearPme h) h)

theorem Kept.configurationWrite {off value be} (h : Keeps a s) : Kept a (execConfigurationWrite off value be s) :=
  .ite .fault (.next (.ite (.writeCfg h) h))

theorem Kept.functionLevelReset (h : Keeps a s) : Kept a (execFunctionLevelReset s) := .next (.startFlr h)
theorem Kept.hotReset (h : Keeps a s) : Kept a (execHotReset s) := .next (.ite (.update (.beginReset h)) h)
theorem Kept.flrWaitEnd (h : Keeps a s) : Kept a (execFlrWaitEnd s) := .next (.ite (.resetFunction (.retireTags h)) h)

theorem Kept.retiredTagExpiry {tag} (h : Keeps a s) : Kept a (execRetiredTagExpiry tag s) := by
  unfold execRetiredTagExpiry
  refine .next ?_
  split
  · exact .ite (.kickAll (.update h)) h
  · exact h

theorem Kept.pcieLinkLoss {ltssm} (h : Keeps a s) : Kept a (execPcieLinkLoss ltssm s) := .next (.ite (.linkLost h) h)
theorem Kept.pcieLinkUp {rate width} (h : Keeps a s) : Kept a (execPcieLinkUp rate width s) := .next (.ite (.update h) h)

/-! ### Commands of the pattern generators -/

theorem Keeps.genCommand {d via f} (hf : ∀ {t}, Keeps a t → Keeps a (f t)) (h : Keeps a s) : Keeps a (s.genCommand d via f) :=
  .byPath (fun h1 => .ite (hf h1) h1) h

theorem Keeps.primeCommand {d via} (h : Keeps a s) : Keeps a (s.primeCommand d via) := .ite (.ignoreOp h) (.ite (.ignoreOp h) (.genPrime h))
theorem Kept.pgPrime {d via} (h : Keeps a s) : Kept a (execPgPrime d via s) := .next (.genCommand .primeCommand h)

theorem Keeps.startCommand {d via} (h : Keeps a s) : Keeps a (s.startCommand d via) := by
  unfold State.startCommand
  refine .ite (.ignoreOp h) ?_
  split
  · exact .ite (.genPrime h) (.ignoreOp h)
  · exact .genRun h
  · exact .ignoreOp h
  · exact .ignoreOp h
  · exact .ignoreOp h
  · exact .ignoreOp h

theorem Kept.pgStart {d via} (h : Keeps a s) : Kept a (execPgStart d via s) := .next (.genCommand .startCommand h)

theorem Kept.pgReady {d} (h : Keeps a s) : Kept a (execPgReady d s) := by
  unfold execPgReady
  refine .next (.ite ?_ h)
  split
  · exact .genRefuse h
  · refine .ite h (have h1 := .putNat (.withGen h); .ite (.genRun h1) ?_)
    split
    · exact .bump (.withGen h1)
    · exact h1

theorem Keeps.stopCommand {d via} (h : Keeps a s) : Keeps a (s.stopCommand d via) := by
  unfold State.stopCommand
  split
  · exact .ignoreOp h
  · exact .ignoreOp h
  · exact .genHalt h
  · exact .genHalt h
  · exact .genHalt h
  · exact .genHalt h

theorem Kept.pgStop {d via} (h : Keeps a s) : Kept a (execPgStop d via s) := .next (.genCommand .stopCommand h)

theorem Kept.pgJumpRequest {d src} (h : Keeps a s) : Kept a (execPgJumpRequest d src s) := by
  unfold execPgJumpRequest
  refine .next ?_
  split
  · exact .genCommand .genJump h
  · exact .genJump h
  · exact .ite h (.genTrigin h)

theorem Kept.pgPassEnd {d} (h : Keeps a s) : Kept a (execPgPassEnd d s) :=
  .next (.ite (.when (.genSettle h) (fun h1 => .genAsk (.genPass h1))) h)

theorem Kept.pgUnderrun {d} (h : Keeps a s) : Kept a (execPgUnderrun d s) := .next (.ite (.genAsk (.genSettle h)) h)
theorem Kept.pgHoldEnd {d} (h : Keeps a s) : Kept a (execPgHoldEnd d s) := .next (.ite (.genRest h) h)

theorem Kept.pgKnotStart {d} (h : Keeps a s) : Kept a (execPgKnotStart d s) := by
  unfold execPgKnotStart
  refine .next (.ite ?_ h)
  split
  · exact .genEnter h
  · exact h

theorem Kept.syncinPulse {p} (h : Keeps a s) : Kept a (execSyncinPulse p s) :=
  .next (.unless (.ite (.emit h) h) (fun h1 => .genSync (.genSync h1)))

theorem Kept.pgSyncStart {d} (h : Keeps a s) : Kept a (execPgSyncStart d s) := by
  unfold execPgSyncStart
  refine .next ?_
  split
  · exact .ite h (.ite (.genRun h) (.ite (.genEnter h) h))
  · exact h

theorem Kept.pgTimeStart {d} (h : Keeps a s) : Kept a (execPgTimeStart d s) := by
  unfold execPgTimeStart
  refine .next ?_
  split
  · exact .ite (.genRun h) h
  · exact h

theorem Kept.syncoutOriginate {via} (h : Keeps a s) : Kept a (execSyncoutOriginate via s) :=
  .next (.onPath (fun h1 => .ite (.emit h1) (.ignoreOp h1)) h)

theorem Kept.pgSyncCalibration {d via} (h : Keeps a s) : Kept a (execPgSyncCalibration d via s) :=
  .next (.onPath (fun h1 => .ite h1 (.ite (.needSpll (.putNat (.withGen h1))) (.ignoreOp h1))) h)

theorem Keeps.endSyncCal {d status} (h : Keeps a s) : Keeps a (s.endSyncCal d status) := .restSpll (.putNat (.withGen h))

theorem Keeps.storeSyncCal {d mean} (h : Keeps a s) : Keeps a (s.storeSyncCal d mean) :=
  .endSyncCal (.putNat (.putNat (.putNat (.withGen (.drawn (.drawn h))))))

theorem Kept.syncCalibrationEnd {d r} (h : Keeps a s) : Kept a (execSyncCalibrationEnd d r s) :=
  .next (.ite (.ite (.storeSyncCal h) (.ite (.endSyncCal h) h)) h)

theorem Kept.loopCacheLoad {d via} (h : Keeps a s) : Kept a (execLoopCacheLoad d via s) :=
  .next (.onPath (fun h1 => .ite h1 (.ite (.ignoreOp h1) (.ite (.withGen h1) (.dsAsk (.withGen (.ite h1 (.clampOp h1))))))) h)

theorem Kept.loopCacheLoadDone {d} (h : Keeps a s) : Kept a (execLoopCacheLoadDone d s) := by
  unfold execLoopCacheLoadDone
  refine .next (.ite h ?_)
  split
  · exact .genAsk (.withGen (.dsGroups (.dsServed (.update h))))
  · exact h

/-! ### Commands of knots -/

theorem Keeps.takeQueued {kn} (h : Keeps a s) (e : s.takeQueued = some (kn, t)) : Keeps a t := by
  unfold State.takeQueued at e
  split at e
  · cases e
    exact .withDie h
  · cases e
    exact .withDie h
  · cases e
    exact .update h
  · cases e

theorem Kept.knotSend (h : Keeps a s) : Kept a (execKnotSend s) := by
  unfold execKnotSend
  refine .ite (.next h) ?_
  split
  next e => exact .next (.sendKnot (.takeQueued h e))
  next => exact .next h

theorem Keeps.sendHostKnot {cls} (h : Keeps a s) : Keeps a (s.sendHostKnot cls) := .ite (.update h) (.sendKnot h)

theorem Kept.hostKnotSend {cls via} (h : Keeps a s) : Kept a (execHostKnotSend cls via s) :=
  .next (.onPath (fun h1 => .sendHostKnot (.ite h1 (.clampOp h1))) h)

theorem Keeps.countArrival {x} (h : Keeps a s) : Keeps a (s.countArrival x) := by
  unfold State.countArrival
  split
  · exact h
  · exact .countFrame h
  · exact h

theorem Keeps.strayKnot {x} (h : Keeps a s) : Keeps a (s.strayKnot x) := by
  unfold State.strayKnot
  split
  · exact h
  · exact .ite (.dropFrame (.countFrame h)) h
  · exact h

theorem Kept.knotReceive {route bytes} (h : Keeps a s) : Kept a (execKnotReceive route bytes s) := by
  unfold execKnotReceive
  refine .next (.ite h ?_)
  split
  · exact .ite (.discardFrame h) h
  · exact .ite (.takeKnot (.countArrival h)) (.strayKnot h)

theorem Keeps.knotToDie {d kn} (h : Keeps a s) : Keeps a (s.knotToDie d kn).1 := .ite_fst (.runDie h) h
theorem Keeps.knotToWatch {d kn} (h : Keeps a s) : Keeps a (s.knotToWatch d kn).1 := .ite_fst (.withDie h) h
theorem Keeps.knotPme {kn} (h : Keeps a s) : Keeps a (s.knotPme kn).1 := .ite_fst (.emit (.update h)) h

theorem Keeps.applyUses {us : List (State → State × Bool)} (hus : ∀ u ∈ us, ∀ {t}, Keeps a t → Keeps a (u t).1) (h : Keeps a s) :
    Keeps a (applyUses s us).1 := by
  unfold Machine.applyUses
  generalize false = b
  induction us generalizing s b with
  | nil => exact h
  | cons u us ih => exact ih (fun v hv => hus v (List.mem_cons_of_mem u hv)) (hus u List.mem_cons_self h) _

theorem Keeps.dieKnot {kn} (h : Keeps a s) : Keeps a (s.dieKnot kn).1 := by
  refine .applyUses ?_ h
  simp only [List.forall_mem_cons, List.not_mem_nil, false_imp_iff, implies_true, and_true]
  exact ⟨.knotToDie, .knotToDie, .knotToWatch, .knotToWatch, .genKnot, .genKnot⟩

theorem Keeps.countUse {q} (h : Keeps a q.1) : Keeps a (State.countUse q) := .ite h (.bump h)

theorem Keeps.useKnot {kn} (h : Keeps a s) : Keeps a (s.useKnot kn) := by
  refine .countUse (.applyUses ?_ h)
  simp only [List.forall_mem_cons, List.not_mem_nil, false_imp_iff, implies_true, and_true]
  exact ⟨.dieKnot, .knotPme⟩

theorem Keeps.holdKnot {x} (h : Keeps a s) : Keeps a (s.holdKnot x) := .ite (.update (.knotPme h)) (.countUse (.knotPme h))

theorem Kept.knotDeliver (h : Keeps a s) : Kept a (execKnotDeliver s) := by
  unfold execKnotDeliver
  refine .ite (.next h) ?_
  split
  · exact .next h
  · exact .next (.ite (.holdKnot (.update h)) (.useKnot (.update h)))

theorem Kept.duplicateEntryExpiry {node seq} (h : Keeps a s) : Kept a (execDuplicateEntryExpiry node seq s) := .next (.update h)

/-! ### Freeze and thaw -/

theorem Keeps.endPulse {p} (h : Keeps a s) : Keeps a (s.endPulse p) := .when (.foldl .startPulse (.update h)) (fun h1 => .emit (.update h1))

theorem Keeps.beginFreeze {full byReg} (h : Keeps a s) : Keeps a (s.beginFreeze full byReg) :=
  .bb (.update (.when (.when (.genSettle (.genSettle (.endPulse (.endPulse (.put (.bump h)))))) .linkLost) .update))

theorem Keeps.ignoreFreeze (h : Keeps a s) : Keeps a s.ignoreFreeze := .bump h

theorem Keeps.requestFreeze {full byReg} (h : Keeps a s) : Keeps a (s.requestFreeze full byReg) := by
  unfold State.requestFreeze
  refine .ite (.ignoreFreeze h) ?_
  split
  · exact .beginFreeze h
  · exact .ite (.beginFreeze h) (.ignoreFreeze h)

theorem Keeps.thawDie {took d} (h : Keeps a s) : Keeps a (s.thawDie took d) := .when (.withGen (.markDieGauges h)) .runDie

theorem Keeps.thaw (h : Keeps a s) : Keeps a s.thaw := by
  unfold State.thaw
  split
  · exact h
  · exact .foldl (fun h1 => .countUse (.dieKnot h1)) (.foldl .thawDie (.bb (.setEvBit (.putNat (.update h)))))

theorem Keeps.requestThaw (h : Keeps a s) : Keeps a s.requestThaw := by
  unfold State.requestThaw
  refine .ite (.ignoreFreeze h) ?_
  split
  · exact .ite (.thaw h) h
  · exact h

theorem Keeps.writeFreeze {v} (h : Keeps a s) : Keeps a (s.writeFreeze v) := .when (.when (.update h) .requestFreeze) .requestThaw

/-! ### Commands of the front end -/

theorem Keeps.checkDelay {ch via} (h : Keeps a s) : Keeps a (s.checkDelay ch via) := .ite h (.clampOp h)

theorem Keeps.checkDelays {idx sub via} (h : Keeps a s) : Keeps a (s.checkDelays idx sub via) :=
  .ite (.checkDelay h) (.ite (.foldl .checkDelay h) h)

theorem Keeps.beginCal {d} (h : Keeps a s) : Keeps a (s.beginCal d) := .needSpll (.markDieGauges (.withDie (.ite (.startTask h) h)))
theorem Keeps.markFine {d c wide} (h : Keeps a s) : Keeps a (s.markFine d c wide) := .when (.withDie (.putNat h)) .bb
theorem Keeps.storeCal {d} (h : Keeps a s) : Keeps a (s.storeCal d) := .withDie (.update (.putNat (.putInt (.put h))))

theorem Kept.calibrationComplete {d wide} (h : Keeps a s) : Kept a (execCalibrationComplete d wide s) :=
  .next (.ite (.restSpll (.when (.foldl .markFine (.storeCal h)) .bump)) h)

theorem Kept.fullCalibrationCommand {mask via} (h : Keeps a s) : Kept a (execFullCalibrationCommand mask via s) :=
  .next (.onPath (fun h1 => .foldl (fun h2 => .ite h2 (.ite (.ignoreOp h2) (.ite (.beginCal h2) (.ignoreOp h2)))) (.ite (.clampOp h1) h1))
    h)

theorem Keeps.beginCheck {d drift deskew} (h : Keeps a s) : Keeps a (s.beginCheck d drift deskew) :=
  .needSpll (.markDieGauges (.withDie (.startTask h)))

theorem Kept.driftCheck {d moved} (h : Keeps a s) : Kept a (execDriftCheck d moved s) := .next (.ite (.ite (.beginCheck h) (.makeDue h)) h)

theorem Kept.deskewRecalibration {d} (h : Keeps a s) : Kept a (execDeskewRecalibration d s) :=
  .next (.ite (.ite (.beginCheck h) (.makeDue h)) h)

theorem Kept.calibrationAgeDue {d} (h : Keeps a s) : Kept a (execCalibrationAgeDue d s) :=
  .next (.ite (.when (.makeDue (.withDie h)) .beginCal) h)

theorem Keeps.revalidate {is} (h : Keeps a s) : Keeps a (s.revalidate is) := .foldl .beginReval h

theorem Keeps.runDieTask {d moved} (h : Keeps a s) : Keeps a (s.runDieTask d moved) :=
  .ite (.beginCal h) (.revalidate (.ite (.beginCheck h) (.startTask h)))

theorem Kept.maintenanceTaskRun {x} (h : Keeps a s) : Kept a (execMaintenanceTaskRun x s) := by
  unfold execMaintenanceTaskRun
  refine .next (.ite h ?_)
  split
  · exact .ite (.runDieTask h) h
  · exact .ite (.runDieTask h) h
  · refine .ite ?_ h
    split
    · exact .beginTraining h
    · exact .startTask h
  · exact .ite (.applySpeed h) h
  · exact .ite (.revalidate (.startTask h)) h

theorem Kept.eyeFinderStart {via} (h : Keeps a s) : Kept a (execEyeFinderStart via s) :=
  .next (.onPath (fun h1 => .ite (.ignoreOp h1) (.ite (.ignoreOp h1) (.when (.needSpll (.markDieGauges (.putNat (.withDie h1))))
    .beginCal))) h)

theorem Keeps.eyeResult {e d results c} (h : Keeps a s) : Keeps a (s.eyeResult e d results c) := by
  unfold State.eyeResult
  split
  · exact .putInt (.putInt (.putInt h))
  · exact .putInt (.putInt (.putInt (.drawn (.drawn h))))

theorem Keeps.eyeApply {e d r} (h : Keeps a s) : Keeps a (s.eyeApply e d r) := .unless (.checkDelay (.writeField h)) .putInt

theorem Kept.eyeFinderDone {results} (h : Keeps a s) : Kept a (execEyeFinderDone results s) := by
  unfold execEyeFinderDone
  refine .next ?_
  split
  · exact .ite h (.endEye (.when (.foldl .eyeResult h) (.foldl .eyeApply)))
  · exact h

theorem Kept.eyeFinderNoClock (h : Keeps a s) : Kept a (execEyeFinderNoClock s) := .next (.ite (.endEye h) h)
theorem Keeps.writeYdir {d k v} (h : Keeps a s) : Keeps a (s.writeYdir d k v) := .ite (.showIdle (.update h)) (.ignoreOp h)
theorem Keeps.writeYdrv {d k v} (h : Keeps a s) : Keeps a (s.writeYdrv d k v) := .ite (.update h) (.ignoreOp h)

theorem Kept.writeYarnDirection {d k v g} (h : Keeps a s) : Kept a (execWriteYarnDirection d k v g s) :=
  .next (.ite (.guardForm .writeYdir h) (.onBar0 (fun h1 => h1) h))

theorem Kept.writeYarnDrive {d k v g} (h : Keeps a s) : Kept a (execWriteYarnDrive d k v g s) :=
  .next (.ite (.guardForm .writeYdrv h) (.onBar0 (fun h1 => h1) h))

/-! ### Power states and resets -/

theorem Keeps.refusePower {via c} (h : Keeps a s) : Keeps a (s.refusePower via c) := .ignoreOp (.setEvBit (.bump h))
theorem Keeps.holdPlan {x} (h : Keeps a s) : Keeps a (s.holdPlan x) := .withDie h

theorem Keeps.watchPlans (h : Keeps a s) : Keeps a s.watchPlans.1 := by
  unfold State.watchPlans
  refine .foldl_fst (fun {q ds} hq => .ite_fst ?_ hq) h
  have hp := Keeps.admitPlans (ds := ds) hq
  split
  next e =>
    rw [e] at hp
    exact .foldl .holdPlan hp
  next e =>
    rw [e] at hp
    exact hp

theorem Keeps.startMove {x wake took next} (h : Keeps a s) : Keeps a (s.startMove x wake took next) := .update h
theorem Keeps.clearPlans (h : Keeps a s) : Keeps a s.clearPlans := .update h

theorem Keeps.leaveOn {x via} (h : Keeps a s) : Keeps a (s.leaveOn x via) := by
  have start := Keeps.breakCheck (d := 1) (Keeps.breakCheck (d := 0) (.abortTraining h))
  have held := Keeps.watchPlans (.clearPlans start)
  unfold State.leaveOn
  refine .ite ?_ (.startMove start)
  split
  next e =>
    rw [e] at held
    exact .startMove held
  next e =>
    rw [e] at held
    exact .refusePower held

theorem Keeps.startClocks (h : Keeps a s) : Keeps a s.startClocks := .foldl .startPll (.startPll h)
theorem Keeps.returnOn {wake next} (h : Keeps a s) : Keeps a (s.returnOn wake next) := .startMove (.startClocks h)

theorem Keeps.beginRequest {x via} (h : Keeps a s) : Keeps a (s.beginRequest x via) :=
  .ite h (.ite (.ite (.refusePower h) (.ite (.refusePower h) (.ite (.refusePower h) (.leaveOn h)))) (.ite (.returnOn h) (.returnOn h)))

theorem Keeps.requestPower {x via} (h : Keeps a s) : Keeps a (s.requestPower x via) := by
  unfold State.requestPower
  refine .ite (.refusePower (.putNat h)) ?_
  split
  · exact .update (.putNat h)
  · exact .beginRequest (.putNat h)

theorem Keeps.loseSealed {d} (h : Keeps a s) : Keeps a (s.loseSealed d) := .ite (.when (.foldl .releaseDie h) .bb) h
theorem Keeps.restDeep (h : Keeps a s) : Keeps a s.restDeep := .update h

theorem Keeps.dropPorts (h : Keeps a s) : Keeps a s.dropPorts :=
  .foldl (fun h1 => .ite h1 (.alpDown h1)) (.foldl (fun h1 => .ite h1 (.ethDown h1)) h)

theorem Keeps.restClocks {x} (h : Keeps a s) : Keeps a (s.restClocks x) := have h1 := .foldl .stopPll h; .ite (.startPll h1) (.stopPll h1)
theorem Keeps.enterWatch {d} (h : Keeps a s) : Keeps a (s.enterWatch d) := .withDie (.putNat (.layout h))
theorem Keeps.loseBasins (h : Keeps a s) : Keeps a s.loseBasins := .update h

theorem Keeps.enterLow {x} (h : Keeps a s) : Keeps a (s.enterLow x) := by
  unfold State.enterLow
  dsimp only
  have h1 := Keeps.restClocks (x := x) (.restDeep (.abortGauges (.thaw h)))
  split
  · exact .loseBasins (.loseSealed (.loseSealed (.dropPorts (.update h1))))
  · exact .foldl .enterWatch (.dropPorts (.update h1))
  · exact .dropPorts (.update h1)
  · exact .dropPorts (.update h1)
  · exact .dropPorts (.update h1)

theorem Keeps.arriveOn {wake} (h : Keeps a s) : Keeps a (s.arriveOn wake) := .update h
theorem Keeps.wiped {keepBasin} (h : Keeps a s) : Keeps a (s.wiped keepBasin) := .update h
theorem Keeps.saveTime (h : Keeps a s) : Keeps a s.saveTime := .ite (.update h) h

theorem Keeps.endWork (h : Keeps a s) : Keeps a s.endWork :=
  .send (.abortGauges (.genAbort (.genAbort (.abortTest h)))) (State.out_prefix_outAfterReset _)

theorem Keeps.dropLinks (h : Keeps a s) : Keeps a s.dropLinks := .resetFunction (.update h)
theorem Keeps.goOff {pfw} (h : Keeps a s) : Keeps a (s.goOff pfw) := .update (.wiped (.dropLinks (.endWork (.saveTime h))))
theorem Keeps.powerFail {rails} (h : Keeps a s) : Keeps a (s.powerFail rails) := .goOff (.bb (.setEvBit (.bump h)))
theorem Keeps.latch {x} (h : Keeps a s) : Keeps a (s.latch x) := .update h
theorem Keeps.noteReset {code} (h : Keeps a s) : Keeps a (s.noteReset code) := .bump (.put (.putNat (.update h)))

theorem Keeps.loseItem {i} (h : Keeps a s) : Keeps a (s.loseItem i) := by
  unfold State.loseItem
  split <;> exact .update (.update h)

theorem Keeps.readHistory {x} (h : Keeps a s) : Keeps a (s.readHistory x) := .putNat (.unless (.bumpBy (.foldl .loseItem h)) .bb)
theorem Keeps.beginStart {x y dimms} (h : Keeps a s) : Keeps a (s.beginStart x y dimms) := .update (.readHistory (.latch h))
theorem Keeps.restartTime (h : Keeps a s) : Keeps a s.restartTime := .update h

theorem Keeps.leaveOff {x y} (h : Keeps a s) : Keeps a (s.leaveOff x y) :=
  .ite (.update h) (.beginStart (.noteReset (.restartTime (.update h))))

theorem Keeps.leaveBacklog {d} (h : Keeps a s) : Keeps a (s.leaveBacklog d) := .ite (.withDie h) h

theorem Keeps.abortConvoy {d} (h : Keeps a s) : Keeps a (s.abortConvoy d) :=
  .ite (.sealConvoy (.foldl .markFault (.foldl .leaveBacklog (.foldl .reserveEvents (.sluiceAll (.foldl .sluiceBegin (.foldl .closeDie
    (.endDie h)))))))) h

theorem Keeps.enterReset {kind} (h : Keeps a s) : Keeps a (s.enterReset kind) :=
  .update (.wiped (.bb (.noteReset (.abortConvoy (.abortConvoy (.endWork (.dropLinks (.update h))))))))

theorem Keeps.passUntil {x} (h : Keeps a s) : Keeps a (s.passUntil x) := .ite h (.applyStep (.addTime (.advance h (Nat.le_add_right ..))))

/-! ### Start-up -/

theorem Keeps.loadPatch {p} (h : Keeps a s) : Keeps a (s.loadPatch p) := by
  unfold State.loadPatch
  split
  · exact .putNat (.putNat h)
  · exact .putNat (.putNat h)
  · exact .bb (.putNat (.putNat h))

theorem Keeps.testHub {f} (h : Keeps a s) : Keeps a (s.testHub f) := by
  unfold State.testHub
  split
  · exact .update h
  · exact .repairRow (.update h)

theorem Keeps.bringUp {i n} (h : Keeps a s) : Keeps a (s.bringUp i n).1 :=
  .ite_fst (.startPll h) (.bandFound (.drawn (.drawn (.startPll h))))

theorem Keeps.startPlls (h : Keeps a s) : Keeps a s.startPlls.1 := .withPll (.foldl .stopPll (.stopPll (.stopPll (.foldl_fst .bringUp h))))
theorem Keeps.refuseDimm {c property} (h : Keeps a s) : Keeps a (s.refuseDimm c property) := .bb (.withChan h)

theorem Keeps.readSpd {ds org spare c} (h : Keeps a s) : Keeps a (s.readSpd ds org spare c) := by
  unfold State.readSpd
  split
  · exact .withChan h
  · split
    · exact .refuseDimm h
    · exact .ite (.update (.withChan h)) (.refuseDimm h)

theorem Keeps.markRetired (h : Keeps a s) : Keeps a s.markRetired := .foldl .withChan (.update h)
theorem Keeps.clearRetired (h : Keeps a s) : Keeps a s.clearRetired := .ite (.update h) h
theorem Keeps.buildMap {ds} (h : Keeps a s) : Keeps a (s.buildMap ds) := .foldl .readSpd (.update h)
theorem Keeps.startMap {ds} (h : Keeps a s) : Keeps a (s.startMap ds) := .update (.markRetired (.unless (.clearRetired h) .buildMap))
theorem Keeps.loseChannel {c} (h : Keeps a s) : Keeps a (s.loseChannel c) := .update h
theorem Keeps.checkFailed {property c} (h : Keeps a s) : Keeps a (s.checkFailed property c) := .bb (.damage (.loseChannel h))
theorem Keeps.startTraining {r} (h : Keeps a s) : Keeps a (s.startTraining r) := .update (.foldl .trained (.ite (.foldl .checkFailed h) h))

theorem Keeps.testBasin {faults d} (h : Keeps a s) : Keeps a (s.testBasin faults d) :=
  .keepMaps (.foldl (fun h1 => .ite (.repairRow h1) h1) (.update h))

theorem Keeps.testBasins {faults} (h : Keeps a s) : Keeps a (s.testBasins faults) := .ite (.update h) (.foldl .testBasin h)
theorem Keeps.loadCal {d} (h : Keeps a s) : Keeps a (s.loadCal d) := .putNat (.withDie h)
theorem Keeps.firstPower (h : Keeps a s) : Keeps a s.firstPower := .ite (.bb h) h
theorem Keeps.becomeReady {wake} (h : Keeps a s) : Keeps a (s.becomeReady wake) := .update h

theorem Keeps.startUp {r} (h : Keeps a s) : Keeps a (s.startUp r) :=
  .setEvBit (.becomeReady (.firstPower (.putNat (.putNat (.foldl .loadCal (.startTraining (.testBasins (.startPlls (.startMap (.when
    (.testHub (.loadPatch h)) .loadInc))))))))))

/-! ### Commands of power and reset -/

theorem Keeps.askPower {x via} (h : Keeps a s) : Keeps a (s.askPower x via) := .byPath .requestPower h
theorem Kept.requestOn {via} (h : Keeps a s) : Kept a (execRequestOn via s) := .next (.askPower h)
theorem Kept.requestStandby {via} (h : Keeps a s) : Kept a (execRequestStandby via s) := .next (.askPower h)
theorem Kept.requestRetain {via} (h : Keeps a s) : Kept a (execRequestRetain via s) := .next (.askPower h)
theorem Kept.requestWatch {via} (h : Keeps a s) : Kept a (execRequestWatch via s) := .next (.askPower h)
theorem Kept.requestOff {via} (h : Keeps a s) : Kept a (execRequestOff via s) := .next (.askPower h)

theorem Keeps.endMove {m} (h : Keeps a s) : Keeps a (s.endMove m) := by
  unfold State.endMove
  dsimp only
  split
  · exact .arriveOn (.setEvBit (.bump h))
  · exact .goOff (.loseSealed (.loseSealed (.setEvBit (.bump h))))
  · exact .enterLow (.setEvBit (.bump h))
  · exact .enterLow (.setEvBit (.bump h))
  · exact .enterLow (.setEvBit (.bump h))

theorem Kept.powerTransitionDone (h : Keeps a s) : Kept a (execPowerTransitionDone s) := by
  unfold execPowerTransitionDone
  refine .next ?_
  split
  · exact h
  · refine .ite ?_ h
    split
    · exact .beginRequest (.endMove h)
    · exact .endMove h

theorem Kept.domainIdleOff {n} (h : Keeps a s) : Kept a (execDomainIdleOff n s) := by
  unfold execDomainIdleOff
  refine .next (.ite ?_ h)
  split
  · exact .ite (.update h) h
  · exact h

theorem Kept.powerFailWarning {rails} (h : Keeps a s) : Kept a (execPowerFailWarning rails s) := .next (.ite h (.powerFail h))
theorem Keeps.lost (h : Keeps a s) : Keeps a s.lost := .send h s.out_prefix_outAfterReset
theorem Kept.powerOnReset (h : Keeps a s) : Kept a (execPowerOnReset s) := .next (.lost (.saveTime h))

theorem Kept.powerOnResetRelease {straps x} (h : Keeps a s) : Kept a (execPowerOnResetRelease straps x s) :=
  .next (.ite (.when (.beginStart (.noteReset (.update h))) .update) h)

theorem Keeps.pinFalls {p} (h : Keeps a s) : Keeps a (s.pinFalls p) := by
  unfold State.pinFalls
  split <;> exact .update h

theorem Kept.fundamentalResetAssert {pin} (h : Keeps a s) : Kept a (execFundamentalResetAssert pin s) := by
  unfold execFundamentalResetAssert
  refine .next ?_
  split
  · exact .pinFalls h
  · exact .pinFalls h
  · exact .enterReset (.pinFalls h)
  · exact .ite (.update (.pinFalls h)) (.enterReset (.pinFalls h))

theorem Keeps.dropScan (h : Keeps a s) : Keeps a s.dropScan := .ite (.update h) h

theorem Kept.fundamentalResetRelease {straps x} (h : Keeps a s) : Kept a (execFundamentalResetRelease straps x s) :=
  .next (.ite (.ite (.leaveOff (.dropScan h)) (.beginStart (.passUntil (.dropScan h)))) (.update h))

theorem Kept.startupComplete {r} (h : Keeps a s) : Kept a (execStartupComplete r s) := .next (.ite (.startUp h) h)

theorem Kept.mainRailsReturn {straps x} (h : Keeps a s) : Kept a (execMainRailsReturn straps x s) :=
  .next (.ite (.ite (.update h) (.leaveOff h)) h)

theorem Kept.offWakeEdge {rising} (h : Keeps a s) : Kept a (execOffWakeEdge rising s) := .next (.ite (.update h) h)
theorem Keeps.restartArming {d} (h : Keeps a s) : Keeps a (s.restartArming d) := .ite (.endArming h) h
theorem Keeps.dropCal {d} (h : Keeps a s) : Keeps a (s.dropCal d) := .when (.breakCheck h) (fun h1 => .restSpll (.makeDue (.withDie h1)))

theorem Keeps.dropWork (h : Keeps a s) : Keeps a s.dropWork := by
  unfold State.dropWork
  exact .when (.dropCal (.dropCal (.abortTraining (.abortTest (.restartArming (.restartArming h)))))) .endEye

theorem Keeps.restartHkc {cause} (h : Keeps a s) : Keeps a (s.restartHkc cause) :=
  .when (.dropWork (.bb (.setEvBit (.update h)))) .enterHoldover

theorem Kept.hkcWatchdogExpiry (h : Keeps a s) : Kept a (execHkcWatchdogExpiry s) := .next (.ite (.restartHkc h) h)
theorem Kept.scratchpadUe (h : Keeps a s) : Kept a (execScratchpadUe s) := .next (.ite (.restartHkc h) h)

theorem Kept.hkcRestartComplete (h : Keeps a s) : Kept a (execHkcRestartComplete s) :=
  .next (.ite (.takeStamps (.takeStamps (.restartAnswers (.sendUnsent (.update h))))) h)

/-! ### Commands of health and the black box -/

theorem Keeps.publishTemps (h : Keeps a s) : Keeps a s.publishTemps := .putInt (.when (.putInt (.putInt h)) .putInt)

theorem Keeps.checkWarn (h : Keeps a s) : Keeps a s.checkWarn := by
  unfold State.checkWarn
  split
  · exact .ite (.bb (.setEvBit (.bump (.update h)))) (.ite (.update h) h)
  · exact h

theorem Keeps.thermalSeal {d} (h : Keeps a s) : Keeps a (s.thermalSeal d) := by
  unfold State.thermalSeal
  split
  · exact h
  · exact .ite (.endArming h) (.ite (.bb (.setEvBit (.bump (.foldl .endDie h)))) h)

theorem Keeps.checkSeal (h : Keeps a s) : Keeps a s.checkSeal := .ite h (.thermalSeal (.thermalSeal (.ite (.thaw h) h)))

theorem Keeps.checkHold (h : Keeps a s) : Keeps a s.checkHold := by
  unfold State.checkHold
  refine .ite (.update h) ?_
  split
  · exact .ite (.update h) (.ite (.update h) h)
  · exact h

theorem Keeps.checkTrip (h : Keeps a s) : Keeps a s.checkTrip := by
  unfold State.checkTrip
  split
  · exact .ite (.powerFail (.update (.bb (.bump h)))) h
  · exact h

theorem Keeps.releaseHeld (h : Keeps a s) : Keeps a s.releaseHeld := by
  unfold State.releaseHeld
  split
  · exact .ite (.leaveOff h) h
  · exact h

theorem Kept.sensorRead {readings} (h : Keeps a s) : Kept a (execSensorRead readings s) :=
  .next (.unless (.update h) (fun h1 => .ite (.releaseHeld h1) (.checkTrip (.checkHold (.checkSeal (.checkWarn (.dueBands (.publishTemps
    h1))))))))

theorem Kept.freezePinLow (h : Keeps a s) : Kept a (execFreezePinLow s) := .next (.ite h (.unless (.update h) .requestFreeze))

theorem Kept.freezePinRelease (h : Keeps a s) : Kept a (execFreezePinRelease s) := by
  unfold execFreezePinRelease
  refine .next ?_
  split
  · exact .ite (.thaw (.update h)) (.update h)
  · exact .update h

theorem Kept.freezeRegister {full g} (h : Keeps a s) : Kept a (execFreezeRegister full g s) := .next (.guardForm .writeFreeze h)
theorem Kept.thawRegister {g} (h : Keeps a s) : Kept a (execThawRegister g s) := .next (.guardForm .writeFreeze h)
theorem Keeps.writeBbadm {v} (h : Keeps a s) : Keeps a (s.writeBbadm v) := .when (.update h) .bb
theorem Kept.hostMark {opt g} (h : Keeps a s) : Kept a (execHostMark opt g s) := .next (.guardForm .writeBbadm h)

theorem Kept.optionalCategoriesWrite {opt g} (h : Keeps a s) : Kept a (execOptionalCategoriesWrite opt g s) :=
  .next (.guardForm .writeBbadm h)

theorem Kept.blackBoxCommit (h : Keeps a s) : Kept a (execBlackBoxCommit s) := by
  unfold execBlackBoxCommit
  refine .next ?_
  split
  · exact h
  · exact .ite h (.when (.setEvBit (.bump (.update h))) .setEvBit)

/-! ### Register writes -/

theorem Keeps.regApply {reg v} (h : Keeps a s) : Keeps a (regApply reg v s) := by
  cases reg with
  | ydir => exact .writeYdir h
  | ydrv => exact .writeYdrv h
  | fstepGo => exact .fstepGo h
  | dsSpeed => exact .writeSpeed h
  | dsRas => exact .writeRas h
  | hltFrz => exact .writeFreeze h
  | hltBbadm => exact .writeBbadm h

theorem Keeps.writeCap {d off v} (h : Keeps a s) : Keeps a (s.writeCap d off v) := by
  unfold State.writeCap
  refine .ite h ?_
  split
  · exact .when (.when (.ite (.armCommand h) h) .captureStop) .releaseCommand
  · exact .ite (.forceTrigger h) h
  · exact .when (.when (.when (.ite (.primeCommand h) h) .startCommand) .stopCommand) .genJump
  · exact .clearEv h
  · exact h

theorem Keeps.writeSlotCtl {k v} (h : Keeps a s) : Keeps a (s.writeSlotCtl k v) :=
  .ite (.enableSlot (.withSlot h)) (.withSlot (.withSlot h))

theorem Keeps.writeSlot {k off v} (h : Keeps a s) : Keeps a (s.writeSlot k off v) := by
  unfold State.writeSlot
  split
  · exact .withSlot h
  · exact .commitTarget h
  · exact .writeSlotCtl h
  · exact h

theorem Keeps.writeHctl {v} (h : Keeps a s) : Keeps a (s.writeHctl v) := .ite (.ite (.discSet h) (.discClear h)) (.ownHost .feedWatchdog h)

theorem Keeps.writeTb {off v} (h : Keeps a s) : Keeps a (s.writeTb off v) := by
  unfold State.writeTb
  split
  · exact .writeEpoch h
  · exact .writeIncLo h
  · exact .writeIncHi h
  · exact .writeStepLo h
  · exact .writeStepHi h
  · exact .update h
  · exact .update h
  · exact .clearEv h
  · exact .writeHctl h
  · exact .ite (.writeSlot h) h

theorem Keeps.writeDmaSize {k v} (h : Keeps a s) : Keeps a (s.writeDmaSize k v) :=
  .withDma (.ite (.clampOp h) (.ite (.clampOp h) (.ite (.clampOp h) h)))

theorem Keeps.writeDmaCtl {k v} (h : Keeps a s) : Keeps a (s.writeDmaCtl k v) :=
  .when (.when (.ite (.ite (.dmaRun h) (.dmaStop h)) h) .dmaAbort) .dmaResume

theorem Keeps.stoppedDma {k off f} (hf : ∀ {t}, Keeps a t → Keeps a (f t)) (h : Keeps a s) : Keeps a (s.stoppedDma k off f) :=
  .ite (.ignoreOp h) (hf h)

theorem Keeps.writeDma {k off v} (h : Keeps a s) : Keeps a (s.writeDma k off v) := by
  unfold State.writeDma
  split
  · exact .stoppedDma .withDma h
  · exact .stoppedDma .withDma h
  · exact .stoppedDma .writeDmaSize h
  · exact .writeDmaCtl h
  · exact .dmaProd h
  · exact .clearEv h
  · exact h

theorem Keeps.writeHdma {off v} (h : Keeps a s) : Keeps a (s.writeHdma off v) := .ite (.writeDma h) (.ite (.clearEv h) h)
theorem Keeps.writePowerReq {n via} (h : Keeps a s) : Keeps a (s.writePowerReq n via) := .requestPower (.ite (.clampOp h) h)

theorem Keeps.writeHub {off v} (h : Keeps a s) : Keeps a (s.writeHub off v) := by
  unfold State.writeHub
  split
  · exact .clearEv h
  · exact .update h
  · exact .clearEv h
  · exact .clearEv h
  · exact .clearEv h
  · exact .clearEv h
  · exact .clearEv h
  · exact .writeWindowBase h
  · exact .clearEv h
  · exact .writePowerReq h
  · exact .clearEv h
  · exact .clearEv h
  · exact .update h
  · exact h

theorem Keeps.writeUnlock {v} (h : Keeps a s) : Keeps a (s.writeUnlock v) := .ite (.ite (.update h) (.guardFail (.update h))) (.ignoreOp h)
theorem Keeps.selectGuard {v via} (h : Keeps a s) : Keeps a (s.selectGuard v via) := .ite (.ignoreOp h) (.update (.ite h (.clampOp h)))
theorem Kept.guardUnlock {v} (h : Keeps a s) : Kept a (execGuardUnlock v s) := .next (.onBar0 .writeUnlock h)

theorem Kept.guardLockTimeout (h : Keeps a s) : Kept a (execGuardLockTimeout s) := by
  unfold execGuardLockTimeout
  refine .next ?_
  split
  · exact .ite (.setEvBit (.update h)) h
  · exact h

theorem Kept.guardComplementWrite {reg v} (h : Keeps a s) : Kept a (execGuardComplementWrite reg v s) :=
  .next (.ite (.complementWrite .regApply h) (.onBar0 (fun h1 => h1) h))

theorem Kept.guardModeSelect {v via} (h : Keeps a s) : Kept a (execGuardModeSelect v via s) := .next (.byPath .selectGuard h)

theorem Keeps.plainDword {off v} (h : Keeps a s) : Keeps a (s.plainDword off v) := by
  unfold State.plainDword
  split
  · exact .writeTb h
  · exact .writeCap h
  · exact .writeCap h
  · exact .writeHdma h
  · exact .ite (.writeUnlock h) (.ite (.selectGuard h) (.writeHub h))

theorem Keeps.wholeDword {off v} (h : Keeps a s) : Keeps a (s.wholeDword off v) := by
  unfold State.wholeDword
  split
  · exact .guardedWrite .regApply h
  · exact .complementWrite .regApply h
  · exact .onBar0 .plainDword h

theorem Keeps.regDword {d} (h : Keeps a s) : Keeps a (s.regDword d) := by
  unfold State.regDword
  refine .ite (.ramDword h) ?_
  split
  · exact .partialDword h
  · exact .wholeDword h

theorem Kept.registerWrite {off bytes} (h : Keeps a s) : Kept a (execRegisterWrite off bytes s) :=
  .ite .fault (.next (.ite (.foldl .regDword h) (.emit h)))

theorem Kept.mailboxSubmit {seq} (h : Keeps a s) : Kept a (execMailboxSubmit seq s) := .next (.ite (.ramDword h) (.emit h))

/-! ### Dictionary writes -/

theorem Keeps.after {r} (hr : Kept a r) (h : Keeps a s) : Keeps a (after r s) := by
  cases r with
  | next t => exact hr
  | fault => exact h
  | refused => exact h

theorem Keeps.disturb {lo n} (h : Keeps a s) : Keeps a (s.disturb lo n) := .update h
theorem Keeps.actChannel {idx sub v via} (h : Keeps a s) : Keeps a (s.actChannel idx sub v via) := .disturb (.checkDelays (.put h))
theorem Keeps.actPhase {idx sub v via} (h : Keeps a s) : Keeps a (s.actPhase idx sub v via) := .disturb (.checkDelays (.put h))
theorem Keeps.actVariant {idx sub v via} (h : Keeps a s) : Keeps a (s.actVariant idx sub v via) := .ite (.putNat (.clampOp h)) (.put h)

theorem Keeps.actCapture {idx sub v via} (h : Keeps a s) : Keeps a (s.actCapture idx sub v via) := by
  unfold State.actCapture
  split
  · exact .after (.fullCalibrationCommand h) h
  · exact .actVariant h
  · exact .after (.eyeFinderStart h) h
  · exact .actVariant h
  · exact .actVariant h
  · exact .actVariant h
  · exact .after (.sluiceSealedConvoy h) h
  · exact .after (.sluiceSealedConvoy h) h
  · exact .ite (.actChannel h) (.ite (.actPhase h) (.ite (.loadTrigRam (.put h)) (.put h)))

theorem Keeps.actWatchdog {v} (h : Keeps a s) : Keeps a (s.actWatchdog v) := .when (.put h) .update

theorem Keeps.actSlot {k idx sub v} (h : Keeps a s) : Keeps a (s.actSlot k idx sub v) :=
  .ite (.commitTarget h) (.ite (.ite (.withSlot h) (.enableSlot h)) (.put h))

theorem Keeps.actTime {idx sub v via} (h : Keeps a s) : Keeps a (s.actTime idx sub v via) := by
  unfold State.actTime
  split
  · exact .writeOwner h
  · exact .actWatchdog h
  · exact .selectSource h
  · exact .writeEpoch h
  · exact .ite (.actSlot h) (.put h)

theorem Keeps.actPort {p idx sub v via} (h : Keeps a s) : Keeps a (s.actPort p idx sub v via) :=
  .ite (.ethEnable h) (.ite (.reconfigure h) (.ite (.ptpSettle (.reportGroups (.put h))) (.ptpSettle (.put h))))

theorem Keeps.actGroup6 {v via} (h : Keeps a s) : Keeps a (s.actGroup6 v via) := .ite (.put h) (.put (.clampOp h))

theorem Keeps.actNet {idx sub v via addr} (h : Keeps a s) : Keeps a (s.actNet idx sub v via addr) := by
  unfold State.actNet
  split
  · exact .actPort h
  · exact .actPort h
  · exact .ptpSettle (.put h)
  · exact .bulkStart h
  · exact .setDomain h
  · exact .reportGroup (.reportGroup (.put h))
  · exact .reportGroup (.reportGroup (.actGroup6 h))
  · exact .sendHostKnot h
  · exact .setReference h
  · exact .ite (.alpEnable h) (.put h)

theorem Keeps.genCode {d n via} (h : Keeps a s) : Keeps a (s.genCode d n via) := by
  unfold State.genCode
  split
  · exact .primeCommand h
  · exact .startCommand h
  · exact .stopCommand h
  · exact .genJump h
  · exact .after (.pgSyncCalibration h) h

theorem Keeps.actCacheSize {d idx v} (h : Keeps a s) : Keeps a (s.actCacheSize d idx v) := .when (.layout (.put h)) .withGen
theorem Keeps.actTable {idx v via} (h : Keeps a s) : Keeps a (s.actTable idx v via) := .put (.foldl .clampOp h)

theorem Keeps.actInstrument {idx sub v via} (h : Keeps a s) : Keeps a (s.actInstrument idx sub v via) :=
  .ite (.ite (.after (.gaugeStart h) h) (.after (.gaugeStop h) h)) (.ite (.genCode h) (.ite (.showIdle (.put h)) (.ite (.actTable h) (.ite
    (.after (.syncoutOriginate h) h) (.ite (.actCacheSize h) (.ite (.after (.loopCacheLoad h) h) (.put h)))))))

theorem Keeps.writeKey {n key} (h : Keeps a s) : Keeps a (s.writeKey n key) := .update h
theorem Keeps.actSubsystem {sub v} (h : Keeps a s) : Keeps a (s.actSubsystem sub v) := .update h
theorem Keeps.actKeepUp {sub v} (h : Keeps a s) : Keeps a (s.actKeepUp sub v) := .unless (.put h) .dropPorts
theorem Keeps.actTempLimit {sub v} (h : Keeps a s) : Keeps a (s.actTempLimit sub v) := .ite h (.put h)

theorem Keeps.actHub {idx sub v via} (h : Keeps a s) : Keeps a (s.actHub idx sub v via) := by
  unfold State.actHub
  split
  · exact .commandTest h
  · exact .driveRefout (.put h)
  · exact .after (.spreadChange h) h
  · exact .after (.bandRevalidate h) h
  · exact .actSubsystem h
  · exact .writePowerReq h
  · exact .actKeepUp h
  · exact .actTempLimit h
  · exact .actTempLimit h
  · exact .update h
  · exact .put h

theorem Keeps.actService {idx sub v via} (h : Keeps a s) : Keeps a (s.actService idx sub v via) :=
  .ite (.selectGuard h) (.ite (.writeKey h) (.put h))

theorem Keeps.act {idx sub v via addr} (h : Keeps a s) : Keeps a (s.act idx sub v via addr) :=
  .ite (.actService h) (.ite (.actCapture h) (.ite (.actTime h) (.ite (.actNet h) (.ite (.actInstrument h) (.actHub h)))))

/-! ### Commands of the dictionary -/

theorem Keeps.dictGuardFail {i cause via} (h : Keeps a s) : Keeps a (s.dictGuardFail i cause via) := .bb (.bump h)
theorem Keeps.applyWrite {req r i v} (h : Keeps a s) : Keeps a (s.applyWrite req r i v).1 := .act (.ite_fst h (.clampField h))

theorem Keeps.writeForm {req r i value} (h : Keeps a s) : Keeps a (s.writeForm req r i value).1 :=
  .ite_fst (.ignoreOp h) (.ite_fst (.ignoreOp h) (.applyWrite h))

theorem Keeps.writeGuarded {req r i} (h : Keeps a s) : Keeps a (s.writeGuarded req r i).1 :=
  .ite_fst (.ite_fst h (.ite_fst (.writeForm h) (.dictGuardFail h))) (.dictGuardFail h)

theorem Keeps.writeItem {req i} (h : Keeps a s) : Keeps a (s.writeItem req i).1 := by
  unfold State.writeItem
  split
  · exact h
  · exact .ite_fst h (.ite_fst (.bump h) (.ite_fst h (.ite_fst (.writeGuarded h) (.ite_fst (.writeForm h) h))))

theorem Keeps.writeItems {req l} (h : Keeps a s) : Keeps a (State.writeItems req l s).1 := by
  induction l generalizing s with
  | nil => exact h
  | cons i l ih => exact ih (.writeItem h)

theorem Keeps.served (h : Keeps a s) : Keeps a s.served := .update h
theorem Keeps.complete {r items} (h : Keeps a s) : Keeps a (s.complete r items) := .takeNext (.sendBack (.bump h))

theorem Kept.odpRead (h : Keeps a s) : Kept a (execOdpRead s) := by
  unfold execOdpRead
  refine .next ?_
  split
  · exact .complete (.served h)
  · exact h

theorem Keeps.serveWrite {r items} (h : Keeps a s) : Keeps a (s.serveWrite r items) := .complete (.writeItems (.served h))

theorem Kept.odpWrite (h : Keeps a s) : Kept a (execOdpWrite s) := by
  unfold execOdpWrite
  refine .next ?_
  split
  · exact .serveWrite h
  · exact h

theorem Kept.odpReadBlock (h : Keeps a s) : Kept a (execOdpReadBlock s) := by
  unfold execOdpReadBlock
  refine .next ?_
  split
  · exact .complete (.served h)
  · exact h

theorem Kept.odpWriteBlock (h : Keeps a s) : Kept a (execOdpWriteBlock s) := by
  unfold execOdpWriteBlock
  refine .next ?_
  split
  · exact .serveWrite h
  · exact h

theorem Keeps.withSubs {l} (h : Keeps a s) : Keeps a (s.withSubs l) := .update h
theorem Keeps.subscribe {r i} (h : Keeps a s) : Keeps a (s.subscribe r i).1 := .ite_fst (.withSubs h) (.ite_fst h (.withSubs h))

theorem Keeps.subscribeItem {r i} (h : Keeps a s) : Keeps a (s.subscribeItem r i).1 := by
  unfold State.subscribeItem
  split
  · exact h
  · exact .ite_fst h (.ite_fst h (.subscribe h))

theorem Kept.odpSubscribe (h : Keeps a s) : Kept a (execOdpSubscribe s) := by
  unfold execOdpSubscribe
  refine .next ?_
  split
  · exact .complete (.subscribeItem (.served h))
  · exact h

theorem Keeps.notifyEth {p x payload} (h : Keeps a s) : Keeps a (s.notifyEth p x payload) := .ite h (.ite (.bump h) (.bump (.sendUdp h)))

theorem Keeps.sendNotify {x n y i} (h : Keeps a s) : Keeps a (s.sendNotify x n y i) := by
  unfold State.sendNotify
  split
  · exact .mbNotify h
  · exact .notifyEth h
  · exact .notifyEth h
  · exact .ite (.bump (.sendTunnel h)) h
  · exact h
  · exact h

theorem Keeps.notify {i x} (h : Keeps a s) : Keeps a (s.notify i x) := .bumpBy (.sendNotify (.withSubs h))

theorem Kept.notify {i} (h : Keeps a s) : Kept a (execNotify i s) := by
  unfold execNotify
  refine .next ?_
  split
  · exact .ite (.notify h) h
  · exact h

theorem Kept.subscriptionLapse {i} (h : Keeps a s) : Kept a (execSubscriptionLapse i s) := by
  unfold execSubscriptionLapse
  refine .next ?_
  split
  · exact .ite (.withSubs h) h
  · exact h

theorem Kept.keyWrite {n key via} (h : Keeps a s) : Kept a (execKeyWrite n key via s) := .next (.ite (.writeKey (.ite h (.clampOp h))) h)
theorem Keeps.authFail {p addr sub} (h : Keeps a s) : Keeps a (s.authFail p addr sub) := .unless (.bump h) (fun h1 => .bb (.update h1))

theorem Keeps.queueOdp {p addr port key f} (h : Keeps a s) : Keeps a (s.queueOdp p addr port key f) := by
  unfold State.queueOdp
  dsimp only
  split
  · exact .bump (.sendUdp h)
  · exact .ite (.bump h) (.takeNext (.update h))

theorem Keeps.odpFrame {p addr port f} (h : Keeps a s) : Keeps a (s.odpFrame p addr port f) := by
  unfold State.odpFrame
  refine .ite (.bump h) (.ite h (.ite (.ite (.authFail h) ?_) (.queueOdp h)))
  split
  · exact .authFail h
  · split
    · exact .authFail h
    · exact .queueOdp (.update h)

theorem Keeps.odpArrive {p addr port fragment f} (h : Keeps a s) : Keeps a (s.odpArrive p addr port fragment f) :=
  .ite (.dropFrame h) (.ite (.bump h) (.ite h (.odpFrame h)))

theorem Kept.odpDatagramReceive {p dg} (h : Keeps a s) : Kept a (execOdpDatagramReceive p dg s) :=
  .next (.ite (.ite (.odpArrive (.countFrame h)) (.dropFrame (.countFrame h))) h)

theorem Keeps.hearPtp {p m} (h : Keeps a s) : Keeps a (s.hearPtp p m) := by
  unfold State.hearPtp
  split
  · exact .hearSync h
  · exact .hearFollowUp h
  · exact .hearAnnounce h
  · exact .hearDelayReq h
  · exact .hearDelayResp h
  · exact .hearPdelayReq h
  · exact .hearPdelayResp h
  · exact .hearManagement h
  · exact h

theorem Keeps.hearUdp {p v6 addr src dst fragment payload} (h : Keeps a s) : Keeps a (s.hearUdp p v6 addr src dst fragment payload) :=
  .ite (.odpArrive h) (.ite (.takeKnot h) (.dropFrame h))

theorem Keeps.hearBody {p b} (h : Keeps a s) : Keeps a (s.hearBody p b) := by
  unfold State.hearBody
  split
  · exact .ite (.emit h) (.dropFrame h)
  · exact .ite (.reportGroup h) (.dropFrame h)
  · exact .ite (.emit h) (.dropFrame h)
  · exact .ite (.hearPtp h) (.dropFrame h)
  · exact .ite (.hearUdp h) (.dropFrame h)
  · exact .dropFrame h

theorem Kept.ethFrameReceive {p frame} (h : Keeps a s) : Kept a (execEthFrameReceive p frame s) :=
  .next (.ite (.ite (.hearBody (.countFrame h)) (.dropFrame (.countFrame h))) h)

/-! ### Commands of the TAP -/

theorem Keeps.loadIr {i} (h : Keeps a s) : Keeps a (s.loadIr i) := .ite (.update h) h
theorem Keeps.loadScan {i} (h : Keeps a s) : Keeps a (s.loadScan i) := .loadIr h
theorem Keeps.shiftOut {bits v} (h : Keeps a s) : Keeps a (s.shiftOut bits v) := .emit h
theorem Kept.jtagExtest (h : Keeps a s) : Kept a (execJtagExtest s) := .next (.loadScan h)
theorem Kept.jtagIdcode (h : Keeps a s) : Kept a (execJtagIdcode s) := .next (.ite (.shiftOut (.loadIr h)) h)
theorem Kept.jtagSamplePreload (h : Keeps a s) : Kept a (execJtagSamplePreload s) := .next (.loadIr h)
theorem Kept.jtagClamp (h : Keeps a s) : Kept a (execJtagClamp s) := .next (.loadScan h)
theorem Kept.jtagHighz (h : Keeps a s) : Kept a (execJtagHighz s) := .next (.loadScan h)
theorem Kept.jtagExtestPulse (h : Keeps a s) : Kept a (execJtagExtestPulse s) := .next (.loadScan h)
theorem Kept.jtagBypass {opcode} (h : Keeps a s) : Kept a (execJtagBypass opcode s) := .next (.ite h (.loadIr h))
theorem Kept.frzSeg {seg} (h : Keeps a s) : Kept a (execFrzSeg seg s) := .next (.ite (.update h) h)
theorem Keeps.drawHold (h : Keeps a s) : Keeps a s.drawHold := .ite (.update h) h
theorem Kept.frzRead (h : Keeps a s) : Kept a (execFrzRead s) := .next (.ite (.shiftOut (.drawHold (.loadIr h))) h)
theorem Kept.bbAddr {index} (h : Keeps a s) : Kept a (execBbAddr index s) := .next (.ite (.update h) h)
theorem Kept.bbRead (h : Keeps a s) : Kept a (execBbRead s) := .next (.ite (.emit (.loadIr h)) h)

/-! ### Commands of the watchkeeper -/

theorem Keeps.watchEdge {d c x level} (h : Keeps a s) : Keeps a (s.watchEdge d c x level) := .bumpBy (.withDie (.update h))

theorem Kept.watchedEdge {d slot time level} (h : Keeps a s) : Kept a (execWatchedEdge d slot time level s) := by
  unfold execWatchedEdge
  refine .next ?_
  split
  · exact .ite (.watchEdge h) h
  · exact h

theorem Keeps.wakePme (h : Keeps a s) : Keeps a s.wakePme := .ite (.emit (.update h)) h

theorem Keeps.wakeDie {d} (h : Keeps a s) : Keeps a (s.wakeDie d) := by
  unfold State.wakeDie
  split
  · exact .beginArming (.ite (.makeDue h) h)
  · exact h

theorem Keeps.stopWatch {d} (h : Keeps a s) : Keeps a (s.stopWatch d) := .withDie h

theorem Keeps.watchWake {d code} (h : Keeps a s) : Keeps a (s.watchWake d code) :=
  .wakePme (.stopWatch (.stopWatch (.foldl .wakeDie (.update (.startClocks (.setEvBit (.put (.bump h))))))))

theorem Kept.chamberWEvaluation {d} (h : Keeps a s) : Kept a (execChamberWEvaluation d s) := by
  unfold execChamberWEvaluation
  refine .next (.ite ?_ h)
  dsimp only
  split
  · exact .withDie h
  · exact .when (.withDie h) .watchWake

/-! ### The firing of a slot -/

theorem Keeps.slotDie {d loc f} (hf : ∀ {t}, Keeps a t → Keeps a (f t)) (h : Keeps a s) : Keeps a (s.slotDie d loc f) :=
  .ite (hf h) (.ignoreOp h)

theorem Keeps.slotFunction {k target} (h : Keeps a s) : Keeps a (s.slotFunction k target) := by
  unfold State.slotFunction
  split
  · exact .slotDie .armCommand h
  · exact .slotDie .armCommand h
  · exact .slotDie .captureStop h
  · exact .slotDie .captureStop h
  · exact .slotDie .forceTrigger h
  · exact .slotDie .forceTrigger h
  · exact .genTimeStart h
  · exact .genTimeStart h
  · exact .slotGate h
  · exact .ite (.watchWake h) (.ignoreOp h)
  · exact .ite (.watchWake h) (.ignoreOp h)
  · exact h

theorem Kept.compareSlotFire {k} (h : Keeps a s) : Kept a (execCompareSlotFire k s) := .next (.ite (.slotFunction (.fireSlot h)) h)

/-! ### Every command -/

/-- The meaning of every command keeps what its start has. -/
theorem exec_kept (s : State) (c : Instr) : Kept s (exec c s) :=
  match c with
  | .coreWord .. => .coreWord (.refl s)
  | .deferredAdvanceExecute .. => .deferredAdvanceExecute (.refl s)
  | .timerSaturation .. => .timerSaturation (.refl s)
  | .trigoutPulseEnd .. => .trigoutPulseEnd (.refl s)
  | .eventBargeClose .. => .eventBargeClose (.refl s)
  | .forceTrigger .. => .forceTrigger (.refl s)
  | .pendingPlacementCommit .. => .pendingPlacementCommit (.refl s)
  | .triggerLineArrival .. => .triggerLineArrival (.refl s)
  | .arm .. => .arm (.refl s)
  | .convoyOpen .. => .convoyOpen (.refl s)
  | .stop .. => .stop (.refl s)
  | .release .. => .release (.refl s)
  | .sluiceCopy .. => .sluiceCopy (.refl s)
  | .convoySealed .. => .convoySealed (.refl s)
  | .sluiceSealedConvoy .. => .sluiceSealedConvoy (.refl s)
  | .sluiceSealedCopyDone .. => .sluiceSealedCopyDone (.refl s)
  | .watchedEdge .. => .watchedEdge (.refl s)
  | .quadrantReturn .. => .quadrantReturn (.refl s)
  | .eyeFinderStart .. => .eyeFinderStart (.refl s)
  | .eyeFinderDone .. => .eyeFinderDone (.refl s)
  | .eyeFinderNoClock => .eyeFinderNoClock (.refl s)
  | .fullCalibrationCommand .. => .fullCalibrationCommand (.refl s)
  | .calibrationComplete .. => .calibrationComplete (.refl s)
  | .driftCheck .. => .driftCheck (.refl s)
  | .deskewRecalibration .. => .deskewRecalibration (.refl s)
  | .calibrationAgeDue .. => .calibrationAgeDue (.refl s)
  | .maintenanceTaskRun .. => .maintenanceTaskRun (.refl s)
  | .writeYarnDirection .. => .writeYarnDirection (.refl s)
  | .writeYarnDrive .. => .writeYarnDrive (.refl s)
  | .incrementCommit .. => .incrementCommit (.refl s)
  | .stepCommit .. => .stepCommit (.refl s)
  | .stepApply => .stepApply (.refl s)
  | .forceStepAmount .. => .forceStepAmount (.refl s)
  | .forceStepAbsolute .. => .forceStepAbsolute (.refl s)
  | .epochWrite .. => .epochWrite (.refl s)
  | .timewordWrap => .timewordWrap (.refl s)
  | .discSet => .discSet (.refl s)
  | .discClear => .discClear (.refl s)
  | .hostWatchdogExpiry => .hostWatchdogExpiry (.refl s)
  | .servoOwnerWrite .. => .servoOwnerWrite (.refl s)
  | .compareTargetCommit .. => .compareTargetCommit (.refl s)
  | .compareSlotEnable .. => .compareSlotEnable (.refl s)
  | .compareSlotFire .. => .compareSlotFire (.refl s)
  | .sourceSelect .. => .sourceSelect (.refl s)
  | .sourceSwap .. => .sourceSwap (.refl s)
  | .refinFallback .. => .refinFallback (.refl s)
  | .refinAutoReturn .. => .refinAutoReturn (.refl s)
  | .freeRunUpdate => .freeRunUpdate (.refl s)
  | .ageingLearned .. => .ageingLearned (.refl s)
  | .latchingPairRead .. => .latchingPairRead (.refl s)
  | .portReconfigure .. => .portReconfigure (.refl s)
  | .ethLinkLoss .. => .ethLinkLoss (.refl s)
  | .ethLinkUp .. => .ethLinkUp (.refl s)
  | .ethFrameReceive .. => .ethFrameReceive (.refl s)
  | .bulkReadoutStart .. => .bulkReadoutStart (.refl s)
  | .bulkReadoutDatagram => .bulkReadoutDatagram (.refl s)
  | .syncReceive .. => .syncReceive (.refl s)
  | .followUpReceive .. => .followUpReceive (.refl s)
  | .announceReceive .. => .announceReceive (.refl s)
  | .delayReqReceive .. => .delayReqReceive (.refl s)
  | .delayRespReceive .. => .delayRespReceive (.refl s)
  | .pdelayReqReceive .. => .pdelayReqReceive (.refl s)
  | .pdelayRespReceive .. => .pdelayRespReceive (.refl s)
  | .managementMessageReceive .. => .managementMessageReceive (.refl s)
  | .syncSend .. => .syncSend (.refl s)
  | .announceSend .. => .announceSend (.refl s)
  | .delayReqSend .. => .delayReqSend (.refl s)
  | .syncTimeout => .syncTimeout (.refl s)
  | .announceReceiptTimeout => .announceReceiptTimeout (.refl s)
  | .knotSend => .knotSend (.refl s)
  | .hostKnotSend .. => .hostKnotSend (.refl s)
  | .knotReceive .. => .knotReceive (.refl s)
  | .knotDeliver => .knotDeliver (.refl s)
  | .duplicateEntryExpiry .. => .duplicateEntryExpiry (.refl s)
  | .heartbeatSend .. => .heartbeatSend (.refl s)
  | .heartbeatReceive .. => .heartbeatReceive (.refl s)
  | .alpPortEnable .. => .alpPortEnable (.refl s)
  | .alpPortDown .. => .alpPortDown (.refl s)
  | .alpLaneFailure _ lane => .alpLaneFailure (lane := lane) (.refl s)
  | .alpMeasurement .. => .alpMeasurement (.refl s)
  | .tunnelFrameReceive .. => .tunnelFrameReceive (.refl s)
  | .gaugeStart .. => .gaugeStart (.refl s)
  | .gaugeStop .. => .gaugeStop (.refl s)
  | .gaugeStampingBegin .. => .gaugeStampingBegin (.refl s)
  | .gateClose .. => .gateClose (.refl s)
  | .gaugeStartEdge .. => .gaugeStartEdge (.refl s)
  | .gaugeStopEdge .. => .gaugeStopEdge (.refl s)
  | .shotTimeout .. => .shotTimeout (.refl s)
  | .gaugeTimeout .. => .gaugeTimeout (.refl s)
  | .pgPrime .. => .pgPrime (.refl s)
  | .pgStart .. => .pgStart (.refl s)
  | .pgReady .. => .pgReady (.refl s)
  | .pgStop .. => .pgStop (.refl s)
  | .pgJumpRequest .. => .pgJumpRequest (.refl s)
  | .pgPassEnd .. => .pgPassEnd (.refl s)
  | .pgUnderrun .. => .pgUnderrun (.refl s)
  | .pgHoldEnd .. => .pgHoldEnd (.refl s)
  | .pgKnotStart .. => .pgKnotStart (.refl s)
  | .syncinPulse .. => .syncinPulse (.refl s)
  | .pgSyncStart .. => .pgSyncStart (.refl s)
  | .syncoutOriginate .. => .syncoutOriginate (.refl s)
  | .pgSyncCalibration .. => .pgSyncCalibration (.refl s)
  | .syncCalibrationEnd .. => .syncCalibrationEnd (.refl s)
  | .loopCacheLoad .. => .loopCacheLoad (.refl s)
  | .loopCacheLoadDone .. => .loopCacheLoadDone (.refl s)
  | .speedChangeRequest .. => .speedChangeRequest (.refl s)
  | .speedChangeApply => .speedChangeApply (.refl s)
  | .speedChangeComplete .. => .speedChangeComplete (.refl s)
  | .trainingDue .. => .trainingDue (.refl s)
  | .trainingComplete .. => .trainingComplete (.refl s)
  | .dimmSensorRead .. => .dimmSensorRead (.refl s)
  | .dsRequestComplete .. => .dsRequestComplete (.refl s)
  | .dsParityError .. => .dsParityError (.refl s)
  | .migrationDone .. => .migrationDone (.refl s)
  | .urgencyRise .. => .urgencyRise (.refl s)
  | .patrolScrubRead .. => .patrolScrubRead (.refl s)
  | .rankRetire .. => .rankRetire (.refl s)
  | .spareEnable .. => .spareEnable (.refl s)
  | .retiredListClear .. => .retiredListClear (.refl s)
  | .mpllCoastSelfRefresh .. => .mpllCoastSelfRefresh (.refl s)
  | .windowRead .. => .windowRead (.refl s)
  | .windowWrite .. => .windowWrite (.refl s)
  | .windowBaseWrite .. => .windowBaseWrite (.refl s)
  | .marchTestCommand .. => .marchTestCommand (.refl s)
  | .marchTestDone .. => .marchTestDone (.refl s)
  | .backgroundTestStep .. => .backgroundTestStep (.refl s)
  | .descriptorRamHostWrite .. => .descriptorRamHostWrite (.refl s)
  | .descriptorRamHostRead .. => .descriptorRamHostRead (.refl s)
  | .scratchpadUe => .scratchpadUe (.refl s)
  | .referenceLoss => .referenceLoss (.refl s)
  | .lockLoss .. => .lockLoss (.refl s)
  | .coastEstimate .. => .coastEstimate (.refl s)
  | .coastEstimateTimeout .. => .coastEstimateTimeout (.refl s)
  | .reentry .. => .reentry (.refl s)
  | .reentryAttempt .. => .reentryAttempt (.refl s)
  | .lockConfirmed .. => .lockConfirmed (.refl s)
  | .bandSearchDone .. => .bandSearchDone (.refl s)
  | .bandRevalidate .. => .bandRevalidate (.refl s)
  | .spreadChange .. => .spreadChange (.refl s)
  | .elasticBufferSeal .. => .elasticBufferSeal (.refl s)
  | .dmaRun .. => .dmaRun (.refl s)
  | .dmaStop .. => .dmaStop (.refl s)
  | .dmaAbort .. => .dmaAbort (.refl s)
  | .dmaResume .. => .dmaResume (.refl s)
  | .dmaProducerWrite .. => .dmaProducerWrite (.refl s)
  | .dmaJobComplete .. => .dmaJobComplete (.refl s)
  | .pcieCompletionReceive .. => .pcieCompletionReceive (.refl s)
  | .completionTimeout .. => .completionTimeout (.refl s)
  | .busMasterDisable => .busMasterDisable (.refl s)
  | .busMasterEnable => .busMasterEnable (.refl s)
  | .d3hotEntry => .d3hotEntry (.refl s)
  | .d0Return => .d0Return (.refl s)
  | .functionLevelReset => .functionLevelReset (.refl s)
  | .hotReset => .hotReset (.refl s)
  | .flrWaitEnd => .flrWaitEnd (.refl s)
  | .retiredTagExpiry .. => .retiredTagExpiry (.refl s)
  | .pcieLinkLoss .. => .pcieLinkLoss (.refl s)
  | .msixUnmask .. => .msixUnmask (.refl s)
  | .pmeStatusClear => .pmeStatusClear (.refl s)
  | .mailboxSubmit .. => .mailboxSubmit (.refl s)
  | .odpDatagramReceive .. => .odpDatagramReceive (.refl s)
  | .odpRead => .odpRead (.refl s)
  | .odpWrite => .odpWrite (.refl s)
  | .odpReadBlock => .odpReadBlock (.refl s)
  | .odpWriteBlock => .odpWriteBlock (.refl s)
  | .odpSubscribe => .odpSubscribe (.refl s)
  | .keyWrite .. => .keyWrite (.refl s)
  | .notify .. => .notify (.refl s)
  | .subscriptionLapse .. => .subscriptionLapse (.refl s)
  | .registerWrite .. => .registerWrite (.refl s)
  | .guardUnlock .. => .guardUnlock (.refl s)
  | .guardLockTimeout => .guardLockTimeout (.refl s)
  | .guardComplementWrite .. => .guardComplementWrite (.refl s)
  | .guardModeSelect .. => .guardModeSelect (.refl s)
  | .requestOn .. => .requestOn (.refl s)
  | .requestStandby .. => .requestStandby (.refl s)
  | .requestRetain .. => .requestRetain (.refl s)
  | .requestWatch .. => .requestWatch (.refl s)
  | .requestOff .. => .requestOff (.refl s)
  | .powerTransitionDone => .powerTransitionDone (.refl s)
  | .domainIdleOff .. => .domainIdleOff (.refl s)
  | .powerFailWarning .. => .powerFailWarning (.refl s)
  | .powerOnReset => .powerOnReset (.refl s)
  | .powerOnResetRelease .. => .powerOnResetRelease (.refl s)
  | .fundamentalResetAssert .. => .fundamentalResetAssert (.refl s)
  | .fundamentalResetRelease .. => .fundamentalResetRelease (.refl s)
  | .startupComplete .. => .startupComplete (.refl s)
  | .mainRailsReturn .. => .mainRailsReturn (.refl s)
  | .offWakeEdge .. => .offWakeEdge (.refl s)
  | .hkcWatchdogExpiry => .hkcWatchdogExpiry (.refl s)
  | .hkcRestartComplete => .hkcRestartComplete (.refl s)
  | .sensorRead .. => .sensorRead (.refl s)
  | .freezePinLow => .freezePinLow (.refl s)
  | .freezePinRelease => .freezePinRelease (.refl s)
  | .freezeRegister .. => .freezeRegister (.refl s)
  | .thawRegister .. => .thawRegister (.refl s)
  | .hostMark .. => .hostMark (.refl s)
  | .optionalCategoriesWrite .. => .optionalCategoriesWrite (.refl s)
  | .blackBoxCommit => .blackBoxCommit (.refl s)
  | .jtagExtest => .jtagExtest (.refl s)
  | .jtagIdcode => .jtagIdcode (.refl s)
  | .jtagSamplePreload => .jtagSamplePreload (.refl s)
  | .jtagClamp => .jtagClamp (.refl s)
  | .jtagHighz => .jtagHighz (.refl s)
  | .jtagExtestPulse => .jtagExtestPulse (.refl s)
  | .jtagBypass .. => .jtagBypass (.refl s)
  | .frzSeg .. => .frzSeg (.refl s)
  | .frzRead => .frzRead (.refl s)
  | .bbAddr .. => .bbAddr (.refl s)
  | .bbRead => .bbRead (.refl s)
  | .chamberWEvaluation .. => .chamberWEvaluation (.refl s)
  | .pgTimeStart .. => .pgTimeStart (.refl s)
  | .pcieLinkUp .. => .pcieLinkUp (.refl s)
  | .configurationWrite .. => .configurationWrite (.refl s)

/-- Settles O53: each command's meaning is built of operations that leave the queue and the variant alone, take no time back and only add
to what was sent. -/
theorem queueAndIdentityKept : Obligations.QueueAndIdentityKept := by
  intro c s t e
  have h := exec_kept s c
  rw [e] at h
  exact h

end Sys2Proof.Machine
end

section
/-! PROOFS. The end of start-up and the restart of the HKC (O40).

`WorkEnded a s` says what the end of the HKC's work leaves of a state `a`, and `Answered a s` what answering after a restart leaves of it.
Each operation of the model on those two ways has one lemma, with the operation's name. -/

namespace Sys2Proof.Machine

/-! ### Event bits -/

@[simp] theorem Events.get_set_same (e : Events) (r : EvReg) (v : Dword) : (e.set r v).get r = v := by
  cases r <;> simp [Events.get, Events.set]

/-- Bits that are or-ed into a register clear no bit of GBL_STATUS. -/
theorem Events.gbl_set_or {e : Events} {i : Nat} (r : EvReg) (bits : Dword) (h : e.gbl.getLsbD i = true) :
    (e.set r (e.get r ||| bits)).gbl.getLsbD i = true := by
  cases r
  case gbl => simp [Events.get, Events.set, h]
  all_goals exact h

theorem State.setEv_events (s : State) (r : EvReg) (bits : Dword) :
    (s.setEv r bits).events = s.events.set r (s.events.get r ||| bits) := by
  unfold State.setEv
  dsimp only
  split
  · rfl
  · split
    · rw [State.raise_events]
    · rfl

theorem State.setEvBit_sets (s : State) (r : EvReg) {i : Nat} (hi : i < 32) : ((s.setEvBit r i).events.get r).getLsbD i = true := by
  unfold State.setEvBit
  rw [State.setEv_events, Events.get_set_same, BitVec.getLsbD_or, bitIf, if_pos rfl, BitVec.getLsbD_ofNat, Nat.testBit_two_pow_self]
  simp [hi]

/-! ### The end of the HKC's work -/

/-- Power and deep store are those of `a`, and no bit of GBL_STATUS has been cleared. -/
def WorkEnded (a s : State) : Prop :=
  s.power = a.power ∧ s.dsMem = a.dsMem ∧ ∀ i, a.events.gbl.getLsbD i = true → s.events.gbl.getLsbD i = true

variable {a s t : State}

theorem WorkEnded.refl (s : State) : WorkEnded s s := ⟨rfl, rfl, fun _ hi => hi⟩

theorem WorkEnded.ite {c : Prop} [Decidable c] (hs : WorkEnded a s) (ht : WorkEnded a t) : WorkEnded a (if c then s else t) := by
  split
  · exact hs
  · exact ht

theorem WorkEnded.put {idx sub v} (h : WorkEnded a s) : WorkEnded a (s.put idx sub v) := by simpa [WorkEnded] using h
theorem WorkEnded.putNat {idx sub n} (h : WorkEnded a s) : WorkEnded a (s.putNat idx sub n) := h.put
theorem WorkEnded.bumpBy {idx sub n} (h : WorkEnded a s) : WorkEnded a (s.bumpBy idx sub n) := by simpa [WorkEnded] using h
theorem WorkEnded.raise {v} (h : WorkEnded a s) : WorkEnded a (s.raise v) := by simpa [WorkEnded] using h

theorem WorkEnded.setEvBit {r i} (h : WorkEnded a s) : WorkEnded a (s.setEvBit r i) := by
  obtain ⟨hp, hm, he⟩ := h
  refine ⟨by simpa using hp, by simpa using hm, fun j hj => ?_⟩
  unfold State.setEvBit
  rw [State.setEv_events]
  exact Events.gbl_set_or _ _ (he j hj)

theorem WorkEnded.bbDrop (h : WorkEnded a s) : WorkEnded a s.bbDrop := .setEvBit (.bumpBy h)

theorem WorkEnded.bb {code sev data} (h : WorkEnded a s) : WorkEnded a (s.bb code sev data) := by
  unfold State.bb
  refine .ite h (.ite (.bbDrop h) ?_)
  split
  · exact .bbDrop h
  · exact .bbDrop h

theorem WorkEnded.ignoreOp {loc via c} (h : WorkEnded a s) : WorkEnded a (s.ignoreOp loc via c) :=
  have counted := .setEvBit (.bumpBy h)
  .ite (.bb counted) counted

theorem WorkEnded.restSpll {d} (h : WorkEnded a s) : WorkEnded a (s.restSpll d) := .ite h h
theorem WorkEnded.makeDue {x} (h : WorkEnded a s) : WorkEnded a (s.makeDue x) := .ite h h

theorem WorkEnded.endArming {d status} (h : WorkEnded a s) : WorkEnded a (s.endArming d status) :=
  .raise (.restSpll (.putNat (.ite (.ignoreOp h) h)))

theorem WorkEnded.restartArming {d} (h : WorkEnded a s) : WorkEnded a (s.restartArming d) := .ite (.endArming h) h
theorem WorkEnded.endTest {status} (h : WorkEnded a s) : WorkEnded a (s.endTest status) := .put h

theorem WorkEnded.abortTest (h : WorkEnded a s) : WorkEnded a s.abortTest := by
  unfold State.abortTest
  split
  · exact h
  · refine .endTest ?_
    split
    · exact .ite (.ite h h) h
    · exact h

theorem WorkEnded.abortTraining (h : WorkEnded a s) : WorkEnded a s.abortTraining := .ite (.makeDue h) h

theorem WorkEnded.endCheck {d} (h : WorkEnded a s) : WorkEnded a (s.endCheck d) := by
  unfold State.endCheck
  split
  · exact .ite (.restSpll (.bumpBy h)) h
  · exact h

theorem WorkEnded.breakCheck {d} (h : WorkEnded a s) : WorkEnded a (s.breakCheck d) := by
  unfold State.breakCheck
  dsimp only
  split
  · exact .restSpll (.makeDue (.endCheck h))
  · exact .endCheck h

theorem WorkEnded.dropCal {d} (h : WorkEnded a s) : WorkEnded a (s.dropCal d) :=
  .ite (.restSpll (.makeDue (.breakCheck h))) (.breakCheck h)

theorem WorkEnded.endEye {status} (h : WorkEnded a s) : WorkEnded a (s.endEye status) := .restSpll (.restSpll (.putNat h))

theorem WorkEnded.dropWork (h : WorkEnded a s) : WorkEnded a s.dropWork := by
  have dropped := WorkEnded.dropCal (d := 1) (.dropCal (d := 0) (.abortTraining (.abortTest (.restartArming (d := 1)
    (.restartArming (d := 0) h)))))
  unfold State.dropWork
  exact .ite (.endEye dropped) dropped

theorem WorkEnded.dropHold (h : WorkEnded a s) : WorkEnded a s.dropHold := by
  unfold State.dropHold
  split
  · exact .bb h
  · exact h

theorem WorkEnded.enterHoldover {cause} (h : WorkEnded a s) : WorkEnded a (s.enterHoldover cause) := .ite (.bb (.dropHold h)) h

/-- A restart of the HKC clears READY and sets HKCRST; past that it leaves power and the deep store alone and clears no bit of
GBL_STATUS (R20). -/
theorem WorkEnded.restartHkc {cause} :
    WorkEnded ({ s with power := { s.power with ready := false, hkcUp := false } }.setEvBit .gbl 8) (s.restartHkc cause) :=
  have dropped := .dropWork (.bb (.refl _))
  .ite (.enterHoldover dropped) dropped

/-! ### Answering after a restart -/

/-- The dies, the time base and power are those of `a`. -/
def Answered (a s : State) : Prop := s.dies = a.dies ∧ s.tb = a.tb ∧ s.power = a.power

theorem Answered.refl (s : State) : Answered s s := ⟨rfl, rfl, rfl⟩

theorem Answered.ite {c : Prop} [Decidable c] (hs : Answered a s) (ht : Answered a t) : Answered a (if c then s else t) := by
  split
  · exact hs
  · exact ht

theorem Answered.foldl {α} {f : State → α → State} {l : List α} (hf : ∀ {t x}, Answered a t → Answered a (f t x)) (h : Answered a s) :
    Answered a (l.foldl f s) := List.foldlRecOn l f h (fun _ ht _ _ => hf ht)

theorem Answered.put {idx sub v} (h : Answered a s) : Answered a (s.put idx sub v) := by simpa [Answered] using h
theorem Answered.bumpBy {idx sub n} (h : Answered a s) : Answered a (s.bumpBy idx sub n) := by simpa [Answered] using h
theorem Answered.bump {idx sub} (h : Answered a s) : Answered a (s.bump idx sub) := h.bumpBy
theorem Answered.raise {v} (h : Answered a s) : Answered a (s.raise v) := by simpa [Answered] using h
theorem Answered.bb {code sev data} (h : Answered a s) : Answered a (s.bb code sev data) := by simpa [Answered] using h

theorem Answered.withGauge {g f} (h : Answered a s) : Answered a (s.withGauge g f) := h

theorem Answered.sendResult {g at_ flags vals} (h : Answered a s) : Answered a (s.sendResult g at_ flags vals) :=
  .bump (.foldl .put (.put (.put h)))

theorem Answered.sendUnsent (h : Answered a s) : Answered a s.sendUnsent := .foldl (fun ht => .withGauge (.foldl .sendResult ht)) h

theorem Answered.touchRam {off len} (h : Answered a s) : Answered a (s.touchRam off len) := .ite (.bump h) h
theorem Answered.ramError {e} (h : Answered a s) : Answered a (s.ramError e) := .ite (.bb (.bump h)) (.bump h)
theorem Answered.meetFlaws {off len} (h : Answered a s) : Answered a (s.meetFlaws off len) := .foldl .ramError h
theorem Answered.hkcReads {off len} (h : Answered a s) : Answered a (s.hkcReads off len) := .meetFlaws (.touchRam h)
theorem Answered.hkcRam {off bs} (h : Answered a s) : Answered a (s.hkcRam off bs) := .touchRam (off := off) (len := bs.length) h
theorem Answered.mbServing (h : Answered a s) : Answered a s.mbServing := .hkcRam h
theorem Answered.mbAnswer {f} (h : Answered a s) : Answered a (s.mbAnswer f) := .raise (.hkcRam (.hkcRam (.ite (.bumpBy h) h)))

theorem Answered.authentic {key f} (h : Answered a s) : Answered a (s.authentic key f).1 := by
  unfold State.authentic
  split
  · exact h
  · exact h

theorem Answered.sendUdp {p addr port key f} (h : Answered a s) : Answered a (s.sendUdp p addr port key f) := .ite (.authentic h) h

theorem Answered.drainTunnel {k n} (h : Answered a s) : Answered a (s.drainTunnel k n) := by
  induction n generalizing s with
  | zero => exact h
  | succ n ih =>
    unfold State.drainTunnel
    split
    · exact h
    · exact .ite (ih h) h

theorem Answered.sendTunnelOn {f k} (h : Answered a s) : Answered a (s.sendTunnelOn f k) := .drainTunnel h

theorem Answered.sendTunnel {ports dest frame} (h : Answered a s) : Answered a (s.sendTunnel ports dest frame) :=
  .foldl (.foldl .sendTunnelOn) h

theorem Answered.sendBack {r f} (h : Answered a s) : Answered a (s.sendBack r f) := by
  unfold State.sendBack
  split
  · exact .ite h (.mbAnswer h)
  · exact h.sendUdp
  · exact h.sendUdp
  · exact .sendTunnel h
  · exact h
  · exact h

theorem Answered.answerStatus {r status} (h : Answered a s) : Answered a (s.answerStatus r status) := .sendBack h

theorem Answered.tunnelAway {r} (h : Answered a s) : Answered a (s.tunnelAway r) :=
  .ite (.answerStatus h) (.ite (.answerStatus (.bump h)) (.sendTunnel h))

theorem Answered.admitRequest {r} (h : Answered a s) : Answered a (s.admitRequest r) := by
  have served : Answered a (if r.path = .mailbox ∧ frameOp r.frame ≠ 6 then s.mbServing else s) := .ite (.mbServing h) h
  unfold State.admitRequest
  refine .ite (.tunnelAway served) (.ite served (.ite (.answerStatus served) ?_))
  split
  · exact .answerStatus served
  · exact .ite (.answerStatus served) (.ite (.answerStatus served) served)

theorem Answered.takeMailbox (h : Answered a s) : Answered a s.takeMailbox := by
  unfold State.takeMailbox
  refine .ite (.hkcReads h) ?_
  split
  · exact .admitRequest (.hkcReads h)
  · exact .bump (.hkcReads h)

theorem Answered.takeEth {p} (h : Answered a s) : Answered a (s.takeEth p) := by
  unfold State.takeEth
  dsimp only
  split
  · exact h
  · split
    · exact .bump (.sendUdp h)
    · exact .admitRequest h

theorem Answered.takeTunnel (h : Answered a s) : Answered a s.takeTunnel := by
  unfold State.takeTunnel
  split
  · exact h
  · exact .admitRequest h

theorem Answered.takeFrom {i} (h : Answered a s) : Answered a (s.takeFrom i) := by
  unfold State.takeFrom
  split
  · exact .takeMailbox h
  · exact .takeEth h
  · exact .takeEth h
  · exact .takeTunnel h

theorem Answered.takeUpTo {n} (h : Answered a s) : Answered a (State.takeUpTo n s) := by
  induction n generalizing s with
  | zero => exact h
  | succ n ih =>
    unfold State.takeUpTo
    refine .ite h ?_
    split
    · exact ih (.takeFrom h)
    · exact h

theorem Answered.restartAnswers (h : Answered a s) : Answered a s.restartAnswers := .takeUpTo (.foldl .answerStatus h)

theorem Answered.takeStamp {p e} (h : Answered a s) : Answered a (s.takeStamp p e) := by
  unfold State.takeStamp
  dsimp only
  split
  · exact h
  · split <;> exact h

theorem Answered.takeStamps {p} (h : Answered a s) : Answered a (s.takeStamps p) := .ite (.foldl .takeStamp h) h

/-! ### The commands -/

/-- Start-up ends with READY, ON and the event (R399 step 10), whatever it found before. -/
theorem State.startUp_ends (s : State) (r : StartupReport) : ∃ (t : State) (wake : Nat), s.startUp r = (t.becomeReady wake).setEvBit .pwr 4 :=
  ⟨_, _, rfl⟩

/-- Settles O40. Start-up ends with `becomeReady`; what a restart ends keeps power, deep store and event bits (`WorkEnded`); what is
answered after it keeps power, dies and time base (`Answered`). -/
theorem startsComplete : Obligations.StartsComplete := by
  refine ⟨fun r s hs => ?_, fun s hup => ?_, fun s hever hdown hphase hoff hfull => ?_⟩
  · obtain ⟨t, wake, ht⟩ := s.startUp_ends r
    refine ⟨s.startUp r, congrArg Host.Outcome.next (if_pos hs), ?_⟩
    simp only [ht, State.setEvBit_power, State.setEvBit_chip]
    exact ⟨rfl, rfl, rfl, rfl, State.setEvBit_sets _ .pwr (by decide)⟩
  · obtain ⟨hp, hm, he⟩ := WorkEnded.restartHkc (s := s) (cause := 0)
    refine ⟨s.restartHkc 0, congrArg Host.Outcome.next (if_pos hup), ?_, ?_, ?_, ?_⟩
    · simp [hp]
    · simp [hp]
    · exact he 8 (State.setEvBit_sets _ .gbl (by decide))
    · simp [hm]
  · have guard : s.power.everReady ∧ !s.power.hkcUp ∧ s.power.phase = .none ∧ s.power.state ≠ .off ∧ !s.frozenFull := by
      simp [hever, hdown, hphase, hoff, hfull]
    obtain ⟨hd, ht, hp⟩ := (Answered.refl { s with power := { s.power with
      hkcUp := true, ready := !s.chip.unusable } }).sendUnsent.restartAnswers.takeStamps (p := 0) |>.takeStamps (p := 1)
    exact ⟨_, congrArg Host.Outcome.next (if_pos guard), by rw [hp], by rw [hp], hd, ht⟩

end Sys2Proof.Machine
end

section
/-! PROOFS. The eye finder and the full calibration (O5), and a guarded yarn write that meets a lapsed lock (O6).

`Calibrated s d` says what a completed calibration of die `d` in `s` leaves, and `EyeStarted d` what a start of the eye finder does. Before
them stand what the object store reads as after a change, and what the shared operations of the front end leave alone. -/

namespace Sys2Proof.Machine

/-! ### The object store -/

theorem mget_mput_same {α : Type} (k : Nat) (v : α) (m : SMap α) : mget k (mput k v m) = some v := by
  induction m with
  | nil => simp [mput, mget]
  | cons p m ih =>
    obtain ⟨j, w⟩ := p
    unfold mput
    split
    · simp [mget]
    · split
      · simp [mget]
      · next hne => simp [mget, Ne.symm hne, ih]

theorem mget_mput_other {α : Type} {j k : Nat} (h : j ≠ k) (v : α) (m : SMap α) : mget j (mput k v m) = mget j m := by
  induction m with
  | nil => simp [mput, mget, h.symm]
  | cons p m ih =>
    obtain ⟨i, w⟩ := p
    unfold mput
    split
    · simp [mget, h.symm]
    · split
      · next hk => simp [mget, ← hk, h.symm]
      · simp [mget, ih]

theorem mget_mdel_other {α : Type} {j k : Nat} (h : j ≠ k) (m : SMap α) : mget j (mdel k m) = mget j m := by
  induction m with
  | nil => rfl
  | cons p m ih =>
    obtain ⟨i, w⟩ := p
    unfold mdel
    split
    · next hk => simp [mget, ← hk, h.symm]
    · simp [mget, ih]

theorem storeGet_storePut_other {idx sub i j : Nat} (h : objKey idx sub ≠ objKey i j) (st : Store) (v : Val) :
    storeGet (storePut st i j v) idx sub = storeGet st idx sub := by
  unfold storeGet storePut
  split
  · rw [mget_mdel_other h]
  · rw [mget_mput_other h]

theorem storeGet_storePut_same {idx sub : Nat} {v : Val} (h : v ≠ objDefault idx sub) (st : Store) :
    storeGet (storePut st idx sub v) idx sub = v := by
  rw [storeGet, storePut, if_neg h, mget_mput_same, Option.getD_some]

/-! ### A number read past a change elsewhere -/

section Other

variable {idx sub i j : Nat}

theorem State.objNat_put_other (h : objKey idx sub ≠ objKey i j) (s : State) (v : Val) :
    (s.put i j v).objNat idx sub = s.objNat idx sub := by
  unfold State.put
  split
  · rfl
  · simp only [State.objNat, storeNat, storeInt, storeGet_storePut_other h]

theorem State.objNat_putNat_other (h : objKey idx sub ≠ objKey i j) (s : State) (n : Nat) :
    (s.putNat i j n).objNat idx sub = s.objNat idx sub := s.objNat_put_other h _

theorem State.objNat_bump_other (h : objKey idx sub ≠ objKey i j) (s : State) : (s.bump i j).objNat idx sub = s.objNat idx sub := by
  simp only [State.bump, State.bumpBy, if_neg Nat.one_ne_zero, State.objNat, storeNat, storeInt, storeBump, storeGet_storePut_other h]

theorem State.objNat_raiseTo_other (h : objKey idx sub ≠ objKey i j) (s : State) (n : Nat) :
    (s.raiseTo i j n).objNat idx sub = s.objNat idx sub := by
  unfold State.raiseTo
  split
  · exact s.objNat_putNat_other h n
  · rfl

end Other

@[simp] theorem State.objNat_setEvBit (s : State) (r : EvReg) (k idx sub : Nat) : (s.setEvBit r k).objNat idx sub = s.objNat idx sub := by
  simp [State.objNat]

/-! ### A number read back -/

theorem State.storeGet_put_same {idx sub : Nat} {v : Val} (h : v ≠ objDefault idx sub) (s : State) :
    storeGet (s.put idx sub v).objs idx sub = v := by
  unfold State.put
  split
  · assumption
  · exact storeGet_storePut_same h _

/-- The status object of the eye finder reads as it was set, to any status but the default. -/
theorem State.objNat_putNat_eyeStatus {n : Nat} (h : n ≠ 0) (s : State) : (s.putNat 0x2071 0 n).objNat 0x2071 0 = n := by
  have hd : Val.num n ≠ objDefault 0x2071 0 := by
    rw [show objDefault 0x2071 0 = .num 0 by decide]
    simpa using h
  unfold State.objNat storeNat storeInt State.putNat
  rw [State.storeGet_put_same hd]
  rfl

/-! ### What the shared operations leave alone -/

/-- Objects below 7400 are no counters of a task (R404): a task that starts leaves them alone. -/
theorem State.startTask_objNat {idx sub : Nat} (h : objKey idx sub < objKey 0x7400 0) (s : State) (t : Fin 5) :
    (s.startTask t).objNat idx sub = s.objNat idx sub := by
  have apart : ∀ j, objKey idx sub ≠ objKey (0x7410 + t.val) j := fun j => by simp only [objKey] at *; omega
  have published : ∀ (u : State) v m,
      (((u.put (0x7410 + t.val) 1 v).putNat (0x7410 + t.val) 2 m).raiseTo (0x7410 + t.val) 3 m).objNat idx sub = u.objNat idx sub := by
    intro u v m
    rw [State.objNat_raiseTo_other (apart 3), State.objNat_putNat_other (apart 2), State.objNat_put_other (apart 1)]
  unfold State.startTask
  dsimp only
  split
  · rw [State.objNat_setEvBit, State.objNat_bump_other (apart 4), published]
    rfl
  · rw [published]
    rfl

@[simp] theorem State.startTask_dies (s : State) (t : Fin 5) : (s.startTask t).dies = s.dies := by
  unfold State.startTask
  dsimp only
  split <;> simp

@[simp] theorem State.markDieGauges_dies (s : State) (d : Die) (bit : Nat) : (s.markDieGauges d bit).dies = s.dies := by
  unfold State.markDieGauges
  dsimp only
@[simp] theorem State.markDieGauges_objs (s : State) (d : Die) (bit : Nat) : (s.markDieGauges d bit).objs = s.objs := by
  unfold State.markDieGauges
  dsimp only


/-- Starting a PLL changes the clocks and nothing else. -/
theorem State.startPll_eq (s : State) (i : Fin 13) (n : Nat) : ∃ c, s.startPll i n = { s with clocks := c } := by
  unfold State.startPll
  dsimp only
  split
  · exact ⟨_, rfl⟩
  · split
    · exact ⟨s.clocks, rfl⟩
    · split <;> exact ⟨_, rfl⟩

theorem State.needSpll_eq (s : State) (d : Die) : ∃ c, s.needSpll d = { s with clocks := c } := by
  unfold State.needSpll
  split
  · exact ⟨s.clocks, rfl⟩
  · exact s.startPll_eq ..

theorem State.restSpll_eq (s : State) (d : Die) : ∃ c, s.restSpll d = { s with clocks := c } := by
  unfold State.restSpll
  split
  · exact ⟨s.clocks, rfl⟩
  · exact ⟨_, rfl⟩

@[simp] theorem State.needSpll_dies (s : State) (d : Die) : (s.needSpll d).dies = s.dies := by
  obtain ⟨c, hc⟩ := s.needSpll_eq d
  rw [hc]

@[simp] theorem State.needSpll_objs (s : State) (d : Die) : (s.needSpll d).objs = s.objs := by
  obtain ⟨c, hc⟩ := s.needSpll_eq d
  rw [hc]

@[simp] theorem State.restSpll_dies (s : State) (d : Die) : (s.restSpll d).dies = s.dies := by
  obtain ⟨c, hc⟩ := s.restSpll_eq d
  rw [hc]

@[simp] theorem State.restSpll_objs (s : State) (d : Die) : (s.restSpll d).objs = s.objs := by
  obtain ⟨c, hc⟩ := s.restSpll_eq d
  rw [hc]

/-! ### A full calibration -/

/-- A calibration that begins marks its die as calibrating, and the other die not at all. -/
theorem State.beginCal_dies (s : State) (d : Die) :
    (s.beginCal d).dies = (s.withDie d (fun x => { x with calRunning := true, check := none })).dies := by
  unfold State.beginCal
  dsimp only
  split <;> simp [State.withDie]

/-- A calibration that begins touches no object but those of its task. -/
theorem State.beginCal_objNat {idx sub : Nat} (h : objKey idx sub < objKey 0x7400 0) (s : State) (d : Die) :
    (s.beginCal d).objNat idx sub = s.objNat idx sub := by
  unfold State.beginCal
  dsimp only
  split
  · simp only [State.objNat, State.needSpll_objs, State.markDieGauges_objs, State.withDie_objs]
    exact State.startTask_objNat h ..
  · simp only [State.objNat, State.needSpll_objs, State.markDieGauges_objs, State.withDie_objs]

/-- Die `d` of `t` is calibrated at the time and the temperature that it has in `s` (R44). -/
def Calibrated (s : State) (d : Die) (t : State) : Prop :=
  t.dies[d].calRunning = false ∧ t.dies[d].calDue = false ∧ t.dies[d].cal.time = s.time ∧ t.dies[d].cal.tempMc = s.dieTemp d ∧
    t.dies[d].cal.valid = true

/-- Being calibrated is a matter of the dies alone. -/
theorem Calibrated.of_dies {s t u : State} {d : Die} (h : Calibrated s d t) (e : u.dies = t.dies) : Calibrated s d u := by
  simpa only [Calibrated, e] using h

theorem State.storeCal_calibrated (s : State) (d : Die) : Calibrated s d (s.storeCal d) := by
  simp only [Calibrated, State.storeCal, State.withDie_same, State.time, State.putNat_tb, State.putInt_tb, State.put_tb, and_self]

/-- The marks of R35 change the front end of the die, not its calibration. -/
theorem Calibrated.markFine {s t : State} {d : Die} {c : Nat} {wide : Bool} (h : Calibrated s d t) : Calibrated s d (t.markFine d c wide) := by
  have marked : Calibrated s d ((t.putNat (chanIdx 0x20B8 (dieBase d + c)) ((dieBase d + c) % 256) (b2n wide)).withDie d
      (fun x => { x with fe := { x.fe with noFine := setLevel x.fe.noFine c wide } })) := by
    simpa only [Calibrated, State.withDie_same, State.putNat_dies] using h
  unfold State.markFine
  dsimp only
  split
  · exact marked.of_dies (State.bb_dies ..)
  · exact marked

theorem Calibrated.markAll {s t : State} {d : Die} {cs : List Nat} {wide : List (Fin 1024)} (h : Calibrated s d t) :
    Calibrated s d (cs.foldl (fun t c => t.markFine d c (wide.any (fun w => decide (w.val = c)))) t) :=
  List.foldlRecOn cs _ h (fun _ ht _ _ => ht.markFine)

/-- A calibration in ARMING is counted, which is no part of it (R44). -/
theorem Calibrated.counted {s t : State} {d : Die} {c : Prop} [Decidable c] (h : Calibrated s d t) :
    Calibrated s d (if c then t.bump 0x2061 0x0A else t) :=
  iteInduction (motive := Calibrated s d) (fun _ => h.of_dies (State.bump_dies ..)) (fun _ => h)

theorem execCalibrationComplete_calibrates {s : State} {d : Die} (wide : List (Fin 1024)) (hlive : s.frozen = false)
    (hrun : s.dies[d].calRunning = true) : ∃ t, execCalibrationComplete d wide s = .next t ∧ Calibrated s d t := by
  have marked := (s.storeCal_calibrated d).markAll (cs := s.fineChannels d wide) (wide := wide)
  unfold execCalibrationComplete
  dsimp only
  rw [if_pos ⟨by rw [hlive]; rfl, hrun⟩]
  exact ⟨_, rfl, marked.counted.of_dies (State.restSpll_dies _ d)⟩

/-! ### The eye finder -/

/-- The eye finder runs on die `d`, and its status is RUNNING (R38). -/
def EyeStarted (d : Die) (t : State) : Prop := t.dies[d].fe.eyeRunning = true ∧ t.objNat 0x2071 0 = 1

theorem State.eyeStarted (s : State) (d : Die) (e : EyeRun) :
    EyeStarted d ((s.withDie d (fun x => { x with fe := { x.fe with eye := some e } })).putNat 0x2071 0 1) := by
  refine ⟨?_, State.objNat_putNat_eyeStatus (by decide) _⟩
  simp only [State.putNat_dies, State.withDie_same, FrontEnd.eyeRunning, Option.isSome_some]

/-- The sample PLL and the gauges of the die that is measured are no part of the finder. -/
theorem EyeStarted.clocked {d : Die} {t : State} (h : EyeStarted d t) : EyeStarted d ((t.markDieGauges d 5).needSpll d) := by
  simpa only [EyeStarted, State.objNat, State.needSpll_dies, State.needSpll_objs, State.markDieGauges_dies, State.markDieGauges_objs] using h

/-- The calibration that runs first on factory defaults leaves the finder started. -/
theorem EyeStarted.beginCal {d : Die} {t : State} (h : EyeStarted d t) : EyeStarted d (t.beginCal d) := by
  obtain ⟨heye, hstatus⟩ := h
  refine ⟨?_, (t.beginCal_objNat (by decide) d).trans hstatus⟩
  simp only [State.beginCal_dies, State.withDie_same]
  exact heye

/-- The eye finder ends on both dies, with the status that it is given (R39, R40). -/
theorem State.endEye_ends {n : Nat} (h : n ≠ 0) (s : State) : (s.endEye n).eyeRunning = false ∧ (s.endEye n).objNat 0x2071 0 = n := by
  unfold State.endEye
  dsimp only
  constructor
  · simp [State.eyeRunning, State.withDie, vmod, FrontEnd.eyeRunning]
  · simp only [State.objNat, State.restSpll_objs]
    exact State.objNat_putNat_eyeStatus h _

/-- Whatever results the eye finder stores and applies, it ends with status 2 (R39). -/
theorem execEyeFinderDone_ends {s : State} {d : Die} {e : EyeRun} (results : List EyeResult) (hon : s.eyeOn = some (d, e))
    (hlive : s.frozen = false) (hcal : s.dies[d].calRunning = false) : ∃ t : State, execEyeFinderDone results s = .next (t.endEye 2) := by
  unfold execEyeFinderDone
  rw [hon]
  dsimp only
  rw [hlive, hcal]
  exact ⟨_, rfl⟩

/-! ### The commands -/

/-- Settles O5. The eye finder ends by `endEye`, a calibration begins by `beginCal` and is stored by `storeCal`; what comes after each leaves
the dies and the status of the eye finder alone. -/
theorem calibrationCompletes : Obligations.CalibrationCompletes := by
  refine ⟨fun via s hvia hon hidle0 hidle1 hrest => ?_, fun results d e s hlive hon hcal => ?_, fun s hlive hrun => ?_,
    fun via s hvia hon hidle => ?_, fun d wide s hlive hrun => ?_⟩
  · have on : ¬(!s.isOn) := by simp [hon]
    have free : ¬(s.dies[0].state ≠ .idle ∨ s.dies[1].state ≠ .idle ∨ s.eyeRunning) := by simp [hidle0, hidle1, hrest]
    have started := fun e => (s.eyeStarted s.eyeDie e).clocked
    exact ⟨_, congrArg Host.Outcome.next ((if_pos hvia).trans ((if_neg on).trans (if_neg free))),
      iteInduction (motive := EyeStarted s.eyeDie) (fun _ => (started _).beginCal) (fun _ => started _)⟩
  · obtain ⟨t, ht⟩ := execEyeFinderDone_ends results hon hlive hcal
    exact ⟨t.endEye 2, ht, t.endEye_ends (by decide)⟩
  · exact ⟨s.endEye 4, congrArg Host.Outcome.next (if_pos (by simp [hlive, hrun])), s.endEye_ends (by decide)⟩
  · refine ⟨s.beginCal 0, ?_, ?_⟩
    · show execFullCalibrationCommand 1 via s = _
      simp [execFullCalibrationCommand, State.onPath, State.hasDie, hvia, hon, hidle]
    · simp only [State.beginCal_dies]
      exact ⟨congrArg DieSt.calRunning (s.withDie_same 0 _), s.withDie_other 0 1 _ (by decide)⟩
  · exact execCalibrationComplete_calibrates wide hlive hrun

/-! ### A guarded write that meets a lapsed lock -/

/-- Paired mode is in force, keyed mode is selected, and a lock whose time is past is still open. No run from reset comes here: a lock opens in
keyed mode only, and the mode in force stays while a sequence is open (R377, R379). -/
def State.lapsedLock : State :=
  { State.reset with
    now := 1
    guard := { Guard.reset with strap := true, unlocked := some 0 }
    pcie := { Pcie.reset with cfg := { CfgSpace.reset with memEnable := true } } }

/-- The write closes the lapsed lock, which puts keyed mode in force, and then fails as LOCKED: the yarn keeps its direction. -/
theorem State.lapsedLock_writeYarnDirection : ∃ t, exec (.writeYarnDirection 0 0 1 (.pair (~~~1))) .lapsedLock = .next t ∧
    t.guard.fails = 1 ∧ t.pins.yarnDir[0][0] = 0 := ⟨_, rfl, by decide⟩

/-- Refutes O6: `State.admits` asks of a pair that paired mode is in force, but not that the write leaves it so. In `State.lapsedLock` the
write itself ends the mode, and its pair is not applied. -/
theorem not_maintenanceAndYarnWritesComplete : ¬ Obligations.MaintenanceAndYarnWritesComplete := by
  rintro ⟨-, -, -, -, direction, -⟩
  obtain ⟨t, ht, hwritten, -⟩ := direction 0 0 1 (.pair (~~~1)) .lapsedLock (by decide) (by decide) (by decide)
  obtain ⟨u, hu, -, hkept⟩ := State.lapsedLock_writeYarnDirection
  obtain rfl : t = u := Host.Outcome.next.inj (ht.symm.trans hu)
  exact absurd (hwritten.symm.trans hkept) (by decide)

end Sys2Proof.Machine
end

section
/-! PROOFS. What the steps of a capture do (O1), triggers (O2), and the order of the actions of one set (O46).

`Recorded a r` says what writing event records and counting saturations leave of a run `a`. The operations of the staircase that do no more
than that have one lemma each, with the operation's name; what else an operation does is said of the die that it leaves. -/

namespace Sys2Proof.Machine

/-! ### A run's own updates -/

@[simp] theorem Run.emit_die (r : Run) (x : Fx) : (r.emit x).die = r.die := rfl
@[simp] theorem Run.count_die (r : Run) (k : Nat) : (r.count k).die = r.die := rfl
@[simp] theorem Run.withStair_die (r : Run) (f : Stair → Stair) : (r.withStair f).die = { r.die with stair := f r.die.stair } := rfl
@[simp] theorem Run.withStore_die (r : Run) (f : Storage → Storage) : (r.withStore f).die = { r.die with store := f r.die.store } := rfl

@[simp] theorem Run.noteBacklog_die (r : Run) : r.noteBacklog.die = r.die := by
  unfold Run.noteBacklog
  split <;> rfl

/-! ### Records and saturations -/

/-- The die of `r` is that of `a` but for its storage stage, the phase offset that waits (R160), the number of the next snapshot (R161) and
the counters and timers that have saturated (R71). -/
def Recorded (a r : Run) : Prop := ∃ st ph n sat,
  r.die = { a.die with store := st, stair := { a.die.stair with rephase := ph, snaps := n, saturated := sat } }

section Recorded
variable {a r : Run} {c cs : EvClass} {s i : Nat}

theorem Recorded.refl (r : Run) : Recorded r r := ⟨_, _, _, _, rfl⟩

theorem Recorded.emit {x} (h : Recorded a r) : Recorded a (r.emit x) := h

theorem Recorded.withStore {f} (h : Recorded a r) : Recorded a (r.withStore f) := by
  obtain ⟨_, _, _, _, h⟩ := h
  exact ⟨_, _, _, _, by rw [Run.withStore_die, h]⟩

theorem Recorded.clearRephase (h : Recorded a r) : Recorded a (r.withStair (fun x => { x with rephase := none })) := by
  obtain ⟨_, _, _, _, h⟩ := h
  exact ⟨_, _, _, _, by rw [Run.withStair_die, h]⟩

theorem Recorded.countSnap (h : Recorded a r) : Recorded a (r.withStair (fun x => { x with snaps := x.snaps + 1 })) := by
  obtain ⟨_, _, _, _, h⟩ := h
  exact ⟨_, _, _, _, by rw [Run.withStair_die, h]⟩

theorem Recorded.saturate (h : Recorded a r) : Recorded a (r.saturate i).1 := by
  obtain ⟨_, _, _, _, h⟩ := h
  exact ⟨_, _, _, _, by rw [Run.saturate, Run.withStair_die, Run.count_die, h]⟩

theorem Recorded.foldl_fst {α β} {f : Run × β → α → Run × β} {l : List α} {q : Run × β}
    (hf : ∀ {q x}, Recorded a q.1 → Recorded a (f q x).1) (h : Recorded a q.1) : Recorded a (l.foldl f q).1 :=
  List.foldlRecOn (motive := fun q => Recorded a q.1) l f h (fun _ hq _ _ => hf hq)

theorem Recorded.putEvent {x t} (h : Recorded a r) : Recorded a (r.putEvent c x t s) := h.withStore

theorem Recorded.putSnap {vals t} (h : Recorded a r) : Recorded a (r.putSnap c i vals t s) :=
  List.foldlRecOn (motive := Recorded a) _ _ h (fun _ hr _ _ => hr.putEvent)

theorem Recorded.event {e} (h : Recorded a r) : Recorded a (r.event c s e) := by
  unfold Run.event
  dsimp only
  split
  · exact h.withStore.emit
  · exact h.putEvent.withStore.clearRephase

theorem Recorded.eventSnap {e vals} (h : Recorded a r) : Recorded a (r.eventSnap c cs s e vals) := by
  unfold Run.eventSnap
  dsimp only
  refine iteInduction (motive := Recorded a) (fun _ => ?_) (fun _ => ?_)
  · exact h.event
  · exact h.event.putSnap.countSnap

end Recorded

/-! ### The actions of one set (R75) -/

theorem countAct_of_reset_inc {c : Cond} {i : Nat} (v : Nat) (hrst : c.cntRst.getLsbD i = true) (hinc : c.cntInc.getLsbD i = true) :
    countAct c i v = 1 := by
  unfold countAct
  rw [if_pos hrst, if_pos hinc]
  decide

theorem timerAct_running_of_stop_start {c : Cond} {i : Nat} (pos : Nat) (tm : Timer) (hstop : c.tmrStop.getLsbD i = true)
    (hstart : c.tmrStart.getLsbD i = true) : (timerAct c i pos tm).running = true := by
  unfold timerAct
  rw [if_pos hstop, hstart]
  split <;> rfl

/-- A timer that stands still and is both reset and started runs from 0, whether it is also stopped or not. -/
theorem timerAct_of_reset_start {c : Cond} {i : Nat} (pos : Nat) {tm : Timer} (hrest : tm.running = false)
    (hrst : c.tmrRst.getLsbD i = true) (hstart : c.tmrStart.getLsbD i = true) :
    timerAct c i pos tm = { running := true, value := 0, start := pos } := by
  unfold timerAct
  dsimp only
  rw [if_pos hrst, hstart]
  split
  · rfl
  · rw [hrest]
    rfl

theorem timerAt_from_zero (pos later : Nat) :
    timerAt { running := true, value := 0, start := pos } later = min ((later - pos) / 5) maxCount := by
  rw [timerAt, if_pos rfl, Nat.zero_add]

/-- Counting saturations takes nothing back of what an action set gave the counters and timers. -/
theorem Run.localActions_values (r : Run) (at_ : SampleAt) (c : Cond) (i : Fin 8) :
    (r.localActions at_ c).1.die.stair.counters[i] = countAct c i.val r.die.stair.counters[i] ∧
    (r.localActions at_ c).1.die.stair.timers[i] = timerAct c i.val at_.pos r.die.stair.timers[i] := by
  obtain ⟨_, _, _, _, counted⟩ : Recorded _ (r.localActions at_ c).1 := .foldl_fst .saturate (.refl (r.withStair _))
  rw [counted, Run.withStair_die]
  simp only [Fin.getElem_fin, Vector.getElem_ofFn, and_self]

/-- Settles O46. The order of R75 is the order in which `countAct` and `timerAct` take the actions of one counter or timer. -/
theorem actionsInOrder : Obligations.ActionsInOrder := by
  refine ⟨fun c i v => countAct_of_reset_inc v, fun c i pos tm => timerAct_running_of_stop_start pos tm,
    fun c i pos later tm hrest hrst hstart => ?_, Run.localActions_values⟩
  rw [timerAct_of_reset_start pos hrest hrst hstart]
  exact ⟨rfl, timerAt_from_zero pos later⟩

/-! ### Samples and what falls due in them -/

/-- A deferred advance enters its target and leaves none pending (R81). -/
theorem Run.executeDeferred_enters (r : Run) (at_ : SampleAt) (df : Deferred) :
    (r.executeDeferred at_ df).die.stair.chamber = df.target ∧ (r.executeDeferred at_ df).die.stair.deferred = none := by
  obtain ⟨_, _, _, _, recorded⟩ : Recorded _ (r.executeDeferred at_ df) := (Recorded.refl _).eventSnap
  rw [recorded]
  exact ⟨rfl, rfl⟩

theorem getLsbD_or_two_pow {i n : Nat} (h : i < n) (x : BitVec n) : (x ||| BitVec.ofNat n (2 ^ i)).getLsbD i = true := by
  rw [BitVec.getLsbD_or, BitVec.getLsbD_ofNat, Nat.testBit_two_pow_self, decide_eq_true h, Bool.and_true, Bool.or_true]

/-- A running timer at its maximum is noted as such (R71). -/
theorem Run.timerFull_atMax {r : Run} {at_ : SampleAt} {k : Fin 8} (hrun : r.die.stair.timers[k].running = true)
    (hfull : timerAt r.die.stair.timers[k] at_.pos = maxCount) (hnew : r.die.stair.atMax.getLsbD (8 + k.val) = false) :
    (Run.timerFull at_ r k).die.stair.atMax.getLsbD (8 + k.val) = true := by
  have noted := getLsbD_or_two_pow (i := 8 + k.val) (n := 16) (by omega) r.die.stair.atMax
  unfold Run.timerFull
  dsimp only
  rw [if_pos (by rw [hrun, decide_eq_true hfull, hnew]; rfl)]
  split
  · obtain ⟨_, _, _, _, recorded⟩ := (Recorded.refl _).saturate.event
    rw [recorded]
    exact noted
  · exact noted

/-- Storing a barge leaves the event barge as it is. -/
theorem Run.storeBarge_eventOpen (r : Run) (b : Barge) : (r.storeBarge b).die.store.eventOpen = r.die.store.eventOpen := by
  unfold Run.storeBarge
  rw [Run.noteBacklog_die]
  rfl

theorem Run.storeEventBarge_eventOpen (r : Run) (b : Barge) : (r.storeEventBarge b).die.store.eventOpen = none := by
  unfold Run.storeEventBarge
  rw [Run.storeBarge_eventOpen]
  rfl

theorem Run.closeEventIfFull_eventOpen {r : Run} {b : Barge} (hopen : r.die.store.eventOpen = some b) (hfull : b.room false = false)
    (hroom : hasRoom r.die = true ∨ r.die.convoy.storing = false) : r.closeEventIfFull.die.store.eventOpen = none := by
  unfold Run.closeEventIfFull
  rw [hopen]
  dsimp only
  rw [if_pos (by simpa [hfull] using hroom), Run.storeEventBarge_eventOpen]

theorem Run.fillEvents_of_closed {r : Run} (h : r.die.store.eventOpen = none) (n : Nat) : r.fillEvents n = r := by
  cases n with
  | zero => rfl
  | succ n => rw [Run.fillEvents, if_pos (by simp [h])]

/-- A command that runs a die leaves the die as the run says. -/
theorem Completes.of_runDie {c : Instr} {s : State} {d : Die} {f : Run → Run} {P : State → Prop} (hexec : exec c s = .next (s.runDie d f))
    (h : ∀ t : State, t.dies[d] = (f (s.toRun d)).die → P t) : Completes c s P :=
  ⟨_, hexec, h _ (s.runDie_own d f)⟩

theorem execDeferredAdvanceExecute_of_due {d : Die} {df : Deferred} {s : State} (heval : s.evaluates d = true)
    (hmode : s.dies[d].plan.state = false) (hword : s.dies[d].convoy.nextSample % 16 = 0) (hdue : s.dies[d].stair.deferred = some df) :
    execDeferredAdvanceExecute d s = .next (s.runDie d (fun r => r.executeDeferred r.nextAt df)) := by
  unfold execDeferredAdvanceExecute
  dsimp only
  rw [hdue]
  exact congrArg Host.Outcome.next (if_pos (by rw [heval, hmode, decide_eq_true hword]; rfl))

theorem execTimerSaturation_of_time_mode {d : Die} {k : Fin 8} {s : State} (heval : s.evaluates d = true)
    (hmode : s.dies[d].plan.state = false) :
    execTimerSaturation d k s = .next (s.runDie d (fun r => Run.timerFull r.nextAt r k)) :=
  congrArg Host.Outcome.next (if_pos (by rw [heval, hmode]; rfl))

theorem execEventBargeClose_of_full {d : Die} {s : State} (heval : s.evaluates d = true) (hmany : 126 ≤ eventBacklog s.dies[d].store)
    (hroom : hasRoom s.dies[d] = true ∨ s.dies[d].convoy.storing = false) :
    execEventBargeClose d s = .next (s.runDie d (fun r => r.closeEventIfFull.fillEvents 126)) :=
  congrArg Host.Outcome.next (if_pos (by
    rw [heval, decide_eq_true hmany]
    simpa only [Bool.true_and, Bool.or_eq_true, Bool.not_eq_true'] using hroom))

/-- Settles O1. Each command but the sluice's runs its die, so that `Completes.of_runDie` asks only what that run does to it. -/
theorem evaluationCompletes : Obligations.EvaluationCompletes := by
  refine ⟨fun d w s heval => ?_, fun d df s heval hmode hword hdue => ?_, fun d k s heval hmode hrun hfull hnew => ?_,
    fun d b s heval hopen hfull hmany hroom => ?_, fun d s heval _ => ?_⟩
  · exact .of_runDie (congrArg Host.Outcome.next (if_pos heval)) (fun t ht => ht)
  · refine .of_runDie (execDeferredAdvanceExecute_of_due heval hmode hword hdue) (fun t ht => ?_)
    rw [ht]
    exact Run.executeDeferred_enters _ _ df
  · refine .of_runDie (execTimerSaturation_of_time_mode heval hmode) (fun t ht => ?_)
    rw [ht]
    exact Run.timerFull_atMax hrun hfull hnew
  · refine .of_runDie (execEventBargeClose_of_full heval hmany hroom) (fun t ht => ?_)
    have closed : (s.toRun d).closeEventIfFull.die.store.eventOpen = none := Run.closeEventIfFull_eventOpen hopen hfull hroom
    rw [ht, Run.fillEvents_of_closed closed]
    exact closed
  · exact congrArg Host.Outcome.next (if_pos heval)

/-! ### Triggers -/

/-- A BAR0 write that interrupts no guarded sequence acts on the state as it stands (R325, R378). -/
theorem State.onBar0_of_quiet {s : State} (h : s.quiet = true) (off : Nat) (f : State → State) : s.onBar0 off f = f s := by
  obtain ⟨hanswers, hguard⟩ := Bool.and_eq_true_iff.mp h
  unfold State.onBar0 State.interrupt
  rw [if_pos hanswers, Option.isNone_iff_eq_none.mp hguard]

theorem State.forceTrigger_of_capture {s : State} {d : Die} (hdie : s.hasDie d = true)
    (hcap : s.dies[d].isOpen = true ∨ s.dies[d].state = .arming) (loc : Nat × Nat) (via : Source) :
    s.forceTrigger d loc via = s.withDie d (fun x => { x with stair := { x.stair with force := true } }) := by
  unfold State.forceTrigger
  rw [if_neg (by simp [hdie]), if_pos hcap]

theorem Run.setTrigger_commits (r : Run) (t : Trigger) :
    (r.setTrigger t).die.stair.trigger = some t ∧ (r.setTrigger t).die.state = .postfill := by
  unfold Run.setTrigger
  rw [Run.emit_die, Run.noteBacklog_die]
  exact ⟨rfl, rfl⟩

/-- A placement commits a trigger point (R85). -/
theorem Run.placed_commits (r : Run) (at_ : SampleAt) (s : Nat) (t : Qword) (node : BitVec 18) (late : Bool) :
    (r.placed at_ s t node late).die.stair.trigger.isSome = true ∧ (r.placed at_ s t node late).die.state = .postfill := by
  obtain ⟨_, _, _, _, recorded⟩ : Recorded _ (r.placed at_ s t node late) := (Recorded.refl _).eventSnap
  obtain ⟨htrigger, hstate⟩ := Run.setTrigger_commits (r.withStair (fun x => { x with placement := none }))
    { sample := s, time := t, kind := .placement, late := late, foundAt := at_.latch }
  rw [recorded, htrigger]
  exact ⟨rfl, hstate⟩

theorem Run.pendingPlacement_commits {r : Run} {at_ : SampleAt} {p : Placement} (hplace : r.die.stair.placement = some p)
    (hstate : r.die.state = .armed) (hfree : r.die.stair.trigger = none) (hdue : atOrAfter at_.time p.target = true) :
    (r.pendingPlacement at_).die.stair.trigger.isSome = true ∧ (r.pendingPlacement at_).die.state = .postfill := by
  have placed := r.placed_commits at_ at_.s at_.time p.node (r.targetFrozen at_ p.target)
  unfold Run.pendingPlacement
  rw [hplace]
  dsimp only
  rw [if_neg (by simp [hfree]), if_pos ⟨hstate, hdue⟩]
  split
  · exact placed
  · exact placed

/-- A die that adopts a trigger point is in POSTFILL with that point's time, and holds no placement (R85, R87). -/
theorem Run.adopt_takes (r : Run) (t : Trigger) :
    (r.adopt t).die.state = .postfill ∧ (r.adopt t).die.stair.trigger.map Trigger.time = some t.time ∧
      (r.adopt t).die.stair.placement = none := by
  unfold Run.adopt Run.noteTrigger
  dsimp only
  simp only [Run.withStore_die, Run.noteBacklog_die]
  exact ⟨rfl, rfl, rfl⟩

theorem State.settlePin_of_none {s : State} {p : Fin 2} (h : s.pins.waiting[p] = []) : s.settlePin p = s := by
  have same : s.pins.waiting.set p [] = s.pins.waiting := by rw [← h]; simp
  unfold State.settlePin
  rw [h]
  simp [same]

/-- A pulse whose end is past leaves its pin inactive (R89). -/
theorem State.pulseOver_ends {s : State} {p : Fin 2} {e at_ : Nat} (hpulse : s.pins.pulseEnd[p] = some e) (hpast : e < at_) :
    (s.pulseOver p at_).pins.pulseEnd[p] = none ∧ (s.pulseOver p at_).pins.trigout.getLsbD p.val = false := by
  unfold State.pulseOver
  rw [hpulse]
  dsimp only
  rw [if_pos hpast]
  refine ⟨Vector.getElem_set_self .., ?_⟩
  rw [State.emit_pins, BitVec.getLsbD_and, BitVec.getLsbD_not, BitVec.getLsbD_ofNat, Nat.testBit_two_pow_self, decide_eq_true p.isLt]
  exact Bool.and_false _

theorem execPendingPlacementCommit_of_due {d : Die} {p : Placement} {s : State} (heval : s.evaluates d = true)
    (hplace : s.dies[d].stair.placement = some p) (hbegun : 0 < s.dies[d].convoy.nextSample)
    (hdue : atOrAfter s.dies[d].convoy.lastTime p.target = true) :
    execPendingPlacementCommit d s = .next (s.runDie d (fun r => r.pendingPlacement r.here)) := by
  unfold execPendingPlacementCommit
  dsimp only
  rw [hplace]
  exact congrArg Host.Outcome.next (if_pos (by rw [heval, decide_eq_true hbegun, hdue]; rfl))

/-- The other die's trigger point is taken off the line, adopted, and announced by the die's own interrupt (R87). -/
theorem execTriggerLineArrival_of_first {d : Die} {tr : Trigger} {s : State} (heval : s.evaluates d = true)
    (hcoupled : s.dies[d].plan.coupled = true) (hline : s.dies[otherDie d].stair.lineOut = some tr) (hdelay : tr.foundAt + ns 32 ≤ s.now)
    (hfree : s.dies[d].stair.trigger = none) :
    execTriggerLineArrival d s =
      .next (((s.withDie (otherDie d) (fun y => { y with stair := { y.stair with lineOut := none } })).runDie d
        (fun r => r.dropPlacement.adopt tr)).raise (capVector d)) := by
  unfold execTriggerLineArrival
  dsimp only
  rw [hline]
  dsimp only
  rw [if_neg (by rw [heval, hcoupled, decide_eq_false (Nat.not_lt.mpr hdelay)]; decide), hfree]

theorem execTrigoutPulseEnd_of_none {p : Fin 2} {s : State} (hnone : s.pins.waiting[p] = []) :
    execTrigoutPulseEnd p s = .next (s.pulseOver p (s.now + 1)) := by
  unfold execTrigoutPulseEnd
  dsimp only
  rw [State.settlePin_of_none hnone, hnone]
  rfl

/-- Settles O2. A trigger point commits by `setTrigger` or, over the line, by `adopt`; the records that follow leave it alone. -/
theorem triggerCommandsComplete : Obligations.TriggerCommandsComplete := by
  refine ⟨fun d s hquiet hdie hcap => ?_, fun d p s heval hplace hstate hfree hbegun hdue => ?_,
    fun d tr s heval hcoupled hline hdelay hfree => ?_, fun p e s hpulse hend hnone => ?_⟩
  · refine ⟨_, congrArg Host.Outcome.next ((s.onBar0_of_quiet hquiet _ _).trans (State.forceTrigger_of_capture hdie hcap _ _)), ?_⟩
    exact ⟨congrArg (fun x : DieSt => x.stair.force) (s.withDie_same d _), s.withDie_other d _ _ (otherDie_ne d).symm⟩
  · refine .of_runDie (execPendingPlacementCommit_of_due heval hplace hbegun hdue) (fun t ht => ?_)
    rw [ht]
    exact Run.pendingPlacement_commits hplace hstate hfree hdue
  · refine ⟨_, execTriggerLineArrival_of_first heval hcoupled hline hdelay hfree, ?_⟩
    simp only [State.raise_dies, State.runDie_own]
    exact Run.adopt_takes _ tr
  · exact ⟨_, execTrigoutPulseEnd_of_none hnone, State.pulseOver_ends hpulse (Nat.lt_succ_of_le hend)⟩

end Sys2Proof.Machine
end

section
/-! PROOFS. The copy of a sealed convoy, the retained quadrants, and the watchkeeper at work (O4).

A copy touches the deep store, its counters and objects alone; a watched edge changes no level but those of the slots that name its channel,
and reaches the state only through its own die. -/

namespace Sys2Proof.Machine

/-! ### The copy of a sealed convoy (R138) -/

/-- Copying barges changes the deep store and nothing else. -/
theorem State.copyBarges_eq (s : State) (bs : List (Die × BargeMeta)) (at_ : Nat) : ∃ m, s.copyBarges bs at_ = { s with dsMem := m } := by
  induction bs generalizing s at_ with
  | nil => exact ⟨s.dsMem, rfl⟩
  | cons b bs ih =>
    obtain ⟨m, hm⟩ := ih { s with dsMem := _ } _
    exact ⟨m, hm⟩

@[simp] theorem State.copyBarges_basin (s : State) (bs : List (Die × BargeMeta)) (at_ : Nat) : (s.copyBarges bs at_).basin = s.basin := by
  obtain ⟨m, hm⟩ := s.copyBarges_eq bs at_
  rw [hm]

/-- Objects that are set one after another leave the dies and the memories alone. -/
theorem State.foldl_putNat_frame {α : Type} (l : List α) (idx : α → Nat) (sub n : Nat) (s : State) :
    (l.foldl (fun s x => s.putNat (idx x) sub n) s).dies = s.dies ∧ SameMem (l.foldl (fun s x => s.putNat (idx x) sub n) s) s :=
  List.foldlRecOn (motive := fun t => t.dies = s.dies ∧ SameMem t s) l _ ⟨rfl, rfl, rfl, rfl⟩
    (fun t ht x _ => by simpa only [SameMem, State.putNat_dies, State.putNat_dsMem, State.putNat_basin, State.putNat_ram] using ht)

/-- A sealed basin convoy that fits the region, is not yet copied and has no open capture beside it: its copy begins. -/
theorem execSluiceSealedConvoy_accepts {d : Die} {via : Source} {s : State} (hvia : s.serves via = true) (hdie : s.hasDie d = true)
    (hsealed : s.dies[d].state = .sealed) (hbasin : s.dies[d].plan.deep = false) (hnew : s.objBool (0x3910 + d.val) 8 = false)
    (hrest : s.dies[d].win.copy = none)
    (hfits : (s.convoyBarges (s.convoyDies d)).length ≤ s.deep.barges (s.regionNow d).1 (s.regionNow d).2)
    (hother : s.dies[otherDie d].isOpen = false) :
    execSluiceSealedConvoy d via s =
      .next (s.withDie d (fun x => { x with win := { x.win with copy := some (s.regionNow d).1 } })) := by
  have present : ¬(!s.hasDie d) = true := by simp [hdie]
  exact congrArg Host.Outcome.next ((if_pos hvia).trans ((if_neg present).trans
    (if_pos (by rw [hsealed, hbasin, hrest, hnew, hother, decide_eq_true hfits]; simp))))

/-- The barges of die `d`'s convoy stand in the deep store from barge index `base` on, and the copy is over. -/
def State.copyStored (s : State) (d : Die) (base : Nat) : State :=
  let bs := s.convoyBarges (s.convoyDies d)
  ((s.copyBarges bs base).dsGroups 7 (4 * bs.length)).withDie d (fun x => { x with win := { x.win with copy := none } })

/-- The dies of the convoy note that it has been copied. -/
def State.copyDone (s : State) (d : Die) (base : Nat) : State :=
  (s.convoyDies d).foldl (fun s e => s.putNat (0x3910 + e.val) 8 1) (s.copyStored d base)

theorem execSluiceSealedCopyDone_of_running {d : Die} {base : Nat} {s : State} (hcopy : s.dies[d].win.copy = some base)
    (hclass5 : s.deep.paused = false) (hon : s.isOn = true) (hlive : s.frozen = false) :
    execSluiceSealedCopyDone d s = .next (s.copyDone d base) := by
  unfold execSluiceSealedCopyDone
  dsimp only
  rw [hcopy]
  exact congrArg Host.Outcome.next (if_neg (by simp [hclass5, hon, hlive]))

/-- A copy that ends has stored its barges, leaves the basin's in place, and is no longer under way. -/
theorem State.copyDone_stores (s : State) (d : Die) (base : Nat) :
    (s.copyDone d base).dies[d].win.copy = none ∧ (s.copyDone d base).basin = s.basin ∧
      (s.copyDone d base).dsMem = (s.copyBarges (s.convoyBarges (s.convoyDies d)) base).dsMem := by
  obtain ⟨hdies, hmem, hbasin, -⟩ := State.foldl_putNat_frame (s.convoyDies d) (fun e => 0x3910 + e.val) 8 1 (s.copyStored d base)
  unfold State.copyDone
  rw [hdies, hmem, hbasin]
  simp only [State.copyStored, State.withDie_same, State.withDie_basin, State.withDie_dsMem, State.dsGroups, State.bumpBy_basin,
    State.bumpBy_dsMem, State.copyBarges_basin, and_self]

/-! ### Watched edges (R114) -/

/-- The watched levels with the level of one slot. -/
def setSlot (levels : BitVec 64) (k : Fin 64) (v : Bool) : BitVec 64 :=
  if v then levels ||| BitVec.ofNat 64 (2 ^ k.val) else levels &&& ~~~(BitVec.ofNat 64 (2 ^ k.val))

theorem setSlot_getLsbD (levels : BitVec 64) (j k : Fin 64) (v : Bool) :
    (setSlot levels k v).getLsbD j.val = if k = j then v else levels.getLsbD j.val := by
  have bit : (BitVec.ofNat 64 (2 ^ k.val)).getLsbD j.val = decide (k = j) := by
    rw [BitVec.getLsbD_ofNat, Nat.testBit_two_pow, decide_eq_true j.isLt, Bool.true_and]
    exact decide_eq_decide.mpr Fin.ext_iff.symm
  have bits : (setSlot levels k v).getLsbD j.val =
      if v then levels.getLsbD j.val || decide (k = j) else levels.getLsbD j.val && !decide (k = j) := by
    unfold setSlot
    cases v
    · simp only [Bool.false_eq_true, if_false, BitVec.getLsbD_and, BitVec.getLsbD_not, bit, j.isLt, decide_true, Bool.true_and]
    · simp only [if_true, BitVec.getLsbD_or, bit]
  rw [bits]
  by_cases h : k = j
  · cases v <;> simp [h]
  · simp [h]

/-- Of the slots that take a level each has it, and no other slot changes. -/
theorem foldl_setSlot_getLsbD (l : List (Fin 64)) (levels : BitVec 64) (j : Fin 64) (v : Bool) :
    (l.foldl (fun levels k => setSlot levels k v) levels).getLsbD j.val = if j ∈ l then v else levels.getLsbD j.val := by
  induction l generalizing levels with
  | nil => rfl
  | cons k l ih =>
    rw [List.foldl_cons, ih, setSlot_getLsbD]
    by_cases hk : k = j
    · simp [hk]
    · simp [hk, Ne.symm hk]

theorem Watch.takeEdge_levels (w : Watch) (c : Fin 1024) (level : Bool) :
    (w.takeEdge c level).levels = (w.slotsOf c).foldl (fun levels k => setSlot levels k level) w.levels :=
  (List.foldl_hom Watch.levels (fun _ _ => rfl)).symm

theorem Watch.mem_slotsOf {w : Watch} {c : Fin 1024} {k : Fin 64} : k ∈ w.slotsOf c ↔ w.slots[k] = some c := by
  simp [Watch.slotsOf]

/-- Every slot that names the channel has the edge's level (R114). -/
theorem Watch.takeEdge_takes {w : Watch} {c : Fin 1024} {k : Fin 64} (h : w.slots[k] = some c) (level : Bool) :
    (w.takeEdge c level).levels.getLsbD k.val = level := by
  rw [Watch.takeEdge_levels, foldl_setSlot_getLsbD, if_pos (Watch.mem_slotsOf.mpr h)]

/-- Taking `w` apart keeps the kernel from comparing the two watches whole, logs included, where the subtraction of 4,096 goes too deep. -/
@[simp] theorem Watch.append_levels (w : Watch) (es : List LogRec) : (w.append es).watch.levels = w.levels := by
  cases w with
  | mk => simp only [Watch.append]

@[simp] theorem Watch.replace_levels (w : Watch) (old new : LogRec) : (w.replace old new).watch.levels = w.levels := rfl

/-- The log of an edge is no part of the levels. -/
@[simp] theorem Watch.logEdge_levels (w : Watch) (c : Nat) (t : Qword) (sat : Bool) (now : Nat) (disc : Option Nat) :
    (w.logEdge c t sat now disc).watch.levels = w.levels := by
  unfold Watch.logEdge
  extract_lets
  split
  · rw [Watch.replace_levels]
  · rw [Watch.append_levels]

/-- A watched edge gives its slots their level, on its own die alone. -/
theorem State.watchEdge_takes {s : State} {d : Die} {slot : Fin 64} {c : Fin 1024} (h : s.dies[d].watch.slots[slot] = some c) (t : Qword)
    (level : Bool) : (s.watchEdge d c t level).dies[d].watch.levels.getLsbD slot.val = level ∧
      (s.watchEdge d c t level).dies[otherDie d] = s.dies[otherDie d] := by
  unfold State.watchEdge
  simp only [State.bumpBy_dies, State.withDie_same, Watch.logEdge_levels]
  exact ⟨Watch.takeEdge_takes h level, State.withDie_other _ d _ _ (otherDie_ne d).symm⟩

theorem execWatchedEdge_of_edge {d : Die} {slot : Fin 64} {c : Fin 1024} {level : Bool} {s : State} (time : Qword)
    (hslot : s.dies[d].watch.slots[slot] = some c) (hruns : s.dies[d].watch.running = true)
    (hedge : s.dies[d].watch.levels.getLsbD slot.val = !level) :
    execWatchedEdge d slot time level s = .next (s.watchEdge d c time level) := by
  unfold execWatchedEdge
  dsimp only
  rw [hslot]
  exact congrArg Host.Outcome.next (if_pos (by rw [hruns, hedge]; simp))

/-! ### Chamber W (R113) -/

@[simp] theorem Watch.advance_counter (w : Watch) : w.advance.counter = w.counter := by
  unfold Watch.advance
  split <;> rfl

theorem execChamberWEvaluation_of_none {d : Die} {s : State} (hwatch : s.watching d = true)
    (hnone : s.dies[d].watch.advance.conds.find? s.dies[d].watch.advance.holds = none) :
    execChamberWEvaluation d s = .next (s.withDie d (fun x => { x with watch := s.dies[d].watch.advance.endTick })) := by
  unfold execChamberWEvaluation
  dsimp only
  rw [if_pos hwatch, hnone]

/-- A condition that wins without a wake acts on its die's watch alone. -/
theorem execChamberWEvaluation_of_winner {d : Die} {c : Cond} {s : State} (hwatch : s.watching d = true)
    (hwins : s.dies[d].watch.advance.conds.find? s.dies[d].watch.advance.holds = some c) (hstay : c.wake = false) :
    execChamberWEvaluation d s = .next (s.withDie d (fun x => { x with watch := (s.dies[d].watch.advance.act c).endTick })) := by
  unfold execChamberWEvaluation
  dsimp only
  rw [if_pos hwatch, hwins]
  exact congrArg Host.Outcome.next (if_neg (by simp [hstay]))

/-- Settles O4. Each command has one lemma that gives its next state; a copy's is `State.copyDone`, an edge's `State.watchEdge`, and the
others' change one die. -/
theorem sealedCopyAndWatchComplete : Obligations.SealedCopyAndWatchComplete := by
  refine ⟨fun d via s hvia hdie hsealed hbasin hnew hrest hfits hother => ?_, fun d base s hcopy hclass5 hon hlive => ?_,
    fun d s hhome hdue hon => ?_, fun d slot c time level s hslot hruns hedge => ?_, fun d s hwatch hnone => ?_,
    fun d c s hwatch hwins hstay => ?_⟩
  · exact ⟨_, execSluiceSealedConvoy_accepts hvia hdie hsealed hbasin hnew hrest hfits hother,
      congrArg (fun x : DieSt => x.win.copy) (s.withDie_same d _), rfl⟩
  · exact ⟨s.copyDone d base, execSluiceSealedCopyDone_of_running hcopy hclass5 hon hlive, s.copyDone_stores d base⟩
  · refine ⟨_, congrArg Host.Outcome.next (if_pos ⟨hhome, hdue, hon⟩), ?_⟩
    simp only [State.withDie_same, State.withDie_basin, and_self]
  · exact ⟨_, execWatchedEdge_of_edge time hslot hruns hedge, State.watchEdge_takes hslot time level⟩
  · refine ⟨_, execChamberWEvaluation_of_none hwatch hnone, ?_⟩
    simp only [State.withDie_same, State.withDie_power, Watch.endTick, Watch.advance_counter, and_self]
  · refine ⟨_, execChamberWEvaluation_of_winner hwatch hwins hstay, ?_⟩
    simp only [State.withDie_same, State.withDie_power, Watch.endTick, and_self]

end Sys2Proof.Machine
end

section
/-! PROOFS. The Ethernet ports and the servo, the knot engine, the deep store's controllers and the PLLs change only under their commands
(O57).

`Same u a s` says that the unit `u` of a state `s` is that of `a`. Each operation of the model has one lemma, with the operation's name, from
`Same u a s` to `Same u a` of what the operation makes of `s`; its hypotheses `u ≠ .net`, `u ≠ .knots`, `u ≠ .deep` and `u ≠ .clocks` are the
units that the operation may change. `exec_same` says of each command which operations it is built of. -/

namespace Sys2Proof.Machine

/-! ### The relation -/

/-- The units of O57: the Ethernet ports and the servo, the knot engine, the deep store's controllers, the PLLs. -/
inductive Part where
  | net | knots | deep | clocks

/-- The unit `u` is the same in two states. -/
def Same (u : Part) (a s : State) : Prop :=
  match u with
  | .net => s.net = a.net
  | .knots => s.knots = a.knots
  | .deep => s.deep = a.deep
  | .clocks => s.clocks = a.clocks

/-- The next state of a result, where there is one, has the unit `u` of `a`. -/
def SameAfter (u : Part) (a : State) : Result → Prop
  | .next s => Same u a s
  | .fault _ => True
  | .refused _ => True

variable {u : Part} {a s t : State}

theorem Same.refl : Same u s s := by cases u <;> rfl

/-- A change of nothing that `Same` speaks of. -/
theorem Same.of_units (e : t.net = s.net ∧ t.knots = s.knots ∧ t.deep = s.deep ∧ t.clocks = s.clocks) (h : Same u a s) : Same u a t := by
  obtain ⟨en, ek, ed, ec⟩ := e
  cases u with
  | net => exact en.trans h
  | knots => exact ek.trans h
  | deep => exact ed.trans h
  | clocks => exact ec.trans h

section
variable {n f pe o va ob ev gu ho pc di po he mr jt tb ne kn ga ge de ch cl pi ds dm ba ra}

/-- A change of other fields. -/
theorem Same.update (h : Same u a s) :
    Same u a ⟨n, f, pe, o, va, ob, ev, gu, ho, pc, di, po, he, mr, jt, tb, s.net, s.knots, ga, ge, s.deep, ch, s.clocks, pi, ds, dm, ba,
      ra⟩ := .of_units ⟨rfl, rfl, rfl, rfl⟩ h

theorem Same.updateNet (hn : u ≠ .net) (h : Same u a s) :
    Same u a ⟨n, f, pe, o, va, ob, ev, gu, ho, pc, di, po, he, mr, jt, tb, ne, s.knots, ga, ge, s.deep, ch, s.clocks, pi, ds, dm, ba,
      ra⟩ := by
  cases u with
  | net => exact absurd rfl hn
  | knots => exact h
  | deep => exact h
  | clocks => exact h

theorem Same.updateKnots (hk : u ≠ .knots) (h : Same u a s) :
    Same u a ⟨n, f, pe, o, va, ob, ev, gu, ho, pc, di, po, he, mr, jt, tb, s.net, kn, ga, ge, s.deep, ch, s.clocks, pi, ds, dm, ba,
      ra⟩ := by
  cases u with
  | net => exact h
  | knots => exact absurd rfl hk
  | deep => exact h
  | clocks => exact h

theorem Same.updateDeep (hd : u ≠ .deep) (h : Same u a s) :
    Same u a ⟨n, f, pe, o, va, ob, ev, gu, ho, pc, di, po, he, mr, jt, tb, s.net, s.knots, ga, ge, de, ch, s.clocks, pi, ds, dm, ba,
      ra⟩ := by
  cases u with
  | net => exact h
  | knots => exact h
  | deep => exact absurd rfl hd
  | clocks => exact h

theorem Same.updateClocks (hc : u ≠ .clocks) (h : Same u a s) :
    Same u a ⟨n, f, pe, o, va, ob, ev, gu, ho, pc, di, po, he, mr, jt, tb, s.net, s.knots, ga, ge, s.deep, ch, cl, pi, ds, dm, ba,
      ra⟩ := by
  cases u with
  | net => exact h
  | knots => exact h
  | deep => exact h
  | clocks => exact absurd rfl hc

end

/-! ### Choices and repetitions -/

theorem Same.ite {c : Prop} [Decidable c] (hs : Same u a s) (ht : Same u a t) : Same u a (if c then s else t) := by
  split
  · exact hs
  · exact ht

/-- A further operation, on one side of a choice. -/
theorem Same.when {c : Prop} [Decidable c] (hs : Same u a s) (ht : Same u a s → Same u a t) : Same u a (if c then t else s) :=
  .ite (ht hs) hs

/-- A further operation, on the other side of a choice. -/
theorem Same.unless {c : Prop} [Decidable c] (hs : Same u a s) (ht : Same u a s → Same u a t) : Same u a (if c then s else t) :=
  .ite hs (ht hs)

theorem Same.ite_fst {β} {c : Prop} [Decidable c] {q r : State × β} (hq : Same u a q.1) (hr : Same u a r.1) :
    Same u a (if c then q else r).1 := by
  split
  · exact hq
  · exact hr

theorem Same.foldl {α} {f : State → α → State} {l : List α} (hf : ∀ {t x}, Same u a t → Same u a (f t x)) (h : Same u a s) :
    Same u a (l.foldl f s) := by
  induction l generalizing s with
  | nil => exact h
  | cons x l ih => exact ih (hf h)

theorem Same.foldl_fst {α β} {f : State × β → α → State × β} {l : List α} {q : State × β}
    (hf : ∀ {q x}, Same u a q.1 → Same u a (f q x).1) (h : Same u a q.1) : Same u a (l.foldl f q).1 := by
  induction l generalizing q with
  | nil => exact h
  | cons x l ih => exact ih (hf h)

theorem SameAfter.next (h : Same u a s) : SameAfter u a (.next s) := h

theorem SameAfter.fault {r} : SameAfter u a (.fault r) := trivial

theorem SameAfter.ite {c : Prop} [Decidable c] {q r : Result} (hq : SameAfter u a q) (hr : SameAfter u a r) :
    SameAfter u a (if c then q else r) := by
  split
  · exact hq
  · exact hr

/-! ### Shared operations -/

theorem Same.drawn (h : Same u a s) : Same u a s.drawn := .of_units (by simp) h
theorem Same.emit {o} (h : Same u a s) : Same u a (s.emit o) := .of_units (by simp) h
theorem Same.put {idx sub v} (h : Same u a s) : Same u a (s.put idx sub v) := .of_units (by simp) h
theorem Same.putNat {idx sub n} (h : Same u a s) : Same u a (s.putNat idx sub n) := .of_units (by simp) h
theorem Same.putInt {idx sub n} (h : Same u a s) : Same u a (s.putInt idx sub n) := .of_units (by simp) h
theorem Same.bumpBy {idx sub n} (h : Same u a s) : Same u a (s.bumpBy idx sub n) := .of_units (by simp) h
theorem Same.bump {idx sub} (h : Same u a s) : Same u a (s.bump idx sub) := .of_units (by simp) h
theorem Same.raiseTo {idx sub n} (h : Same u a s) : Same u a (s.raiseTo idx sub n) := .of_units (by simp) h
theorem Same.flushVector {v} (h : Same u a s) : Same u a (s.flushVector v) := .of_units (by simp) h
theorem Same.flushAll (h : Same u a s) : Same u a s.flushAll := .foldl .flushVector h
theorem Same.raise {v} (h : Same u a s) : Same u a (s.raise v) := .of_units (by simp) h
theorem Same.setEv {r bits} (h : Same u a s) : Same u a (s.setEv r bits) := .of_units (by simp) h
theorem Same.setEvBit {r i} (h : Same u a s) : Same u a (s.setEvBit r i) := .of_units (by simp) h
theorem Same.bbDrop (h : Same u a s) : Same u a s.bbDrop := .of_units (by simp) h
theorem Same.bbPush {e} (h : Same u a s) : Same u a (s.bbPush e) := .of_units (by simp) h
theorem Same.bb {code sev data} (h : Same u a s) : Same u a (s.bb code sev data) := .of_units (by simp) h
theorem Same.ignoreOp {loc via c} (h : Same u a s) : Same u a (s.ignoreOp loc via c) := .of_units (by simp) h

theorem Same.clampOp {loc reason via requested applied} (h : Same u a s) : Same u a (s.clampOp loc reason via requested applied) :=
  .of_units (by simp) h

theorem Same.withDie {d f} (h : Same u a s) : Same u a (s.withDie d f) := .of_units (by simp) h
theorem Same.withGen {d f} (h : Same u a s) : Same u a (s.withGen d f) := .of_units (by simp) h
theorem Same.withGauge {g f} (h : Same u a s) : Same u a (s.withGauge g f) := .of_units (by simp) h

/-! ### BAR0 writes and the guard -/

theorem Same.guardFail {cause off value via} (h : Same u a s) : Same u a (s.guardFail cause off value via) :=
  .bb (.setEvBit (.setEvBit (.update h)))

theorem Same.interrupt {off} (h : Same u a s) : Same u a (s.interrupt off) := by
  unfold State.interrupt
  split
  · exact .ite h (.guardFail (.update h))
  · exact h

theorem Same.onBar0 {off f} (hf : ∀ {t}, Same u a t → Same u a (f t)) (h : Same u a s) : Same u a (s.onBar0 off f) :=
  .ite (hf (.interrupt h)) (.emit h)

theorem Same.onPath {via f} (hf : ∀ {t}, Same u a t → Same u a (f t)) (h : Same u a s) : Same u a (s.onPath via f) := .ite (hf h) h

theorem Same.byPath {via off f} (hf : ∀ {t}, Same u a t → Same u a (f t)) (h : Same u a s) : Same u a (s.byPath via off f) :=
  .ite (.onBar0 hf h) (.onPath hf h)

theorem Same.closeLock (h : Same u a s) : Same u a s.closeLock := by
  unfold State.closeLock
  split
  · exact .ite (.setEvBit (.update h)) h
  · exact h

theorem Same.guardedWrite {off v apply} (happly : ∀ {x t}, Same u a t → Same u a (apply x t)) (h : Same u a s) :
    Same u a (s.guardedWrite off v apply) := by
  unfold State.guardedWrite
  refine .onBar0 (fun h1 => .ite ?_ (.update (.closeLock h1))) h
  split
  · exact happly (.update (.closeLock h1))
  · exact .guardFail (.closeLock h1)

theorem Same.complementWrite {off c apply} (happly : ∀ {x t}, Same u a t → Same u a (apply x t)) (h : Same u a s) :
    Same u a (s.complementWrite off c apply) := by
  unfold State.complementWrite
  refine .onBar0 (fun h1 => .ite h1 ?_) h
  split
  · exact .ite (happly (.update h1)) (.guardFail (.update h1))
  · exact .guardFail h1

theorem Same.partialDword (h : Same u a s) : Same u a s.partialDword := .setEvBit (.update h)
theorem Same.hkcAreaDword (h : Same u a s) : Same u a s.hkcAreaDword := .setEvBit (.update h)

theorem Same.guardForm {off v g apply} (happly : ∀ {x t}, Same u a t → Same u a (apply x t)) (h : Same u a s) :
    Same u a (s.guardForm off v g apply) := by
  unfold State.guardForm
  split
  · exact .guardedWrite happly h
  · exact .complementWrite happly (.guardedWrite happly h)

/-! ### The time base: ticks, steps, slots, sources -/

theorem Same.addTime {amt} (h : Same u a s) : Same u a (s.addTime amt) := .unless (.update h) .setEvBit
theorem Same.stepDies {amt} (h : Same u a s) : Same u a (s.stepDies amt) := .update h
theorem Same.bbStep {amt kind srv} (h : Same u a s) : Same u a (s.bbStep amt kind srv) := .ite (.bb h) h
theorem Same.plainTick (h : Same u a s) : Same u a s.plainTick := .addTime (.update h)

theorem Same.applyStep (h : Same u a s) : Same u a s.applyStep := by
  unfold State.applyStep
  split
  · exact h
  · exact .bbStep (.putInt (.put (.bump (.stepDies (.addTime (.update h))))))

theorem Same.tick (h : Same u a s) : Same u a s.tick := .ite (.applyStep (.plainTick h)) h

theorem Same.knowTime (h : Same u a s) : Same u a s.knowTime := by
  unfold State.knowTime
  split
  · exact h
  · exact .update h

theorem Same.setTimeset (h : Same u a s) : Same u a s.setTimeset := .ite h (.knowTime (.update h))
theorem Same.setDisciplined (h : Same u a s) : Same u a s.setDisciplined := .ite h (.setTimeset (.update h))
theorem Same.markGauges {bit} (h : Same u a s) : Same u a (s.markGauges bit) := .update h
theorem Same.markDieGauges {d bit} (h : Same u a s) : Same u a (s.markDieGauges d bit) := .update h

theorem Same.dropHold (hn : u ≠ .net) (h : Same u a s) : Same u a s.dropHold := by
  unfold State.dropHold
  split
  · exact .bb (.updateNet hn h)
  · exact h

theorem Same.enterHoldover {cause} (hn : u ≠ .net) (h : Same u a s) : Same u a (s.enterHoldover cause) :=
  .ite (.bb (.markGauges (.updateNet hn (.dropHold hn h)))) h

theorem Same.setInc {v} (h : Same u a s) : Same u a (s.setInc v) := .update h

theorem Same.commitInc {v via} (h : Same u a s) : Same u a (s.commitInc v via) := by
  unfold State.commitInc
  exact .unless (.setInc h) (fun h1 => .clampOp (.bump (.setEvBit h1)))

theorem Same.loadInc (h : Same u a s) : Same u a s.loadInc := .when (.update h) (fun h1 => .update (.setInc h1))
theorem Same.feedWatchdog (h : Same u a s) : Same u a s.feedWatchdog := .update h

theorem Same.commitStep {amt via srv} (h : Same u a s) : Same u a (s.commitStep amt via srv) :=
  .ite (.ignoreOp (.setEvBit h)) (.ite (.bump (.setEvBit h)) (.update h))

/-- The time of a tick, with or without its increment (R173). -/
theorem Same.tickTime {c : Prop} [Decidable c] (h : Same u a s) :
    Same u a (if c then { s with now := s.plainTick.now } else s.plainTick) :=
  .ite (.update h) (.plainTick h)

theorem Same.forceStep {v abs srv} (hn : u ≠ .net) (h : Same u a s) : Same u a (s.forceStep v abs srv) := by
  unfold State.forceStep
  exact have h1 := .tickTime (.ite (.ignoreOp (.setEvBit (.update h))) h)
    .when (.enterHoldover hn (.bbStep (.bb (.bump (.setTimeset (.ite (.update h1) (.addTime h1))))))) (.updateNet hn)

theorem Same.fstepGo {v} (hn : u ≠ .net) (h : Same u a s) : Same u a (s.fstepGo v) :=
  .ite (.ignoreOp (.bump (.setEvBit h))) (.when (.update h) (.forceStep hn))

theorem Same.writeEpoch {v loc via} (h : Same u a s) : Same u a (s.writeEpoch v loc via) :=
  .ite (.ignoreOp h) (.bb (.setTimeset (.update h)))

theorem Same.withSlot {k f} (h : Same u a s) : Same u a (s.withSlot k f) := .of_units (by simp) h
theorem Same.judgeSlot {k} (h : Same u a s) : Same u a (s.judgeSlot k) := .ite (.withSlot h) h
theorem Same.commitTarget {k x} (h : Same u a s) : Same u a (s.commitTarget k x) := .judgeSlot (.withSlot h)
theorem Same.enableSlot {k} (h : Same u a s) : Same u a (s.enableSlot k) := .ite h (.judgeSlot (.withSlot h))

theorem Same.fireSlot {k} (h : Same u a s) : Same u a (s.fireSlot k) :=
  .when (.raise (.when (.when (.bump (.withSlot h)) .bump) .bumpBy)) .bb

theorem Same.driveRefout (h : Same u a s) : Same u a s.driveRefout := .ite h (.emit (.update h))

theorem Same.swapSource {src interval fallback} (hc : u ≠ .clocks) (h : Same u a s) : Same u a (s.swapSource src interval fallback) :=
  .unless (.bb (.putInt (.driveRefout (.updateClocks hc (.applyStep (.addTime (.update h))))))) .setInc

/-! ### PLLs -/

theorem Same.withPll {i f} (hc : u ≠ .clocks) (h : Same u a s) : Same u a (s.withPll i f) := .updateClocks hc h

theorem Same.startPll {i n} (hc : u ≠ .clocks) (h : Same u a s) : Same u a (s.startPll i n) := by
  unfold State.startPll
  refine .ite (.withPll hc h) (.ite h ?_)
  split
  · exact .withPll hc (.updateClocks hc h)
  · exact .withPll hc h

theorem Same.stopPll {i} (hc : u ≠ .clocks) (h : Same u a s) : Same u a (s.stopPll i) := .withPll hc h
theorem Same.needSpll {d} (hc : u ≠ .clocks) (h : Same u a s) : Same u a (s.needSpll d) := .ite h (.startPll hc h)
theorem Same.restSpll {d} (hc : u ≠ .clocks) (h : Same u a s) : Same u a (s.restSpll d) := .ite h (.stopPll hc h)

/-! ### The deep store -/

theorem Same.withChan {c f} (hd : u ≠ .deep) (h : Same u a s) : Same u a (s.withChan c f) := .updateDeep hd h

theorem Same.dsGrant {c} (hd : u ≠ .deep) (h : Same u a s) : Same u a (s.dsGrant c) := by
  unfold State.dsGrant
  split
  · exact .updateDeep hd h
  · exact h

theorem Same.dsAsk {p addr write} (hd : u ≠ .deep) (h : Same u a s) : Same u a (s.dsAsk p addr write) :=
  .ite h (.ite (.bump h) (.dsGrant hd (.updateDeep hd h)))

theorem Same.dsServed {p} (hd : u ≠ .deep) (h : Same u a s) : Same u a (s.dsServed p) := by
  unfold State.dsServed
  split
  · exact h
  · exact .dsGrant hd (.raiseTo (.when (.bump (.updateDeep hd h)) .bump))

theorem Same.dsGroups {p n} (h : Same u a s) : Same u a (s.dsGroups p n) := .bumpBy h

theorem Same.dsAccess {p addr write n} (hd : u ≠ .deep) (h : Same u a s) : Same u a (s.dsAccess p addr write n) :=
  .ite (.dsGroups h) (.dsGroups (.dsAsk hd h))

theorem Same.damage {barge cause} (hd : u ≠ .deep) (h : Same u a s) : Same u a (s.damage barge cause) := .bump (.updateDeep hd (.put h))

theorem Same.retireRank {c r} (hd : u ≠ .deep) (h : Same u a s) : Same u a (s.retireRank c r) :=
  .bb (.bump (.setEvBit (.update (.withChan hd (.updateDeep hd h)))))

theorem Same.failChannel {c property} (hd : u ≠ .deep) (h : Same u a s) : Same u a (s.failChannel c property) :=
  .bb (.bump (.setEvBit (.damage hd (.withChan hd h))))

/-! ### Pattern generators -/

theorem Same.showIdle {d} (h : Same u a s) : Same u a (s.showIdle d) := .emit h
theorem Same.genPlay {d} (h : Same u a s) : Same u a (s.genPlay d) := .ite h (.emit (.withGen h))

theorem Same.genAsk {d} (hd : u ≠ .deep) (h : Same u a s) : Same u a (s.genAsk d) := by
  unfold State.genAsk
  refine .ite ?_ h
  split
  · exact .dsAsk hd (.withGen h)
  · exact h

theorem Same.genTake {d bad} (h : Same u a s) : Same u a (s.genTake d bad) := by
  unfold State.genTake
  split
  · exact h
  · exact .withGen h

theorem Same.genLand {d i} (h : Same u a s) : Same u a (s.genLand d i) := .withGen h
theorem Same.clampSync {d} (h : Same u a s) : Same u a (s.clampSync d) := .ite (.clampOp (.putNat h)) h

theorem Same.genPrime {d startCmd target} (hd : u ≠ .deep) (hc : u ≠ .clocks) (h : Same u a s) : Same u a (s.genPrime d startCmd target) :=
  .when (.startPll hc (.putNat (.withGen (.foldl .putNat (.clampSync h))))) (.genAsk hd)

theorem Same.genRest {d} (hc : u ≠ .clocks) (h : Same u a s) : Same u a (s.genRest d) := .showIdle (.raise (.restSpll hc (.withGen h)))
theorem Same.genRefuse {d e entry} (hc : u ≠ .clocks) (h : Same u a s) : Same u a (s.genRefuse d e entry) := .genRest hc (.withGen h)
theorem Same.genRun {d x} (h : Same u a s) : Same u a (s.genRun d x) := .put (.withGen h)
theorem Same.genEnd {d e from_} (h : Same u a s) : Same u a (s.genEnd d e from_) := .put (.withGen h)
theorem Same.genStopIdle {d e} (hc : u ≠ .clocks) (h : Same u a s) : Same u a (s.genStopIdle d e) := .genRest hc (.withGen h)
theorem Same.genFail {d e} (h : Same u a s) : Same u a (s.genFail d e) := .bb (.setEvBit (.bump (.putNat (.putNat (.putNat (.genEnd h))))))
theorem Same.genSettle {d} (h : Same u a s) : Same u a (s.genSettle d) := .when (.genPlay h) .genFail
theorem Same.genRefilled {d bad} (hd : u ≠ .deep) (h : Same u a s) : Same u a (s.genRefilled d bad) := .genAsk hd (.genTake (.genSettle h))

theorem Same.genHalt {d e} (hc : u ≠ .clocks) (h : Same u a s) : Same u a (s.genHalt d e) := by
  unfold State.genHalt
  dsimp only
  split
  · exact .genStopIdle hc (.genSettle h)
  · exact .genStopIdle hc (.genSettle h)
  · exact .genEnd (.genSettle h)
  · exact .ite (.withGen (.genSettle h)) (.genEnd (.genSettle h))
  · exact .genSettle h
  · exact .genSettle h

theorem Same.genEnter {d i x} (h : Same u a s) : Same u a (s.genEnter d i x) := .withGen h

theorem Same.genExit {d e x} (h : Same u a s) : Same u a (s.genExit d e x) := by
  unfold State.genExit
  split
  · exact .ite (.genEnd h) (.genEnter h)
  · exact .genEnter h
  · exact .withGen h
  · exact .withGen h
  · exact .genEnd h

theorem Same.genPass {d x} (h : Same u a s) : Same u a (s.genPass d x) :=
  .ite (.genEnd h) (.ite (.genEnter (.genLand (.bump (.withGen h)))) (.ite (.withGen (.withGen h)) (.genExit (.withGen h))))

theorem Same.genJump {d src ref} (h : Same u a s) : Same u a (s.genJump d src ref) := by
  unfold State.genJump
  refine .ite ?_ ?_
  · split
    · exact .ignoreOp h
    · exact h
    · exact h
  · split
    · exact .ite (.bump h) (.ite (.withGen h) (.setEvBit (.bump (.withGen h))))
    · exact .ite (.bump h) (.setEvBit (.bump (.withGen h)))
    · exact .bump h
    · exact .bump h
    · exact .bump h
    · exact .bump h

theorem Same.genTrigin {d pin rising ref} (h : Same u a s) : Same u a (s.genTrigin d pin rising ref) := .ite (.genJump h) h

theorem Same.genTimeStart {d target} (hd : u ≠ .deep) (hc : u ≠ .clocks) (h : Same u a s) : Same u a (s.genTimeStart d target) := by
  unfold State.genTimeStart
  refine .ite (.ignoreOp h) ?_
  split
  · exact .ite (.genPrime hd hc h) (.ignoreOp h)
  · exact .withGen h
  · exact .ignoreOp h
  · exact .ignoreOp h
  · exact .ignoreOp h
  · exact .ignoreOp h

theorem Same.genSync {d phase} (h : Same u a s) : Same u a (s.genSync d phase) :=
  .ite (.when (.withGen h) (fun h1 => .when (.putInt h1) (fun h2 => .setEvBit (.bump h2)))) h

theorem Same.genKnot {d cls k} (h : Same u a s) : Same u a (s.genKnot d cls k).1 :=
  .ite_fst (.ite_fst (.setEvBit (.bump (.withGen h))) (.withGen h)) h

theorem Same.genCoast {d} (hc : u ≠ .clocks) (h : Same u a s) : Same u a (s.genCoast d) := .genHalt hc h

/-! ### Running a die -/

theorem Same.pulseOver {p at_} (h : Same u a s) : Same u a (s.pulseOver p at_) := by
  unfold State.pulseOver
  split
  · exact .ite (.emit (.update h)) h
  · exact h

theorem Same.startPulse {p x} (h : Same u a s) : Same u a (s.startPulse p x) := .unless (.update (.pulseOver h)) .emit
theorem Same.settlePin {p} (h : Same u a s) : Same u a (s.settlePin p) := .foldl .startPulse (.update h)
theorem Same.settlePins (h : Same u a s) : Same u a s.settlePins := .settlePin (.settlePin h)
theorem Same.pulse {p d at_} (h : Same u a s) : Same u a (s.pulse p d at_) := .ite (.update h) h
theorem Same.loadTrigRam {d} (h : Same u a s) : Same u a (s.loadTrigRam d) := .withDie h
theorem Same.towFlags {d flags latch} (h : Same u a s) : Same u a (s.towFlags d flags latch) := .when (.ite (.withDie h) h) .genJump
theorem Same.endPartner {d cause} (h : Same u a s) : Same u a (s.endPartner d cause) := .ite (.withDie h) h

theorem Same.applyFx {d x} (h : Same u a s) : Same u a (s.applyFx d x) := by
  unfold State.applyFx
  split
  · exact .bumpBy h
  · exact .raiseTo h
  · exact .towFlags h
  · exact .when (.ite (.pulse h) h) .pulse
  · exact .genTrigin h
  · exact .update h
  · exact .raise h
  · exact .endPartner h
  · exact .bb h

theorem Same.noteTrigTime {d was now_} (h : Same u a s) : Same u a (s.noteTrigTime d was now_) := by
  unfold State.noteTrigTime
  split
  · exact .ite h (.put h)
  · exact h

theorem Same.runDie {d f} (h : Same u a s) : Same u a (s.runDie d f) := .noteTrigTime (.settlePins (.foldl .applyFx (.update h)))
theorem Same.endDie {d cause} (h : Same u a s) : Same u a (s.endDie d cause) := .ite (.runDie h) h

/-! ### Written values -/

theorem Same.clampField {r idx sub v via} (h : Same u a s) : Same u a (s.clampField r idx sub v via).1 := by
  unfold State.clampField
  dsimp only
  split
  · exact .clampOp h
  · exact h

theorem Same.writeField {idx sub v via} (h : Same u a s) : Same u a (s.writeField idx sub v via) := by
  unfold State.writeField
  split
  · exact .put (.clampField h)
  · exact h

/-! ### Commands of the time base -/

theorem Same.ownHost {off f} (hf : ∀ {t}, Same u a t → Same u a (f t)) (h : Same u a s) : Same u a (s.ownHost off f) :=
  .ite (hf h) (.ignoreOp (.setEvBit h))

theorem Same.writeIncHi {hi} (h : Same u a s) : Same u a (s.writeIncHi hi) := .ownHost (fun h1 => .feedWatchdog (.commitInc (.update h1))) h
theorem Same.writeStepHi {hi} (h : Same u a s) : Same u a (s.writeStepHi hi) := .ownHost .commitStep h
theorem Same.discSet (h : Same u a s) : Same u a s.discSet := .ownHost (fun h1 => .feedWatchdog (.setDisciplined (.update h1))) h

theorem Same.discClear (hn : u ≠ .net) (h : Same u a s) : Same u a s.discClear :=
  .ownHost (fun h1 => .feedWatchdog (.when (.update h1) (.enterHoldover hn))) h

theorem Same.freeRun (h : Same u a s) : Same u a s.freeRun := .put (.update (.setInc h))

theorem Same.writeOwner {o} (hn : u ≠ .net) (h : Same u a s) : Same u a (s.writeOwner o) :=
  .ite h (.when (.updateNet hn (.enterHoldover hn h)) .freeRun)

theorem Same.selectSource {v via} (hc : u ≠ .clocks) (h : Same u a s) : Same u a (s.selectSource v via) :=
  .ite (.updateClocks hc (.ite h (.clampOp h))) (.ignoreOp h)

theorem SameAfter.sourceSwap {interval} (hc : u ≠ .clocks) : SameAfter u s (execSourceSwap interval s) := by
  unfold execSourceSwap
  refine .next ?_
  split
  · exact .ite .refl (.swapSource hc .refl)
  · exact .refl

theorem SameAfter.ageingLearned {pick} : SameAfter u s (execAgeingLearned pick s) := by
  unfold execAgeingLearned
  refine .next ?_
  split
  · exact .ite (.update .refl) .refl
  · exact .refl

theorem Same.latchPair {p} (hn : u ≠ .net) (h : Same u a s) : Same u a (s.latchPair p).1 := by
  unfold State.latchPair
  split
  · exact .update h
  · exact .ite_fst (.update h) h
  · exact .withGen h
  · exact .updateNet hn h
  · exact .updateNet hn h

/-! ### The PTP engine -/

theorem Same.withPort {p f} (hn : u ≠ .net) (h : Same u a s) : Same u a (s.withPort p f) := .updateNet hn h
theorem Same.countFrame {p} (h : Same u a s) : Same u a (s.countFrame p) := .bump h
theorem Same.dropFrame {p} (h : Same u a s) : Same u a (s.dropFrame p) := .bump h

theorem Same.ptpFrame {p f} (hf : ∀ {t}, Same u a t → Same u a (f t)) (h : Same u a s) : Same u a (s.ptpFrame p f) :=
  .ite (.ite (hf (.countFrame h)) (.dropFrame (.countFrame h))) h

theorem Same.sendPtp {p m} (h : Same u a s) : Same u a (s.sendPtp p m) := .emit h

theorem Same.dropWaiting (hn : u ≠ .net) (h : Same u a s) : Same u a s.dropWaiting := by
  unfold State.dropWaiting
  split
  · exact .bump (.updateNet hn h)
  · exact h

theorem Same.newParent {parent} (hn : u ≠ .net) (h : Same u a s) : Same u a (s.newParent parent) :=
  .updateNet hn (.unless (.dropWaiting hn h) (.dropHold hn))

theorem Same.elect (hn : u ≠ .net) (h : Same u a s) : Same u a s.elect := .updateNet hn (.ite (.updateNet hn h) (.newParent hn h))

theorem Same.ptpSettle (hn : u ≠ .net) (h : Same u a s) : Same u a s.ptpSettle :=
  .elect hn (.updateNet hn (.unless (.ite (.enterHoldover hn h) h) (.dropHold hn)))

theorem Same.takeStamp {p e} (hn : u ≠ .net) (h : Same u a s) : Same u a (s.takeStamp p e) := by
  unfold State.takeStamp
  dsimp only
  split
  · exact .withPort hn h
  · split
    · exact .sendPtp (.withPort hn h)
    · exact .sendPtp (.withPort hn h)
    · exact .withPort hn h
    · exact .withPort hn h

theorem Same.takeStamps {p} (hn : u ≠ .net) (h : Same u a s) : Same u a (s.takeStamps p) := .ite (.foldl (.takeStamp hn) (.withPort hn h)) h

theorem Same.queueStamp {p typ seq mii} (hn : u ≠ .net) (h : Same u a s) : Same u a (s.queueStamp p typ seq mii) :=
  .ite (.withPort hn (.bump (.bump (.setEvBit h)))) (.takeStamps hn (.withPort hn h))

theorem Same.steerRate {wide} (hn : u ≠ .net) (h : Same u a s) : Same u a (s.steerRate wide) := by
  unfold State.steerRate
  exact .commitInc (.drawn (.drawn (.updateNet hn h)))

theorem Same.publishSync {m} (hn : u ≠ .net) (h : Same u a s) : Same u a (s.publishSync m) :=
  .putNat (.put (.putInt (.putInt (.put (.putNat (.putNat (.updateNet hn h)))))))

theorem Same.countLock {offset} (hn : u ≠ .net) (h : Same u a s) : Same u a (s.countLock offset) :=
  .when (.updateNet hn h) (fun h1 => .setDisciplined (.updateNet hn h1))

theorem Same.acquire {offset} (hn : u ≠ .net) (h : Same u a s) : Same u a (s.acquire offset) :=
  .ite (.countLock hn (.steerRate hn h)) (.ite (.countLock hn (.commitStep h)) (.ite (.forceStep hn (.writeEpoch h)) (.countLock hn
    (.steerRate hn
    (.setEvBit h)))))

theorem Same.servoOffset {offset} (hn : u ≠ .net) (h : Same u a s) : Same u a (s.servoOffset offset) := by
  unfold State.servoOffset
  split
  · exact .acquire hn (.updateNet hn h)
  · exact .acquire hn (.updateNet hn h)
  · exact .acquire hn h
  · exact .ite (.steerRate hn h) (.commitStep h)
  · exact h
  · exact h
  · exact h

theorem Same.takeSync {p seq t1 t2 coasted} (hn : u ≠ .net) (h : Same u a s) : Same u a (s.takeSync p seq t1 t2 coasted) := by
  unfold State.takeSync
  dsimp only
  split
  · exact .ite (.when (.publishSync hn (.updateNet hn (.bump (.withPort hn h)))) (.servoOffset hn)) (.bump (.withPort hn h))
  · exact .bump (.withPort hn h)

theorem Same.bbPath {port phase step} (h : Same u a s) : Same u a (s.bbPath port phase step) := .bb h

theorem Same.raiseHold {port old v} (hn : u ≠ .net) (h : Same u a s) : Same u a (s.raiseHold port old v) :=
  .bbPath (.setEvBit (.updateNet hn h))

theorem Same.endHold (hn : u ≠ .net) (h : Same u a s) : Same u a s.endHold := .updateNet hn h

theorem Same.judgeDelay {mine port old v adopt forget} (hn : u ≠ .net) (hadopt : ∀ {t}, Same u a t → Same u a (adopt t))
    (hforget : ∀ {t}, Same u a t → Same u a (forget t)) (h : Same u a s) :
    Same u a (s.judgeDelay mine port old v adopt forget) := by
  unfold State.judgeDelay
  dsimp only
  split
  · exact .ite (.when (.raiseHold hn h) .bump) (hadopt h)
  · refine .ite (hadopt h) ?_
    split
    · exact .bbPath (.when (.endHold hn h) .bump)
    · exact .bbPath (.when (hadopt (.endHold hn h)) .putInt)
    · exact .enterHoldover hn (hforget h)
    · exact .updateNet hn h
  · exact hadopt h

theorem Same.takeDelay {p v} (hn : u ≠ .net) (h : Same u a s) : Same u a (s.takeDelay p v) :=
  .judgeDelay hn (fun h1 => .putInt (.withPort hn h1)) (.withPort hn) (.withPort hn h)

theorem Same.missDelay {p} (hn : u ≠ .net) (h : Same u a s) : Same u a (s.missDelay p) :=
  .ite h (.when (.withPort hn h) (fun h1 => .bb (.bump (.setEvBit h1))))

/-! ### Knots on their way -/

theorem Same.withAlp {k f} (hk : u ≠ .knots) (h : Same u a s) : Same u a (s.withAlp k f) := .updateKnots hk h
theorem Same.sendFrame {k typ data} (h : Same u a s) : Same u a (s.sendFrame k typ data) := .emit h
theorem Same.discardFrame {k} (h : Same u a s) : Same u a (s.discardFrame k) := .bump h

theorem Same.sendAlp {k kn} (hk : u ≠ .knots) (h : Same u a s) : Same u a (s.sendAlp k kn) :=
  .ite (.bb (.bump (.setEvBit h))) (.sendFrame (.raiseTo (.withAlp hk h)))

theorem Same.remember {kn} (hk : u ≠ .knots) (h : Same u a s) : Same u a (s.remember kn) := .updateKnots hk h
theorem Same.reportGroup {p v6} (h : Same u a s) : Same u a (s.reportGroup p v6) := .ite (.emit h) h
theorem Same.reportGroups {p} (h : Same u a s) : Same u a (s.reportGroups p) := .reportGroup (.reportGroup h)
theorem Same.sendKnotOver {p kn v6} (h : Same u a s) : Same u a (s.sendKnotOver p kn v6) := .ite (.emit h) h
theorem Same.sendEth {p kn} (h : Same u a s) : Same u a (s.sendEth p kn) := .sendKnotOver (.sendKnotOver h)
theorem Same.cacheKnot {kn} (hk : u ≠ .knots) (h : Same u a s) : Same u a (s.cacheKnot kn) := .when (.updateKnots hk h) .bump

theorem Same.forwardAlp {ports kn} (hk : u ≠ .knots) (h : Same u a s) : Same u a (s.forwardAlp ports kn) :=
  .foldl (fun h1 => .bump (.sendAlp hk h1)) h

theorem Same.relayEth {kn} (h : Same u a s) : Same u a (s.relayEth kn) := .foldl .sendEth h

theorem Same.forward {route kn} (hk : u ≠ .knots) (h : Same u a s) : Same u a (s.forward route kn) := by
  unfold State.forward
  split
  · exact h
  · exact .ite (.bump h) (.when (.remember hk (.forwardAlp hk h)) .relayEth)
  · exact .ite h (.ite (.bump h) (.remember hk (.forwardAlp hk h)))

theorem Same.refuseKnot {bs} (hk : u ≠ .knots) (h : Same u a s) : Same u a (s.refuseKnot bs) :=
  .unless (.setEvBit (.bump h)) (fun h1 => .bb (.updateKnots hk h1))

theorem Same.judgeKnot {route kn bs} (hk : u ≠ .knots) (h : Same u a s) : Same u a (s.judgeKnot route kn bs) :=
  .ite (.bump h) (.ite (.refuseKnot hk h) (.ite (.put (.refuseKnot hk h)) (.updateKnots hk (.when (.put (.bump h)) .bump))))

theorem Same.takeKnot {route bs} (hk : u ≠ .knots) (h : Same u a s) : Same u a (s.takeKnot route bs) := by
  unfold State.takeKnot
  split
  · exact .bump (.bump h)
  · exact .ite (.bump (.bump h)) (.judgeKnot hk (.forward hk (.cacheKnot hk (.bump h))))

theorem Same.sendKnot {kn} (hk : u ≠ .knots) (h : Same u a s) : Same u a (s.sendKnot kn) := by
  unfold State.sendKnot
  exact .takeKnot hk (.ite (.bump (.putNat h)) (.remember hk (.relayEth (.foldl (.sendAlp hk) (.putNat h)))))

/-! ### The dictionary service -/

theorem Same.touchRam {off len} (h : Same u a s) : Same u a (s.touchRam off len) := .ite (.bump (.update h)) h
theorem Same.ramError {e} (h : Same u a s) : Same u a (s.ramError e) := .ite (.bb (.bump h)) (.bump h)
theorem Same.meetFlaws {off len} (h : Same u a s) : Same u a (s.meetFlaws off len) := .foldl .ramError (.update h)
theorem Same.ramStore {off bs} (h : Same u a s) : Same u a (s.ramStore off bs) := .update h
theorem Same.hkcReads {off len} (h : Same u a s) : Same u a (s.hkcReads off len) := .meetFlaws (.touchRam h)
theorem Same.hkcRam {off bs} (h : Same u a s) : Same u a (s.hkcRam off bs) := .ramStore (.update (.touchRam h))
theorem Same.setMbRsp {seq serving} (h : Same u a s) : Same u a (s.setMbRsp seq serving) := .hkcRam h
theorem Same.mbServing (h : Same u a s) : Same u a s.mbServing := .setMbRsp h
theorem Same.mbAnswer {f} (h : Same u a s) : Same u a (s.mbAnswer f) := .raise (.setMbRsp (.hkcRam (.ite (.bumpBy h) h)))

theorem Same.mbNotify {idx sub typ merged x value} (h : Same u a s) : Same u a (s.mbNotify idx sub typ merged x value) := by
  unfold State.mbNotify
  exact .ite (.bump (.update h)) (.raise (.bump (.hkcRam (.hkcRam (.update h)))))

theorem Same.mbReset (hk : u ≠ .knots) (h : Same u a s) : Same u a s.mbReset := .updateKnots hk (.setMbRsp h)

theorem Same.authentic {key f} (h : Same u a s) : Same u a (s.authentic key f).1 := by
  unfold State.authentic
  split
  · exact h
  · exact .update h

theorem Same.sendTunnelFrame {k f} (h : Same u a s) : Same u a (s.sendTunnelFrame k f) := .emit h

theorem Same.drainTunnel {k n} (hk : u ≠ .knots) (h : Same u a s) : Same u a (s.drainTunnel k n) := by
  induction n generalizing s with
  | zero => exact h
  | succ n ih =>
    unfold State.drainTunnel
    split
    · exact h
    · exact .ite (ih (.sendTunnelFrame (.withAlp hk h))) h

theorem Same.sendTunnelOn {f k} (hk : u ≠ .knots) (h : Same u a s) : Same u a (s.sendTunnelOn f k) := .drainTunnel hk (.withAlp hk h)

theorem Same.sendTunnel {ports dest frame} (hk : u ≠ .knots) (h : Same u a s) : Same u a (s.sendTunnel ports dest frame) :=
  .foldl (.foldl (.sendTunnelOn hk)) h

theorem Same.keep {p r f} (h : Same u a s) : Same u a (s.keep p r f) := .update h
theorem Same.sendUdp {p addr port key f} (h : Same u a s) : Same u a (s.sendUdp p addr port key f) := .ite (.emit (.authentic h)) h

theorem Same.sendBack {r f} (hk : u ≠ .knots) (h : Same u a s) : Same u a (s.sendBack r f) := by
  unfold State.sendBack
  split
  · exact .ite h (.mbAnswer h)
  · exact .keep (.sendUdp h)
  · exact .keep (.sendUdp h)
  · exact .sendTunnel hk h
  · exact h
  · exact h

theorem Same.answerStatus {r status} (hk : u ≠ .knots) (h : Same u a s) : Same u a (s.answerStatus r status) := .sendBack hk h
theorem Same.unreachable {r} (hk : u ≠ .knots) (h : Same u a s) : Same u a (s.unreachable r) := .answerStatus hk (.bump h)

theorem Same.tunnelAway {r} (hk : u ≠ .knots) (h : Same u a s) : Same u a (s.tunnelAway r) :=
  .ite (.answerStatus hk h) (.ite (.unreachable hk h) (.sendTunnel hk (.updateKnots hk h)))

theorem Same.endAsks {p} (hk : u ≠ .knots) (h : Same u a s) : Same u a (s.endAsks p) :=
  .ite (.foldl (.unreachable hk) (.updateKnots hk h)) h

theorem Same.noteRelayed {x f} (h : Same u a s) : Same u a (s.noteRelayed x f) := .ite (.update h) h

theorem Same.tunnelReply {from_ f} (hk : u ≠ .knots) (h : Same u a s) : Same u a (s.tunnelReply from_ f) := by
  unfold State.tunnelReply
  dsimp only
  split
  · exact h
  · exact .sendBack hk (.noteRelayed (.updateKnots hk h))

theorem Same.tunnelNotify {from_ f} (h : Same u a s) : Same u a (s.tunnelNotify from_ f) := by
  unfold State.tunnelNotify
  split
  · exact h
  · split
    · exact .sendUdp h
    · exact .sendUdp h
    · exact .mbNotify h
    · exact h
    · exact h
    · exact h

theorem Same.admitRequest {r} (hk : u ≠ .knots) (h : Same u a s) : Same u a (s.admitRequest r) := by
  unfold State.admitRequest
  refine have h1 := .ite (.mbServing h) h; .ite (.tunnelAway hk h1) (.ite h1 (.ite (.answerStatus hk h1) ?_))
  split
  · exact .answerStatus hk h1
  · exact .ite (.answerStatus hk h1) (.ite (.answerStatus hk h1) (.update h1))

theorem Same.takeMailbox (hk : u ≠ .knots) (h : Same u a s) : Same u a s.takeMailbox := by
  unfold State.takeMailbox
  refine .unless (.hkcReads (.update h)) (fun h1 => ?_)
  split
  · exact .admitRequest hk h1
  · exact .bump h1

theorem Same.takeEth {p} (hk : u ≠ .knots) (h : Same u a s) : Same u a (s.takeEth p) := by
  unfold State.takeEth
  dsimp only
  split
  · exact h
  · split
    · exact .bump (.sendUdp (.update h))
    · exact .admitRequest hk (.update h)

theorem Same.takeTunnel (hk : u ≠ .knots) (h : Same u a s) : Same u a s.takeTunnel := by
  unfold State.takeTunnel
  split
  · exact h
  · exact .admitRequest hk (.update h)

theorem Same.takeFrom {i} (hk : u ≠ .knots) (h : Same u a s) : Same u a (s.takeFrom i) := by
  unfold State.takeFrom
  split
  · exact .takeMailbox hk (.update h)
  · exact .takeEth hk (.update h)
  · exact .takeEth hk (.update h)
  · exact .takeTunnel hk (.update h)

theorem Same.takeUpTo {n} (hk : u ≠ .knots) (h : Same u a s) : Same u a (State.takeUpTo n s) := by
  induction n generalizing s with
  | zero => exact h
  | succ n ih =>
    unfold State.takeUpTo
    refine .ite h ?_
    split
    · exact ih (.takeFrom hk h)
    · exact h

theorem Same.takeNext (hk : u ≠ .knots) (h : Same u a s) : Same u a s.takeNext := .takeUpTo hk h
theorem Same.mbSubmit (hk : u ≠ .knots) (h : Same u a s) : Same u a s.mbSubmit := .ite h (.takeNext hk (.update h))

theorem Same.restartAnswers (hk : u ≠ .knots) (h : Same u a s) : Same u a s.restartAnswers :=
  .takeNext hk (.foldl (.answerStatus hk) (.updateKnots hk h))

/-! ### The Aelop ports -/

theorem Same.servoOrphaned (hn : u ≠ .net) (h : Same u a s) : Same u a s.servoOrphaned := .updateNet hn (.enterHoldover hn h)

theorem Same.parentChange {wasRef old new} (hn : u ≠ .net) (hk : u ≠ .knots) (h : Same u a s) : Same u a (s.parentChange wasRef old new) :=
  .ite h (.when (.updateKnots hk h) (.servoOrphaned hn))

theorem Same.resend {k} (hk : u ≠ .knots) (h : Same u a s) : Same u a (s.resend k) := .foldl (.sendAlp hk) h

theorem Same.retree (hn : u ≠ .net) (hk : u ≠ .knots) (h : Same u a s) : Same u a s.retree :=
  .ite h (.parentChange hn hk (.foldl (.resend hk) (.setEvBit (.updateKnots hk h))))

theorem Same.noNeighbour {k} (h : Same u a s) : Same u a (s.noNeighbour k) := .putNat h

theorem Same.alpDown {k} (hn : u ≠ .net) (hk : u ≠ .knots) (h : Same u a s) : Same u a (s.alpDown k) :=
  .ite (.endAsks hk (.retree hn hk (.bb (.bump (.setEvBit (.noNeighbour (.withAlp hk h))))))) h

theorem Same.alpEnable {k on} (hn : u ≠ .net) (hk : u ≠ .knots) (h : Same u a s) : Same u a (s.alpEnable k on) :=
  .ite (.ite (.retree hn hk (.withAlp hk (.putNat h))) (.putNat h)) (.endAsks hk (.retree hn hk (.noNeighbour (.withAlp hk (.putNat h)))))

theorem Same.alpHold {k st node} (hk : u ≠ .knots) (h : Same u a s) : Same u a (s.alpHold k st node) := .bb (.setEvBit (.withAlp hk h))

theorem Same.publishLink {k delay offset} (hk : u ≠ .knots) (h : Same u a s) : Same u a (s.publishLink k delay offset) :=
  .putInt (.putInt (.withAlp hk h))

theorem Same.takeExchange {k x} (hk : u ≠ .knots) (h : Same u a s) : Same u a (s.takeExchange k x) := by
  unfold State.takeExchange
  split
  · exact .withAlp hk h
  · exact .withAlp hk h
  · exact h
  · exact h
  · exact h
  · exact h

theorem Same.maybeUp {k} (hk : u ≠ .knots) (h : Same u a s) : Same u a (s.maybeUp k) := .ite (.publishLink hk (.withAlp hk h)) h

theorem Same.goodBeat {k x} (hn : u ≠ .net) (hk : u ≠ .knots) (h : Same u a s) : Same u a (s.goodBeat k x) := by
  unfold State.goodBeat
  refine .ite (.alpHold hk (.putNat (.withAlp hk h))) (.ite (.alpHold hk (.putNat (.withAlp hk h))) (.drainTunnel hk (.retree hn hk
    (.maybeUp hk ?_))))
  split
  · exact .takeExchange hk (.putNat (.withAlp hk h))
  · exact .putNat (.withAlp hk h)

theorem Same.badBeat {k} (hk : u ≠ .knots) (h : Same u a s) : Same u a (s.badBeat k) := .withAlp hk (.discardFrame h)

theorem Same.alpServo {k delay offset coasted} (hn : u ≠ .net) (hk : u ≠ .knots) (h : Same u a s) :
    Same u a (s.alpServo k delay offset coasted) :=
  .when (.judgeDelay hn (.withAlp hk) (.withAlp hk) h) (fun h1 => .servoOffset hn (.bump (.updateNet hn h1)))

theorem Same.alpMeasure {k m} (hn : u ≠ .net) (hk : u ≠ .knots) (h : Same u a s) : Same u a (s.alpMeasure k m) :=
  .alpServo hn hk (.publishLink hk (.withAlp hk h))

theorem Same.tunnelHere {source bs} (hk : u ≠ .knots) (h : Same u a s) : Same u a (s.tunnelHere source bs) :=
  .ite (.bump h) (.ite (.ite (.tunnelNotify h) (.tunnelReply hk h)) (.takeNext hk (.update h)))

theorem Same.tunnelFragment {f} (hk : u ≠ .knots) (h : Same u a s) : Same u a (s.tunnelFragment f) := by
  unfold State.tunnelFragment
  split
  · exact .updateKnots hk h
  · exact .ite (.updateKnots hk h) (.tunnelHere hk (.updateKnots hk h))

theorem Same.tunnelOnward {k f} (hk : u ≠ .knots) (h : Same u a s) : Same u a (s.tunnelOnward k f) :=
  .unless (.foldl (.sendTunnelOn hk) h) .bump

/-! ### Commands of the Aelop link -/

theorem Same.sendBeat {k stamp} (hk : u ≠ .knots) (h : Same u a s) : Same u a (s.sendBeat k stamp) := .sendFrame (.drawn (.withAlp hk h))

theorem Same.laneFailure {k} (hn : u ≠ .net) (hk : u ≠ .knots) (h : Same u a s) : Same u a (s.laneFailure k) := by
  unfold State.laneFailure
  split
  · exact .alpDown hn hk h
  · exact .withAlp hk h
  · exact h

theorem SameAfter.alpMeasurement {k} (hn : u ≠ .net) (hk : u ≠ .knots) : SameAfter u s (execAlpMeasurement k s) := by
  unfold execAlpMeasurement
  refine .next ?_
  split
  · exact .ite (.alpMeasure hn hk .refl) .refl
  · exact .refl

/-! ### Maintenance tasks -/

theorem Same.makeDue {x} (h : Same u a s) : Same u a (s.makeDue x) := .ite h (.update h)

theorem Same.startTask {x} (h : Same u a s) : Same u a (s.startTask x) :=
  .when (.raiseTo (.putNat (.put (.update h)))) (fun h1 => .setEvBit (.bump h1))

/-! ### Commands of the deep store -/

theorem Same.writeSpeed {v} (hd : u ≠ .deep) (h : Same u a s) : Same u a (s.writeSpeed v) :=
  have h1 := .ite (.clampOp (.updateDeep hd h)) (.updateDeep hd h); .ite (.updateDeep hd h1) (.makeDue (.updateDeep hd h1))

theorem Same.applySpeed (hd : u ≠ .deep) (hc : u ≠ .clocks) (h : Same u a s) : Same u a s.applySpeed :=
  .foldl (.startPll hc) (.updateDeep hd (.startTask h))

theorem Same.trained {r c} (hd : u ≠ .deep) (h : Same u a s) : Same u a (s.trained r c) :=
  .ite (.failChannel hd (.update (.withChan hd h))) (.withChan hd (.update (.withChan hd h)))

theorem Same.beginTraining {c} (hd : u ≠ .deep) (h : Same u a s) : Same u a (s.beginTraining c) := .withChan hd (.startTask h)
theorem Same.abortTraining (hd : u ≠ .deep) (h : Same u a s) : Same u a s.abortTraining := .ite (.makeDue (.updateDeep hd h)) h
theorem Same.bumpHeat {c doubled hot} (h : Same u a s) : Same u a (s.bumpHeat c doubled hot) := .putNat h

theorem Same.readDimm {temps c} (hd : u ≠ .deep) (h : Same u a s) : Same u a (s.readDimm temps c) := by
  unfold State.readDimm
  refine .ite h ?_
  split
  · exact .when (.bumpHeat (.withChan hd h)) (fun h1 => .bb (.setEvBit h1))
  · exact .when (.bumpHeat (.withChan hd h)) .bb

theorem Same.damaged {b cause} (hd : u ≠ .deep) (h : Same u a s) : Same u a (s.damaged b cause) := by
  unfold State.damaged
  split
  · exact .withDie h
  · exact .withDie h
  · exact .damage hd h

theorem Same.migrateNext (hd : u ≠ .deep) (h : Same u a s) : Same u a s.migrateNext := by
  unfold State.migrateNext
  split
  · exact .ite (.dsAsk hd h) h
  · exact h

theorem Same.leaveService {c r} (hd : u ≠ .deep) (h : Same u a s) : Same u a (s.leaveService c r) := by
  unfold State.leaveService
  split
  · exact .migrateNext hd (.putNat (.updateDeep hd h))
  · exact .retireRank hd h

theorem Same.rankOut {c r} (hd : u ≠ .deep) (h : Same u a s) : Same u a (s.rankOut c r) :=
  .ite h (.ite (.retireRank hd (.updateDeep hd h)) (.leaveService hd h))

theorem Same.correctedRead {c r} (hd : u ≠ .deep) (h : Same u a s) : Same u a (s.correctedRead c r) :=
  .when (.bump (.updateDeep hd h)) (.rankOut hd)

theorem Same.lostRead {b c r} (hd : u ≠ .deep) (h : Same u a s) : Same u a (s.lostRead b c r) := .damaged hd (.bb (.setEvBit (.bump h)))
theorem Same.badRead {b c r} (hd : u ≠ .deep) (h : Same u a s) : Same u a (s.badRead b c r) := .rankOut hd (.lostRead hd h)

theorem Same.groupRead {addr g} (hd : u ≠ .deep) (h : Same u a s) : Same u a (s.groupRead addr g) :=
  .ite h (.when (.ite (.correctedRead hd h) h) (.badRead hd))

theorem Same.migrated {addr g} (hd : u ≠ .deep) (h : Same u a s) : Same u a (s.migrated addr g) := by
  unfold State.migrated
  split
  · exact .groupRead hd h
  · exact .migrateNext hd (.putNat (.updateDeep hd (.when (.ite (.bump h) h) (.lostRead hd))))

theorem SameAfter.dsRequestComplete {p g} (hd : u ≠ .deep) : SameAfter u s (execDsRequestComplete p g s) := by
  unfold execDsRequestComplete
  refine .next (.ite .refl ?_)
  split
  · exact .refl
  · exact .ite .refl
      (have h1 := .ite (.dsServed hd .refl) (.ite (.migrated hd (.dsServed hd .refl)) (.groupRead hd (.dsServed hd .refl)))
       .ite (.genRefilled hd h1) (.ite (.genRefilled hd h1) h1))

theorem SameAfter.migrationDone {c bad} (hd : u ≠ .deep) : SameAfter u s (execMigrationDone c bad s) := by
  unfold execMigrationDone
  refine .next (.ite .refl ?_)
  split
  · exact .refl
  · exact .bb (.setEvBit (.bump (.putNat (.dsServed hd (.withChan hd (.updateDeep hd (.foldl (.damaged hd) .refl)))))))

theorem SameAfter.urgencyRise {p} (hd : u ≠ .deep) : SameAfter u s (execUrgencyRise p s) := by
  unfold execUrgencyRise
  refine .next (.ite .refl ?_)
  split
  · exact .refl
  · exact .updateDeep hd .refl

theorem SameAfter.patrolScrubRead {g} (hd : u ≠ .deep) : SameAfter u s (execPatrolScrubRead g s) := by
  unfold execPatrolScrubRead
  refine .next (.ite ?_ .refl)
  split
  · exact .refl
  · exact .ite (.bump .refl) (.groupRead hd (.dsGroups (.updateDeep hd .refl)))

theorem Same.writeRas {v} (hd : u ≠ .deep) (h : Same u a s) : Same u a (s.writeRas v) :=
  .when (.updateDeep hd h) (fun h1 => .retireRank hd (.updateDeep hd h1))

theorem Same.windowHole {sub} (h : Same u a s) : Same u a (s.windowHole sub) := .setEvBit (.bump (.bump h))

theorem Same.windowStore {x bytes} (h : Same u a s) : Same u a (s.windowStore x bytes) := by
  unfold State.windowStore
  refine .foldl (fun h1 => ?_) h
  split
  · exact .update h1
  · exact .bump h1

theorem Same.writeWindowBase {v} (h : Same u a s) : Same u a (s.writeWindowBase v) := .bump (.update h)

/-! ### Commands of the on-chip memories -/

theorem Same.scrambleBasin {d mask} (h : Same u a s) : Same u a (s.scrambleBasin d mask) := .drawn (.update h)
theorem Same.beginTest {target preserving} (h : Same u a s) : Same u a (s.beginTest target preserving) := .putNat (.putNat (.update h))

theorem Same.commandTest {via} (h : Same u a s) : Same u a (s.commandTest via) :=
  .ite (.beginTest (.ite (.clampOp h) h)) (.ignoreOp (.update h))

theorem Same.commandClamp {idx sub v via} (h : Same u a s) : Same u a (s.commandClamp idx sub v via) := .ite (.clampOp h) h
theorem Same.keepMaps (h : Same u a s) : Same u a s.keepMaps := .update h
theorem Same.basinBankOut {d bank} (h : Same u a s) : Same u a (s.basinBankOut d bank) := .when (.keepMaps (.update h)) .withGen

theorem Same.bankOut {mem f} (h : Same u a s) : Same u a (s.bankOut mem f) := by
  unfold State.bankOut
  split
  · exact .basinBankOut (.bb h)
  · exact .basinBankOut (.bb h)
  · exact .update (.bb h)

theorem Same.repairRow {mem f} (h : Same u a s) : Same u a (s.repairRow mem f).1 :=
  .ite_fst (.keepMaps (.bb (.update h))) (.bankOut (.update h))

theorem Same.testFault {m f} (h : Same u a s) : Same u a (s.testFault m f) := .ite (.ite (.bump (.repairRow h)) (.bump (.repairRow h))) h
theorem Same.endTest {status} (h : Same u a s) : Same u a (s.endTest status) := .put (.update h)

theorem SameAfter.marchTestDone {faults} : SameAfter u s (execMarchTestDone faults s) := by
  unfold execMarchTestDone
  refine .next ?_
  split
  · exact .refl
  · refine .ite .refl (.endTest ?_)
    split
    · exact .ite (.ite (.foldl .testFault .refl) (.scrambleBasin (.foldl .testFault .refl))) (.loadTrigRam (.foldl .testFault .refl))
    · exact .foldl .testFault .refl

theorem Same.abortTest (h : Same u a s) : Same u a s.abortTest := by
  unfold State.abortTest
  split
  · exact h
  · refine .endTest ?_
    split
    · exact .ite (.ite h (.scrambleBasin h)) (.loadTrigRam h)
    · exact h

theorem Same.nextBlock (h : Same u a s) : Same u a s.nextBlock := .when (.update h) .bump
theorem Same.blockFault {f} (h : Same u a s) : Same u a (s.blockFault f) := .repairRow (.bump h)

theorem Same.ramDword {d} (hk : u ≠ .knots) (h : Same u a s) : Same u a (s.ramDword d) := by
  unfold State.ramDword
  split
  · exact .partialDword h
  · exact .ite (.hkcAreaDword h) (.when (.ramStore (.touchRam (.interrupt h))) (.mbSubmit hk))

theorem Same.ramClash {clash d} (h : Same u a s) : Same u a (s.ramClash clash d) := by
  unfold State.ramClash
  split
  · exact .ite h (.bump h)
  · exact h

theorem Same.ramWrite {off w} (hk : u ≠ .knots) (h : Same u a s) : Same u a (s.ramWrite off w) :=
  .update (.foldl (fun h1 => .ramDword hk (.ramClash h1)) h)

/-! ### ARMING -/

theorem Same.endEye {status} (hc : u ≠ .clocks) (h : Same u a s) : Same u a (s.endEye status) :=
  .restSpll hc (.restSpll hc (.putNat (.withDie (.withDie h))))

theorem Same.endCheck {d} (hc : u ≠ .clocks) (h : Same u a s) : Same u a (s.endCheck d) := by
  unfold State.endCheck
  split
  · exact .ite (.restSpll hc (.bumpBy (.withDie h))) h
  · exact h

theorem Same.breakCheck {d} (hc : u ≠ .clocks) (h : Same u a s) : Same u a (s.breakCheck d) := by
  unfold State.breakCheck
  dsimp only
  split
  · exact .restSpll hc (.makeDue (.withDie (.endCheck hc h)))
  · exact .endCheck hc h

theorem Same.layout {d home} (h : Same u a s) : Same u a (s.layout d home) := .withDie (.ite (.update h) h)
theorem Same.thermal (h : Same u a s) : Same u a s.thermal.1 := .putNat (.putNat (.drawn (.drawn h)))
theorem Same.armClamp {c} (h : Same u a s) : Same u a (s.armClamp c) := .clampOp h

theorem Same.readPlans {ds} (h : Same u a s) : Same u a (s.readPlans ds).1 := by
  unfold State.readPlans
  refine .foldl_fst (fun hq => ?_) h
  dsimp only
  exact .foldl .armClamp hq

theorem Same.admitPlans {ds} (h : Same u a s) : Same u a (s.admitPlans ds).1 := by
  unfold State.admitPlans
  dsimp only
  split
  · exact .foldl .putNat (.putNat (.thermal (.readPlans (.foldl .layout h))))
  · split
    · exact .foldl .putNat (.putNat (.thermal (.readPlans (.foldl .layout h))))
    · exact .foldl .armClamp (.foldl .putNat (.putNat (.thermal (.readPlans (.foldl .layout h)))))

theorem Same.endArming {d status} (hc : u ≠ .clocks) (h : Same u a s) : Same u a (s.endArming d status) :=
  .raise (.restSpll hc (.putNat (.when (.withDie h) .ignoreOp)))

theorem Same.beginArming {took calibrate x} (hc : u ≠ .clocks) (h : Same u a t) : Same u a (s.beginArming took calibrate t x) :=
  .putNat (.putNat (.putNat (.when (.withDie (.unless (.startPll hc h) .markDieGauges)) .putNat)))

theorem Same.arm {ds} (hd : u ≠ .deep) (hc : u ≠ .clocks) (h : Same u a s) : Same u a (s.arm ds) := by
  unfold State.arm
  extract_lets s1 s2 s3 s4
  have h4 : Same u a s4 := by
    have h3 : Same u a s3 := .abortTraining hd (.foldl (.breakCheck hc) (.ite (.endEye hc h) h))
    unfold s4
    split
    · exact .ite (.abortTest h3) h3
    · exact h3
  have h5 := Same.admitPlans (ds := ds) h4
  split
  next e =>
    rw [e] at h5
    exact .foldl (.endArming hc) h5
  next e =>
    rw [e] at h5
    exact .foldl (.beginArming hc) h5

theorem Same.armCommand {d loc via} (hd : u ≠ .deep) (hc : u ≠ .clocks) (h : Same u a s) : Same u a (s.armCommand d loc via) :=
  .ite h (.ite (.ignoreOp h) (.ite (.ignoreOp h) (.ite (.ignoreOp h) (.ite (.ignoreOp h) (.ite (.ignoreOp h) (.arm hd hc h))))))

/-! ### The sluice and sealing -/

theorem Same.deepDrop {d} (h : Same u a s) : Same u a (s.deepDrop d) := .withDie h
theorem Same.deepPut {lead slot bytes} (h : Same u a s) : Same u a (s.deepPut lead slot bytes) := .withDie (.update h)
theorem Same.deepStop {d} (h : Same u a s) : Same u a (s.deepStop d) := .endDie (.withDie h)
theorem Same.moveBarge {d m slot ring} (h : Same u a s) : Same u a (s.moveBarge d m slot ring) := .withDie (.dsGroups (.deepPut h))

theorem Same.sluiceOne {d} (h : Same u a s) (e : s.sluiceOne d = some t) : Same u a t := by
  unfold State.sluiceOne at e
  extract_lets _ _ _ _ _ _ old _ s' at e
  split at e
  · cases e
  split at e
  · cases e
  split at e
  · cases e
  split at e
  · exact Option.some.inj e ▸ .deepStop h
  · refine Option.some.inj e ▸ .moveBarge ?_
    unfold s'
    cases old with
    | none => exact h
    | some m => exact .deepDrop h

theorem Same.sluiceAll {ds n} (h : Same u a s) : Same u a (s.sluiceAll ds n) := by
  induction n generalizing s with
  | zero => exact h
  | succ n ih =>
    unfold State.sluiceAll
    split
    next t e =>
      obtain ⟨d, -, e⟩ := Option.bind_eq_some_iff.mp e
      exact ih (.sluiceOne h e)
    next => exact h

theorem Same.reserveMove {d m} (h : Same u a s) : Same u a (s.reserveMove d m) := by
  unfold State.reserveMove
  dsimp only
  split
  · exact h
  · exact .ite (.moveBarge h) h

theorem Same.reserveEvents {d} (h : Same u a s) : Same u a (s.reserveEvents d) := .ite (.foldl .reserveMove h) h
theorem Same.markFault {d} (h : Same u a s) : Same u a (s.markFault d) := .ite h (.withDie (.update h))
theorem Same.closeDie {d} (h : Same u a s) : Same u a (s.closeDie d) := .foldl .putNat (.runDie h)

/-! ### The convoy directory -/

theorem Same.putDir {lead b} (h : Same u a s) : Same u a (s.putDir lead b) := by
  unfold State.putDir
  refine .ite ?_ (.withDie (.update h))
  split
  · exact h
  · exact .withDie (.deepPut h)

theorem Same.sealDie {addr short d} (hc : u ≠ .clocks) (h : Same u a s) : Same u a (s.sealDie addr short d) :=
  .restSpll hc (.withDie (.putNat (.putNat h)))

theorem Same.sealConvoy {ds lead} (hc : u ≠ .clocks) (h : Same u a s) : Same u a (s.sealConvoy ds lead) :=
  .raise (.when (.foldl (.sealDie hc) (.foldl .putDir h)) .bb)

/-! ### Commands of a capture -/

theorem SameAfter.deferredAdvanceExecute {d} : SameAfter u s (execDeferredAdvanceExecute d s) := by
  unfold execDeferredAdvanceExecute
  refine .next ?_
  split
  · exact .ite (.runDie .refl) .refl
  · exact .refl

theorem Same.forceTrigger {d loc via} (h : Same u a s) : Same u a (s.forceTrigger d loc via) := .ite h (.ite (.withDie h) (.ignoreOp h))

theorem SameAfter.pendingPlacementCommit {d} : SameAfter u s (execPendingPlacementCommit d s) := by
  unfold execPendingPlacementCommit
  refine .next ?_
  split
  · exact .ite (.runDie .refl) .refl
  · exact .refl

theorem SameAfter.triggerLineArrival {d} : SameAfter u s (execTriggerLineArrival d s) := by
  unfold execTriggerLineArrival
  refine .next ?_
  split
  · refine .ite .refl ?_
    split
    · exact .raise (.runDie (.withDie .refl))
    · exact .ite (.runDie (.withDie .refl)) (.withDie .refl)
  · exact .refl

theorem Same.ramFound {d r} (h : Same u a s) : Same u a (s.ramFound d r) := by
  unfold State.ramFound
  split
  · exact .bumpBy h
  · exact .bb (.bump (.loadTrigRam (.bumpBy h)))
  · exact .bb (.bump (.loadTrigRam (.bumpBy h)))

theorem Same.openObjects {d id delay} (h : Same u a s) : Same u a (s.openObjects d id delay) :=
  .putNat (.foldl .putNat (.foldl .putNat (.foldl .putNat (.put (.putNat h)))))

theorem Same.openDie {id thin d} (h : Same u a s) : Same u a (s.openDie id thin d) := .raise (.when (.withDie (.openObjects h)) .runDie)
theorem Same.openConvoy {ds lead} (h : Same u a s) : Same u a (s.openConvoy ds lead) := .when (.when (.foldl .openDie (.update h)) .bb) .bb

theorem Same.captureStop {d loc via} (hc : u ≠ .clocks) (h : Same u a s) : Same u a (s.captureStop d loc via) :=
  .ite h (.ite (.foldl (.endArming hc) h) (.ite (.foldl .endDie h) (.ignoreOp h)))

theorem Same.releaseDie {d} (h : Same u a s) : Same u a (s.releaseDie d) := .withDie h

theorem Same.releaseCommand {d loc via} (h : Same u a s) : Same u a (s.releaseCommand d loc via) :=
  .ite h (.ite (.foldl .releaseDie h) (.ignoreOp h))

theorem SameAfter.sluiceCopy {d} : SameAfter u s (execSluiceCopy d s) := by
  refine .next (.ite ?_ .refl)
  cases e : s.sluiceOne d with
  | none => exact .refl
  | some t => exact .sluiceOne .refl e

theorem Same.sluiceBegin {d} (h : Same u a s) : Same u a (s.sluiceBegin d) := .withDie h

theorem Same.copyBarges {l b} (h : Same u a s) : Same u a (s.copyBarges l b) := by
  induction l generalizing s b with
  | nil => exact h
  | cons x l ih => exact ih (.update h)

theorem SameAfter.sluiceSealedCopyDone {d} : SameAfter u s (execSluiceSealedCopyDone d s) := by
  unfold execSluiceSealedCopyDone
  refine .next ?_
  split
  · exact .ite .refl (.foldl .putNat (.withDie (.dsGroups (.copyBarges .refl))))
  · exact .refl

/-! ### Commands of the clocks -/

theorem Same.coastDie {d} (hc : u ≠ .clocks) (h : Same u a s) : Same u a (s.coastDie d) := .genCoast hc (.markDieGauges (.withDie h))

theorem Same.enterCoast {i lock} (hc : u ≠ .clocks) (h : Same u a s) : Same u a (s.enterCoast i lock) := by
  unfold State.enterCoast
  dsimp only
  split
  · exact .coastDie hc (.bb (.setEvBit (.bump (.withPll hc h))))
  · exact .bb (.setEvBit (.bump (.withPll hc h)))

theorem Same.refLost {i} (hc : u ≠ .clocks) (h : Same u a s) : Same u a (s.refLost i) := by
  unfold State.refLost
  refine .ite h ?_
  split
  · exact .bump (.enterCoast hc h)
  · exact .bump (.withPll hc h)
  · exact .withPll hc h
  · exact .withPll hc h
  · exact h

theorem Same.failAttempt {i} (hc : u ≠ .clocks) (h : Same u a s) : Same u a (s.failAttempt i) := .bump (.withPll hc h)
theorem Same.clockSeal {ds estimate} (h : Same u a s) : Same u a (s.clockSeal ds estimate) := .ite h (.bb (.setEvBit (.foldl .endDie h)))

theorem Same.reenter {i residual} (hc : u ≠ .clocks) (h : Same u a s) : Same u a (s.reenter i residual) := by
  unfold State.reenter
  extract_lets r s1 s2 s3 _ s4
  have h3 : Same u a s3 := .bb (.setEvBit (.put (.putInt (.withPll hc h))))
  have h4 : Same u a s4 := by
    refine .ite ?_ h3
    split
    · exact .updateClocks hc h3
    · exact h3
  split
  · exact .when (.withDie h4) .runDie
  · exact h4

theorem Same.takeWanted {i} (hc : u ≠ .clocks) (h : Same u a s) : Same u a (s.takeWanted i) := by
  unfold State.takeWanted
  split
  · exact .startPll hc (.withPll hc h)
  · exact h

theorem Same.relockChan {i} (hd : u ≠ .deep) (h : Same u a s) : Same u a (s.relockChan i) := by
  unfold State.relockChan
  split
  · exact .ite (.withChan hd h) h
  · exact h

theorem Same.bandFound {i band tuning} (hc : u ≠ .clocks) (h : Same u a s) : Same u a (s.bandFound i band tuning) :=
  .setEvBit (.bump (.withPll hc (.updateClocks hc h)))

theorem Same.returnPll {i back} (hc : u ≠ .clocks) (h : Same u a s) : Same u a (s.returnPll i back) := by
  unfold State.returnPll
  split
  · exact h
  · exact .startPll hc h
  · exact .restSpll hc h
  · exact .stopPll hc h

theorem Same.beginReval {i} (hc : u ≠ .clocks) (h : Same u a s) : Same u a (s.beginReval i) := .withPll hc h

/-! ### Gauges -/

theorem Same.clampGauge {g} (h : Same u a s) : Same u a (s.clampGauge g).1 :=
  .when (.ite (.clampOp (.putNat h)) h) (fun h1 => .clampOp (.putInt h1))

theorem Same.freshResult {g} (h : Same u a s) : Same u a (s.freshResult g) := .withGauge h
theorem Same.openGate {g at_ tw len} (h : Same u a s) : Same u a (s.openGate g at_ tw len) := .withGauge (.freshResult h)

theorem Same.sendResult {g at_ flags vals} (h : Same u a s) : Same u a (s.sendResult g at_ flags vals) :=
  .bump (.foldl .putInt (.putNat (.put h)))

theorem Same.publish {g at_ flags vals} (h : Same u a s) : Same u a (s.publish g at_ flags vals) :=
  .ite (.sendResult (.withGauge h)) (.withGauge (.withGauge h))

theorem Same.sendUnsent (h : Same u a s) : Same u a s.sendUnsent := .foldl (fun h1 => .withGauge (.foldl .sendResult h1)) h
theorem Same.publishPartial {g at_} (h : Same u a s) : Same u a (s.publishPartial g at_) := .ite (.publish h) h
theorem Same.endGauge {g st} (hc : u ≠ .clocks) (h : Same u a s) : Same u a (s.endGauge g st) := .restSpll hc (.withGauge h)

theorem Same.setDone {g at_} (hc : u ≠ .clocks) (h : Same u a s) : Same u a (s.setDone g at_) :=
  .ite (.freshResult (.publish h)) (.endGauge hc (.publish h))

theorem Same.overspeed {g} (h : Same u a s) : Same u a (s.overspeed g) := .bump (.withGauge h)

theorem Same.freqEdge {g x} (h : Same u a s) : Same u a (s.freqEdge g x) := by
  unfold State.freqEdge
  refine .ite (.withGauge h) ?_
  split
  · exact .withGauge h
  · exact .ite (.overspeed (.withGauge h)) (.withGauge (.withGauge h))
  · exact .ite (.overspeed (.withGauge (.withGauge h))) (.withGauge (.withGauge h))

theorem Same.shotMissed {g} (h : Same u a s) : Same u a (s.shotMissed g) := by
  unfold State.shotMissed
  dsimp only
  split
  · exact .when (.bump (.withGauge h)) .overspeed
  · exact .bump (.withGauge h)

theorem Same.pairShot {g x b} (hc : u ≠ .clocks) (h : Same u a s) : Same u a (s.pairShot g x b) :=
  .ite (.overspeed (.withGauge h)) (.when (.withGauge (.withGauge h)) (.setDone hc))

theorem Same.stopUnused {g e} (h : Same u a s) : Same u a (s.stopUnused g e) := .bump h
theorem Same.pruneStops {g before} (h : Same u a s) : Same u a (s.pruneStops g before) := .foldl .stopUnused (.withGauge h)

theorem Same.expireShot {g x} (h : Same u a s) : Same u a (s.expireShot g x) := by
  unfold State.expireShot
  split
  · exact .ite (.shotMissed h) h
  · exact h

theorem Same.shotEdge {g x} (hc : u ≠ .clocks) (h : Same u a s) : Same u a (s.shotEdge g x) := by
  unfold State.shotEdge
  dsimp only
  refine .ite (.bump (.expireShot h)) (.ite (.bump (.withGauge (.expireShot h))) (.ite (.withGauge (.expireShot h)) ?_))
  split
  · exact .pairShot hc (.withGauge (.withGauge (.pruneStops (.withGauge (.expireShot h)))))
  · exact .withGauge (.pruneStops (.withGauge (.expireShot h)))

theorem Same.keepStop {g e} (h : Same u a s) : Same u a (s.keepStop g e) :=
  .ite (.withGauge (.pruneStops h)) (.foldl .stopUnused (.withGauge (.pruneStops h)))

theorem Same.stopEdge {g x} (hc : u ≠ .clocks) (h : Same u a s) : Same u a (s.stopEdge g x) := by
  unfold State.stopEdge
  dsimp only
  refine .ite (.bump (.expireShot h)) ?_
  split
  · exact .pairShot hc (.withGauge (.expireShot h))
  · exact .ite (.keepStop (.withGauge (.expireShot h))) (.stopUnused (.withGauge (.expireShot h)))

theorem Same.afterGate {g} (hc : u ≠ .clocks) (h : Same u a s) : Same u a (s.afterGate g) := by
  unfold State.afterGate
  refine .ite (.endGauge hc h) (.ite (.withGauge (.freshResult h)) ?_)
  split
  · exact .withGauge (.openGate h)
  · exact .openGate h

theorem Same.closeGate {g} (hc : u ≠ .clocks) (h : Same u a s) : Same u a (s.closeGate g) :=
  .afterGate hc (.ite (.publishPartial h) (.publish h))

theorem Same.gatePast {g at_} (hc : u ≠ .clocks) (h : Same u a s) : Same u a (s.gatePast g at_) := .ite (.closeGate hc h) h

theorem Same.slotGate {k target} (h : Same u a s) : Same u a (s.slotGate k target) :=
  .foldl (fun h1 => .ite (.ite (.bump h1) (.openGate h1)) h1) h

/-! ### Commands of the gauges -/

theorem SameAfter.gaugeStampingBegin {g} : SameAfter u s (execGaugeStampingBegin g s) := by
  unfold execGaugeStampingBegin
  refine .next (.ite ?_ .refl)
  split
  · exact .openGate (.withGauge .refl)
  · exact .withGauge .refl
  · exact .openGate (.withGauge .refl)

theorem Same.gaugeEdge {g ch at_ f} (hc : u ≠ .clocks) (hf : ∀ {t x}, Same u a t → Same u a (f t x)) (h : Same u a s) :
    Same u a (s.gaugeEdge g ch at_ f) :=
  .ite h (.when (.gatePast hc h) hf)

/-! ### Ethernet ports -/

theorem Same.bulkEnd {status} (hn : u ≠ .net) (h : Same u a s) : Same u a (s.bulkEnd status) := .putNat (.updateNet hn h)

theorem Same.bulkAbort {p} (hn : u ≠ .net) (h : Same u a s) : Same u a (s.bulkAbort p) := by
  unfold State.bulkAbort
  split
  · exact .ite (.bulkEnd hn h) h
  · exact h

theorem Same.bulkBegin {p addr} (hn : u ≠ .net) (h : Same u a s) : Same u a (s.bulkBegin p addr) :=
  .ite (.bulkEnd hn (.updateNet hn h)) (.putNat (.updateNet hn h))

theorem Same.bulkStart {via addr} (hn : u ≠ .net) (h : Same u a s) : Same u a (s.bulkStart via addr) := by
  unfold State.bulkStart
  refine .ite (.ignoreOp h) ?_
  split
  · exact .ignoreOp h
  · exact .ite (.ignoreOp h) (.ite (.putNat h) (.bulkBegin hn h))

theorem Same.bulkSend {b data} (hn : u ≠ .net) (hd : u ≠ .deep) (h : Same u a s) : Same u a (s.bulkSend b data) :=
  .when (.updateNet hn (.emit (.ite (.dsAccess hd h) h))) (.bulkEnd hn)

theorem Same.ethDown {p} (hn : u ≠ .net) (h : Same u a s) : Same u a (s.ethDown p) := by
  unfold State.ethDown
  refine .when (.bulkAbort hn h) (fun h1 => .elect hn (.withPort hn ?_))
  split
  · exact .when (.bump (.setEvBit h1)) .bb
  · exact .bump (.setEvBit h1)

theorem Same.settleFec {p via} (h : Same u a s) : Same u a (s.settleFec p via) := .ite (.putNat (.clampOp h)) h

theorem Same.setPort {p sub v via} (h : Same u a s) : Same u a (s.setPort p sub v via) :=
  .ite (.putNat (.clampOp h)) (.settleFec (.writeField h))

theorem Same.reconfigure {p sub v via} (hn : u ≠ .net) (h : Same u a s) : Same u a (s.reconfigure p sub v via) := .ethDown hn (.setPort h)

/-! ### Commands of the Ethernet ports -/

theorem SameAfter.portReconfigure {p sub value via} (hn : u ≠ .net) : SameAfter u s (execPortReconfigure p sub value via s) := by
  unfold execPortReconfigure
  refine .next (.onPath (fun h1 => ?_) .refl)
  split
  · exact .ite (.reconfigure hn h1) h1
  · exact h1

theorem SameAfter.bulkReadoutDatagram (hn : u ≠ .net) (hd : u ≠ .deep) : SameAfter u s (execBulkReadoutDatagram s) := by
  unfold execBulkReadoutDatagram
  refine .next ?_
  split
  · exact .refl
  · refine .ite ?_ .refl
    split
    · exact .bulkSend hn hd .refl
    · exact .refl

/-! ### Commands of IEEE 1588 time -/

theorem Same.hearSync {p m} (hn : u ≠ .net) (h : Same u a s) : Same u a (s.hearSync p m) :=
  .ite h (.ite (.bump h) (.ite (.updateNet hn (.dropWaiting hn h)) (.takeSync hn h)))

theorem Same.hearFollowUp {p m} (hn : u ≠ .net) (h : Same u a s) : Same u a (s.hearFollowUp p m) := by
  unfold State.hearFollowUp
  refine .ite h ?_
  split
  · exact h
  · exact .ite (.ite (.bump (.updateNet hn h)) (.takeSync hn (.updateNet hn h))) h

theorem Same.hearAnnounce {p m} (hn : u ≠ .net) (h : Same u a s) : Same u a (s.hearAnnounce p m) := .ite h (.elect hn (.withPort hn h))
theorem Same.hearDelayReq {p m} (h : Same u a s) : Same u a (s.hearDelayReq p m) := .ite (.sendPtp h) h

theorem Same.hearDelayResp {p m} (hn : u ≠ .net) (h : Same u a s) : Same u a (s.hearDelayResp p m) := by
  unfold State.hearDelayResp
  dsimp only
  refine .ite h ?_
  split
  · exact h
  · split
    · exact .takeDelay hn (.withPort hn h)
    · exact .withPort hn h

theorem Same.hearPdelayReq {p m egress} (hn : u ≠ .net) (h : Same u a s) : Same u a (s.hearPdelayReq p m egress) :=
  .ite (.queueStamp hn (.withPort hn (.sendPtp h))) h

theorem Same.hearPdelayResp {p m} (hn : u ≠ .net) (h : Same u a s) : Same u a (s.hearPdelayResp p m) := by
  unfold State.hearPdelayResp
  refine .ite h ?_
  split
  · exact h
  · refine .ite ?_ (.ite (.withPort hn h) ?_)
    · split
      · exact .takeDelay hn (.withPort hn h)
      · exact h
    · split
      · exact .takeDelay hn (.withPort hn h)
      · exact .withPort hn h

theorem Same.hearManagement {p} (h : Same u a s) : Same u a (s.hearManagement p) := .ite (.bump h) h

theorem Same.monitorExpired {cause} (hn : u ≠ .net) (h : Same u a s) : Same u a (s.monitorExpired cause) :=
  .when (.setEvBit h) (.enterHoldover hn)

theorem Same.announceLost {p} (hn : u ≠ .net) (h : Same u a s) : Same u a (s.announceLost p) := by
  unfold State.announceLost
  split
  · exact h
  · exact .ite (.elect hn (.withPort hn (.ite (.monitorExpired hn h) h))) h

/-! ### DMA jobs and the function -/

theorem Same.withDma {k f} (h : Same u a s) : Same u a (s.withDma k f) := .of_units (by simp) h

theorem Same.issueRead {k use addr len} (h : Same u a s) (e : s.issueRead k use addr len = some t) : Same u a t := by
  unfold State.issueRead at e
  split at e
  · split at e
    · exact Option.some.inj e ▸ .emit (.update h)
    · cases e
  · cases e

theorem Same.pumpJob {k n} (h : Same u a s) : Same u a (s.pumpJob k n) := by
  induction n generalizing s with
  | zero => exact h
  | succ n ih =>
    unfold State.pumpJob
    split
    · exact h
    · refine .ite ?_ h
      dsimp only
      split
      next t e => exact ih (.withDma (.issueRead h e))
      next => exact h

theorem Same.pump {k} (h : Same u a s) : Same u a (s.pump k) := .pumpJob h
theorem Same.toHost {relaxed addr bs} (h : Same u a s) : Same u a (s.toHost relaxed addr bs) := .update h
theorem Same.dataToHost {addr bs} (h : Same u a s) : Same u a (s.dataToHost addr bs) := .toHost h
theorem Same.intoDeep {x bs} (h : Same u a s) : Same u a (s.intoDeep x bs) := .ite (.update h) (.update h)
theorem Same.writeStatus {k status done} (h : Same u a s) : Same u a (s.writeStatus k status done) := .unless (.hkcRam h) .toHost
theorem Same.jobVector {k status irq} (h : Same u a s) : Same u a (s.jobVector k status irq) := .ite (.ite (.raise h) h) (.raise h)
theorem Same.countJob {k status moved} (h : Same u a s) : Same u a (s.countJob k status moved) := .bumpBy (.bump h)

theorem Same.endJob {k status} (h : Same u a s) : Same u a (s.endJob k status) :=
  .jobVector (.unless (.withDma (.update (.countJob (.writeStatus h)))) .setEvBit)

theorem Same.cutShort {k} (h : Same u a s) : Same u a (s.cutShort k) := by
  unfold State.cutShort
  split
  · exact h
  · exact .ite h (.withDma (.dataToHost (.drawn h)))

theorem Same.haltJob {k status} (h : Same u a s) : Same u a (s.haltJob k status) := .ite (.endJob (.cutShort h)) h
theorem Same.haltAll {status} (h : Same u a s) : Same u a (s.haltAll status) := .foldl .haltJob h
theorem Same.beginJob {k d} (hd : u ≠ .deep) (h : Same u a s) : Same u a (s.beginJob k d) := .pump (.when (.withDma h) (.dsAsk hd))

theorem Same.kick {k} (hd : u ≠ .deep) (h : Same u a s) : Same u a (s.kick k) := by
  unfold State.kick
  refine .ite (.ite (.unless (.hkcReads h) (.beginJob hd)) ?_) h
  split
  next t e => exact .withDma (.issueRead h e)
  next => exact h

theorem Same.kickAll (hd : u ≠ .deep) (h : Same u a s) : Same u a s.kickAll := .foldl (fun h1 => .pump (.kick hd h1)) h
theorem Same.bmeOff (h : Same u a s) : Same u a s.bmeOff := .ite (.when (.haltAll (.update h)) .setEvBit) h
theorem Same.bmeOn (hd : u ≠ .deep) (h : Same u a s) : Same u a s.bmeOn := .ite h (.kickAll hd (.flushAll (.update h)))
theorem Same.enterD3 (h : Same u a s) : Same u a s.enterD3 := .ite (.update (.when (.haltAll (.update h)) .setEvBit)) h
theorem Same.leaveD3 (h : Same u a s) : Same u a s.leaveD3 := .ite (.flushAll (.update h)) h
theorem Same.resetFunction (hk : u ≠ .knots) (h : Same u a s) : Same u a s.resetFunction := .mbReset hk (.update h)
theorem Same.retireTags (h : Same u a s) : Same u a s.retireTags := .update h
theorem Same.beginReset {flr} (h : Same u a s) : Same u a (s.beginReset flr) := .bump (.update (.haltAll h))

theorem Same.linkLost {ltssm} (hk : u ≠ .knots) (h : Same u a s) : Same u a (s.linkLost ltssm) := by
  unfold State.linkLost
  exact .bb (.bump (.resetFunction hk (.retireTags (.haltAll (.update h)))))

theorem Same.withCfg {f} (h : Same u a s) : Same u a (s.withCfg f) := .update h
theorem Same.withMsix {f} (h : Same u a s) : Same u a (s.withMsix f) := .update h
theorem Same.startFlr (h : Same u a s) : Same u a s.startFlr := .ite (.beginReset h) h
theorem Same.clearPme (h : Same u a s) : Same u a s.clearPme := .update h

theorem Same.writeCommand {v be} (hd : u ≠ .deep) (h : Same u a s) : Same u a (s.writeCommand v be) :=
  .when (.when (.ite (.ite (.bmeOn hd (.withCfg h)) (.bmeOff (.withCfg h))) h) .withCfg) .update

theorem Same.writePmcsr {v be} (h : Same u a s) : Same u a (s.writePmcsr v be) :=
  .when (.ite (.ite (.enterD3 h) (.ite (.leaveD3 h) h)) h) (fun h1 => .when (.withCfg h1) .clearPme)

theorem Same.writeMsixCtl {v be} (h : Same u a s) : Same u a (s.writeMsixCtl v be) := .ite (.flushAll (.withMsix h)) h

theorem Same.writeDevCtl {v be} (h : Same u a s) : Same u a (s.writeDevCtl v be) :=
  .when (.ite (.withCfg h) h) (fun h1 => .when (.withCfg h1) .startFlr)

theorem Same.writeDevCtl2 {v be} (h : Same u a s) : Same u a (s.writeDevCtl2 v be) := .when (.ite (.withCfg h) h) .withCfg

theorem Same.writeCfg {off v be} (hd : u ≠ .deep) (h : Same u a s) : Same u a (s.writeCfg off v be) := by
  unfold State.writeCfg
  split
  · exact .writeCommand hd h
  · exact .ite (.withCfg h) h
  · exact .withCfg h
  · exact .withCfg h
  · exact .withCfg h
  · exact .withCfg h
  · exact .withCfg h
  · exact .withCfg h
  · exact .ite (.withCfg h) h
  · exact .writePmcsr h
  · exact .writeMsixCtl h
  · exact .writeDevCtl h
  · exact .ite (.withCfg h) h
  · exact .writeDevCtl2 h
  · exact .update h
  · exact .withCfg h
  · exact .withCfg h
  · exact .withCfg h
  · exact h

/-! ### Commands of the endpoint -/

theorem Same.dmaRun {k} (hd : u ≠ .deep) (h : Same u a s) : Same u a (s.dmaRun k) := .ite h (.kick hd (.withDma h))
theorem Same.dmaAbort {k} (h : Same u a s) : Same u a (s.dmaAbort k) := .haltJob h
theorem Same.dmaStop {k} (h : Same u a s) : Same u a (s.dmaStop k) := .withDma (.dmaAbort h)

theorem Same.dmaResume {k} (hd : u ≠ .deep) (h : Same u a s) : Same u a (s.dmaResume k) :=
  .ite (.ignoreOp h) (.ite (.kick hd (.withDma h)) h)

theorem Same.dmaProd {k i} (hd : u ≠ .deep) (h : Same u a s) : Same u a (s.dmaProd k i) := .kick hd (.withDma h)

theorem Same.finishToHost {k j} (hd : u ≠ .deep) (h : Same u a s) : Same u a (s.finishToHost k j) :=
  .endJob (.withDma (.when (.dataToHost h) (.dsServed hd)))

theorem Same.finishJob {k j} (hd : u ≠ .deep) (h : Same u a s) : Same u a (s.finishJob k j) := by
  unfold State.finishJob
  split
  · exact .endJob h
  · exact .ite h (.ite (.ite (.endJob (.dsServed hd h)) h) (.ite (.finishToHost hd h) h))

theorem SameAfter.dmaJobComplete {k} (hd : u ≠ .deep) : SameAfter u s (execDmaJobComplete k s) := by
  unfold execDmaJobComplete
  refine .next ?_
  split
  · exact .refl
  · exact .kick hd (.finishJob hd .refl)

theorem Same.logRead {tag cause} (h : Same u a s) : Same u a (s.logRead tag cause) := .update h
theorem Same.readFailed {e} (h : Same u a s) : Same u a (s.readFailed e) := .ite (.endJob h) h
theorem Same.descriptorHere {k bs} (hd : u ≠ .deep) (h : Same u a s) : Same u a (s.descriptorHere k bs) := .beginJob hd (.hkcRam h)
theorem Same.dataHere {e x bs} (h : Same u a s) : Same u a (s.dataHere e x bs) := .pump (.withDma (.intoDeep h))

theorem Same.completed {e st bs} (hd : u ≠ .deep) (h : Same u a s) : Same u a (s.completed e st bs) := by
  unfold State.completed
  split
  · exact .bump (.update h)
  · exact .readFailed (.logRead (.update h))
  · exact .readFailed (.logRead (.update h))
  · exact .readFailed (.logRead (.update h))
  · exact .descriptorHere hd (.update h)
  · exact .dataHere (.update h)

theorem SameAfter.pcieCompletionReceive {tag st data} (hd : u ≠ .deep) : SameAfter u s (execPcieCompletionReceive tag st data s) := by
  unfold execPcieCompletionReceive
  refine .next (.ite (.bump (.setEvBit .refl)) ?_)
  split
  · exact .kickAll hd (.completed hd .refl)
  · exact .refl

theorem SameAfter.completionTimeout {tag} : SameAfter u s (execCompletionTimeout tag s) := by
  unfold execCompletionTimeout
  refine .next ?_
  split
  · refine .ite .refl ?_
    split
    · exact .logRead (.bump (.update .refl))
    · exact .readFailed (.logRead (.bump (.update .refl)))
    · exact .readFailed (.logRead (.bump (.update .refl)))
  · exact .refl

theorem Same.maskVector {v on} (h : Same u a s) : Same u a (s.maskVector v on) := .flushVector (.withMsix h)

theorem SameAfter.msixUnmask {what} : SameAfter u s (execMsixUnmask what s) := by
  unfold execMsixUnmask
  refine .next ?_
  split
  · exact .ite (.maskVector .refl) (.emit .refl)
  · exact .ite (.flushAll (.withMsix .refl)) .refl
  · exact .ite (.flushAll (.withMsix .refl)) .refl

theorem SameAfter.retiredTagExpiry {tag} (hd : u ≠ .deep) : SameAfter u s (execRetiredTagExpiry tag s) := by
  unfold execRetiredTagExpiry
  refine .next ?_
  split
  · exact .ite (.kickAll hd (.update .refl)) .refl
  · exact .refl

/-! ### Commands of the pattern generators -/

theorem Same.genCommand {d via f} (hf : ∀ {t}, Same u a t → Same u a (f t)) (h : Same u a s) : Same u a (s.genCommand d via f) :=
  .byPath (fun h1 => .ite (hf h1) h1) h

theorem Same.primeCommand {d via} (hd : u ≠ .deep) (hc : u ≠ .clocks) (h : Same u a s) : Same u a (s.primeCommand d via) :=
  .ite (.ignoreOp h) (.ite (.ignoreOp h) (.genPrime hd hc h))

theorem Same.startCommand {d via} (hd : u ≠ .deep) (hc : u ≠ .clocks) (h : Same u a s) : Same u a (s.startCommand d via) := by
  unfold State.startCommand
  refine .ite (.ignoreOp h) ?_
  split
  · exact .ite (.genPrime hd hc h) (.ignoreOp h)
  · exact .genRun h
  · exact .ignoreOp h
  · exact .ignoreOp h
  · exact .ignoreOp h
  · exact .ignoreOp h

theorem SameAfter.pgReady {d} (hc : u ≠ .clocks) : SameAfter u s (execPgReady d s) := by
  unfold execPgReady
  refine .next (.ite ?_ .refl)
  split
  · exact .genRefuse hc .refl
  · refine .ite .refl (have h1 := .putNat (.withGen .refl); .ite (.genRun h1) ?_)
    split
    · exact .bump (.withGen h1)
    · exact h1

theorem Same.stopCommand {d via} (hc : u ≠ .clocks) (h : Same u a s) : Same u a (s.stopCommand d via) := by
  unfold State.stopCommand
  split
  · exact .ignoreOp h
  · exact .ignoreOp h
  · exact .genHalt hc h
  · exact .genHalt hc h
  · exact .genHalt hc h
  · exact .genHalt hc h

theorem SameAfter.pgJumpRequest {d src} : SameAfter u s (execPgJumpRequest d src s) := by
  unfold execPgJumpRequest
  refine .next ?_
  split
  · exact .genCommand .genJump .refl
  · exact .genJump .refl
  · exact .ite .refl (.genTrigin .refl)

theorem SameAfter.pgKnotStart {d} : SameAfter u s (execPgKnotStart d s) := by
  unfold execPgKnotStart
  refine .next (.ite ?_ .refl)
  split
  · exact .genEnter .refl
  · exact .refl

theorem SameAfter.pgSyncStart {d} : SameAfter u s (execPgSyncStart d s) := by
  unfold execPgSyncStart
  refine .next ?_
  split
  · exact .ite .refl (.ite (.genRun .refl) (.ite (.genEnter .refl) .refl))
  · exact .refl

theorem SameAfter.pgTimeStart {d} : SameAfter u s (execPgTimeStart d s) := by
  unfold execPgTimeStart
  refine .next ?_
  split
  · exact .ite (.genRun .refl) .refl
  · exact .refl

theorem Same.endSyncCal {d status} (hc : u ≠ .clocks) (h : Same u a s) : Same u a (s.endSyncCal d status) :=
  .restSpll hc (.putNat (.withGen h))

theorem Same.storeSyncCal {d mean} (hc : u ≠ .clocks) (h : Same u a s) : Same u a (s.storeSyncCal d mean) :=
  .endSyncCal hc (.putNat (.putNat (.putNat (.withGen (.drawn (.drawn h))))))

theorem SameAfter.loopCacheLoadDone {d} (hd : u ≠ .deep) : SameAfter u s (execLoopCacheLoadDone d s) := by
  unfold execLoopCacheLoadDone
  refine .next (.ite .refl ?_)
  split
  · exact .genAsk hd (.withGen (.dsGroups (.dsServed hd (.update .refl))))
  · exact .refl

/-! ### Commands of knots -/

theorem Same.takeQueued {kn} (hk : u ≠ .knots) (h : Same u a s) (e : s.takeQueued = some (kn, t)) : Same u a t := by
  unfold State.takeQueued at e
  split at e
  · cases e
    exact .withDie h
  · cases e
    exact .withDie h
  · cases e
    exact .updateKnots hk h
  · cases e

theorem SameAfter.knotSend (hk : u ≠ .knots) : SameAfter u s (execKnotSend s) := by
  unfold execKnotSend
  refine .ite (.next .refl) ?_
  split
  next e => exact .next (.sendKnot hk (.takeQueued hk .refl e))
  next => exact .next .refl

theorem Same.sendHostKnot {cls} (hk : u ≠ .knots) (h : Same u a s) : Same u a (s.sendHostKnot cls) :=
  .ite (.updateKnots hk h) (.sendKnot hk h)

theorem Same.countArrival {x} (h : Same u a s) : Same u a (s.countArrival x) := by
  unfold State.countArrival
  split
  · exact h
  · exact .countFrame h
  · exact h

theorem Same.strayKnot {x} (h : Same u a s) : Same u a (s.strayKnot x) := by
  unfold State.strayKnot
  split
  · exact h
  · exact .ite (.dropFrame (.countFrame h)) h
  · exact h

theorem SameAfter.knotReceive {route bytes} (hk : u ≠ .knots) : SameAfter u s (execKnotReceive route bytes s) := by
  unfold execKnotReceive
  refine .next (.ite .refl ?_)
  split
  · exact .ite (.discardFrame .refl) .refl
  · exact .ite (.takeKnot hk (.countArrival .refl)) (.strayKnot .refl)

theorem Same.knotToDie {d kn} (h : Same u a s) : Same u a (s.knotToDie d kn).1 := .ite_fst (.runDie h) h
theorem Same.knotToWatch {d kn} (h : Same u a s) : Same u a (s.knotToWatch d kn).1 := .ite_fst (.withDie h) h
theorem Same.knotPme {kn} (h : Same u a s) : Same u a (s.knotPme kn).1 := .ite_fst (.emit (.update h)) h

theorem Same.applyUses {us : List (State → State × Bool)} (hus : ∀ f ∈ us, ∀ {t}, Same u a t → Same u a (f t).1) (h : Same u a s) :
    Same u a (applyUses s us).1 := by
  unfold Machine.applyUses
  generalize false = b
  induction us generalizing s b with
  | nil => exact h
  | cons f us ih => exact ih (fun v hv => hus v (List.mem_cons_of_mem f hv)) (hus f List.mem_cons_self h) _

theorem Same.dieKnot {kn} (h : Same u a s) : Same u a (s.dieKnot kn).1 := by
  refine .applyUses ?_ h
  simp only [List.forall_mem_cons, List.not_mem_nil, false_imp_iff, implies_true, and_true]
  exact ⟨.knotToDie, .knotToDie, .knotToWatch, .knotToWatch, .genKnot, .genKnot⟩

theorem Same.countUse {q} (h : Same u a q.1) : Same u a (State.countUse q) := .ite h (.bump h)

theorem Same.useKnot {kn} (h : Same u a s) : Same u a (s.useKnot kn) := by
  refine .countUse (.applyUses ?_ h)
  simp only [List.forall_mem_cons, List.not_mem_nil, false_imp_iff, implies_true, and_true]
  exact ⟨.dieKnot, .knotPme⟩

theorem Same.holdKnot {x} (hk : u ≠ .knots) (h : Same u a s) : Same u a (s.holdKnot x) :=
  .ite (.updateKnots hk (.knotPme h)) (.countUse (.knotPme h))

theorem SameAfter.knotDeliver (hk : u ≠ .knots) : SameAfter u s (execKnotDeliver s) := by
  unfold execKnotDeliver
  refine .ite (.next .refl) ?_
  split
  · exact .next .refl
  · exact .next (.ite (.holdKnot hk (.updateKnots hk .refl)) (.useKnot (.updateKnots hk .refl)))

/-! ### Freeze and thaw -/

theorem Same.endPulse {p} (h : Same u a s) : Same u a (s.endPulse p) :=
  .when (.foldl .startPulse (.update h)) (fun h1 => .emit (.update h1))

theorem Same.beginFreeze {full byReg} (hk : u ≠ .knots) (h : Same u a s) : Same u a (s.beginFreeze full byReg) :=
  .bb (.update (.when (.when (.genSettle (.genSettle (.endPulse (.endPulse (.put (.bump h)))))) (.linkLost hk)) .update))

theorem Same.ignoreFreeze (h : Same u a s) : Same u a s.ignoreFreeze := .bump h

theorem Same.requestFreeze {full byReg} (hk : u ≠ .knots) (h : Same u a s) : Same u a (s.requestFreeze full byReg) := by
  unfold State.requestFreeze
  refine .ite (.ignoreFreeze h) ?_
  split
  · exact .beginFreeze hk h
  · exact .ite (.beginFreeze hk h) (.ignoreFreeze h)

theorem Same.thawDie {took d} (h : Same u a s) : Same u a (s.thawDie took d) := .when (.withGen (.markDieGauges h)) .runDie

theorem Same.thaw (hk : u ≠ .knots) (h : Same u a s) : Same u a s.thaw := by
  unfold State.thaw
  split
  · exact h
  · exact .foldl (fun h1 => .countUse (.dieKnot h1)) (.foldl .thawDie (.bb (.setEvBit (.putNat (.updateKnots hk h)))))

theorem Same.requestThaw (hk : u ≠ .knots) (h : Same u a s) : Same u a s.requestThaw := by
  unfold State.requestThaw
  refine .ite (.ignoreFreeze h) ?_
  split
  · exact .ite (.thaw hk h) h
  · exact h

theorem Same.writeFreeze {v} (hk : u ≠ .knots) (h : Same u a s) : Same u a (s.writeFreeze v) :=
  .when (.when (.update h) (.requestFreeze hk)) (.requestThaw hk)

/-! ### Commands of the front end -/

theorem Same.checkDelay {ch via} (h : Same u a s) : Same u a (s.checkDelay ch via) := .ite h (.clampOp h)

theorem Same.beginCal {d} (hc : u ≠ .clocks) (h : Same u a s) : Same u a (s.beginCal d) :=
  .needSpll hc (.markDieGauges (.withDie (.ite (.startTask h) h)))

theorem Same.markFine {d c wide} (h : Same u a s) : Same u a (s.markFine d c wide) := .when (.withDie (.putNat h)) .bb
theorem Same.storeCal {d} (h : Same u a s) : Same u a (s.storeCal d) := .withDie (.update (.putNat (.putInt (.put h))))

theorem Same.beginCheck {d drift deskew} (hc : u ≠ .clocks) (h : Same u a s) : Same u a (s.beginCheck d drift deskew) :=
  .needSpll hc (.markDieGauges (.withDie (.startTask h)))

theorem Same.revalidate {is} (hc : u ≠ .clocks) (h : Same u a s) : Same u a (s.revalidate is) := .foldl (.beginReval hc) h

theorem Same.runDieTask {d moved} (hc : u ≠ .clocks) (h : Same u a s) : Same u a (s.runDieTask d moved) :=
  .ite (.beginCal hc h) (.revalidate hc (.ite (.beginCheck hc h) (.startTask h)))

theorem SameAfter.maintenanceTaskRun {x} (hd : u ≠ .deep) (hc : u ≠ .clocks) : SameAfter u s (execMaintenanceTaskRun x s) := by
  unfold execMaintenanceTaskRun
  refine .next (.ite .refl ?_)
  split
  · exact .ite (.runDieTask hc .refl) .refl
  · exact .ite (.runDieTask hc .refl) .refl
  · refine .ite ?_ .refl
    split
    · exact .beginTraining hd .refl
    · exact .startTask .refl
  · exact .ite (.applySpeed hd hc .refl) .refl
  · exact .ite (.revalidate hc (.startTask .refl)) .refl

theorem Same.eyeResult {e d results c} (h : Same u a s) : Same u a (s.eyeResult e d results c) := by
  unfold State.eyeResult
  split
  · exact .putInt (.putInt (.putInt h))
  · exact .putInt (.putInt (.putInt (.drawn (.drawn h))))

theorem Same.eyeApply {e d r} (h : Same u a s) : Same u a (s.eyeApply e d r) := .unless (.checkDelay (.writeField h)) .putInt

theorem SameAfter.eyeFinderDone {results} (hc : u ≠ .clocks) : SameAfter u s (execEyeFinderDone results s) := by
  unfold execEyeFinderDone
  refine .next ?_
  split
  · exact .ite .refl (.endEye hc (.when (.foldl .eyeResult .refl) (.foldl .eyeApply)))
  · exact .refl

theorem Same.writeYdir {d k v} (h : Same u a s) : Same u a (s.writeYdir d k v) := .ite (.showIdle (.update h)) (.ignoreOp h)
theorem Same.writeYdrv {d k v} (h : Same u a s) : Same u a (s.writeYdrv d k v) := .ite (.update h) (.ignoreOp h)

/-! ### Power states and resets -/

theorem Same.refusePower {via c} (h : Same u a s) : Same u a (s.refusePower via c) := .ignoreOp (.setEvBit (.bump h))
theorem Same.holdPlan {x} (h : Same u a s) : Same u a (s.holdPlan x) := .withDie h

theorem Same.watchPlans (h : Same u a s) : Same u a s.watchPlans.1 := by
  unfold State.watchPlans
  refine .foldl_fst (fun {q ds} hq => .ite_fst ?_ hq) h
  have hp := Same.admitPlans (ds := ds) hq
  split
  next e =>
    rw [e] at hp
    exact .foldl .holdPlan hp
  next e =>
    rw [e] at hp
    exact hp

theorem Same.startMove {x wake took next} (h : Same u a s) : Same u a (s.startMove x wake took next) := .update h
theorem Same.clearPlans (h : Same u a s) : Same u a s.clearPlans := .update h

theorem Same.leaveOn {x via} (hd : u ≠ .deep) (hc : u ≠ .clocks) (h : Same u a s) : Same u a (s.leaveOn x via) := by
  have start := Same.breakCheck hc (d := 1) (Same.breakCheck hc (d := 0) (.abortTraining hd h))
  have held := Same.watchPlans (.clearPlans start)
  unfold State.leaveOn
  refine .ite ?_ (.startMove start)
  split
  next e =>
    rw [e] at held
    exact .startMove held
  next e =>
    rw [e] at held
    exact .refusePower held

theorem Same.startClocks (hc : u ≠ .clocks) (h : Same u a s) : Same u a s.startClocks := .foldl (.startPll hc) (.startPll hc h)
theorem Same.returnOn {wake next} (hc : u ≠ .clocks) (h : Same u a s) : Same u a (s.returnOn wake next) := .startMove (.startClocks hc h)

theorem Same.beginRequest {x via} (hd : u ≠ .deep) (hc : u ≠ .clocks) (h : Same u a s) : Same u a (s.beginRequest x via) :=
  .ite h (.ite (.ite (.refusePower h) (.ite (.refusePower h) (.ite (.refusePower h) (.leaveOn hd hc h)))) (.ite (.returnOn hc h) (.returnOn
    hc h)))

theorem Same.requestPower {x via} (hd : u ≠ .deep) (hc : u ≠ .clocks) (h : Same u a s) : Same u a (s.requestPower x via) := by
  unfold State.requestPower
  refine .ite (.refusePower (.putNat h)) ?_
  split
  · exact .update (.putNat h)
  · exact .beginRequest hd hc (.putNat h)

theorem Same.latch {x} (hk : u ≠ .knots) (h : Same u a s) : Same u a (s.latch x) := .updateKnots hk h
theorem Same.noteReset {code} (h : Same u a s) : Same u a (s.noteReset code) := .bump (.put (.putNat (.update h)))

theorem Same.loseItem {i} (hd : u ≠ .deep) (hc : u ≠ .clocks) (h : Same u a s) : Same u a (s.loseItem i) := by
  unfold State.loseItem
  split
  · exact .updateClocks hc (.update h)
  · exact .update (.update h)
  · exact .update (.update h)
  · exact .update (.update h)
  · exact .update (.update h)
  · exact .updateDeep hd (.update h)
  · exact .updateDeep hd (.update h)
  · exact .update (.update h)

theorem Same.readHistory {x} (hd : u ≠ .deep) (hc : u ≠ .clocks) (h : Same u a s) : Same u a (s.readHistory x) :=
  .putNat (.unless (.bumpBy (.foldl (.loseItem hd hc) h)) .bb)

theorem Same.beginStart {x y dimms} (hk : u ≠ .knots) (hd : u ≠ .deep) (hc : u ≠ .clocks) (h : Same u a s) :
    Same u a (s.beginStart x y dimms) :=
  .update (.readHistory hd hc (.latch hk h))

theorem Same.restartTime (h : Same u a s) : Same u a s.restartTime := .update h

theorem Same.leaveOff {x y} (hk : u ≠ .knots) (hd : u ≠ .deep) (hc : u ≠ .clocks) (h : Same u a s) : Same u a (s.leaveOff x y) :=
  .ite (.update h) (.beginStart hk hd hc (.noteReset (.restartTime (.update h))))

theorem Same.passUntil {x} (h : Same u a s) : Same u a (s.passUntil x) := .ite h (.applyStep (.addTime (.update h)))

/-! ### Start-up -/

theorem Same.loadPatch {p} (h : Same u a s) : Same u a (s.loadPatch p) := by
  unfold State.loadPatch
  split
  · exact .putNat (.putNat h)
  · exact .putNat (.putNat h)
  · exact .bb (.putNat (.putNat h))

theorem Same.testHub {f} (h : Same u a s) : Same u a (s.testHub f) := by
  unfold State.testHub
  split
  · exact .update h
  · exact .repairRow (.update h)

theorem Same.bringUp {i n} (hc : u ≠ .clocks) (h : Same u a s) : Same u a (s.bringUp i n).1 :=
  .ite_fst (.startPll hc h) (.bandFound hc (.drawn (.drawn (.startPll hc h))))

theorem Same.startPlls (hc : u ≠ .clocks) (h : Same u a s) : Same u a s.startPlls.1 :=
  .withPll hc (.foldl (.stopPll hc) (.stopPll hc (.stopPll hc (.foldl_fst (.bringUp hc) h))))

theorem Same.refuseDimm {c property} (hd : u ≠ .deep) (h : Same u a s) : Same u a (s.refuseDimm c property) := .bb (.withChan hd h)

theorem Same.readSpd {ds org spare c} (hd : u ≠ .deep) (h : Same u a s) : Same u a (s.readSpd ds org spare c) := by
  unfold State.readSpd
  split
  · exact .withChan hd h
  · split
    · exact .refuseDimm hd h
    · exact .ite (.updateDeep hd (.withChan hd h)) (.refuseDimm hd h)

theorem Same.markRetired (hd : u ≠ .deep) (h : Same u a s) : Same u a s.markRetired := .foldl (.withChan hd) (.updateDeep hd h)
theorem Same.clearRetired (hd : u ≠ .deep) (h : Same u a s) : Same u a s.clearRetired := .ite (.updateDeep hd h) h
theorem Same.buildMap {ds} (hd : u ≠ .deep) (h : Same u a s) : Same u a (s.buildMap ds) := .foldl (.readSpd hd) (.updateDeep hd h)

theorem Same.startMap {ds} (hd : u ≠ .deep) (h : Same u a s) : Same u a (s.startMap ds) :=
  .updateDeep hd (.markRetired hd (.unless (.clearRetired hd h) (.buildMap hd)))

theorem Same.loseChannel {c} (h : Same u a s) : Same u a (s.loseChannel c) := .update h

theorem Same.checkFailed {property c} (hd : u ≠ .deep) (h : Same u a s) : Same u a (s.checkFailed property c) :=
  .bb (.damage hd (.loseChannel h))

theorem Same.startTraining {r} (hd : u ≠ .deep) (h : Same u a s) : Same u a (s.startTraining r) :=
  .updateDeep hd (.foldl (.trained hd) (.ite (.foldl (.checkFailed hd) h) h))

theorem Same.testBasin {faults d} (h : Same u a s) : Same u a (s.testBasin faults d) :=
  .keepMaps (.foldl (fun h1 => .ite (.repairRow h1) h1) (.update h))

theorem Same.testBasins {faults} (h : Same u a s) : Same u a (s.testBasins faults) := .ite (.update h) (.foldl .testBasin h)
theorem Same.loadCal {d} (h : Same u a s) : Same u a (s.loadCal d) := .putNat (.withDie h)
theorem Same.firstPower (h : Same u a s) : Same u a s.firstPower := .ite (.bb h) h
theorem Same.becomeReady {wake} (h : Same u a s) : Same u a (s.becomeReady wake) := .update h

theorem Same.startUp {r} (hd : u ≠ .deep) (hc : u ≠ .clocks) (h : Same u a s) : Same u a (s.startUp r) :=
  .setEvBit (.becomeReady (.firstPower (.putNat (.putNat (.foldl .loadCal (.startTraining hd (.testBasins (.startPlls hc (.startMap hd
    (.when
    (.testHub (.loadPatch h)) .loadInc))))))))))

/-! ### Commands of power and reset -/

theorem Same.askPower {x via} (hd : u ≠ .deep) (hc : u ≠ .clocks) (h : Same u a s) : Same u a (s.askPower x via) :=
  .byPath (.requestPower hd hc) h

theorem SameAfter.domainIdleOff {n} : SameAfter u s (execDomainIdleOff n s) := by
  unfold execDomainIdleOff
  refine .next (.ite ?_ .refl)
  split
  · exact .ite (.update .refl) .refl
  · exact .refl

theorem Same.dropScan (h : Same u a s) : Same u a s.dropScan := .ite (.update h) h
theorem Same.restartArming {d} (hc : u ≠ .clocks) (h : Same u a s) : Same u a (s.restartArming d) := .ite (.endArming hc h) h

theorem Same.dropCal {d} (hc : u ≠ .clocks) (h : Same u a s) : Same u a (s.dropCal d) :=
  .when (.breakCheck hc h) (fun h1 => .restSpll hc (.makeDue (.withDie h1)))

theorem Same.dropWork (hd : u ≠ .deep) (hc : u ≠ .clocks) (h : Same u a s) : Same u a s.dropWork := by
  unfold State.dropWork
  exact .when (.dropCal hc (.dropCal hc (.abortTraining hd (.abortTest (.restartArming hc (.restartArming hc h)))))) (.endEye hc)

theorem Same.restartHkc {cause} (hn : u ≠ .net) (hd : u ≠ .deep) (hc : u ≠ .clocks) (h : Same u a s) : Same u a (s.restartHkc cause) :=
  .when (.dropWork hd hc (.bb (.setEvBit (.update h)))) (.enterHoldover hn)

/-! ### Commands of health and the black box -/

theorem SameAfter.freezePinRelease (hk : u ≠ .knots) : SameAfter u s (execFreezePinRelease s) := by
  unfold execFreezePinRelease
  refine .next ?_
  split
  · exact .ite (.thaw hk (.update .refl)) (.update .refl)
  · exact .update .refl

theorem Same.writeBbadm {v} (h : Same u a s) : Same u a (s.writeBbadm v) := .when (.update h) .bb

theorem SameAfter.blackBoxCommit : SameAfter u s (execBlackBoxCommit s) := by
  unfold execBlackBoxCommit
  refine .next ?_
  split
  · exact .refl
  · exact .ite .refl (.when (.setEvBit (.bump (.update .refl))) .setEvBit)

/-! ### Register writes -/

theorem Same.regApply {reg v} (hn : u ≠ .net) (hk : u ≠ .knots) (hd : u ≠ .deep) (h : Same u a s) : Same u a (regApply reg v s) := by
  cases reg with
  | ydir => exact .writeYdir h
  | ydrv => exact .writeYdrv h
  | fstepGo => exact .fstepGo hn h
  | dsSpeed => exact .writeSpeed hd h
  | dsRas => exact .writeRas hd h
  | hltFrz => exact .writeFreeze hk h
  | hltBbadm => exact .writeBbadm h

theorem Same.writeUnlock {v} (h : Same u a s) : Same u a (s.writeUnlock v) := .ite (.ite (.update h) (.guardFail (.update h))) (.ignoreOp h)
theorem Same.selectGuard {v via} (h : Same u a s) : Same u a (s.selectGuard v via) := .ite (.ignoreOp h) (.update (.ite h (.clampOp h)))

theorem SameAfter.guardLockTimeout : SameAfter u s (execGuardLockTimeout s) := by
  unfold execGuardLockTimeout
  refine .next ?_
  split
  · exact .ite (.setEvBit (.update .refl)) .refl
  · exact .refl

/-! ### Dictionary writes -/

theorem Same.writeKey {n key} (h : Same u a s) : Same u a (s.writeKey n key) := .update h

/-! ### Commands of the dictionary -/

theorem Same.served (h : Same u a s) : Same u a s.served := .update h
theorem Same.complete {r items} (hk : u ≠ .knots) (h : Same u a s) : Same u a (s.complete r items) := .takeNext hk (.sendBack hk (.bump h))

theorem SameAfter.odpRead (hk : u ≠ .knots) : SameAfter u s (execOdpRead s) := by
  unfold execOdpRead
  refine .next ?_
  split
  · exact .complete hk (.served .refl)
  · exact .refl

theorem SameAfter.odpReadBlock (hk : u ≠ .knots) : SameAfter u s (execOdpReadBlock s) := by
  unfold execOdpReadBlock
  refine .next ?_
  split
  · exact .complete hk (.served .refl)
  · exact .refl

theorem Same.withSubs {l} (h : Same u a s) : Same u a (s.withSubs l) := .update h
theorem Same.subscribe {r i} (h : Same u a s) : Same u a (s.subscribe r i).1 := .ite_fst (.withSubs h) (.ite_fst h (.withSubs h))

theorem Same.subscribeItem {r i} (h : Same u a s) : Same u a (s.subscribeItem r i).1 := by
  unfold State.subscribeItem
  split
  · exact h
  · exact .ite_fst h (.ite_fst h (.subscribe h))

theorem SameAfter.odpSubscribe (hk : u ≠ .knots) : SameAfter u s (execOdpSubscribe s) := by
  unfold execOdpSubscribe
  refine .next ?_
  split
  · exact .complete hk (.subscribeItem (.served .refl))
  · exact .refl

theorem Same.notifyEth {p x payload} (h : Same u a s) : Same u a (s.notifyEth p x payload) := .ite h (.ite (.bump h) (.bump (.sendUdp h)))

theorem Same.sendNotify {x n y i} (hk : u ≠ .knots) (h : Same u a s) : Same u a (s.sendNotify x n y i) := by
  unfold State.sendNotify
  split
  · exact .mbNotify h
  · exact .notifyEth h
  · exact .notifyEth h
  · exact .ite (.bump (.sendTunnel hk h)) h
  · exact h
  · exact h

theorem Same.notify {i x} (hk : u ≠ .knots) (h : Same u a s) : Same u a (s.notify i x) := .bumpBy (.sendNotify hk (.withSubs h))

theorem SameAfter.notify {i} (hk : u ≠ .knots) : SameAfter u s (execNotify i s) := by
  unfold execNotify
  refine .next ?_
  split
  · exact .ite (.notify hk .refl) .refl
  · exact .refl

theorem SameAfter.subscriptionLapse {i} : SameAfter u s (execSubscriptionLapse i s) := by
  unfold execSubscriptionLapse
  refine .next ?_
  split
  · exact .ite (.withSubs .refl) .refl
  · exact .refl

theorem Same.authFail {p addr sub} (h : Same u a s) : Same u a (s.authFail p addr sub) := .unless (.bump h) (fun h1 => .bb (.update h1))

theorem Same.queueOdp {p addr port key f} (hk : u ≠ .knots) (h : Same u a s) : Same u a (s.queueOdp p addr port key f) := by
  unfold State.queueOdp
  dsimp only
  split
  · exact .bump (.sendUdp h)
  · exact .ite (.bump h) (.takeNext hk (.update h))

theorem Same.odpFrame {p addr port f} (hk : u ≠ .knots) (h : Same u a s) : Same u a (s.odpFrame p addr port f) := by
  unfold State.odpFrame
  refine .ite (.bump h) (.ite h (.ite (.ite (.authFail h) ?_) (.queueOdp hk h)))
  split
  · exact .authFail h
  · split
    · exact .authFail h
    · exact .queueOdp hk (.update h)

theorem Same.odpArrive {p addr port fragment f} (hk : u ≠ .knots) (h : Same u a s) : Same u a (s.odpArrive p addr port fragment f) :=
  .ite (.dropFrame h) (.ite (.bump h) (.ite h (.odpFrame hk h)))

theorem Same.hearPtp {p m} (hn : u ≠ .net) (h : Same u a s) : Same u a (s.hearPtp p m) := by
  unfold State.hearPtp
  split
  · exact .hearSync hn h
  · exact .hearFollowUp hn h
  · exact .hearAnnounce hn h
  · exact .hearDelayReq h
  · exact .hearDelayResp hn h
  · exact .hearPdelayReq hn h
  · exact .hearPdelayResp hn h
  · exact .hearManagement h
  · exact h

theorem Same.hearUdp {p v6 addr src dst fragment payload} (hk : u ≠ .knots) (h : Same u a s) :
    Same u a (s.hearUdp p v6 addr src dst fragment payload) :=
  .ite (.odpArrive hk h) (.ite (.takeKnot hk h) (.dropFrame h))

theorem Same.hearBody {p b} (hn : u ≠ .net) (hk : u ≠ .knots) (h : Same u a s) : Same u a (s.hearBody p b) := by
  unfold State.hearBody
  split
  · exact .ite (.emit h) (.dropFrame h)
  · exact .ite (.reportGroup h) (.dropFrame h)
  · exact .ite (.emit h) (.dropFrame h)
  · exact .ite (.hearPtp hn h) (.dropFrame h)
  · exact .ite (.hearUdp hk h) (.dropFrame h)
  · exact .dropFrame h

/-! ### Commands of the TAP -/

theorem Same.loadIr {i} (h : Same u a s) : Same u a (s.loadIr i) := .ite (.update h) h
theorem Same.loadScan {i} (h : Same u a s) : Same u a (s.loadScan i) := .loadIr h
theorem Same.shiftOut {bits v} (h : Same u a s) : Same u a (s.shiftOut bits v) := .emit h
theorem Same.drawHold (h : Same u a s) : Same u a s.drawHold := .ite (.update h) h

/-! ### Commands of the watchkeeper -/

theorem Same.watchEdge {d c x level} (h : Same u a s) : Same u a (s.watchEdge d c x level) := .bumpBy (.withDie (.update h))

theorem SameAfter.watchedEdge {d slot time level} : SameAfter u s (execWatchedEdge d slot time level s) := by
  unfold execWatchedEdge
  refine .next ?_
  split
  · exact .ite (.watchEdge .refl) .refl
  · exact .refl

theorem Same.wakePme (h : Same u a s) : Same u a s.wakePme := .ite (.emit (.update h)) h

theorem Same.wakeDie {d} (hc : u ≠ .clocks) (h : Same u a s) : Same u a (s.wakeDie d) := by
  unfold State.wakeDie
  split
  · exact .beginArming hc (.ite (.makeDue h) h)
  · exact h

theorem Same.stopWatch {d} (h : Same u a s) : Same u a (s.stopWatch d) := .withDie h

theorem Same.watchWake {d code} (hc : u ≠ .clocks) (h : Same u a s) : Same u a (s.watchWake d code) :=
  .wakePme (.stopWatch (.stopWatch (.foldl (.wakeDie hc) (.update (.startClocks hc (.setEvBit (.put (.bump h))))))))

theorem SameAfter.chamberWEvaluation {d} (hc : u ≠ .clocks) : SameAfter u s (execChamberWEvaluation d s) := by
  unfold execChamberWEvaluation
  refine .next (.ite ?_ .refl)
  dsimp only
  split
  · exact .withDie .refl
  · exact .when (.withDie .refl) (.watchWake hc)

/-! ### The firing of a slot -/

theorem Same.slotDie {d loc f} (hf : ∀ {t}, Same u a t → Same u a (f t)) (h : Same u a s) : Same u a (s.slotDie d loc f) :=
  .ite (hf h) (.ignoreOp h)

theorem Same.slotFunction {k target} (hd : u ≠ .deep) (hc : u ≠ .clocks) (h : Same u a s) : Same u a (s.slotFunction k target) := by
  unfold State.slotFunction
  split
  · exact .slotDie (.armCommand hd hc) h
  · exact .slotDie (.armCommand hd hc) h
  · exact .slotDie (.captureStop hc) h
  · exact .slotDie (.captureStop hc) h
  · exact .slotDie .forceTrigger h
  · exact .slotDie .forceTrigger h
  · exact .genTimeStart hd hc h
  · exact .genTimeStart hd hc h
  · exact .slotGate h
  · exact .ite (.watchWake hc h) (.ignoreOp h)
  · exact .ite (.watchWake hc h) (.ignoreOp h)
  · exact h

/-! ### Every command -/

/-- The units that a command names in its frame lists. -/
def Part.mayChange : Part → Instr → Bool
  | .net => Instr.changesNet
  | .knots => Instr.changesKnots
  | .deep => Instr.changesDeep
  | .clocks => Instr.changesClocks

/-- A command that does not name `u` is to leave it as it was. -/
def Spares (c : Instr) (u : Part) : Prop := u.mayChange c = false

theorem Spares.ne {c : Instr} {q : Part} (hm : Spares c u) (hq : q.mayChange c = true) : u ≠ q := by
  rintro rfl
  exact Bool.noConfusion (hm.symm.trans hq)

/-- Of a command that names all four units nothing is to be shown. -/
theorem Spares.elim_all {c : Instr} {P : Prop} (hm : Spares c u) (hn : c.changesNet = true) (hk : c.changesKnots = true)
    (hd : c.changesDeep = true) (hc : c.changesClocks = true) : P := by
  cases u with
  | net => exact absurd rfl (hm.ne hn)
  | knots => exact absurd rfl (hm.ne hk)
  | deep => exact absurd rfl (hm.ne hd)
  | clocks => exact absurd rfl (hm.ne hc)

/-- Every command leaves the units that it does not name as they were. -/
theorem exec_same (s : State) : ∀ c : Instr, Spares c u → SameAfter u s (exec c s)
  | .coreWord .., _ => .next (.ite (.runDie .refl) .refl)
  | .deferredAdvanceExecute .., _ => .deferredAdvanceExecute
  | .timerSaturation .., _ => .next (.ite (.runDie .refl) .refl)
  | .trigoutPulseEnd .., _ => .next (.unless (.settlePin .refl) .pulseOver)
  | .eventBargeClose .., _ => .next (.ite (.runDie .refl) .refl)
  | .forceTrigger .., _ => .next (.onBar0 .forceTrigger .refl)
  | .pendingPlacementCommit .., _ => .pendingPlacementCommit
  | .triggerLineArrival .., _ => .triggerLineArrival
  | .arm .., hm => .next (.onBar0 (.armCommand (hm.ne rfl) (hm.ne rfl)) .refl)
  | .convoyOpen .., hm => .next (.ite (have h1 := .foldl .ramFound .refl; .ite (.foldl (.endArming (hm.ne rfl)) h1) (.openConvoy h1)) .refl)
  | .stop .., hm => .next (.onBar0 (.captureStop (hm.ne rfl)) .refl)
  | .release .., _ => .next (.onBar0 .releaseCommand .refl)
  | .sluiceCopy .., _ => .sluiceCopy
  | .convoySealed .., hm => .next (.ite (.ite (.sealConvoy (hm.ne rfl) (.foldl .markFault (.foldl .reserveEvents (.sluiceAll (.foldl
    .sluiceBegin (.foldl .closeDie .refl)))))) .refl) .refl)
  | .sluiceSealedConvoy .., _ => .next (.onPath (fun h1 => .ite h1 (.ite (.withDie h1) (.ignoreOp h1))) .refl)
  | .sluiceSealedCopyDone .., _ => .sluiceSealedCopyDone
  | .watchedEdge .., _ => .watchedEdge
  | .quadrantReturn .., _ => .next (.ite (.withDie .refl) .refl)
  | .eyeFinderStart .., hm => .next (.onPath (fun h1 => .ite (.ignoreOp h1) (.ite (.ignoreOp h1) (.when (.needSpll (hm.ne rfl)
    (.markDieGauges (.putNat (.withDie h1)))) (.beginCal (hm.ne rfl))))) .refl)
  | .eyeFinderDone .., hm => .eyeFinderDone (hm.ne rfl)
  | .eyeFinderNoClock, hm => .next (.ite (.endEye (hm.ne rfl) .refl) .refl)
  | .fullCalibrationCommand .., hm => .next (.onPath (fun h1 => .foldl (fun h2 => .ite h2 (.ite (.ignoreOp h2) (.ite (.beginCal (hm.ne rfl)
    h2) (.ignoreOp h2)))) (.ite (.clampOp h1) h1)) .refl)
  | .calibrationComplete .., hm => .next (.ite (.restSpll (hm.ne rfl) (.when (.foldl .markFine (.storeCal .refl)) .bump)) .refl)
  | .driftCheck .., hm => .next (.ite (.ite (.beginCheck (hm.ne rfl) .refl) (.makeDue .refl)) .refl)
  | .deskewRecalibration .., hm => .next (.ite (.ite (.beginCheck (hm.ne rfl) .refl) (.makeDue .refl)) .refl)
  | .calibrationAgeDue .., hm => .next (.ite (.when (.makeDue (.withDie .refl)) (.beginCal (hm.ne rfl))) .refl)
  | .maintenanceTaskRun .., hm => .maintenanceTaskRun (hm.ne rfl) (hm.ne rfl)
  | .writeYarnDirection .., _ => .next (.ite (.guardForm .writeYdir .refl) (.onBar0 (fun h1 => h1) .refl))
  | .writeYarnDrive .., _ => .next (.ite (.guardForm .writeYdrv .refl) (.onBar0 (fun h1 => h1) .refl))
  | .incrementCommit .., _ => .next (.onBar0 .writeIncHi .refl)
  | .stepCommit .., _ => .next (.onBar0 .writeStepHi .refl)
  | .stepApply, _ => .next (.ite (.tick .refl) .refl)
  | .forceStepAmount .., hm => .next (.guardForm (.fstepGo (hm.ne rfl)) .refl)
  | .forceStepAbsolute .., hm => .next (.guardForm (.fstepGo (hm.ne rfl)) .refl)
  | .epochWrite .., _ => .next (.byPath .writeEpoch .refl)
  | .timewordWrap, _ => .next (.ite (.tick .refl) .refl)
  | .discSet, _ => .next (.onBar0 .discSet .refl)
  | .discClear, hm => .next (.onBar0 (.discClear (hm.ne rfl)) .refl)
  | .hostWatchdogExpiry, hm => .next (.ite (.bb (.bump (.enterHoldover (hm.ne rfl) (.update .refl)))) .refl)
  | .servoOwnerWrite .., hm => .next (.onPath (fun h1 => .writeOwner (hm.ne rfl) (.ite h1 (.clampOp h1))) .refl)
  | .compareTargetCommit .., _ => .next (.byPath (.byPath .commitTarget) .refl)
  | .compareSlotEnable .., _ => .next (.byPath .enableSlot .refl)
  | .compareSlotFire .., hm => .next (.ite (.slotFunction (hm.ne rfl) (hm.ne rfl) (.fireSlot .refl)) .refl)
  | .sourceSelect .., hm => .next (.onPath (.selectSource (hm.ne rfl)) .refl)
  | .sourceSwap .., hm => .sourceSwap (hm.ne rfl)
  | .refinFallback .., hm => .next (.ite .refl (.enterHoldover (hm.ne rfl) (.bump (.setEvBit (.swapSource (hm.ne rfl) .refl)))))
  | .refinAutoReturn .., hm => .next (.ite (.swapSource (hm.ne rfl) .refl) .refl)
  | .freeRunUpdate, _ => .next (.ite (.freeRun .refl) .refl)
  | .ageingLearned .., _ => .ageingLearned
  | .latchingPairRead .., hm => .next (.ite (.emit (.latchPair (hm.ne rfl) .refl)) (.emit .refl))
  | .portReconfigure .., hm => .portReconfigure (hm.ne rfl)
  | .ethLinkLoss .., hm => .next (.ethDown (hm.ne rfl) .refl)
  | .ethLinkUp .., hm => .next (.ite (.ptpSettle (hm.ne rfl) (.reportGroups (.withPort (hm.ne rfl) .refl))) .refl)
  | .ethFrameReceive .., hm => .next (.ite (.ite (.hearBody (hm.ne rfl) (hm.ne rfl) (.countFrame .refl)) (.dropFrame (.countFrame .refl)))
    .refl)
  | .bulkReadoutStart .., hm => .next (.onPath (.bulkStart (hm.ne rfl)) .refl)
  | .bulkReadoutDatagram, hm => .bulkReadoutDatagram (hm.ne rfl) (hm.ne rfl)
  | .syncReceive .., hm => .next (.ptpFrame (.hearSync (hm.ne rfl)) .refl)
  | .followUpReceive .., hm => .next (.ptpFrame (.hearFollowUp (hm.ne rfl)) .refl)
  | .announceReceive .., hm => .next (.ptpFrame (.hearAnnounce (hm.ne rfl)) .refl)
  | .delayReqReceive .., _ => .next (.ptpFrame .hearDelayReq .refl)
  | .delayRespReceive .., hm => .next (.ptpFrame (.hearDelayResp (hm.ne rfl)) .refl)
  | .pdelayReqReceive .., hm => .next (.ptpFrame (.hearPdelayReq (hm.ne rfl)) .refl)
  | .pdelayRespReceive .., hm => .next (.ptpFrame (.hearPdelayResp (hm.ne rfl)) .refl)
  | .managementMessageReceive .., _ => .next (.ptpFrame .hearManagement .refl)
  | .syncSend .., hm => .next (.ite (.queueStamp (hm.ne rfl) (.sendPtp (.withPort (hm.ne rfl) .refl))) .refl)
  | .announceSend .., hm => .next (.ite (.sendPtp (.withPort (hm.ne rfl) .refl)) .refl)
  | .delayReqSend .., hm => .next (.ite (.ite (.queueStamp (hm.ne rfl) (.sendPtp (.withPort (hm.ne rfl) (.missDelay (hm.ne rfl) .refl))))
    (.queueStamp (hm.ne rfl) (.sendPtp (.withPort (hm.ne rfl) (.missDelay (hm.ne rfl) .refl))))) .refl)
  | .syncTimeout, hm => .next (.ite (.ite (.monitorExpired (hm.ne rfl) .refl) (.ite (.enterHoldover (hm.ne rfl) .refl) .refl)) .refl)
  | .announceReceiptTimeout, hm => .next (.announceLost (hm.ne rfl) (.announceLost (hm.ne rfl) .refl))
  | .knotSend, hm => .knotSend (hm.ne rfl)
  | .hostKnotSend .., hm => .next (.onPath (fun h1 => .sendHostKnot (hm.ne rfl) (.ite h1 (.clampOp h1))) .refl)
  | .knotReceive .., hm => .knotReceive (hm.ne rfl)
  | .knotDeliver, hm => .knotDeliver (hm.ne rfl)
  | .duplicateEntryExpiry .., hm => .next (.updateKnots (hm.ne rfl) .refl)
  | .heartbeatSend .., hm => .next (.ite (.sendBeat (hm.ne rfl) .refl) .refl)
  | .heartbeatReceive .., hm => .next (.ite .refl (.ite (.goodBeat (hm.ne rfl) (hm.ne rfl) .refl) (.badBeat (hm.ne rfl) .refl)))
  | .alpPortEnable .., hm => .next (.onPath (.alpEnable (hm.ne rfl) (hm.ne rfl)) .refl)
  | .alpPortDown .., hm => .next (.ite (.alpDown (hm.ne rfl) (hm.ne rfl) .refl) .refl)
  | .alpLaneFailure .., hm => .next (.ite .refl (.laneFailure (hm.ne rfl) (hm.ne rfl) .refl))
  | .alpMeasurement .., hm => .alpMeasurement (hm.ne rfl) (hm.ne rfl)
  | .tunnelFrameReceive .., hm => .next (.ite .refl (.ite (.discardFrame .refl) (.ite (.ite (.tunnelFragment (hm.ne rfl) .refl)
    (.tunnelOnward (hm.ne rfl) .refl)) .refl)))
  | .gaugeStart .., hm => .next (.onPath (fun h1 => .ite h1 (.ite (.ignoreOp h1) (.ite (.ignoreOp h1) (.freshResult (.needSpll (hm.ne rfl)
    (.withGauge (.foldl .putNat (.putNat (.clampGauge h1))))))))) .refl)
  | .gaugeStop .., hm => .next (.onPath (fun h1 => .ite h1 (.ite (.endGauge (hm.ne rfl) (.publishPartial h1)) (.ignoreOp h1))) .refl)
  | .gaugeStampingBegin .., _ => .gaugeStampingBegin
  | .gateClose .., hm => .next (.ite (.closeGate (hm.ne rfl) .refl) .refl)
  | .gaugeStartEdge .., hm => .next (.ite (.gaugeEdge (hm.ne rfl) (fun h1 => .ite (.shotEdge (hm.ne rfl) h1) (.freqEdge h1)) .refl) .refl)
  | .gaugeStopEdge .., hm => .next (.ite (.gaugeEdge (hm.ne rfl) (.stopEdge (hm.ne rfl)) .refl) .refl)
  | .shotTimeout .., _ => .next (.ite (.shotMissed .refl) .refl)
  | .gaugeTimeout .., hm => .next (.ite (.endGauge (hm.ne rfl) (.publishPartial .refl)) .refl)
  | .pgPrime .., hm => .next (.genCommand (.primeCommand (hm.ne rfl) (hm.ne rfl)) .refl)
  | .pgStart .., hm => .next (.genCommand (.startCommand (hm.ne rfl) (hm.ne rfl)) .refl)
  | .pgReady .., hm => .pgReady (hm.ne rfl)
  | .pgStop .., hm => .next (.genCommand (.stopCommand (hm.ne rfl)) .refl)
  | .pgJumpRequest .., _ => .pgJumpRequest
  | .pgPassEnd .., hm => .next (.ite (.when (.genSettle .refl) (fun h1 => .genAsk (hm.ne rfl) (.genPass h1))) .refl)
  | .pgUnderrun .., hm => .next (.ite (.genAsk (hm.ne rfl) (.genSettle .refl)) .refl)
  | .pgHoldEnd .., hm => .next (.ite (.genRest (hm.ne rfl) .refl) .refl)
  | .pgKnotStart .., _ => .pgKnotStart
  | .syncinPulse .., _ => .next (.unless (.ite (.emit .refl) .refl) (fun h1 => .genSync (.genSync h1)))
  | .pgSyncStart .., _ => .pgSyncStart
  | .syncoutOriginate .., _ => .next (.onPath (fun h1 => .ite (.emit h1) (.ignoreOp h1)) .refl)
  | .pgSyncCalibration .., hm => .next (.onPath (fun h1 => .ite h1 (.ite (.needSpll (hm.ne rfl) (.putNat (.withGen h1))) (.ignoreOp h1)))
    .refl)
  | .syncCalibrationEnd .., hm => .next (.ite (.ite (.storeSyncCal (hm.ne rfl) .refl) (.ite (.endSyncCal (hm.ne rfl) .refl) .refl)) .refl)
  | .loopCacheLoad .., hm => .next (.onPath (fun h1 => .ite h1 (.ite (.ignoreOp h1) (.ite (.withGen h1) (.dsAsk (hm.ne rfl) (.withGen (.ite
    h1 (.clampOp h1))))))) .refl)
  | .loopCacheLoadDone .., hm => .loopCacheLoadDone (hm.ne rfl)
  | .speedChangeRequest .., hm => .next (.guardForm (.writeSpeed (hm.ne rfl)) .refl)
  | .speedChangeApply, hm => .next (.ite (.ite (.ite .refl (.bb (.setEvBit (.bump (.updateDeep (hm.ne rfl) .refl))))) (.applySpeed (hm.ne
    rfl) (hm.ne rfl) .refl)) .refl)
  | .speedChangeComplete .., hm => .next (.ite (.bump (.foldl (.trained (hm.ne rfl)) (.updateDeep (hm.ne rfl) .refl))) .refl)
  | .trainingDue .., hm => .next (.ite (.ite (.beginTraining (hm.ne rfl) .refl) (.makeDue .refl)) .refl)
  | .trainingComplete .., hm => .next (.ite (.when (.trained (hm.ne rfl) .refl) (.applySpeed (hm.ne rfl) (hm.ne rfl))) .refl)
  | .dimmSensorRead .., hm => .next (.ite (.foldl (.readDimm (hm.ne rfl)) .refl) .refl)
  | .dsRequestComplete .., hm => .dsRequestComplete (hm.ne rfl)
  | .dsParityError .., hm => .next (.ite .refl (.rankOut (hm.ne rfl) (.when (.bb (.setEvBit (.bump .refl))) (.damaged (hm.ne rfl)))))
  | .migrationDone .., hm => .migrationDone (hm.ne rfl)
  | .urgencyRise .., hm => .urgencyRise (hm.ne rfl)
  | .patrolScrubRead .., hm => .patrolScrubRead (hm.ne rfl)
  | .rankRetire .., hm => .next (.guardForm (.writeRas (hm.ne rfl)) .refl)
  | .spareEnable .., hm => .next (.guardForm (.writeRas (hm.ne rfl)) .refl)
  | .retiredListClear .., hm => .next (.guardForm (.writeRas (hm.ne rfl)) .refl)
  | .mpllCoastSelfRefresh .., hm => .next (.ite (.bb (.bump (.withChan (hm.ne rfl) .refl))) .refl)
  | .windowRead .., hm => .ite .fault (.next (.ite (.emit .refl) (.ite (.emit (.bump .refl)) (.ite (.emit (.dsAccess (hm.ne rfl) .refl))
    (.emit (.windowHole .refl))))))
  | .windowWrite .., hm => .ite .fault (.next (.ite (.emit .refl) (.ite (.bump (.update .refl)) (.ite (.windowStore (.dsAccess (hm.ne rfl)
    .refl)) (.windowHole .refl)))))
  | .windowBaseWrite .., _ => .next (.onBar0 .writeWindowBase .refl)
  | .marchTestCommand .., _ => .next (.onPath (fun h1 => .commandTest (.commandClamp h1)) .refl)
  | .marchTestDone .., _ => .marchTestDone
  | .backgroundTestStep .., _ => .next (.ite (.ite (.ite (.nextBlock (.update .refl)) (.update (.update .refl))) (.nextBlock (.foldl
    .blockFault (.update .refl)))) .refl)
  | .descriptorRamHostWrite .., hm => .ite .fault (.next (.ite (.ramWrite (hm.ne rfl) .refl) (.emit .refl)))
  | .descriptorRamHostRead .., _ => .ite .fault (.next (.ite (.emit (.meetFlaws (.touchRam (.update .refl)))) (.emit .refl)))
  | .scratchpadUe, hm => .next (.ite (.restartHkc (hm.ne rfl) (hm.ne rfl) (hm.ne rfl) .refl) .refl)
  | .referenceLoss, hm => .next (.setEvBit (.foldl (.refLost (hm.ne rfl)) .refl))
  | .lockLoss .., hm => .next (.ite .refl (.ite (.failAttempt (hm.ne rfl) (.enterCoast (hm.ne rfl) .refl)) (.enterCoast (hm.ne rfl) .refl)))
  | .coastEstimate .., hm => .next (.ite (.when (.putInt (.withPll (hm.ne rfl) .refl)) .clockSeal) .refl)
  | .coastEstimateTimeout .., _ => .next (.ite (.clockSeal .refl) .refl)
  | .reentry .., hm => .next (.ite (.takeWanted (hm.ne rfl) (.reenter (hm.ne rfl) .refl)) (.ite (.withPll (hm.ne rfl) .refl) .refl))
  | .reentryAttempt .., hm => .next (.ite (.takeWanted (hm.ne rfl) (.reenter (hm.ne rfl) .refl)) .refl)
  | .lockConfirmed .., hm => .next (.ite (.ite (.relockChan (hm.ne rfl) (.withPll (hm.ne rfl) .refl)) (.failAttempt (hm.ne rfl)
    (.enterCoast (hm.ne rfl) .refl))) .refl)
  | .bandSearchDone .., hm => .next (.ite (.relockChan (hm.ne rfl) (.takeWanted (hm.ne rfl) (.returnPll (hm.ne rfl) (.bandFound (hm.ne rfl)
    .refl)))) .refl)
  | .bandRevalidate .., hm => .next (.onPath (.foldl (fun h2 => .ite (.beginReval (hm.ne rfl) h2) (.ignoreOp h2))) .refl)
  | .spreadChange .., hm => .next (.onPath (fun h1 => have h2 := .ite h1 (.clampOp h1); .ite (.updateClocks (hm.ne rfl) (.putNat h2))
    (.updateClocks (hm.ne rfl) (.putNat h2))) .refl)
  | .elasticBufferSeal .., _ => .next (.ite (.clockSeal .refl) (.ite (.clockSeal .refl) .refl))
  | .dmaRun .., hm => .next (.onBar0 (.dmaRun (hm.ne rfl)) .refl)
  | .dmaStop .., _ => .next (.onBar0 .dmaStop .refl)
  | .dmaAbort .., _ => .next (.onBar0 .dmaAbort .refl)
  | .dmaResume .., hm => .next (.onBar0 (.dmaResume (hm.ne rfl)) .refl)
  | .dmaProducerWrite .., hm => .next (.onBar0 (.dmaProd (hm.ne rfl)) .refl)
  | .dmaJobComplete .., hm => .dmaJobComplete (hm.ne rfl)
  | .pcieCompletionReceive .., hm => .pcieCompletionReceive (hm.ne rfl)
  | .completionTimeout .., _ => .completionTimeout
  | .busMasterDisable, _ => .next (.ite (.bmeOff .refl) .refl)
  | .busMasterEnable, hm => .next (.ite (.bmeOn (hm.ne rfl) .refl) .refl)
  | .d3hotEntry, _ => .next (.ite (.enterD3 .refl) .refl)
  | .d0Return, _ => .next (.ite (.leaveD3 .refl) .refl)
  | .functionLevelReset, _ => .next (.startFlr .refl)
  | .hotReset, _ => .next (.ite (.update (.beginReset .refl)) .refl)
  | .flrWaitEnd, hm => .next (.ite (.resetFunction (hm.ne rfl) (.retireTags .refl)) .refl)
  | .retiredTagExpiry .., hm => .retiredTagExpiry (hm.ne rfl)
  | .pcieLinkLoss .., hm => .next (.ite (.linkLost (hm.ne rfl) .refl) .refl)
  | .msixUnmask .., _ => .msixUnmask
  | .pmeStatusClear, _ => .next (.ite (.clearPme .refl) .refl)
  | .mailboxSubmit .., hm => .next (.ite (.ramDword (hm.ne rfl) .refl) (.emit .refl))
  | .odpDatagramReceive .., hm => .next (.ite (.ite (.odpArrive (hm.ne rfl) (.countFrame .refl)) (.dropFrame (.countFrame .refl))) .refl)
  | .odpRead, hm => .odpRead (hm.ne rfl)
  | .odpWrite, hm => hm.elim_all rfl rfl rfl rfl
  | .odpReadBlock, hm => .odpReadBlock (hm.ne rfl)
  | .odpWriteBlock, hm => hm.elim_all rfl rfl rfl rfl
  | .odpSubscribe, hm => .odpSubscribe (hm.ne rfl)
  | .keyWrite .., _ => .next (.ite (.writeKey (.ite .refl (.clampOp .refl))) .refl)
  | .notify .., hm => .notify (hm.ne rfl)
  | .subscriptionLapse .., _ => .subscriptionLapse
  | .registerWrite .., hm => hm.elim_all rfl rfl rfl rfl
  | .guardUnlock .., _ => .next (.onBar0 .writeUnlock .refl)
  | .guardLockTimeout, _ => .guardLockTimeout
  | .guardComplementWrite .., hm => .next (.ite (.complementWrite (.regApply (hm.ne rfl) (hm.ne rfl) (hm.ne rfl)) .refl) (.onBar0 (fun h1
    => h1) .refl))
  | .guardModeSelect .., _ => .next (.byPath .selectGuard .refl)
  | .requestOn .., hm => .next (.askPower (hm.ne rfl) (hm.ne rfl) .refl)
  | .requestStandby .., hm => .next (.askPower (hm.ne rfl) (hm.ne rfl) .refl)
  | .requestRetain .., hm => .next (.askPower (hm.ne rfl) (hm.ne rfl) .refl)
  | .requestWatch .., hm => .next (.askPower (hm.ne rfl) (hm.ne rfl) .refl)
  | .requestOff .., hm => .next (.askPower (hm.ne rfl) (hm.ne rfl) .refl)
  | .powerTransitionDone, hm => hm.elim_all rfl rfl rfl rfl
  | .domainIdleOff .., _ => .domainIdleOff
  | .powerFailWarning .., hm => hm.elim_all rfl rfl rfl rfl
  | .powerOnReset, hm => hm.elim_all rfl rfl rfl rfl
  | .powerOnResetRelease .., hm => .next (.ite (.when (.beginStart (hm.ne rfl) (hm.ne rfl) (hm.ne rfl) (.noteReset (.update .refl)))
    .update) .refl)
  | .fundamentalResetAssert .., hm => hm.elim_all rfl rfl rfl rfl
  | .fundamentalResetRelease .., hm => .next (.ite (.ite (.leaveOff (hm.ne rfl) (hm.ne rfl) (hm.ne rfl) (.dropScan .refl)) (.beginStart
    (hm.ne rfl) (hm.ne rfl) (hm.ne rfl) (.passUntil (.dropScan .refl)))) (.update .refl))
  | .startupComplete .., hm => .next (.ite (.startUp (hm.ne rfl) (hm.ne rfl) .refl) .refl)
  | .mainRailsReturn .., hm => .next (.ite (.ite (.update .refl) (.leaveOff (hm.ne rfl) (hm.ne rfl) (hm.ne rfl) .refl)) .refl)
  | .offWakeEdge .., _ => .next (.ite (.update .refl) .refl)
  | .hkcWatchdogExpiry, hm => .next (.ite (.restartHkc (hm.ne rfl) (hm.ne rfl) (hm.ne rfl) .refl) .refl)
  | .hkcRestartComplete, hm => .next (.ite (.takeStamps (hm.ne rfl) (.takeStamps (hm.ne rfl) (.restartAnswers (hm.ne rfl) (.sendUnsent
    (.update .refl))))) .refl)
  | .sensorRead .., hm => hm.elim_all rfl rfl rfl rfl
  | .freezePinLow, hm => .next (.ite .refl (.unless (.update .refl) (.requestFreeze (hm.ne rfl))))
  | .freezePinRelease, hm => .freezePinRelease (hm.ne rfl)
  | .freezeRegister .., hm => .next (.guardForm (.writeFreeze (hm.ne rfl)) .refl)
  | .thawRegister .., hm => .next (.guardForm (.writeFreeze (hm.ne rfl)) .refl)
  | .hostMark .., _ => .next (.guardForm .writeBbadm .refl)
  | .optionalCategoriesWrite .., _ => .next (.guardForm .writeBbadm .refl)
  | .blackBoxCommit, _ => .blackBoxCommit
  | .jtagExtest, _ => .next (.loadScan .refl)
  | .jtagIdcode, _ => .next (.ite (.shiftOut (.loadIr .refl)) .refl)
  | .jtagSamplePreload, _ => .next (.loadIr .refl)
  | .jtagClamp, _ => .next (.loadScan .refl)
  | .jtagHighz, _ => .next (.loadScan .refl)
  | .jtagExtestPulse, _ => .next (.loadScan .refl)
  | .jtagBypass .., _ => .next (.ite .refl (.loadIr .refl))
  | .frzSeg .., _ => .next (.ite (.update .refl) .refl)
  | .frzRead, _ => .next (.ite (.shiftOut (.drawHold (.loadIr .refl))) .refl)
  | .bbAddr .., _ => .next (.ite (.update .refl) .refl)
  | .bbRead, _ => .next (.ite (.emit (.loadIr .refl)) .refl)
  | .chamberWEvaluation .., hm => .chamberWEvaluation (hm.ne rfl)
  | .pgTimeStart .., _ => .pgTimeStart
  | .pcieLinkUp .., _ => .next (.ite (.update .refl) .refl)
  | .configurationWrite .., hm => .ite .fault (.next (.ite (.writeCfg (hm.ne rfl) .refl) .refl))

/-- Settles O57: each command's meaning is built of operations that change no unit but those that the command names. -/
theorem networkAndStoreFrames : Obligations.NetworkAndStoreFrames := by
  intro c s t e
  have h : ∀ u, Spares c u → Same u s t := fun u hm => by
    have h := exec_same s c hm
    rwa [e] at h
  exact ⟨h .net, h .knots, h .deep, h .clocks⟩

end Sys2Proof.Machine
end

section
/-! PROOFS. IEEE 1588 (O18, O19), and where the links and the parent monitors fall short of their statements (O17, O20).

A PTP message reaches the engine in the state with its frame counted, which differs from the state before in a counter of the port alone. What
the servo does with an accepted Sync is judged by `Steered a s`: `s` has the ports of `a` and the Sync that waits there. -/

namespace Sys2Proof.Machine

/-! ### A frame that is counted -/

theorem State.storeGet_bump_other {idx sub i j : Nat} (h : objKey idx sub ≠ objKey i j) (s : State) :
    storeGet (s.bump i j).objs idx sub = storeGet s.objs idx sub := by
  simp only [State.bump, State.bumpBy, if_neg Nat.one_ne_zero, storeBump, storeGet_storePut_other h]

section Counted

variable {idx sub : Nat} (s : State) (p : Fin 2) (h : PtpHdr)

@[simp] theorem State.countFrame_net : (s.countFrame p).net = s.net := s.bump_net ..
@[simp] theorem State.countFrame_tb : (s.countFrame p).tb = s.tb := s.bump_tb ..
@[simp] theorem State.countFrame_now : (s.countFrame p).now = s.now := s.bump_now ..
@[simp] theorem State.countFrame_out : (s.countFrame p).out = s.out := s.bump_out ..
@[simp] theorem State.countFrame_power : (s.countFrame p).power = s.power := s.bump_power ..
@[simp] theorem State.countFrame_health : (s.countFrame p).health = s.health := s.bump_health ..
@[simp] theorem State.countFrame_clocks : (s.countFrame p).clocks = s.clocks := s.bump_clocks ..
@[simp] theorem State.countFrame_knots : (s.countFrame p).knots = s.knots := s.bump_knots ..

/-- The counters of frames are the objects 4402 and 4403 (R207). -/
theorem State.countFrame_storeGet (hi : idx < 0x4402 ∨ 0x4404 ≤ idx) (hs : sub < 256) :
    storeGet (s.countFrame p).objs idx sub = storeGet s.objs idx sub := by
  refine s.storeGet_bump_other ?_
  unfold objKey
  omega

theorem State.countFrame_objInt (hi : idx < 0x4402 ∨ 0x4404 ≤ idx) (hs : sub < 256) : (s.countFrame p).objInt idx sub = s.objInt idx sub :=
  congrArg Val.int (s.countFrame_storeGet p hi hs)

theorem State.countFrame_objNat (hi : idx < 0x4402 ∨ 0x4404 ≤ idx) (hs : sub < 256) : (s.countFrame p).objNat idx sub = s.objNat idx sub :=
  congrArg Int.toNat (s.countFrame_objInt p hi hs)

theorem State.countFrame_objBool (hi : idx < 0x4402 ∨ 0x4404 ≤ idx) (hs : sub < 256) :
    (s.countFrame p).objBool idx sub = s.objBool idx sub := congrArg (· != 0) (s.countFrame_objInt p hi hs)

theorem State.countFrame_objBytes (hi : idx < 0x4402 ∨ 0x4404 ≤ idx) (hs : sub < 256) :
    (s.countFrame p).objBytes idx sub = s.objBytes idx sub := congrArg Val.byteList (s.countFrame_storeGet p hi hs)

@[simp] theorem State.countFrame_ptpPort : (s.countFrame p).ptpPort p = s.ptpPort p := by
  simp (disch := omega) only [State.ptpPort, State.countFrame_objBool, State.countFrame_objNat]

@[simp] theorem State.countFrame_ptpCarried : (s.countFrame p).ptpCarried p = s.ptpCarried p := by
  simp (disch := omega) only [State.ptpCarried, State.hasAddr, State.countFrame_objBytes, State.countFrame_objNat]

@[simp] theorem State.countFrame_ptpLive : (s.countFrame p).ptpLive p = s.ptpLive p := by
  simp only [State.ptpLive, State.ptpReady, State.frozenFull, countFrame_ptpPort, countFrame_ptpCarried, countFrame_net, countFrame_power,
    countFrame_health]

@[simp] theorem State.countFrame_ptpHears : (s.countFrame p).ptpHears p h = s.ptpHears p h := by
  simp (disch := omega) only [State.ptpHears, countFrame_ptpLive, State.countFrame_objNat]

@[simp] theorem State.countFrame_clockId : (s.countFrame p).clockId = s.clockId := by
  simp (disch := omega) only [State.clockId, State.countFrame_objNat]

@[simp] theorem State.countFrame_peerDelay : (s.countFrame p).peerDelay = s.peerDelay := by
  simp (disch := omega) only [State.peerDelay, State.countFrame_objNat]

@[simp] theorem State.countFrame_ingress (stamp : Qword) : (s.countFrame p).ingress p stamp = s.ingress p stamp := by
  simp (disch := omega) only [State.ingress, State.latency, State.fullOf, State.fullTime, State.time, countFrame_tb,
    State.countFrame_objInt, State.countFrame_objNat]

@[simp] theorem State.countFrame_syncInterval : (s.countFrame p).syncInterval = s.syncInterval := by
  simp (disch := omega) only [State.syncInterval, State.countFrame_objInt]

@[simp] theorem State.countFrame_announceStale (seen : Nat) : (s.countFrame p).announceStale seen = s.announceStale seen := by
  rw [State.announceStale, State.announceInterval, countFrame_now, s.countFrame_objInt p (by omega) (by omega)]
  rfl

@[simp] theorem State.countFrame_takeAnnounce (best : Option (MasterData × Nat)) (m : MasterData) :
    (s.countFrame p).takeAnnounce best m = s.takeAnnounce best m := by
  cases best with
  | none => simp only [State.takeAnnounce, countFrame_now]
  | some b => simp only [State.takeAnnounce, countFrame_now, countFrame_announceStale]

@[simp] theorem State.countFrame_fromParent : (s.countFrame p).fromParent p h = s.fromParent p h := by
  simp only [State.fromParent, countFrame_net]

@[simp] theorem State.countFrame_answersMe (source : Qword) (port seq : BitVec 16) :
    (s.countFrame p).answersMe p source port seq = s.answersMe p source port seq := by
  simp only [State.answersMe, countFrame_clockId, countFrame_net]

@[simp] theorem State.countFrame_xpllCoasts : (s.countFrame p).xpllCoasts = s.xpllCoasts := by
  simp only [State.xpllCoasts, countFrame_clocks]

/-- What leaves a port is the same before and after a frame is counted. -/
@[simp] theorem State.countFrame_sendPtp_out (m : PtpOut) : ((s.countFrame p).sendPtp p m).out = (s.sendPtp p m).out := by
  simp (disch := omega) only [State.sendPtp, State.emit, State.vlanOf, countFrame_out, countFrame_clockId, State.countFrame_objNat]

variable {s p h}

/-- A live port hears a PTP message, and has it counted (R189). -/
theorem State.ptpFrame_of_live (live : s.ptpLive p = true) (f : State → State) : s.ptpFrame p f = f (s.countFrame p) := by
  simp only [State.ptpLive, State.ptpReady, State.ptpPort, Bool.and_eq_true] at live
  obtain ⟨⟨⟨⟨⟨⟨enabled, service⟩, -⟩, carried⟩, link⟩, thawed⟩, -⟩ := live
  have hears : s.ethHears p = true := by simp only [State.ethHears, enabled, link, thawed, Bool.and_self]
  have offers : ((s.countFrame p).ethService p 3 && (s.countFrame p).ptpCarried p) = true := by
    simp (disch := omega) only [State.ethService, State.countFrame_objBool, State.countFrame_objNat, countFrame_net, countFrame_ptpCarried,
      enabled, service, carried, link, Bool.and_self]
  rw [State.ptpFrame, if_pos hears]
  exact if_pos offers

theorem State.ptpFrame_of_hears (hears : s.ptpHears p h = true) (f : State → State) : s.ptpFrame p f = f (s.countFrame p) := by
  rw [State.ptpHears, Bool.and_eq_true] at hears
  exact s.ptpFrame_of_live hears.1 f

end Counted

/-! ### What the servo leaves alone -/

/-- The ports of `a`, and the Sync that waits there. -/
def Steered (a s : State) : Prop := s.net.ports = a.net.ports ∧ s.net.waiting = a.net.waiting

section Steered

variable {a s t : State}

theorem Steered.refl (s : State) : Steered s s := ⟨rfl, rfl⟩

/-- An operation that leaves the net alone leaves the ports alone. -/
theorem Steered.of_same (hst : Same .net s t) (h : Steered a s) : Steered a t := by
  have e : t.net = s.net := hst
  simpa only [Steered, e] using h

theorem Steered.ite {c : Prop} [Decidable c] (hs : Steered a s) (ht : Steered a t) : Steered a (if c then s else t) := by
  split
  · exact hs
  · exact ht

theorem Steered.when {c : Prop} [Decidable c] (hs : Steered a s) (ht : Steered a s → Steered a t) : Steered a (if c then t else s) :=
  .ite (ht hs) hs

theorem Steered.dropHold (h : Steered a s) : Steered a s.dropHold := by
  unfold State.dropHold
  split
  · exact .of_same (.bb .refl) h
  · exact h

theorem Steered.enterHoldover {cause : Nat} (h : Steered a s) : Steered a (s.enterHoldover cause) := by
  unfold State.enterHoldover
  exact .ite (.of_same (.bb (.markGauges .refl)) h.dropHold) h

theorem Steered.forceStep {v : Qword} {abs srv : Bool} (h : Steered a s) : Steered a (s.forceStep v abs srv) := by
  unfold State.forceStep
  exact have ticked := Same.tickTime (.ite (.ignoreOp (.setEvBit (.update .refl))) .refl)
    .when (.enterHoldover (.of_same (.bbStep (.bb (.bump (.setTimeset (.ite (.update ticked) (.addTime ticked)))))) h)) id

theorem Steered.steerRate {wide : Bool} (h : Steered a s) : Steered a (s.steerRate wide) := by
  unfold State.steerRate
  exact .of_same (.commitInc (.drawn (.drawn .refl))) h

theorem Steered.countLock {offset : Int} (h : Steered a s) : Steered a (s.countLock offset) := by
  unfold State.countLock
  exact .ite (.of_same (.setDisciplined .refl) h) h

theorem Steered.acquire {offset : Int} (h : Steered a s) : Steered a (s.acquire offset) := by
  unfold State.acquire
  exact .ite h.steerRate.countLock (.ite (.countLock (.of_same (.commitStep .refl) h)) (.ite
    (.forceStep (.of_same (.writeEpoch .refl) h)) (.countLock (.steerRate (.of_same (.setEvBit .refl) h)))))

theorem Steered.servoOffset {offset : Int} (h : Steered a s) : Steered a (s.servoOffset offset) := by
  unfold State.servoOffset
  split
  · exact .acquire h
  · exact .acquire h
  · exact .acquire h
  · exact .ite h.steerRate (.of_same (.commitStep .refl) h)
  · exact h
  · exact h
  · exact h

/-- The sequence and the moment of an accepted Sync. -/
theorem Steered.noteSync {q : Option (BitVec 16)} {n : Nat} (h : Steered a s) :
    Steered a { s with net := { s.net with lastSeq := q, syncSeen := n } } := h

theorem Steered.publishSync {m : Measured} (h : Steered a s) : Steered a (s.publishSync m) := by
  unfold State.publishSync
  exact .of_same (.putNat (.put (.putInt (.putInt (.put (.putNat (.putNat .refl))))))) h

/-- A Sync of the parent leaves its times at its port, and changes no other port's data and no waiting Sync. -/
theorem Steered.takeSync {p : Fin 2} {seq : BitVec 16} {t1 t2 : Int} {coasted : Bool} :
    Steered (s.withPort p (fun x => { x with lastSync := some (t1, t2) })) (s.takeSync p seq t1 t2 coasted) := by
  unfold State.takeSync
  dsimp only
  have seen := Steered.refl (s.withPort p (fun x => { x with lastSync := some (t1, t2) }))
  split
  · exact .ite (.when (.publishSync (.noteSync (.of_same (.bump .refl) seen))) .servoOffset) (.of_same (.bump .refl) seen)
  · exact .of_same (.bump .refl) seen

end Steered

/-! ### A Sync and its Follow_Up (R198) -/

section Syncs

variable {s : State} {p : Fin 2}

@[simp] theorem State.publishSync_net (s : State) (m : Measured) : (s.publishSync m).net = { s.net with last := m } := by
  simp only [State.publishSync, State.putNat_net, State.put_net, State.putInt_net]

@[simp] theorem State.publishSync_tb (s : State) (m : Measured) : (s.publishSync m).tb = s.tb := by
  simp only [State.publishSync, State.putNat_tb, State.put_tb, State.putInt_tb]

@[simp] theorem State.dropWaiting_tb (s : State) : s.dropWaiting.tb = s.tb := by
  unfold State.dropWaiting
  split
  · exact State.bump_tb ..
  · rfl

/-- A two-step Sync of the parent waits for its Follow_Up. -/
theorem State.hearSync_twoStep {m : SyncMsg} (hears : s.ptpHears p m.hdr = true) (parent : s.fromParent p m.hdr = true)
    (two : m.twoStep = true) : (State.hearSync p m s).net.waiting.map SyncWait.seqId = some m.hdr.seqId ∧
      (State.hearSync p m s).net.waiting.map SyncWait.t2 = some (s.ingress p m.stamp) ∧ (State.hearSync p m s).tb = s.tb := by
  simp only [State.hearSync, hears, parent, two, Bool.not_true, Bool.false_eq_true, if_false, if_true, Option.map_some, dropWaiting_tb,
    and_self]

/-- A one-step Sync of the parent is taken at once. -/
theorem State.hearSync_oneStep {m : SyncMsg} (hears : s.ptpHears p m.hdr = true) (parent : s.fromParent p m.hdr = true)
    (one : m.twoStep = false) : State.hearSync p m s =
      s.takeSync p m.hdr.seqId (m.origin + m.hdr.correction) (s.ingress p m.stamp) s.xpllCoasts := by
  simp only [State.hearSync, hears, parent, one, Bool.not_true, Bool.false_eq_true, if_false]

/-- A Follow_Up that comes in time completes the Sync that waits for it. -/
theorem State.hearFollowUp_inTime {m : FollowUpMsg} {w : SyncWait} (hears : s.ptpHears p m.hdr = true) (waits : s.net.waiting = some w)
    (match_ : w.port = p ∧ w.source = m.hdr.source ∧ w.sourcePort = m.hdr.sourcePort ∧ w.seqId = m.hdr.seqId)
    (inTime : s.now ≤ w.arrived + s.syncInterval) : State.hearFollowUp p m s =
      { s with net := { s.net with waiting := none } }.takeSync p w.seqId (m.origin + w.correction + m.hdr.correction) w.t2 w.coasted := by
  rw [State.hearFollowUp, if_neg (by simp only [hears, Bool.not_true, Bool.false_eq_true, not_false_iff]), waits]
  exact (if_pos match_).trans (if_neg (Nat.not_lt.mpr inTime))

theorem State.parent_of_fromParent {h : PtpHdr} (parent : s.fromParent p h = true) : ∃ q, s.net.parent = some q := by
  unfold State.fromParent at parent
  split at parent
  next q e => exact ⟨q, e⟩
  next => cases parent

/-- The first Sync after a change of parent, with the mean path delay known and the servo in other hands: it is accepted and published
(R198, R201). -/
theorem State.takeSync_first {q : Parent} {mean t1 t2 : Int} {seq : BitVec 16} (parent : s.net.parent = some q)
    (known : s.net.ports[p].mean = some mean) (first : s.net.lastSeq = none) (answered : s.net.ports[p].unanswered < 16)
    (owner : s.tb.owner ≠ .hkc) :
    (s.takeSync p seq t1 t2 false).net.last =
        { seqId := seq, port := p, t2 := BitVec.ofInt 64 t2, offset := t2 - t1 - mean - s.objInt (0x4430 + p.val) 5, delay := mean,
          gm := q.data.gm, steps := q.data.steps } ∧
      (s.takeSync p seq t1 t2 false).net.syncSeen = s.now ∧ (s.takeSync p seq t1 t2 false).tb = s.tb := by
  unfold State.takeSync
  generalize e : s.withPort p (fun x => { x with lastSync := some (t1, t2) }) = u
  have mean' : u.net.ports[p].mean = some mean := by rw [← e, State.withPort_same]; exact known
  have answered' : u.net.ports[p].unanswered < 16 := by rw [← e, State.withPort_same]; exact answered
  have parent' : u.net.parent = some q := by rw [← e]; exact parent
  have first' : u.net.lastSeq = none := by rw [← e]; exact first
  have tb' : u.tb = s.tb := by rw [← e]; rfl
  have now' : u.now = s.now := by rw [← e]; rfl
  have objs' : u.objInt (0x4430 + p.val) 5 = s.objInt (0x4430 + p.val) 5 := by rw [← e]; rfl
  dsimp only
  rw [mean', parent', first']
  simp only [State.ptpSteers, State.linkSteers, State.bump_tb, tb', owner, decide_false, Bool.false_and, Bool.not_false, Bool.true_or,
    Bool.and_true, answered', decide_true, if_true, if_false, Bool.false_eq_true, State.publishSync_net, State.publishSync_tb,
    State.bump_now, now', objs', and_self]

end Syncs

/-- Settles O18. The engine hears a message in the state with its frame counted; a waiting Sync is completed by `takeSync`, which leaves it
completed and its times at its port, whatever the servo then does. -/
theorem syncsComplete : Obligations.SyncsComplete := by
  refine ⟨fun p m s hears parent two => ?_, fun p m mean s hears parent one known first steady answered owner => ?_,
    fun p m w s hears waits port source sourcePort seqId inTime => ?_⟩
  · refine ⟨_, congrArg Host.Outcome.next (s.ptpFrame_of_hears hears _), ?_⟩
    have waits := State.hearSync_twoStep ((s.countFrame_ptpHears p m.hdr).trans hears) ((s.countFrame_fromParent p m.hdr).trans parent) two
    rwa [State.countFrame_ingress, State.countFrame_tb] at waits
  · obtain ⟨q, hq⟩ := State.parent_of_fromParent parent
    refine ⟨_, congrArg Host.Outcome.next (s.ptpFrame_of_hears hears _), ?_⟩
    rw [State.hearSync_oneStep ((s.countFrame_ptpHears p m.hdr).trans hears) ((s.countFrame_fromParent p m.hdr).trans parent) one,
      State.countFrame_xpllCoasts, steady, State.countFrame_ingress]
    rw [← s.countFrame_net p] at hq known first answered
    rw [← s.countFrame_tb p] at owner
    obtain ⟨last, seen, tb⟩ := State.takeSync_first (t1 := m.origin + m.hdr.correction) (t2 := s.ingress p m.stamp) (seq := m.hdr.seqId)
      hq known first answered owner
    rw [last, seen, tb, State.countFrame_objInt s p (by omega) (by omega)]
    exact ⟨rfl, rfl, s.countFrame_now p, s.countFrame_tb p⟩
  · refine ⟨_, congrArg Host.Outcome.next (s.ptpFrame_of_hears hears _), ?_⟩
    rw [← s.countFrame_net p] at waits
    rw [← s.countFrame_now p, ← s.countFrame_syncInterval p] at inTime
    rw [State.hearFollowUp_inTime ((s.countFrame_ptpHears p m.hdr).trans hears) waits ⟨port, source, sourcePort, seqId⟩ inTime]
    obtain ⟨ports, waiting⟩ := Steered.takeSync (s := { s.countFrame p with net := { (s.countFrame p).net with waiting := none } }) (p := p)
      (seq := w.seqId) (t1 := m.origin + w.correction + m.hdr.correction) (t2 := w.t2) (coasted := w.coasted)
    refine ⟨waiting, ?_⟩
    simp only [ports]
    rw [State.withPort_same]

/-! ### Announces, and delays in the two mechanisms (R193, R194, R198) -/

section Delays

variable {s : State} {p : Fin 2}

@[simp] theorem State.dropHold_tb (s : State) : s.dropHold.tb = s.tb := by
  unfold State.dropHold
  split
  · exact State.bb_tb ..
  · rfl

@[simp] theorem State.dropWaiting_ports (s : State) : s.dropWaiting.net.ports = s.net.ports := by
  unfold State.dropWaiting
  split
  · rw [State.bump_net]
  · rfl

theorem State.dropHold_ports (s : State) : s.dropHold.net.ports = s.net.ports := (Steered.dropHold (.refl s)).1

@[simp] theorem State.newParent_tb (s : State) (parent : Option Parent) : (s.newParent parent).tb = s.tb := by
  unfold State.newParent
  dsimp only
  split <;> simp

/-- A new parent costs a port its measurements, not what it has heard. -/
theorem State.newParent_best (s : State) (parent : Option Parent) (p : Fin 2) :
    (s.newParent parent).net.ports[p].best = s.net.ports[p].best := by
  have ports : (if s.dropWaiting.aelopRef then s.dropWaiting else s.dropWaiting.dropHold).net.ports = s.net.ports := by
    split
    · exact s.dropWaiting_ports
    · exact s.dropWaiting.dropHold_ports.trans s.dropWaiting_ports
  unfold State.newParent
  dsimp only
  rw [← ports]
  generalize (if s.dropWaiting.aelopRef then s.dropWaiting else s.dropWaiting.dropHold) = u
  split
  · simp
  · split <;> simp [Net.noParent]

/-- The election names the parent, new or as before, and then the roles. -/
theorem State.elect_eq (s : State) : ∃ u,
    (u = { s with net := { s.net with parent := s.chooseParent } } ∨ u = s.newParent s.chooseParent) ∧
      s.elect = { u with net := { u.net with ports := Vector.ofFn (fun p => { u.net.ports[p] with role := u.chooseRole s.chooseParent p }) } } :=
  ⟨_, (Decidable.em _).imp (fun keep => if_pos keep) (fun change => if_neg change), rfl⟩

@[simp] theorem State.elect_tb (s : State) : s.elect.tb = s.tb := by
  obtain ⟨u, hu, e⟩ := s.elect_eq
  rw [e]
  obtain rfl | rfl := hu
  · rfl
  · exact s.newParent_tb s.chooseParent

/-- The election leaves what the ports have heard. -/
@[simp] theorem State.elect_best (s : State) (p : Fin 2) : s.elect.net.ports[p].best = s.net.ports[p].best := by
  obtain ⟨u, hu, e⟩ := s.elect_eq
  have heard : s.elect.net.ports[p].best = u.net.ports[p].best := by simp [e]
  rw [heard]
  obtain rfl | rfl := hu
  · rfl
  · exact s.newParent_best s.chooseParent p

/-- While the servo neither is LOCKED nor holds a path, a delay measurement is adopted (R203). -/
theorem State.judgeDelay_adopts {mine : Bool} {port : Nat} {old : Option Int} {v : Int} {adopt forget : State → State}
    (loose : s.net.servo ≠ .locked) (free : s.net.servo ≠ .pathHold) : s.judgeDelay mine port old v adopt forget = adopt s := by
  unfold State.judgeDelay
  dsimp only
  split
  · exact absurd ‹_› loose
  · exact absurd ‹_› free
  · rfl

/-- A delay measurement that is adopted becomes the mean path delay of its port. -/
theorem State.takeDelay_adopts (v : Int) (loose : s.net.servo ≠ .locked) (free : s.net.servo ≠ .pathHold) :
    (s.takeDelay p v).net.ports[p] = { s.net.ports[p] with unanswered := 0, mean := some v } := by
  unfold State.takeDelay
  dsimp only
  rw [State.judgeDelay_adopts (s := s.withPort p (fun x => { x with unanswered := 0 })) loose free, State.putInt_net, State.withPort_same, State.withPort_same]

/-- An answered request is closed, and its measurement becomes the mean path delay of its port. -/
theorem State.takeDelay_answered (v : Int) (loose : s.net.servo ≠ .locked) (free : s.net.servo ≠ .pathHold) :
    ((s.withPort p (fun x => { x with ask := none, unanswered := 0 })).takeDelay p v).net.ports[p] =
      { s.net.ports[p] with ask := none, unanswered := 0, mean := some v } := by
  rw [State.takeDelay_adopts (s := s.withPort p (fun x => { x with ask := none, unanswered := 0 })) v loose free, State.withPort_same]

/-- An Announce of another clock, less than 255 steps away, is heard (R194). -/
theorem State.hearAnnounce_heard {m : AnnounceMsg} (hears : s.ptpHears p m.hdr = true) (other : m.hdr.source ≠ s.clockId)
    (near : m.steps.toNat < 255) : State.hearAnnounce p m s =
      (s.withPort p (fun x => { x with best := s.takeAnnounce x.best (announceData m) })).elect := by
  simp only [State.hearAnnounce, hears, other, Nat.not_le.mpr near, Bool.not_true, decide_false, Bool.or_self, Bool.false_eq_true, if_false]

/-- A master answers a Delay_Req of the end-to-end mechanism. -/
theorem State.hearDelayReq_answered {m : DelayReqMsg} (hears : s.ptpHears p m.hdr = true) (master : s.net.ports[p].role = .master)
    (endToEnd : s.peerDelay = false) : State.hearDelayReq p m s =
      s.sendPtp p (.delayResp m.hdr.seqId (s.ingress p m.stamp).toNat m.hdr.correction m.hdr.source m.hdr.sourcePort) := by
  simp only [State.hearDelayReq, hears, master, endToEnd, Bool.not_false, decide_true, Bool.and_self, if_true]

/-- The parent's answer to the part's own request gives the delay, once both exchanges are complete. -/
theorem State.hearDelayResp_measured {m : DelayRespMsg} {a : DelayAsk} {t1 t2 t3 : Int} (hears : s.ptpHears p m.hdr = true)
    (endToEnd : s.peerDelay = false) (parent : s.fromParent p m.hdr = true)
    (mine : s.answersMe p m.reqSource m.reqPort m.hdr.seqId = some a) (sent : a.sent = some t3)
    (synced : s.net.ports[p].lastSync = some (t1, t2)) : State.hearDelayResp p m s =
      (s.withPort p (fun x => { x with ask := none, unanswered := 0 })).takeDelay p
        (((t2 - t1) + ((m.received : Int) - m.hdr.correction - t3)) / 2) := by
  have synced' : (s.withPort p (fun x => { x with ask := none, unanswered := 0 })).net.ports[p].lastSync = some (t1, t2) := by
    rw [State.withPort_same]
    exact synced
  simp only [State.hearDelayResp, hears, endToEnd, parent, Bool.not_true, Bool.or_self, Bool.false_eq_true, if_false, mine, sent, synced']

/-- A peer's one-step answer to the part's own request gives the delay of the link. -/
theorem State.hearPdelayResp_measured {m : PdelayRespMsg} {a : DelayAsk} {t1 : Int} (hears : s.ptpHears p m.hdr = true)
    (peer : s.peerDelay = true) (mine : s.answersMe p m.reqSource m.reqPort m.hdr.seqId = some a) (sent : a.sent = some t1)
    (response : m.followUp = false) (oneStep : m.twoStep = false) : State.hearPdelayResp p m s =
      (s.withPort p (fun x => { x with ask := none, unanswered := 0 })).takeDelay p ((s.ingress p m.stamp - t1 - m.hdr.correction) / 2) := by
  simp only [State.hearPdelayResp, hears, peer, mine, sent, response, oneStep, Bool.not_true, Bool.or_self, Bool.false_eq_true, if_false]

/-- A Pdelay_Req is answered at once, and what goes out after the answer is its follow-up (R197). -/
theorem State.hearPdelayReq_answered {m : DelayReqMsg} (egress : Qword) (hears : s.ptpHears p m.hdr = true) (peer : s.peerDelay = true) :
    (s.sendPtp p (.pdelayResp m.hdr.seqId (s.ingress p m.stamp).toNat m.hdr.source m.hdr.sourcePort)).out <+:
      (State.hearPdelayReq p m egress s).out := by
  rw [State.hearPdelayReq, if_pos (by simp only [hears, peer, Bool.and_self])]
  obtain ⟨-, -, -, out⟩ := Keeps.queueStamp (.withPort (.refl (s.sendPtp p (.pdelayResp m.hdr.seqId (s.ingress p m.stamp).toNat
    m.hdr.source m.hdr.sourcePort))))
  exact out

end Delays

/-- Settles O19. Each message is heard in the state with its frame counted, where the engine does with it what the lemma on its function
says; a delay that is not judged against a LOCKED servo's path becomes the port's mean. -/
theorem delaysComplete : Obligations.DelaysComplete := by
  refine ⟨fun p m s hears other near => ?_, fun p m s hears master endToEnd => ?_, fun p m s => ⟨_, rfl, rfl, rfl, rfl⟩,
    fun p m a t3 t1 t2 s hears endToEnd parent mine sent synced loose free => ?_, fun p m egress s hears peer => ?_,
    fun p m a t1 s hears peer mine sent response oneStep loose free => ?_, fun p s live => ?_⟩
  · refine ⟨_, congrArg Host.Outcome.next (s.ptpFrame_of_hears hears _), ?_⟩
    rw [← s.countFrame_ptpHears p m.hdr] at hears
    rw [State.hearAnnounce_heard hears (by rwa [State.countFrame_clockId]) near, State.elect_best, State.withPort_same, State.elect_tb,
      State.countFrame_takeAnnounce, State.countFrame_net]
    exact ⟨rfl, s.countFrame_tb p⟩
  · refine ⟨_, congrArg Host.Outcome.next (s.ptpFrame_of_hears hears _), ?_⟩
    rw [← s.countFrame_ptpHears p m.hdr] at hears
    rw [← s.countFrame_net p] at master
    rw [State.hearDelayReq_answered hears master ((s.countFrame_peerDelay p).trans endToEnd), State.countFrame_ingress]
    exact ⟨s.countFrame_net p, s.countFrame_sendPtp_out p _⟩
  · refine ⟨_, congrArg Host.Outcome.next (s.ptpFrame_of_hears hears _), ?_⟩
    rw [← s.countFrame_ptpHears p m.hdr] at hears
    rw [← s.countFrame_net p] at synced loose free
    rw [State.hearDelayResp_measured hears ((s.countFrame_peerDelay p).trans endToEnd) ((s.countFrame_fromParent p m.hdr).trans parent)
      ((s.countFrame_answersMe p ..).trans mine) sent synced, State.takeDelay_answered _ loose free]
    exact ⟨rfl, rfl, rfl⟩
  · have answered := State.hearPdelayReq_answered egress ((s.countFrame_ptpHears p m.hdr).trans hears) ((s.countFrame_peerDelay p).trans peer)
    rw [State.countFrame_ingress, State.countFrame_sendPtp_out] at answered
    obtain ⟨rest, out⟩ := answered
    exact ⟨_, congrArg Host.Outcome.next (s.ptpFrame_of_hears hears _), rest, out.symm⟩
  · refine ⟨_, congrArg Host.Outcome.next (s.ptpFrame_of_hears hears _), ?_⟩
    rw [← s.countFrame_ptpHears p m.hdr] at hears
    rw [← s.countFrame_net p] at loose free
    rw [State.hearPdelayResp_measured hears ((s.countFrame_peerDelay p).trans peer) ((s.countFrame_answersMe p ..).trans mine) sent response
      oneStep, State.takeDelay_answered _ loose free, State.countFrame_ingress]
    exact ⟨rfl, rfl⟩
  · exact congrArg Host.Outcome.next ((s.ptpFrame_of_live live _).trans (if_pos ((s.countFrame_ptpLive p).trans live)))

/-! ### A link that comes up under a servo at rest -/

/-- Port 0 is enabled with its link down, and the Aelop reference is selected (R226); the time base of owner HKC is DISCIPLINED, yet the
servo has not started. -/
def State.restingServo : State :=
  { (State.reset.putNat 0x4400 1 1).putNat 0x4880 1 1 with
    power := { Power.reset with phase := .none }
    tb := { State.reset.tb with state := .disciplined } }

/-- The link that comes up starts the servo, which does not start over with the time base DISCIPLINED (R199). -/
theorem State.restingServo_ethLinkUp : ∃ t, exec (.ethLinkUp 0) .restingServo = .next t ∧ t.tb.state = .holdover := ⟨_, rfl, by decide⟩

/-- Refutes O17: its clause on ETH_LINK_UP keeps the time base in every state, also in one whose servo is still off although it has work. In
`State.restingServo` the time base goes to HOLDOVER. -/
theorem not_ethernetCompletes : ¬ Obligations.EthernetCompletes := by
  rintro ⟨-, -, linkUp, -⟩
  obtain ⟨t, ht, -, -, hkept⟩ := linkUp 0 .restingServo (by decide) (by decide)
  obtain ⟨u, hu, hold⟩ := State.restingServo_ethLinkUp
  obtain rfl : t = u := Host.Outcome.next.inj (ht.symm.trans hu)
  exact absurd ((congrArg TimeBase.state hkept).symm.trans hold) (by decide)

/-! ### Two masters that fall silent at once -/

/-- The dataset of a master that has fallen silent. -/
def silentMaster : MasterData :=
  { gm := 7, timeTraceable := false, timeSource := 0xA0, priority1 := 128, clockClass := 6, accuracy := 0x21, variance := 0, priority2 := 128,
    steps := 0, source := 7, sourcePort := 1 }

/-- Both ports have heard a master a minute ago; that of port 1 is the parent, although the role limit is 2 (R194), under which an election
leaves no parent. -/
def State.twoSilent : State :=
  { State.reset.putNat 0x4410 2 2 with
    now := sec 60
    net := { State.reset.net with
      ports := Vector.replicate 2 { EthPort.reset with best := some (silentMaster, 0) }
      parent := some { port := 1, data := silentMaster } } }

/-- The silence of port 0 runs the election, which takes the parent away before the silence of port 1 is judged: MASTERLOST stays clear. -/
theorem State.twoSilent_announceReceiptTimeout :
    ∃ t, exec .announceReceiptTimeout .twoSilent = .next t ∧ t.events.ptp.getLsbD 11 = false := ⟨_, rfl, by decide +kernel⟩

/-- Refutes O20: its clause on ANNOUNCE_RECEIPT_TIMEOUT judges the parent of port 1 by the state before the command, while the command judges
it after the election that the silence of port 0 has run. In `State.twoSilent` that election leaves no parent to lose. -/
theorem not_ptpSendsAndMonitorsComplete : ¬ Obligations.PtpSendsAndMonitorsComplete := by
  rintro ⟨-, -, -, -, -, silent⟩
  obtain ⟨t, ht, -, -, hlost⟩ := silent 1 (silentMaster, 0) .twoSilent (by decide) (by decide)
  obtain ⟨u, hu, hclear⟩ := State.twoSilent_announceReceiptTimeout
  obtain rfl : t = u := Host.Outcome.next.inj (ht.symm.trans hu)
  exact absurd ((hlost (by decide) (by decide)).symm.trans hclear) (by decide)

end Sys2Proof.Machine
end

section
/-! PROOFS. Knots: what their 32 bytes spell (O59), and the knots of the host (O44). -/

namespace Sys2Proof.Machine

/-! ### Little-endian fields (R143) -/

@[simp] theorem leBytes_length (n v : Nat) : (leBytes n v).length = n := by
  induction n generalizing v with
  | zero => rfl
  | succ n ih => simp [leBytes, ih]

@[simp] theorem leNat_leBytes (n v : Nat) : leNat (leBytes n v) = v % 256 ^ n := by
  induction n generalizing v with
  | zero => simp [leBytes, leNat, Nat.mod_one]
  | succ n ih => simp [leBytes, leNat, ih, Nat.pow_succ', Nat.mod_mul]

/-- A field past the first bytes of a list is a field of the others. -/
theorem fieldOf_past {m off : Nat} (h : m ≤ off) (n v : Nat) (bs : List Byte) :
    fieldOf (leBytes m v ++ bs) off n = fieldOf bs (off - m) n := by
  rw [fieldOf, List.drop_append, leBytes_length, List.drop_eq_nil_of_le (by simpa using h), List.nil_append, fieldOf]

/-- A field at the front of a list reads as the number that was written there. -/
theorem fieldOf_front (n v : Nat) (bs : List Byte) : fieldOf (leBytes n v ++ bs) 0 n = v % 256 ^ n := by
  rw [fieldOf, List.drop_zero, List.take_left' (leBytes_length n v), leNat_leBytes]

/-- A field that is the whole list. -/
theorem fieldOf_whole (n v : Nat) : fieldOf (leBytes n v) 0 n = v % 256 ^ n := by
  simpa using fieldOf_front n v []

/-- A signed number that fits its bits is read back from them. -/
theorem signedOf_wrapInt {v : Int} (lo : -2147483648 ≤ v) (hi : v < 2147483648) : signedOf 32 (wrapInt 32 v % 256 ^ 4) = v := by
  unfold signedOf wrapInt
  rw [BitVec.toInt_eq_toNat_bmod, BitVec.toNat_ofNat, Int.bmod_def]
  split <;> omega

/-! ### The bytes of a knot (R208) -/

theorem knotBody_length (k : Knot) : (knotBody k).length = 30 := by simp [knotBody, intBytes]

theorem knotBytes_length (k : Knot) : (knotBytes k).length = 32 := by simp [knotBytes, knotBody_length]

theorem knotBytes_take (k : Knot) : (knotBytes k).take 30 = knotBody k := List.take_left' (knotBody_length k)

/-- The numbers that stand in the fields of a knot's bytes. -/
theorem knotBytes_fields (k : Knot) :
    fieldOf (knotBytes k) 0 2 = 0x5E1C ∧ fieldOf (knotBytes k) 2 1 = 1 ∧ fieldOf (knotBytes k) 3 1 = k.cls.val ∧
    fieldOf (knotBytes k) 4 4 = k.node.toNat + 0x40000 * k.die.val ∧ fieldOf (knotBytes k) 8 4 = k.convoy.toNat ∧
    fieldOf (knotBytes k) 12 8 = k.time.toNat ∧ fieldOf (knotBytes k) 0x14 4 = wrapInt 32 k.offset % 256 ^ 4 ∧
    fieldOf (knotBytes k) 0x18 1 = k.hops % 256 ∧
    fieldOf (knotBytes k) 0x19 1 = b2n k.holdover + 2 * b2n k.relayed + 4 * b2n k.host ∧
    fieldOf (knotBytes k) 0x1A 2 = k.seq.toNat ∧ fieldOf (knotBytes k) 30 2 = (crc16 (knotBody k)).toNat := by
  have cls := k.cls.isLt
  have node := k.node.isLt
  have die := k.die.isLt
  have convoy := k.convoy.isLt
  have time := k.time.isLt
  have seq := k.seq.isLt
  have crc := (crc16 (knotBody k)).isLt
  have flag (b : Bool) : b2n b < 2 := by cases b <;> decide
  have holdover := flag k.holdover
  have relayed := flag k.relayed
  have host := flag k.host
  unfold knotBytes
  generalize crc16 (knotBody k) = c at crc
  simp (disch := decide) only [knotBody, intBytes, List.append_assoc, fieldOf_past, fieldOf_front, fieldOf_whole, Nat.reduceSub,
    Nat.reduceMul, true_and]
  omega

/-- The die stands above the 18 bits of the node id. -/
theorem node_die_readBack (node : BitVec 18) (die : Die) :
    BitVec.ofNat 18 (node.toNat + 0x40000 * die.val) = node ∧ Fin.ofNat 2 ((node.toNat + 0x40000 * die.val) / 0x40000) = die := by
  have hnode := node.isLt
  have hdie := die.isLt
  refine ⟨BitVec.eq_of_toNat_eq ?_, Fin.ext ?_⟩
  · rw [BitVec.toNat_ofNat]
    omega
  · rw [Fin.val_ofNat]
    omega

/-- Three flags in one byte. -/
theorem flags_testBit (a b c : Bool) : (b2n a + 2 * b2n b + 4 * b2n c).testBit 0 = a ∧ (b2n a + 2 * b2n b + 4 * b2n c).testBit 1 = b ∧
    (b2n a + 2 * b2n b + 4 * b2n c).testBit 2 = c := by
  revert a b c
  decide

/-- Settles O59. MAGIC, VERSION and KCRC are those that `knotBytes` writes, and each field reads as the number written, which is below the
size of its field. -/
theorem knotBytesRoundTrip : Obligations.KnotBytesRoundTrip := by
  intro k hops lo hi
  obtain ⟨magic, version, cls, node, convoy, time, offset, hop, flags, seq, crc⟩ := knotBytes_fields k
  obtain ⟨nodeBack, dieBack⟩ := node_die_readBack k.node k.die
  obtain ⟨holdover, relayed, host⟩ := flags_testBit k.holdover k.relayed k.host
  have clsBack : Fin.ofNat 16 (k.cls.val % 16) = k.cls := Fin.ext (by rw [Fin.val_ofNat]; omega)
  rw [parseKnot, if_pos ⟨knotBytes_length k, magic, version, by rw [crc, knotBytes_take]⟩]
  simp only [cls, node, convoy, time, offset, hop, flags, seq, clsBack, nodeBack, dieBack, holdover, relayed, host, signedOf_wrapInt lo hi,
    Nat.mod_eq_of_lt hops, BitVec.ofNat_toNat, BitVec.setWidth_eq]

/-! ### The knots of the host (R211) -/

/-- HOST_KNOT_SEND of a class that R211 has, by a path that answers. -/
theorem exec_hostKnotSend {cls : Byte} {via : Source} {s : State} (hvia : s.serves via = true) (hcls : cls.toNat ≤ 15) :
    exec (.hostKnotSend cls via) s = .next (s.sendHostKnot cls.toNat) := by
  show execHostKnotSend cls via s = _
  rw [execHostKnotSend, if_neg (by omega), State.onPath, if_pos hvia, if_pos rfl]

/-- Settles O44. A knot of the host is sent unless both die queues are full or another one waits; the hub takes a waiting one when both die
queues are empty. -/
theorem hostKnotsComplete : Obligations.HostKnotsComplete := by
  refine ⟨fun n s => ⟨rfl, rfl, rfl, rfl, rfl, rfl, rfl⟩, fun cls via s hvia hcls room none => ?_, fun cls via s hvia hcls full => ?_,
    fun k rest s live die0 die1 waits => ?_⟩
  · rw [exec_hostKnotSend hvia hcls]
    refine congrArg Host.Outcome.next (if_neg ?_)
    simp only [room, none, List.isEmpty_nil, Bool.not_true, Bool.or_self, Bool.false_eq_true, not_false_iff]
  · refine ⟨_, (exec_hostKnotSend hvia hcls).trans (congrArg Host.Outcome.next (if_pos ?_)), rfl, rfl⟩
    rw [full, Bool.true_or]
  · have taken : s.takeQueued = some (k, { s with knots := { s.knots with hostKnots := rest } }) := by
      simp only [State.takeQueued, die0, die1, waits]
    show execKnotSend s = _
    rw [execKnotSend, live, taken]
    rfl

end Sys2Proof.Machine
end

section
/-! PROOFS. The Aelop link (O22).

`Traffic a s` says what frames, knots and heartbeats on their way, answers to requests and the servo leave of the Aelop ports of a state `a`.
Each operation of the model on that way has one lemma, with the operation's name. -/

namespace Sys2Proof.Machine

/-! ### What traffic leaves of a port -/

/-- A port but for its neighbour, the tunnel frames that wait, the time until which it is busy, and the delay that the servo has adopted. -/
def AlpPort.steady (p : AlpPort) : AlpPort := { p with neighbour := none, tunnelq := [], txBusy := 0, mean := none }

/-- What two ports have in common that differ in no more than that. -/
theorem AlpPort.of_steady {p q : AlpPort} (e : p.steady = q.steady) : p.state = q.state ∧ p.run = q.run ∧ p.lastGood = q.lastGood ∧
    p.nextBeat = q.nextBeat ∧ p.measured = q.measured ∧ p.delay = q.delay ∧ p.offset = q.offset := by
  obtain ⟨⟩ := p
  obtain ⟨⟩ := q
  simp only [AlpPort.steady, AlpPort.mk.injEq] at e
  simp only [e, and_self]

/-- The tree links are those of `a`, each port is that of `a` but for what traffic changes, and no bit of ALP_EVT has been cleared. -/
def Traffic (a s : State) : Prop :=
  s.knots.tree = a.knots.tree ∧ (∀ k : Fin 4, s.knots.ports[k].steady = a.knots.ports[k].steady) ∧
    ∀ i, a.events.alp.getLsbD i = true → s.events.alp.getLsbD i = true

variable {a s t : State}

theorem Traffic.refl (s : State) : Traffic s s := ⟨rfl, fun _ => rfl, fun _ hi => hi⟩

theorem Traffic.ite {c : Prop} [Decidable c] (hs : Traffic a s) (ht : Traffic a t) : Traffic a (if c then s else t) := by
  split
  · exact hs
  · exact ht

theorem Traffic.foldl {α} {f : State → α → State} {l : List α} (hf : ∀ {t x}, Traffic a t → Traffic a (f t x)) (h : Traffic a s) :
    Traffic a (l.foldl f s) := List.foldlRecOn l f h (fun _ ht _ _ => hf ht)

/-! ### Shared operations -/

/-- Bits that are or-ed into a register clear no bit of ALP_EVT. -/
theorem Events.alp_set_or {e : Events} {i : Nat} (r : EvReg) (bits : Dword) (h : e.alp.getLsbD i = true) :
    (e.set r (e.get r ||| bits)).alp.getLsbD i = true := by
  cases r
  case alp => simp [Events.get, Events.set, h]
  all_goals exact h

theorem Traffic.put {idx sub v} (h : Traffic a s) : Traffic a (s.put idx sub v) := by simpa [Traffic] using h
theorem Traffic.putNat {idx sub n} (h : Traffic a s) : Traffic a (s.putNat idx sub n) := h.put
theorem Traffic.putInt {idx sub n} (h : Traffic a s) : Traffic a (s.putInt idx sub n) := h.put
theorem Traffic.bumpBy {idx sub n} (h : Traffic a s) : Traffic a (s.bumpBy idx sub n) := by simpa [Traffic] using h
theorem Traffic.bump {idx sub} (h : Traffic a s) : Traffic a (s.bump idx sub) := h.bumpBy
theorem Traffic.raiseTo {idx sub n} (h : Traffic a s) : Traffic a (s.raiseTo idx sub n) := .ite h.putNat h
theorem Traffic.raise {v} (h : Traffic a s) : Traffic a (s.raise v) := by simpa [Traffic] using h

theorem Traffic.setEvBit {r i} (h : Traffic a s) : Traffic a (s.setEvBit r i) := by
  obtain ⟨htree, hports, hbits⟩ := h
  refine ⟨by simpa using htree, by simpa using hports, fun j hj => ?_⟩
  unfold State.setEvBit
  rw [State.setEv_events]
  exact Events.alp_set_or _ _ (hbits j hj)

theorem Traffic.bbDrop (h : Traffic a s) : Traffic a s.bbDrop := .setEvBit (.bump h)

theorem Traffic.bb {code sev data} (h : Traffic a s) : Traffic a (s.bb code sev data) := by
  unfold State.bb
  refine .ite h (.ite (.bbDrop h) ?_)
  split
  · exact .bbDrop h
  · exact .bbDrop h

theorem Traffic.withAlp {k f} (hf : ∀ p, AlpPort.steady (f p) = p.steady) (h : Traffic a s) : Traffic a (s.withAlp k f) := by
  obtain ⟨htree, hports, hbits⟩ := h
  refine ⟨htree, fun j => ?_, hbits⟩
  by_cases e : j = k
  · subst e
    rw [State.withAlp_same, hf, hports]
  · rw [State.withAlp_other s k j f e, hports]

/-! ### Answers and the tunnel's frames -/

theorem Traffic.hkcRam {off bs} (h : Traffic a s) : Traffic a (s.hkcRam off bs) := .ite (t := s) (.bump h) h
theorem Traffic.mbAnswer {f} (h : Traffic a s) : Traffic a (s.mbAnswer f) := .raise (.hkcRam (.hkcRam (.ite (.bumpBy h) h)))

theorem Traffic.sendUdp {p addr port key f} (h : Traffic a s) : Traffic a (s.sendUdp p addr port key f) := by
  have signed : Traffic a (s.authentic key f).1 := by
    unfold State.authentic
    split
    · exact h
    · exact h
  exact .ite signed h

theorem Traffic.drainTunnel {k n} (h : Traffic a s) : Traffic a (s.drainTunnel k n) := by
  induction n generalizing s with
  | zero => exact h
  | succ n ih =>
    unfold State.drainTunnel
    split
    · exact h
    · exact .ite (ih (.withAlp (fun _ => rfl) h)) h

theorem Traffic.sendTunnelOn {f k} (h : Traffic a s) : Traffic a (s.sendTunnelOn f k) := .drainTunnel (.withAlp (fun _ => rfl) h)

theorem Traffic.sendTunnel {ports dest frame} (h : Traffic a s) : Traffic a (s.sendTunnel ports dest frame) :=
  .foldl (.foldl .sendTunnelOn) h

theorem Traffic.sendBack {r f} (h : Traffic a s) : Traffic a (s.sendBack r f) := by
  unfold State.sendBack
  split
  · exact .ite h (.mbAnswer h)
  · exact h.sendUdp
  · exact h.sendUdp
  · exact .sendTunnel h
  · exact h
  · exact h

theorem Traffic.unreachable {r} (h : Traffic a s) : Traffic a (s.unreachable r) := .sendBack (.bump h)
theorem Traffic.endAsks {p} (h : Traffic a s) : Traffic a (s.endAsks p) := .ite (.foldl .unreachable h) h

/-! ### The servo and the tree -/

theorem Traffic.dropHold (h : Traffic a s) : Traffic a s.dropHold := by
  unfold State.dropHold
  split
  · exact .bb h
  · exact h

theorem Traffic.enterHoldover {cause} (h : Traffic a s) : Traffic a (s.enterHoldover cause) := .ite (.bb (.dropHold h)) h
theorem Traffic.servoOrphaned (h : Traffic a s) : Traffic a s.servoOrphaned := .enterHoldover (cause := 0) h

theorem Traffic.forgetMeans (h : Traffic a s) :
    Traffic a { s with knots := { s.knots with ports := s.knots.ports.map (fun p => { p with mean := none }) } } := by
  obtain ⟨htree, hports, hbits⟩ := h
  refine ⟨htree, fun k => ?_, hbits⟩
  rw [← hports]
  simp [AlpPort.steady]

theorem Traffic.parentChange {was old new} (h : Traffic a s) : Traffic a (s.parentChange was old new) :=
  .ite h (.ite h.forgetMeans.servoOrphaned h.forgetMeans)

theorem Traffic.sendAlp {k kn} (h : Traffic a s) : Traffic a (s.sendAlp k kn) :=
  .ite (.bb (.bump (.setEvBit h))) (.raiseTo (.withAlp (fun _ => rfl) h))

theorem Traffic.resend {k} (h : Traffic a s) : Traffic a (s.resend k) := .foldl .sendAlp h

/-- A tree that is computed again gives the tree links of R222, and is traffic besides. -/
theorem State.retree_traffic (s : State) :
    Traffic { s with knots := { s.knots with tree := s.treeMask (s.treeParent s.treeRoot) } } s.retree := by
  unfold State.retree
  dsimp only
  split
  · next same =>
    obtain ⟨-, -, -, same⟩ := same
    exact ⟨same, fun _ => rfl, fun _ hi => hi⟩
  · exact .parentChange (.foldl .resend (.setEvBit ⟨rfl, fun _ => rfl, fun _ hi => hi⟩))

/-- The mask of the tree links has the bit of each tree link. -/
theorem State.treeMask_getLsbD (s : State) (parent : Option (Fin 4)) (k : Fin 4) :
    (s.treeMask parent).getLsbD k.val = s.treeLink parent k := by
  have links : s.treeLink parent = fun j =>
      #v[s.treeLink parent 0, s.treeLink parent 1, s.treeLink parent 2, s.treeLink parent 3][j] :=
    funext fun | 0 => rfl | 1 => rfl | 2 => rfl | 3 => rfl
  unfold State.treeMask
  rw [links]
  generalize s.treeLink parent 0 = l0, s.treeLink parent 1 = l1, s.treeLink parent 2 = l2, s.treeLink parent 3 = l3
  revert l0 l1 l2 l3 k
  decide

theorem Traffic.raiseHold {port old v} (h : Traffic a s) : Traffic a (s.raiseHold port old v) := .bb (.setEvBit h)

theorem Traffic.judgeDelay {mine port old v} {adopt forget : State → State} (hadopt : ∀ {t}, Traffic a t → Traffic a (adopt t))
    (hforget : ∀ {t}, Traffic a t → Traffic a (forget t)) (h : Traffic a s) : Traffic a (s.judgeDelay mine port old v adopt forget) := by
  unfold State.judgeDelay
  dsimp only
  split
  · exact .ite (.ite h.raiseHold.bump h.raiseHold) (hadopt h)
  · refine .ite (hadopt h) ?_
    have ended : Traffic a s.endHold := h
    split
    · exact .bb (.ite ended.bump ended)
    · exact .bb (.ite (hadopt ended).putInt (hadopt ended))
    · exact .enterHoldover (hforget h)
    · exact h
  · exact hadopt h

/-- The servo judges a delay as traffic, and what it then does about the offset leaves the knot engine alone. -/
theorem State.alpServo_judged (s : State) (k : Fin 4) (delay offset : Int) (coasted : Bool) :
    ∃ u, Traffic s u ∧ Same .knots u (s.alpServo k delay offset coasted) :=
  ⟨_, .judgeDelay (adopt := fun s => s.withAlp k (fun p => { p with mean := some delay }))
    (forget := fun s => s.withAlp k (fun p => { p with mean := none })) (.withAlp (fun _ => rfl)) (.withAlp (fun _ => rfl)) (.refl s),
    .when .refl (fun h => .servoOffset nofun (.bump (.updateNet nofun h)))⟩

theorem State.alpServo_steady (s : State) (k j : Fin 4) (delay offset : Int) (coasted : Bool) :
    (s.alpServo k delay offset coasted).knots.ports[j].steady = s.knots.ports[j].steady := by
  obtain ⟨u, ⟨-, hports, -⟩, same⟩ := s.alpServo_judged k delay offset coasted
  have kept : (s.alpServo k delay offset coasted).knots = u.knots := same
  rw [kept, hports]

/-! ### A good heartbeat (R220, R221) -/

/-- Port `k` has heard the good heartbeat that reached it in `a`, and has not left UP for it. -/
def HasHeard (a : State) (k : Fin 4) (s : State) : Prop :=
  s.knots.ports[k].lastGood = a.now ∧
    (a.knots.ports[k].state = .up → s.knots.ports[k].state = .up ∧ s.knots.ports[k].run = a.knots.ports[k].run + 1)

variable {k : Fin 4}

theorem HasHeard.ite {c : Prop} [Decidable c] (hs : HasHeard a k s) (ht : HasHeard a k t) : HasHeard a k (if c then s else t) := by
  split
  · exact hs
  · exact ht

theorem HasHeard.of_steady (e : t.knots.ports[k].steady = s.knots.ports[k].steady) (h : HasHeard a k s) : HasHeard a k t := by
  obtain ⟨hlast, hup⟩ := h
  obtain ⟨state, run, last, -⟩ := AlpPort.of_steady e
  unfold HasHeard
  rw [state, run, last]
  exact ⟨hlast, hup⟩

theorem HasHeard.of_knots (e : t.knots = s.knots) (h : HasHeard a k s) : HasHeard a k t := .of_steady (by rw [e]) h

/-- A change of the port that keeps the run and the moment of the last good heartbeat, and an UP port UP. -/
theorem HasHeard.withAlp {f} (hf : ∀ p : AlpPort, (f p).lastGood = p.lastGood ∧ (f p).run = p.run ∧ (p.state = .up → (f p).state = .up))
    (h : HasHeard a k s) : HasHeard a k (s.withAlp k f) := by
  obtain ⟨hlast, hup⟩ := h
  obtain ⟨last, run, state⟩ := hf s.knots.ports[k]
  unfold HasHeard
  rw [State.withAlp_same, last, run]
  exact ⟨hlast, fun up => ⟨state (hup up).1, (hup up).2⟩⟩

/-- A port that is held had been in TRAINING. -/
theorem HasHeard.alpHold {st node} (training : s.knots.ports[k].state = .training) (h : HasHeard a k s) :
    HasHeard a k (s.alpHold k st node) := by
  obtain ⟨hlast, hup⟩ := h
  refine .of_knots ((State.bb_knots ..).trans (State.setEvBit_knots ..)) ⟨?_, fun up => ?_⟩
  · rw [State.withAlp_same]
    exact hlast
  · exact absurd (training.symm.trans (hup up).1) (by decide)

theorem AlpPort.gather_heard (p : AlpPort) (x : Int × Int) (coasts : Bool) :
    (p.gather x coasts).lastGood = p.lastGood ∧ (p.gather x coasts).run = p.run ∧ (p.state = .up → (p.gather x coasts).state = .up) := by
  unfold AlpPort.gather
  dsimp only
  split <;> exact ⟨rfl, rfl, id⟩

theorem HasHeard.takeExchange {x} (h : HasHeard a k s) : HasHeard a k (s.takeExchange k x) := by
  unfold State.takeExchange
  split
  · exact h.withAlp (fun _ => ⟨rfl, rfl, id⟩)
  · exact h.withAlp (fun p => p.gather_heard x _)
  · exact h
  · exact h
  · exact h
  · exact h

theorem HasHeard.maybeUp (h : HasHeard a k s) : HasHeard a k (s.maybeUp k) := by
  unfold State.maybeUp
  refine .ite (.of_knots ((State.putInt_knots ..).trans (State.putInt_knots ..)) ?_) h
  exact .withAlp (fun _ => ⟨rfl, rfl, id⟩) (.withAlp (fun _ => ⟨rfl, rfl, fun _ => rfl⟩) h)

/-- A port that hears a good heartbeat has heard it when the heartbeat has done all its work. -/
theorem State.goodBeat_hasHeard (s : State) (k : Fin 4) (h : Heartbeat) : HasHeard s k (s.goodBeat k h) := by
  unfold State.goodBeat
  dsimp only
  generalize eu : State.putNat (s.withAlp k _) _ _ _ = u
  have heard : HasHeard s k u := by
    rw [← eu]
    refine .of_knots (State.putNat_knots ..) ?_
    unfold HasHeard
    rw [State.withAlp_same]
    refine ⟨rfl, fun up => ⟨?_, rfl⟩⟩
    rw [if_neg (by rw [up]; decide)]
    exact up
  split
  next held =>
    simp only [Bool.and_eq_true, decide_eq_true_eq] at held
    obtain ⟨⟨-, training⟩, -⟩ := held
    exact heard.alpHold training
  next =>
    split
    next held =>
      simp only [Bool.and_eq_true, decide_eq_true_eq] at held
      obtain ⟨⟨-, training⟩, -⟩ := held
      exact heard.alpHold training
    next =>
      generalize ev : State.maybeUp _ k = v
      have judged : HasHeard s k v := by
        rw [← ev]
        refine .maybeUp ?_
        split
        · exact heard.takeExchange
        · exact heard
      obtain ⟨-, hports, -⟩ := Traffic.drainTunnel (k := k) (n := v.retree.knots.ports[k].tunnelq.length) v.retree_traffic
      exact judged.of_steady (hports k)

/-! ### A port that goes DOWN (R221) -/

/-- An UP port that goes DOWN sets its bit in ALP_EVT. -/
theorem State.alpDown_down (up : s.knots.ports[k].state = .up) :
    (s.alpDown k).knots.ports[k].state = .down ∧ (s.alpDown k).events.alp.getLsbD k.val = true := by
  unfold State.alpDown
  rw [if_pos (by rw [State.alpUp, up]; rfl)]
  dsimp only
  generalize eu : State.setEvBit _ .alp k.val = u
  have down : u.knots.ports[k].state = .down := by
    rw [← eu, State.setEvBit_knots, State.noNeighbour, State.putNat_knots, State.withAlp_same]
    rfl
  have bit : u.events.alp.getLsbD k.val = true := by
    rw [← eu]
    exact State.setEvBit_sets _ .alp (by omega)
  generalize ev : State.bb _ _ _ _ = v
  obtain ⟨-, hports, hbits⟩ : Traffic u v := ev ▸ .bb (.bump (.refl u))
  obtain ⟨-, hports', hbits'⟩ := Traffic.endAsks (p := fun x => x.ports.contains k) v.retree_traffic
  exact ⟨(congrArg AlpPort.state ((hports' k).trans (hports k))).trans down, hbits' _ (hbits _ bit)⟩

/-! ### The enable of a port (R221) -/

theorem State.alpEnable_on (rest : s.knots.ports[k].state = .disabled) :
    (s.alpEnable k true).knots.ports[k].state = .training ∧ (s.alpEnable k true).knots.ports[k].nextBeat = s.now := by
  unfold State.alpEnable
  dsimp only
  rw [if_pos rfl, State.putNat_knots, if_pos rest]
  obtain ⟨-, hports, -⟩ := State.retree_traffic ((s.putNat (alpObj k) 1 (b2n true)).withAlp k
    (fun p => { p with state := .training, nextBeat := (s.putNat (alpObj k) 1 (b2n true)).now }))
  have port := (hports k).trans (congrArg AlpPort.steady (State.withAlp_same ..))
  exact ⟨congrArg AlpPort.state port, (congrArg AlpPort.nextBeat port).trans (State.putNat_now ..)⟩

theorem State.alpEnable_off (s : State) (k : Fin 4) :
    (s.alpEnable k false).knots.ports[k].state = .disabled ∧ (s.alpEnable k false).knots.tree.getLsbD k.val = false := by
  unfold State.alpEnable
  dsimp only
  rw [if_neg Bool.false_ne_true]
  generalize eu : State.noNeighbour _ _ = u
  have off : u.knots.ports[k].state = .disabled := by
    rw [← eu, State.noNeighbour, State.putNat_knots, State.withAlp_same]
    rfl
  obtain ⟨htree, hports, -⟩ := Traffic.endAsks (p := fun x => x.ports.contains k) u.retree_traffic
  refine ⟨(congrArg AlpPort.state (hports k)).trans off, ?_⟩
  rw [htree]
  show (u.treeMask _).getLsbD k.val = false
  rw [State.treeMask_getLsbD, State.treeLink, State.alpUp, off]
  rfl

/-! ### Measurements (R225) -/

/-- The oldest measurement leaves the queue and is published. -/
theorem State.alpMeasure_publishes {m : LinkMeasure} {rest : List LinkMeasure} (waits : s.knots.ports[k].measured = m :: rest) :
    (s.alpMeasure k m).knots.ports[k].measured = rest ∧ (s.alpMeasure k m).knots.ports[k].delay = m.delay ∧
      (s.alpMeasure k m).knots.ports[k].offset = m.offset := by
  unfold State.alpMeasure
  dsimp only
  generalize eu : State.publishLink _ _ _ _ = u
  have port : u.knots.ports[k] = { s.knots.ports[k] with measured := rest, delay := m.delay, offset := m.offset } := by
    rw [← eu, State.publishLink, State.putInt_knots, State.putInt_knots, State.withAlp_same, State.withAlp_same, waits, List.drop_one,
      List.tail_cons]
  obtain ⟨-, -, -, -, measured, delay, offset⟩ := AlpPort.of_steady (u.alpServo_steady k k m.delay m.offset m.coasted)
  rw [measured, delay, offset, port]
  exact ⟨rfl, rfl, rfl⟩

/-! ### Tunnel frames (R227, R368) -/

/-- While a request is in service, no other is taken. -/
theorem State.takeNext_serving (serving : s.dict.serving.isSome = true) : s.takeNext = s := by
  unfold State.takeNext
  rw [Nat.add_assoc, Nat.add_assoc, Nat.add_comm, State.takeUpTo, if_pos (by rw [serving, Bool.or_true])]

/-- A request for this package joins the tunnel's queue behind the one in service. -/
theorem State.tunnelHere_request {bs : List Byte} (header : headerOk bs = true) (whole : frameNeed bs ≤ bs.length)
    (request : frameBack (bs.take (frameNeed bs)) = false) (serving : s.dict.serving.isSome = true) (source : BitVec 6) :
    ∃ r : Request, r.frame = bs.take (frameNeed bs) ∧
      s.tunnelHere source bs = { s with dict := { s.dict with tunnelQueue := s.dict.tunnelQueue ++ [r] } } := by
  refine ⟨{ path := .tunnel, srcAddr := leBytes 1 source.toNat, srcPort := 0, key := none, silent := false,
            frame := bs.take (frameNeed bs) }, rfl, ?_⟩
  rw [State.tunnelHere, if_neg (by simp [header, whole]), if_neg (by simp [request])]
  exact State.takeNext_serving serving

/-- A first fragment that holds a whole request is its last one too (R219), and the request joins the queue. -/
theorem State.tunnelFragment_request {f : TunnelFrame} (first : f.frag = 0) (header : headerOk f.payload = true)
    (whole : frameNeed f.payload ≤ f.payload.length) (request : frameBack (f.payload.take (frameNeed f.payload)) = false)
    (serving : s.dict.serving.isSome = true) :
    ∃ r : Request, r.frame = f.payload.take (frameNeed f.payload) ∧
      (s.tunnelFragment f).dict.tunnelQueue = s.dict.tunnelQueue ++ [r] ∧ (s.tunnelFragment f).out = s.out := by
  have last : s.tunnelFragment f =
      { s with knots := { s.knots with parts := s.knots.parts.filter (fun x => x.1 != f.source) } }.tunnelHere f.source f.payload := by
    unfold State.tunnelFragment
    rw [State.partOf, if_pos first]
    refine if_neg ?_
    simp only [List.nil_append, Nat.not_lt.mpr whole, decide_false, Bool.and_false, Bool.false_and, Bool.false_eq_true, not_false_iff]
  rw [last]
  generalize eu : ({ s with knots := _ } : State) = u
  have dict : u.dict = s.dict := by rw [← eu]
  have out : u.out = s.out := by rw [← eu]
  obtain ⟨r, frame, joined⟩ := State.tunnelHere_request header whole request (dict ▸ serving) f.source
  rw [joined, ← dict, ← out]
  exact ⟨r, frame, rfl, rfl⟩

/-- The dictionary service and the dies are those of `a`. -/
def PassedOn (a s : State) : Prop := s.dict = a.dict ∧ s.dies = a.dies

theorem PassedOn.drainTunnel {n} (h : PassedOn a s) : PassedOn a (s.drainTunnel k n) := by
  induction n generalizing s with
  | zero => exact h
  | succ n ih =>
    unfold State.drainTunnel
    split
    · exact h
    · split
      · exact ih h
      · exact h

theorem PassedOn.sendTunnelOn {f} (h : PassedOn a s) : PassedOn a (s.sendTunnelOn f k) := .drainTunnel h

@[simp] theorem State.bump_tunnelQueue (s : State) (idx sub : Nat) : (s.bump idx sub).dict.tunnelQueue = s.dict.tunnelQueue := rfl
@[simp] theorem State.bump_serving (s : State) (idx sub : Nat) : (s.bump idx sub).dict.serving = s.dict.serving := rfl

/-- A frame for another package leaves the queue of requests, the request in service and the dies alone. -/
theorem State.tunnelOnward_passes (s : State) (k : Fin 4) (f : TunnelFrame) :
    (s.tunnelOnward k f).dict.tunnelQueue = s.dict.tunnelQueue ∧ (s.tunnelOnward k f).dict.serving = s.dict.serving ∧
      (s.tunnelOnward k f).dies = s.dies := by
  unfold State.tunnelOnward
  dsimp only
  generalize eu : List.foldl _ s _ = u
  obtain ⟨dict, dies⟩ : PassedOn s u := by
    rw [← eu]
    exact List.foldlRecOn _ _ ⟨rfl, rfl⟩ (fun _ ht _ _ => ht.sendTunnelOn)
  split
  · rw [dict, dies]
    exact ⟨rfl, rfl, rfl⟩
  · rw [State.bump_tunnelQueue, State.bump_serving, State.bump_dies, dict, dies]
    exact ⟨rfl, rfl, rfl⟩

theorem exec_tunnelFrameReceive {f : TunnelFrame} (hears : s.alpHears k = true) (good : f.good = true) (tunnel : f.typ = 3)
    (up : s.alpUp k = true) (on : s.tunnelOn = true) :
    exec (.tunnelFrameReceive k f) s = .next (if f.dest = s.knots.pos then s.tunnelFragment f else s.tunnelOnward k f) := by
  have known : reservedFrame f = false := by rw [reservedFrame, tunnel]; rfl
  show execTunnelFrameReceive k f s = _
  rw [execTunnelFrameReceive, if_neg (by simp [hears]), if_neg (by simp [good, known]), if_pos ⟨tunnel, up, on⟩]

/-! ### The commands -/

/-- The heartbeat that leaves the port carries what the port and the tree had before it (R220). -/
theorem State.sendBeat_sends (s : State) (k : Fin 4) (stamp : Qword) :
    (s.sendBeat k stamp).knots.ports[k].seq = s.knots.ports[k].seq + 1 ∧ (s.sendBeat k stamp).knots.ports[k].nextBeat = s.now + us 1 ∧
      ∃ trx eseq credit data, data = beatBytes s.nodeId s.knots.root s.knots.dist (decide (s.knots.parent = some k)) stamp trx
        s.knots.ports[k].seq eseq credit ∧
        (s.sendBeat k stamp).out = s.out ++ [.aelop k (alpHeader 1 s.knots.pos k 0 0 data) data] := by
  unfold State.sendBeat State.sendFrame
  dsimp only
  rw [State.emit_knots, State.drawn_knots, State.withAlp_same]
  exact ⟨rfl, rfl, _, _, _, _, rfl, rfl⟩

/-- A spoiled heartbeat ends the run of good ones, and changes neither the moment of the last good one nor the tree (R219, R221). -/
theorem State.badBeat_ends (s : State) (k : Fin 4) : (s.badBeat k).knots.ports[k].run = 0 ∧
    (s.badBeat k).knots.ports[k].lastGood = s.knots.ports[k].lastGood ∧ (s.badBeat k).knots.tree = s.knots.tree := by
  unfold State.badBeat
  rw [State.withAlp_same]
  exact ⟨rfl, rfl, rfl⟩

/-- Settles O22. Each command has one operation, whose lemma says what it does at the port; what the operation then sets going, by the tree,
the servo, the tunnel and the answers, is traffic. -/
theorem aelopCompletes : Obligations.AelopCompletes := by
  refine ⟨fun k stamp s powered enabled due => ?_, fun k h s hears good => ?_, fun k h s hears spoiled => ?_, fun k via s hvia rest => ?_,
    fun k via s hvia => ?_, fun k s live silent up => ?_, fun k lane s live up => ?_, fun k m rest s live up waits => ?_,
    fun k f s hears good tunnel up on mine first header whole request serving => ?_, fun k f s hears good tunnel up on other => ?_,
    fun k f s hears spoiled => ?_⟩
  · exact ⟨_, congrArg Host.Outcome.next (if_pos ⟨powered, enabled, due⟩), s.sendBeat_sends k stamp⟩
  · exact ⟨_, congrArg Host.Outcome.next ((if_neg (by simp [hears])).trans (if_pos good)), s.goodBeat_hasHeard k h⟩
  · exact ⟨_, congrArg Host.Outcome.next ((if_neg (by simp [hears])).trans (if_neg (by simp [spoiled]))), s.badBeat_ends k⟩
  · exact ⟨_, congrArg Host.Outcome.next (if_pos hvia), State.alpEnable_on rest⟩
  · exact ⟨_, congrArg Host.Outcome.next (if_pos hvia), s.alpEnable_off k⟩
  · exact ⟨_, congrArg Host.Outcome.next (if_pos ⟨by rw [live]; rfl, silent⟩), State.alpDown_down up⟩
  · refine ⟨s.alpDown k, congrArg Host.Outcome.next ((if_neg (by simp [live])).trans ?_), State.alpDown_down up⟩
    rw [State.laneFailure, up]
  · refine ⟨s.alpMeasure k m, ?_, State.alpMeasure_publishes waits⟩
    show execAlpMeasurement k s = _
    rw [execAlpMeasurement, waits]
    exact congrArg Host.Outcome.next (if_pos ⟨by rw [live]; rfl, up⟩)
  · obtain ⟨r, frame, queue, out⟩ := State.tunnelFragment_request first header whole request serving
    refine ⟨_, (exec_tunnelFrameReceive hears good tunnel up on).trans (congrArg Host.Outcome.next (if_pos mine)), ?_, out, ?_⟩
    · rw [queue, List.length_append, List.length_singleton]
    · rw [queue, List.getLast?_concat, Option.map_some, frame]
  · exact ⟨_, (exec_tunnelFrameReceive hears good tunnel up on).trans (congrArg Host.Outcome.next (if_neg other)), s.tunnelOnward_passes k f⟩
  · exact congrArg Host.Outcome.next ((if_neg (by simp [hears])).trans (if_pos (by simp [spoiled])))

end Sys2Proof.Machine
end

section
/-! PROOFS. The gauges (O15, O16).

Each operation on a gauge has one lemma that says what it makes of that gauge; the commands are then read off. What an operation stores in
objects or asks of a PLL leaves the gauges alone. Gauges stay named by `Fin 64` under `simp`, as the lemmas about them name them: hence
`-Fin.getElem_fin`. -/

namespace Sys2Proof.Machine

variable {s : State} {g : Fin 64}

theorem Completes.next {c : Instr} {P : State → Prop} {t : State} (done : exec c s = .next t) (meets : P t) : Completes c s P :=
  ⟨t, done, meets⟩

/-! ### What leaves the gauges alone -/

theorem State.gauge_congr {t : State} (h : t.gauges = s.gauges) : t.gauges[g] = s.gauges[g] := by rw [h]

/-- What each step of a repetition leaves as it was, the repetition leaves as it was. -/
theorem State.foldl_keeps {α β : Type} {p : State → β} {f : State → α → State} (l : List α) (s : State) (hf : ∀ t x, p (f t x) = p t) :
    p (l.foldl f s) = p s := List.foldlRecOn (motive := fun t => p t = p s) l f rfl (fun _ ht _ _ => (hf _ _).trans ht)

@[simp] theorem State.needSpll_gauges (s : State) (d : Die) : (s.needSpll d).gauges = s.gauges := by
  obtain ⟨c, hc⟩ := s.needSpll_eq d
  rw [hc]

@[simp] theorem State.restSpll_gauges (s : State) (d : Die) : (s.restSpll d).gauges = s.gauges := by
  obtain ⟨c, hc⟩ := s.restSpll_eq d
  rw [hc]

@[simp] theorem State.clampGauge_gauges (s : State) (g : Fin 64) : (s.clampGauge g).1.gauges = s.gauges := by
  simp only [State.clampGauge]
  split <;> split <;> simp

@[simp] theorem State.clampGauge_now (s : State) (g : Fin 64) : (s.clampGauge g).1.now = s.now := by
  simp only [State.clampGauge]
  split <;> split <;> simp

@[simp] theorem State.sendResult_gauges (s : State) (g : Fin 64) (at_ : Qword) (flags : BitVec 16) (vals : List Int) :
    (s.sendResult g at_ flags vals).gauges = s.gauges := by
  simp only [State.sendResult, State.bump_gauges]
  rw [State.foldl_keeps (p := State.gauges) _ _ (fun t _ => t.putInt_gauges ..), State.putNat_gauges, State.put_gauges]

@[simp] theorem State.stopUnused_gauges (g : Fin 64) (s : State) (e : StopEdge) : (s.stopUnused g e).gauges = s.gauges :=
  s.bump_gauges ..

/-! ### Results, gates and ends -/

theorem State.freshResult_same (s : State) (g : Fin 64) : (s.freshResult g).gauges[g] = { s.gauges[g] with
    flags := s.freshFlags g, first := none, last := none, n := 0, nLast := 0, shot := none, count := 0, unresolved := 0, sum := 0,
    sumSq := 0, least := 0, greatest := 0 } := s.withGauge_same ..

/-- A gate opens at its moment for its length, and leaves the stamping as it was (R237). -/
theorem State.openGate_opens (s : State) (g : Fin 64) (at_ : Nat) (tw : Qword) (len : Nat) :
    (s.openGate g at_ tw len).gauges[g].stamping = s.gauges[g].stamping ∧ (s.openGate g at_ tw len).gauges[g].gate = some (at_, tw) ∧
      (s.openGate g at_ tw len).gauges[g].gateEnd = at_ + len := by
  rw [State.openGate, State.withGauge_same, State.freshResult_same]
  exact ⟨rfl, rfl, rfl⟩

/-- A publication leaves the settings of its gauge. -/
theorem State.publish_set (s : State) (g : Fin 64) (at_ : Qword) (flags : BitVec 16) (vals : List Int) :
    (s.publish g at_ flags vals).gauges[g].set = s.gauges[g].set := by
  have marked : (s.withGauge g (fun x => { x with published := true })).gauges[g].set = s.gauges[g].set := by
    rw [State.withGauge_same]
  unfold State.publish
  dsimp only
  split
  · exact (congrArg Gauge.set (State.gauge_congr (State.sendResult_gauges ..))).trans marked
  · exact (congrArg Gauge.set (State.withGauge_same ..)).trans marked

theorem State.publishPartial_set (s : State) (g : Fin 64) (at_ : Qword) : (s.publishPartial g at_).gauges[g].set = s.gauges[g].set := by
  unfold State.publishPartial
  dsimp only
  split
  · exact s.publish_set ..
  · rfl

theorem State.endGauge_same (s : State) (g : Fin 64) (st : GaugeState) : (s.endGauge g st).gauges[g] = { s.gauges[g] with
    state := st, stamping := false, gate := none, shot := none, history := [] } := by
  rw [State.endGauge, State.restSpll_gauges, State.withGauge_same]

/-- Without repeat the close of a gate ends its gauge, whatever it publishes (R237). -/
theorem State.closeGate_ends (once : s.gauges[g].set.again = false) : ∃ t : State, s.closeGate g = t.endGauge g .done := by
  have ends : ∀ t : State, t.gauges[g].set = s.gauges[g].set → t.afterGate g = t.endGauge g .done := fun t ht =>
    if_pos (by rw [ht, once]; rfl)
  refine ⟨_, ends _ ?_⟩
  split
  · exact s.publishPartial_set ..
  · exact s.publish_set ..

/-! ### The life of a gauge -/

/-- A start clears counters and takes settings; of the gauges it changes its own alone (R234). -/
theorem gaugeStart_completes {via : Source} (hvia : s.serves via = true) (die : s.hasDie (gaugeDie g) = true) (on : s.isOn = true)
    (rests : s.gauges[g].state ≠ .running) :
    Completes (.gaugeStart g via) s (fun t => t.gauges[g].state = .running ∧ t.gauges[g].startedAt = s.now ∧ t.gauges[g].stamping = false ∧
      ∀ j : Fin 64, j ≠ g → t.gauges[j] = s.gauges[j]) := by
  refine .next (congrArg Host.Outcome.next ((if_pos hvia).trans ((if_neg (by simp [die])).trans ((if_neg (by simp [on])).trans
    (if_neg rests))))) ?_
  dsimp only
  rw [State.freshResult_same, State.needSpll_gauges, State.withGauge_same]
  refine ⟨rfl, ?_, rfl, fun j other => ?_⟩
  · rw [State.foldl_keeps (p := State.now) _ _ (fun t _ => t.putNat_now ..), State.putNat_now, State.clampGauge_now]
  · rw [State.freshResult, State.withGauge_other _ _ _ _ other, State.needSpll_gauges, State.withGauge_other _ _ _ _ other,
      State.foldl_keeps (p := State.gauges) _ _ (fun t _ => t.putNat_gauges ..), State.putNat_gauges, State.clampGauge_gauges]

/-- Settles O15. A stop, a timeout and the last gate end the gauge, whatever result they publish; a TIMER gate opens as stamping begins. -/
theorem gaugeLifeCompletes : Obligations.GaugeLifeCompletes := by
  refine ⟨fun g via s hvia die on rests => gaugeStart_completes hvia die on rests, fun g via s hvia die runs => ?_,
    fun g s live runs waits due pll timer => ?_, fun g s live runs gated timed due once => ?_, fun g s runs limited unpublished due => ?_⟩
  · refine .next (congrArg Host.Outcome.next ((if_pos hvia).trans ((if_neg (by simp [die])).trans (if_pos runs)))) ?_
    rw [State.endGauge_same]
    exact ⟨rfl, rfl, rfl⟩
  · refine ⟨(s.withGauge g (fun x => { x with stamping := true })).openGate g s.now s.time (ns s.gauges[g].set.gateNs), ?_, ?_⟩
    · refine congrArg Host.Outcome.next ((if_pos ⟨by simp [live], runs, by rw [waits]; rfl, due, pll⟩).trans ?_)
      rw [timer]
      rfl
    · obtain ⟨stamping, gate, gateEnd⟩ := (s.withGauge g (fun x => { x with stamping := true })).openGate_opens g s.now s.time
        (ns s.gauges[g].set.gateNs)
      exact ⟨stamping.trans (by rw [State.withGauge_same]), gate, gateEnd⟩
  · refine .next (congrArg Host.Outcome.next (if_pos ⟨by simp [live], runs, gated, timed, due⟩)) ?_
    obtain ⟨t, ends⟩ := State.closeGate_ends once
    rw [ends, State.endGauge_same]
    exact ⟨rfl, rfl⟩
  · refine .next (congrArg Host.Outcome.next (if_pos ⟨runs, limited, by rw [unpublished]; rfl, due⟩)) ?_
    rw [State.endGauge_same]
    exact ⟨rfl, rfl⟩

/-! ### Edges that reach a gauge -/

section Edges
variable {e : GaugeEdge} {t : Qword}

/-- An edge that a gauge takes is handed on with its stamp: no gate closes ahead of it. -/
theorem State.gaugeEdge_of_takes {ch : Nat} {f : State → Qword → State} (takes : s.gaugeTakes g ch e = true) :
    s.gaugeEdge g ch e.at_ f = f s (s.stampAt (s.edgeMoment ch e.at_)) := by
  simp only [State.gaugeTakes, Bool.and_eq_true, Bool.not_eq_true'] at takes
  obtain ⟨⟨hears, alive⟩, gateOpen⟩ := takes
  have still : s.gatePast g (s.edgeMoment ch e.at_) = s := if_neg (by rw [gateOpen]; exact Bool.false_ne_true)
  simp [State.gaugeEdge, still, hears, alive]

theorem exec_gaugeStartEdge (heard : s.startHeard g e = true) : exec (.gaugeStartEdge g e) s =
    .next (if s.gauges[g].set.mode = 2 then s.shotEdge g (s.startStamp g e) else s.freqEdge g (s.startStamp g e)) := by
  obtain ⟨wanted, takes⟩ := (Bool.and_eq_true _ _).mp heard
  exact congrArg Host.Outcome.next ((if_pos wanted).trans (State.gaugeEdge_of_takes takes))

theorem exec_gaugeStopEdge (heard : s.stopHeard g e = true) (interval : s.gauges[g].set.mode = 2) :
    exec (.gaugeStopEdge g e) s = .next (s.stopEdge g (s.stopStamp g e)) := by
  obtain ⟨wanted, takes⟩ := (Bool.and_eq_true _ _).mp heard
  exact congrArg Host.Outcome.next ((if_pos ⟨interval, wanted⟩).trans (State.gaugeEdge_of_takes takes))

/-! ### Frequency and period edges -/

/-- The first stamp of a gate, at the prescaler's count, is t_first, from which N counts (R235). -/
theorem State.freqEdge_first (full : s.gauges[g].set.prescale ≤ s.gauges[g].prescaled + 1) (gated : s.gauges[g].gate.isSome = true)
    (unstamped : s.gauges[g].first = none) (free : unitBusy s.gauges[g].startUnit t = false) :
    (s.freqEdge g t).gauges[g] = { s.gauges[g] with prescaled := 0, startUnit := some t, first := some t, n := 0 } := by
  obtain ⟨gate, hgate⟩ := Option.isSome_iff_exists.mp gated
  simp only [State.freqEdge, if_neg (Nat.not_lt.mpr full), hgate, unstamped, free, Bool.false_eq_true, if_false, State.withGauge_same]

/-! ### Shots -/

theorem State.overspeed_same (s : State) (g : Fin 64) :
    (s.overspeed g).gauges[g] = { s.gauges[g] with flags := s.gauges[g].flags ||| 2 } := by
  rw [State.overspeed, State.bump_gauges, State.withGauge_same]

/-- A shot that ends without a stop leaves its gauge but for the shot and, by a saturated start, the flags (R238, R240). -/
theorem State.shotMissed_same (s : State) (g : Fin 64) :
    ∃ flags, (s.shotMissed g).gauges[g] = { s.gauges[g] with shot := none, flags := flags } := by
  have missed : ((s.withGauge g (fun x => { x with shot := none })).bump (0x4D40 + g.val) 6).gauges[g] =
      { s.gauges[g] with shot := none } := by rw [State.bump_gauges, State.withGauge_same]
  unfold State.shotMissed
  dsimp only
  split
  · split
    · rw [State.overspeed_same, missed]
      exact ⟨_, rfl⟩
    · exact ⟨_, missed⟩
  · exact ⟨_, missed⟩

theorem State.expireShot_of_none (noShot : s.gauges[g].shot = none) : s.expireShot g t = s := by
  rw [State.expireShot, noShot]

/-- A shot whose window holds the moment has not passed (R238). -/
theorem State.expireShot_of_inWindow {a : Shot} (shot : s.gauges[g].shot = some a) (within : inWindow s.gauges[g].set a.start t = true) :
    s.expireShot g t = s := by
  obtain ⟨-, upper⟩ := (Bool.and_eq_true _ _).mp within
  rw [State.expireShot, shot]
  exact if_neg (Int.not_lt.mpr (of_decide_eq_true upper))

/-- Pruning takes stops from the history, and changes nothing else of its gauge. -/
theorem State.pruneStops_same (s : State) (g : Fin 64) (before : Qword) : (s.pruneStops g before).gauges[g] =
    { s.gauges[g] with history := s.gauges[g].history.filter (fun e => decide (0 ≤ (e.time - before).toInt)) } :=
  (State.gauge_congr (State.foldl_keeps (p := State.gauges) _ _ (fun t e => t.stopUnused_gauges g e))).trans (s.withGauge_same ..)

/-- Without an open shot and without earlier stops, a start edge opens a shot at its stamp (R238, R239). -/
theorem State.shotEdge_opens (noShot : s.gauges[g].shot = none) (gated : s.gauges[g].gate.isSome = true)
    (empty : s.gauges[g].history = []) (ready : heldOff s.gauges[g].holdStart t s.gauges[g].set.holdNs = false) :
    (s.shotEdge g t).gauges[g].shot = some { start := t, saturated := unitBusy s.gauges[g].startUnit t } ∧
      (s.shotEdge g t).gauges[g].holdStart = some t ∧ (s.shotEdge g t).gauges[g].count = s.gauges[g].count := by
  have gateOpen : s.gauges[g].gate.isNone = false := by rw [← Option.not_isSome, gated]; rfl
  simp [-Fin.getElem_fin, State.shotEdge, State.expireShot_of_none noShot, ready, noShot, gateOpen, State.pruneStops_same, empty]

/-- A shot and a stop, both valid and more than a bin apart, give a result of a set that is not full with it (R238, R240). -/
theorem State.pairShot_counts {a : Shot} {b : StopEdge} (start : a.saturated = false) (stop : b.saturated = false)
    (apart : 1024 ≤ (b.time - a.start).toInt.natAbs) (more : s.gauges[g].count + 1 ≠ s.gauges[g].set.shots) :
    (s.pairShot g a b).gauges[g].shot = none ∧ (s.pairShot g a b).gauges[g].count = s.gauges[g].count + 1 ∧
      (s.pairShot g a b).gauges[g].sum = s.gauges[g].sum + (b.time - a.start).toInt ∧
      (s.pairShot g a b).gauges[g].unresolved = s.gauges[g].unresolved := by
  have resolved : ¬ (b.time - a.start).toInt.natAbs < 1024 := Nat.not_lt.mpr apart
  simp [-Fin.getElem_fin, -BitVec.toInt_sub, State.pairShot, start, stop, resolved, more, b2n]

/-- A stop within the window of an open shot, and not the edge that opened it, pairs with the shot (R238). -/
theorem State.stopEdge_pairs {a : Shot} (shot : s.gauges[g].shot = some a) (within : inWindow s.gauges[g].set a.start t = true)
    (other : ownStop s.gauges[g].set a.start t = false) (ready : heldOff s.gauges[g].holdStop t s.gauges[g].set.holdNs = false)
    (free : unitBusy s.gauges[g].stopUnit t = false) :
    ∃ b : StopEdge, b.time = t ∧ b.saturated = false ∧
      s.stopEdge g t = (s.withGauge g (fun x => { x with stopUnit := some t })).pairShot g a b := by
  simp only [State.stopEdge, State.expireShot_of_inWindow shot within, ready, shot, within, other, free, Bool.not_false, Bool.and_self,
    Bool.false_eq_true, if_false, if_true]
  exact ⟨_, rfl, rfl, rfl⟩

end Edges

/-- Settles O16. An edge that the gauge takes reaches the operation of its mode, whose lemma says what it makes of the gauge. -/
theorem gaugeEdgesComplete : Obligations.GaugeEdgesComplete := by
  refine ⟨fun g e s heard mode more => ?_, fun g e s heard mode full gated unstamped free => ?_,
    fun g e s heard mode noShot gated empty ready => ?_,
    fun g e a s heard mode shot start stop ready within other apart more => ?_, fun g s runs shot due => ?_⟩
  · refine .next ((exec_gaugeStartEdge heard).trans (congrArg Host.Outcome.next ((if_neg mode).trans (if_pos more)))) ?_
    rw [State.withGauge_same]
    exact ⟨rfl, rfl⟩
  · refine .next ((exec_gaugeStartEdge heard).trans (congrArg Host.Outcome.next (if_neg mode))) ?_
    rw [State.freqEdge_first full gated unstamped free]
    exact ⟨rfl, rfl, rfl⟩
  · exact ⟨_, (exec_gaugeStartEdge heard).trans (congrArg Host.Outcome.next (if_pos mode)), State.shotEdge_opens noShot gated empty ready⟩
  · obtain ⟨b, time, saturated, paired⟩ := State.stopEdge_pairs shot within other ready stop
    refine .next ((exec_gaugeStopEdge heard mode).trans (congrArg Host.Outcome.next paired)) ?_
    have counts := State.pairShot_counts (s := s.withGauge g (fun x => { x with stopUnit := some (s.stopStamp g e) })) (g := g) (b := b)
      start saturated (by rw [time]; exact apart) (by rw [State.withGauge_same]; exact more)
    rwa [time, State.withGauge_same] at counts
  · refine .next (congrArg Host.Outcome.next (if_pos ⟨runs, shot, due⟩)) ?_
    obtain ⟨flags, missed⟩ := s.shotMissed_same g
    rw [missed]
    exact ⟨rfl, runs, rfl⟩

end Sys2Proof.Machine
end

section
/-! PROOFS. The pattern generator (O12, O13, O14).

Each operation on a generator has one equation that says what it makes of that generator; what it stores in objects, asks of the deep
store or of a PLL, or sends out leaves the generators alone. A run that has its due samples in the buffer only plays them
(`genSettle_inTime`); the commands are then read off. Generators stay named by `Die` under `simp`, as the lemmas about them name them: hence
`-Fin.getElem_fin`. -/

namespace Sys2Proof.Machine

variable {s : State} {d e : Die}

/-! ### Commands that reach the part -/

/-- A command that reaches its register or serves on its path takes effect in the state as it stands (R325, R378, R20). -/
theorem State.byPath_of_reaches {via : Source} (h : s.reaches via = true) (off : Nat) (f : State → State) : s.byPath via off f = f s := by
  by_cases bar0 : via = .bar0
  · subst bar0
    obtain ⟨answers, quiet⟩ : s.pcie.answers = true ∧ s.guard.pendingWrite = none := by
      simpa [State.reaches, State.serves, State.quiet] using h
    rw [State.byPath, if_pos rfl, State.onBar0, if_pos answers, State.interrupt, quiet]
  · obtain ⟨serves, -⟩ : s.serves via = true ∧ _ := by simpa [State.reaches] using h
    rw [State.byPath, if_neg bar0, State.onPath, if_pos serves]

theorem State.genCommand_of_reaches {via : Source} (h : s.reaches via = true) (die : s.hasDie d = true) (f : State → State) :
    s.genCommand d via f = f s := (State.byPath_of_reaches h _ _).trans (if_pos die)

theorem dueAt_of_le {x now : Nat} (h : x ≤ now) : dueAt (some x) now = some x := if_pos h

/-! ### What leaves the generators and the memories alone -/

@[simp] theorem State.startPll_gens (s : State) (i : Fin 13) (n : Nat) : (s.startPll i n).gens = s.gens := by
  obtain ⟨c, hc⟩ := s.startPll_eq i n
  rw [hc]

@[simp] theorem State.needSpll_gens (s : State) (d : Die) : (s.needSpll d).gens = s.gens := by
  obtain ⟨c, hc⟩ := s.needSpll_eq d
  rw [hc]

@[simp] theorem State.restSpll_gens (s : State) (d : Die) : (s.restSpll d).gens = s.gens := by
  obtain ⟨c, hc⟩ := s.restSpll_eq d
  rw [hc]

@[simp] theorem State.showIdle_gens (s : State) (d : Die) : (s.showIdle d).gens = s.gens := rfl

/-- A grant changes the queues of the deep store alone (R280). -/
@[simp] theorem State.dsGrant_keeps (s : State) (c : Fin 8) :
    (s.dsGrant c).gens = s.gens ∧ (s.dsGrant c).dsMem = s.dsMem ∧ (s.dsGrant c).basin = s.basin := by
  unfold State.dsGrant
  split <;> exact ⟨rfl, rfl, rfl⟩

@[simp] theorem State.dsAsk_keeps (s : State) (p : Fin 8) (addr : Nat) (write : Bool) :
    (s.dsAsk p addr write).gens = s.gens ∧ (s.dsAsk p addr write).dsMem = s.dsMem ∧ (s.dsAsk p addr write).basin = s.basin := by
  unfold State.dsAsk
  split
  · exact ⟨rfl, rfl, rfl⟩
  · split <;> simp

@[simp] theorem State.dsServed_keeps (s : State) (p : Fin 8) :
    (s.dsServed p).gens = s.gens ∧ (s.dsServed p).dsMem = s.dsMem ∧ (s.dsServed p).basin = s.basin := by
  unfold State.dsServed
  split
  · exact ⟨rfl, rfl, rfl⟩
  · dsimp only
    split <;> simp

@[simp] theorem State.dsGroups_keeps (s : State) (p : Fin 8) (n : Nat) :
    (s.dsGroups p n).gens = s.gens ∧ (s.dsGroups p n).dsMem = s.dsMem ∧ (s.dsGroups p n).basin = s.basin := by simp [State.dsGroups]

/-! ### A refill read (R253) -/

/-- A refill read that is wanted stands in `asked` and enters the generator's port; otherwise nothing happens. -/
theorem State.genAsk_cases (s : State) (d : Die) :
    s.genAsk d = s ∨ ∃ f, s.genAsk d = (s.withGen d (fun g => { g with asked := some f })).dsAsk (genPort d) f.addr false := by
  unfold State.genAsk
  split
  · split
    · exact .inr ⟨_, rfl⟩
    · exact .inl rfl
  · exact .inl rfl

theorem State.genAsk_same (s : State) (d : Die) : (s.genAsk d).gens[d] = { s.gens[d] with asked := (s.genAsk d).gens[d].asked } := by
  obtain h | ⟨f, h⟩ := s.genAsk_cases d
  · rw [h]
  · rw [h, (State.dsAsk_keeps ..).1, State.withGen_same]

theorem State.genAsk_other (s : State) (h : e ≠ d) : (s.genAsk d).gens[e] = s.gens[e] := by
  obtain idle | ⟨f, asks⟩ := s.genAsk_cases d
  · rw [idle]
  · rw [asks, (State.dsAsk_keeps ..).1, State.withGen_other _ _ _ _ h]

@[simp] theorem State.genAsk_mem (s : State) (d : Die) : (s.genAsk d).dsMem = s.dsMem ∧ (s.genAsk d).basin = s.basin := by
  obtain h | ⟨f, h⟩ := s.genAsk_cases d
  · simp only [h, and_self]
  · simp only [h, State.dsAsk_keeps, State.withGen_dsMem, State.withGen_basin, and_self]

/-! ### Priming, rest, run and end -/

@[simp] theorem State.clampSync_keeps (s : State) (d : Die) : (s.clampSync d).gens = s.gens ∧ (s.clampSync d).pins = s.pins := by
  unfold State.clampSync
  dsimp only
  split <;> simp

/-- The generator of die `d` is PRIMING with the output yarns of `a`, and the other one is as in `a` (R247, R251). -/
def Primed (a : State) (d : Die) (t : State) : Prop := t.gens[d].state = .priming ∧ t.gens[d].endStatus = .none ∧
  t.gens[d].yarns = a.outputYarns d ∧ t.gens[otherDie d] = a.gens[otherDie d]

theorem Primed.genAsk {a t : State} (h : Primed a d t) : Primed a d (t.genAsk d) := by
  unfold Primed
  rw [State.genAsk_same, State.genAsk_other _ (otherDie_ne d).symm]
  exact h

theorem Primed.whenAsked {c : Prop} [Decidable c] {a t : State} (h : Primed a d t) : Primed a d (if c then t.genAsk d else t) :=
  iteInduction (fun _ => h.genAsk) (fun _ => h)

theorem State.genPrime_primed (s : State) (d : Die) (startCmd : Bool) (target : Option Qword) :
    Primed s d (s.genPrime d startCmd target) := by
  have other := (otherDie_ne d).symm
  have zeroed : ∀ {β : Type} (p : State → β) (t : State), (∀ u i n, p (State.putNat u (0x5014 + d.val) i n) = p u) →
      p ((List.range 10).foldl (fun u i => u.putNat (0x5014 + d.val) (i + 1) 0) t) = p t :=
    fun p t hp => State.foldl_keeps _ t (fun _ _ => hp ..)
  have gens := (zeroed State.gens _ (fun _ _ _ => State.putNat_gens ..)).trans (s.clampSync_keeps d).1
  have pins := (zeroed State.pins _ (fun _ _ _ => State.putNat_pins ..)).trans (s.clampSync_keeps d).2
  unfold State.genPrime
  dsimp only
  generalize List.foldl _ _ _ = u at gens pins
  have yarns : u.outputYarns d = s.outputYarns d := by rw [State.outputYarns, pins, State.outputYarns]
  refine .whenAsked ?_
  unfold Primed
  rw [State.startPll_gens, State.putNat_gens, State.withGen_same, State.withGen_other _ _ _ _ other, gens]
  exact ⟨rfl, rfl, yarns, rfl⟩

theorem State.genRest_same (s : State) (d : Die) : (s.genRest d).gens[d] = { s.gens[d] with
    state := .stopped, startAt := none, jump := none, endPass := false, planned := 0, timeTarget := none, pre := [], land := [],
    fetch := none, asked := none } := by
  rw [State.genRest, State.showIdle_gens, State.raise_gens, State.restSpll_gens, State.withGen_same]

theorem State.genRun_same (s : State) (d : Die) (t : Nat) : (s.genRun d t).gens[d] = { s.gens[d] with
    state := .running, entry := BitVec.toFin (BitVec.ofNat 12 (s.genNat d 2)), pass := 0, passStart := t, played := 0, t0 := s.timeAt t,
    startAt := none, jump := none, endPass := false, startCmd := false, timeTarget := none } := by
  rw [State.genRun, State.put_gens, State.withGen_same]

theorem State.genEnd_same (s : State) (d : Die) (e : GenEnd) (t : Nat) : (s.genEnd d e t).gens[d] = { s.gens[d] with
    state := .ending, endStatus := e, holdUntil := t + ns (s.genNat d 5), startAt := none, jump := none, endPass := false,
    asked := none } := by
  rw [State.genEnd, State.put_gens, State.withGen_same]

/-- An underrun ends the sequence, whatever it stores and logs (R255). -/
theorem State.genFail_ends (s : State) (d : Die) (e : GenEnd) :
    (s.genFail d e).gens[d].state = .ending ∧ (s.genFail d e).gens[d].endStatus = e := by
  simp only [State.genFail, State.bb_gens, State.setEvBit_gens, State.bump_gens, State.putNat_gens, State.genEnd_same, and_self]

/-! ### Playing what is due (R250, R255) -/

/-- Of a running generator, samples that are due and in the buffer are played; otherwise nothing happens. -/
theorem State.genPlay_cases (s : State) (d : Die) :
    ((s.gens[d].state ≠ .running ∨ min (s.genDue d) (s.genHas d) ≤ s.gens[d].played) ∧ s.genPlay d = s) ∨
      (s.gens[d].played < min (s.genDue d) (s.genHas d) ∧ ∃ (lastAt : Gen → Nat) (pre : Gen → List Byte) (held : List Byte) (o : Out),
        s.genPlay d = (s.withGen d (fun g => { g with
          played := min (s.genDue d) (s.genHas d), lastAt := lastAt g, pre := pre g, held := held })).emit o) := by
  unfold State.genPlay
  dsimp only
  split
  · next idle => exact .inl ⟨idle, rfl⟩
  · next plays => exact .inr ⟨Nat.lt_of_not_le (not_or.mp plays).2, _, _, _, _, rfl⟩

theorem State.genPlay_same (s : State) (d : Die) : (s.genPlay d).gens[d] = { s.gens[d] with
    played := (s.genPlay d).gens[d].played, lastAt := (s.genPlay d).gens[d].lastAt, pre := (s.genPlay d).gens[d].pre,
    held := (s.genPlay d).gens[d].held } := by
  obtain ⟨-, h⟩ | ⟨-, lastAt, pre, held, o, h⟩ := s.genPlay_cases d
  · rw [h]
  · rw [h, State.emit_gens, State.withGen_same]

@[simp] theorem State.genPlay_keeps (s : State) (d : Die) : (s.genPlay d).now = s.now ∧ (s.genPlay d).objs = s.objs := by
  obtain ⟨-, h⟩ | ⟨-, lastAt, pre, held, o, h⟩ := s.genPlay_cases d
  · rw [h]
    exact ⟨rfl, rfl⟩
  · rw [h]
    exact ⟨rfl, rfl⟩

@[simp] theorem State.genPlay_genNat (s : State) (d : Die) (sub : Nat) : (s.genPlay d).genNat d sub = s.genNat d sub := by
  simp only [State.genNat, State.objNat, State.genPlay_keeps]

@[simp] theorem State.genPlay_curEntry (s : State) (d : Die) : (s.genPlay d).curEntry d = s.curEntry d := by
  simp only [State.curEntry, State.genEntry, State.genPlay_keeps]
  rw [State.genPlay_same]

@[simp] theorem State.genPlay_genDue (s : State) (d : Die) : (s.genPlay d).genDue d = s.genDue d := by
  simp only [State.genDue, State.genPlay_keeps, State.genPlay_curEntry, Gen.period]
  rw [State.genPlay_same]

/-- A running generator has played all that is due and in the buffer. -/
theorem State.genPlay_played (running : s.gens[d].state = .running) :
    (s.genPlay d).gens[d].played = max s.gens[d].played (min (s.genDue d) (s.genHas d)) := by
  obtain ⟨idle, h⟩ | ⟨more, lastAt, pre, held, o, h⟩ := s.genPlay_cases d
  · rw [h, Nat.max_eq_left (idle.resolve_left (· running))]
  · rw [h, State.emit_gens, State.withGen_same, Nat.max_eq_right (Nat.le_of_lt more)]

/-- A generator that does not run plays nothing and underruns nothing. -/
theorem State.genSettle_resting (rests : s.gens[d].state ≠ .running) : s.genSettle d = s := by
  have played : s.genPlay d = s := if_pos (.inl rests)
  rw [State.genSettle, played]
  exact if_neg fun h => rests h.1

/-- Samples that are in the buffer when they are due are played, and end nothing. -/
theorem State.genSettle_inTime (running : s.gens[d].state = .running) (inTime : s.genDue d ≤ s.genHas d) :
    s.genSettle d = s.genPlay d := by
  refine if_neg fun h => ?_
  have late : (s.genPlay d).gens[d].played < s.genDue d := by simpa only [State.genPlay_genDue] using h.2
  rw [State.genPlay_played running] at late
  omega

/-- A sample that is due and not in the buffer ends the sequence: UNDERRUN, or DATA when its read was uncorrectable. -/
theorem State.genSettle_late (running : s.gens[d].state = .running) (unplayed : s.gens[d].played < s.genDue d)
    (late : s.genHas d < s.genDue d) :
    s.genSettle d = (s.genPlay d).genFail d (if s.gens[d].preBad then .data else .underrun) := by
  have fails : (s.genPlay d).gens[d].state = .running ∧ (s.genPlay d).gens[d].played < (s.genPlay d).genDue d := by
    rw [State.genPlay_genDue, State.genPlay_played running]
    exact ⟨by rw [State.genPlay_same]; exact running, by omega⟩
  have bad : (s.genPlay d).gens[d].preBad = s.gens[d].preBad := by rw [State.genPlay_same]
  rw [State.genSettle, if_pos fails, bad]

/-! ### A prime, a start and a stop -/

/-- Priming that passes the checks and has filled the buffers is READY, when no start brought the prime (R251). -/
theorem exec_pgReady_ready (thawed : s.frozen = false) (priming : s.gens[d].state = .priming) (runs : s.clocks.plls[spll d].runs = true)
    (passes : s.genCheck d = none) (filled : s.genFilled d = true) (noStart : s.gens[d].startCmd = false)
    (noTarget : s.gens[d].timeTarget = none) :
    exec (.pgReady d) s = .next ((s.withGen d (fun g => { g with state := .ready, planned := s.genPlanned d })).putNat
      (0x5010 + d.val) 7 (s.genPlanned d)) := by
  refine congrArg Host.Outcome.next ((if_pos ⟨by simp [thawed], priming, runs⟩).trans ?_)
  simp [-Fin.getElem_fin, passes, filled, noStart, noTarget]

/-- Priming that fails a check ends with the check's status and entry (R251). -/
theorem exec_pgReady_refused {e : GenEnd} {i : Nat} (thawed : s.frozen = false) (priming : s.gens[d].state = .priming)
    (runs : s.clocks.plls[spll d].runs = true) (fails : s.genCheck d = some (e, i)) :
    exec (.pgReady d) s = .next (s.genRefuse d e i) :=
  congrArg Host.Outcome.next ((if_pos ⟨by simp [thawed], priming, runs⟩).trans (by rw [fails]))

/-- A stop of a generator that is neither STOPPED nor ENDING halts it (R255). -/
theorem exec_pgStop {via : Source} (hears : s.reaches via = true) (die : s.hasDie d = true) (moves : s.gens[d].state ≠ .stopped)
    (plays : s.gens[d].state ≠ .ending) : exec (.pgStop d via) s = .next (s.genHalt d .stopped) := by
  refine congrArg Host.Outcome.next ((State.genCommand_of_reaches hears die _).trans ?_)
  unfold State.stopCommand
  split
  · contradiction
  · contradiction
  all_goals rfl

/-- A stop before the run rests the generator at once (R255). -/
theorem State.genHalt_ready (e : GenEnd) (ready : s.gens[d].state = .ready) :
    s.genHalt d e = (s.withGen d (fun g => { g with endStatus := e })).genRest d := by
  have settled : s.genSettle d = s := State.genSettle_resting (by rw [ready]; nofun)
  rw [State.genHalt, settled]
  simp only [ready, State.genStopIdle]

/-- A stop that does not wait for the pass boundary ends the run now, after what is due has played (R255). -/
theorem State.genHalt_now (e : GenEnd) (running : s.gens[d].state = .running) (atOnce : s.genNat d 4 ≠ 0)
    (inTime : s.genDue d ≤ s.genHas d) : s.genHalt d e = (s.genPlay d).genEnd d e s.now := by
  have still : (s.genPlay d).gens[d].state = .running := by rw [State.genPlay_same, running]
  rw [State.genHalt, State.genSettle_inTime running inTime]
  simp only [still, State.genPlay_genNat, State.genPlay_keeps, atOnce, false_and, if_false]

/-- Settles O12. Each command has one operation on its generator, whose equation says what it makes of it. -/
theorem generatorControlCompletes : Obligations.GeneratorControlCompletes := by
  refine ⟨fun d via s hears die stopped on => ?_, fun d via s hears die immediate ready => ?_,
    fun d s thawed priming runs passes filled noStart noTarget => ?_, fun d e i s thawed priming runs fails => ?_,
    fun d via s hears die ready => ?_, fun d via s hears die running atOnce inTime => ?_⟩
  · exact .next (congrArg Host.Outcome.next ((State.genCommand_of_reaches hears die _).trans
      ((if_neg (by simp [stopped])).trans (if_neg (by simp [on]))))) (s.genPrime_primed d false none)
  · refine .next (congrArg Host.Outcome.next ((State.genCommand_of_reaches hears die _).trans
      ((if_neg (Classical.not_not.mpr immediate)).trans (by rw [ready])))) ?_
    rw [State.genRun_same]
    exact ⟨rfl, rfl, rfl, BitVec.toNat_ofNat ..⟩
  · refine .next (exec_pgReady_ready thawed priming runs passes filled noStart noTarget) ?_
    rw [State.putNat_gens, State.withGen_same]
    exact ⟨rfl, rfl⟩
  · refine .next (exec_pgReady_refused thawed priming runs fails) ?_
    rw [State.genRefuse, State.genRest_same, State.withGen_same]
    exact ⟨rfl, rfl, rfl⟩
  · refine .next ((exec_pgStop hears die (by rw [ready]; nofun) (by rw [ready]; nofun)).trans (congrArg Host.Outcome.next
      (State.genHalt_ready .stopped ready))) ?_
    rw [State.genRest_same, State.withGen_same]
    exact ⟨rfl, rfl⟩
  · refine .next ((exec_pgStop hears die (by rw [running]; nofun) (by rw [running]; nofun)).trans (congrArg Host.Outcome.next
      (State.genHalt_now .stopped running atOnce inTime))) ?_
    rw [State.genEnd_same, State.genPlay_genNat]
    exact ⟨rfl, rfl, rfl⟩

/-! ### Jumps, passes and ends of a run -/

/-- An enabled request that keeps its lead to the end of the pass is taken there (R252). -/
theorem State.genJump_taken {src : JumpSource} {ref : Nat}
    (enabled : (s.genNat d 7).testBit (jumpLead s.dies[d].plan.program.towDelay src).1 = true) (running : s.gens[d].state = .running)
    (free : s.gens[d].jump = none)
    (early : ref + ns (jumpLead s.dies[d].plan.program.towDelay src).2 + 65 * s.gens[d].period ≤ s.passEnd d) :
    s.genJump d src ref = s.withGen d (fun g => { g with jump := some false }) := by
  have asked : ¬ s.gens[d].jump.isSome = true := by simp [-Fin.getElem_fin, free]
  simp only [State.genJump, enabled, running, asked, early, Bool.not_true, Bool.false_eq_true, if_false, if_true]

/-- A request that reaches the part, on its path or as the chosen edge of TRIGIN outside a capture, is a request now (R252). -/
theorem exec_pgJumpRequest {src : JumpSource} (hears : ∀ via, src = .request via → s.reaches via = true ∧ s.hasDie d = true)
    (chosen : ∀ pin rising, src = .trigin pin rising → s.dies[d].isOpen = false ∧ s.frozen = false ∧ s.genNat d 9 = pin.val ∧
      decide (s.genNat d 0x0A = 0) = rising) : exec (.pgJumpRequest d src) s = .next (s.genJump d src s.now) := by
  cases src with
  | request via =>
    obtain ⟨reaches, die⟩ := hears via rfl
    exact congrArg Host.Outcome.next (State.genCommand_of_reaches reaches die _)
  | staircase => rfl
  | trigin pin rising =>
    obtain ⟨shut, thawed, input, edge⟩ := chosen pin rising rfl
    refine congrArg Host.Outcome.next ((if_neg (by simp [-Fin.getElem_fin, shut, thawed])).trans (if_pos ⟨input, ?_⟩))
    simp [← edge]

/-- A pass that plays to its end in time is followed by what `genPass` gives, and by the next refill read (R250). -/
theorem exec_pgPassEnd_inTime (thawed : s.frozen = false) (running : s.gens[d].state = .running) (ended : s.passEnd d ≤ s.now)
    (inTime : s.genDue d ≤ s.genHas d) :
    exec (.pgPassEnd d) s = .next (((s.genPlay d).genPass d (s.passEnd d)).genAsk d) := by
  have still : (s.genPlay d).gens[d].state = .running := by rw [State.genPlay_same, running]
  refine congrArg Host.Outcome.next ((if_pos ⟨by simp [thawed], running, ended⟩).trans ?_)
  rw [State.genSettle_inTime running inTime]
  exact if_pos still

/-- An entry with passes left plays its next pass (R250). -/
theorem State.genPass_again (t : Nat) (stays : s.gens[d].endPass = false) (noJump : s.gens[d].jump = none)
    (more : (s.curEntry d).endless = true ∨ s.gens[d].pass < (s.curEntry d).loops) :
    (s.genPass d t).gens[d] = { s.gens[d] with pass := s.gens[d].pass + 1, passStart := t, played := 0, jump := none } := by
  rw [State.genPass]
  simp only [stays, noJump, more, Bool.false_eq_true, reduceCtorEq, if_false, if_true, State.withGen_same, Option.map_none]

/-- A jump that is due enters TARGET at its first pass (R252). -/
theorem State.genPass_jump (t : Nat) (stays : s.gens[d].endPass = false) (jumps : s.gens[d].jump = some false) :
    (s.genPass d t).gens[d].entry = (s.curEntry d).target ∧ (s.genPass d t).gens[d].pass = 0 ∧ (s.genPass d t).gens[d].jump = none := by
  have enters : s.genPass d t = (((s.withGen d (fun g => { g with jump := none })).bump (0x5014 + d.val) 2).genLand d
      (s.curEntry d).target).genEnter d (s.curEntry d).target t := by
    rw [State.genPass]
    simp only [stays, jumps, Bool.false_eq_true, if_false, if_true]
  rw [enters, State.genEnter, State.withGen_same, State.genLand, State.withGen_same, State.bump_gens, State.withGen_same]
  exact ⟨rfl, rfl, rfl⟩

/-- Of a DEEP segment, what is due is settled, and the next refill read asked for (R253, R255). -/
theorem exec_pgUnderrun_deep (thawed : s.frozen = false) (running : s.gens[d].state = .running) (deep : (s.curEntry d).cache = false) :
    exec (.pgUnderrun d) s = .next ((s.genSettle d).genAsk d) :=
  congrArg Host.Outcome.next (if_pos ⟨by simp [thawed], running, by simp [deep]⟩)

/-- The instant that a knot set has come: entry TARGET begins then (R256). -/
theorem exec_pgKnotStart_due {at_ : Nat} (thawed : s.frozen = false) (waiting : s.gens[d].state = .waiting)
    (knot : s.gens[d].waitFor = .knot) (start : s.gens[d].startAt = some at_) (due : at_ ≤ s.now) :
    exec (.pgKnotStart d) s = .next (s.genEnter d (s.curEntry d).target at_) :=
  congrArg Host.Outcome.next ((if_pos ⟨by simp [thawed], waiting, knot⟩).trans (by rw [start, dueAt_of_le due]))

/-- Settles O13. What is due plays first; a run that is in time stays as it is otherwise, and one that is not ends. -/
theorem generatorPassesComplete : Obligations.GeneratorPassesComplete := by
  refine ⟨fun d src s hears chosen enabled running free early => ?_, fun d s thawed running ended stays inTime noJump more => ?_,
    fun d s thawed running ended stays inTime jumps => ?_, fun d s thawed running deep unplayed late => ?_,
    fun d s thawed running inTime => ?_, fun d s thawed ending ended => ?_, fun d at_ s thawed waiting knot start due => ?_⟩
  · refine .next ((exec_pgJumpRequest hears chosen).trans (congrArg Host.Outcome.next
      (State.genJump_taken enabled running free early))) ?_
    rw [State.withGen_same]
    exact ⟨rfl, rfl⟩
  · refine .next (exec_pgPassEnd_inTime thawed running ended inTime) ?_
    rw [State.genAsk_same, State.genPass_again _ (by rw [State.genPlay_same, stays]) (by rw [State.genPlay_same, noJump])
      (by rw [State.genPlay_curEntry, State.genPlay_same]; exact more), State.genPlay_same]
    exact ⟨rfl, rfl, rfl⟩
  · refine .next (exec_pgPassEnd_inTime thawed running ended inTime) ?_
    have jumped := State.genPass_jump (s := s.genPlay d) (s.passEnd d) (by rw [State.genPlay_same, stays])
      (by rw [State.genPlay_same, jumps])
    rw [State.genPlay_curEntry] at jumped
    rw [State.genAsk_same]
    exact jumped
  · refine .next (exec_pgUnderrun_deep thawed running deep) ?_
    rw [State.genSettle_late running unplayed late, State.genAsk_same]
    exact State.genFail_ends ..
  · cases cache : (s.curEntry d).cache with
    | true => exact .next (congrArg Host.Outcome.next (if_neg (by simp [cache]))) ⟨running, rfl⟩
    | false =>
      refine .next (exec_pgUnderrun_deep thawed running cache) ?_
      rw [State.genSettle_inTime running inTime, State.genAsk_same, State.genPlay_same]
      exact ⟨running, rfl⟩
  · refine .next (congrArg Host.Outcome.next (if_pos ⟨by simp [thawed], ending, ended⟩)) ?_
    rw [State.genRest_same]
    exact ⟨rfl, rfl⟩
  · refine .next (exec_pgKnotStart_due thawed waiting knot start due) ?_
    rw [State.genEnter, State.withGen_same]
    exact ⟨rfl, rfl, rfl⟩

/-! ### Sync pulses (R257, R258) -/

/-- What the start of generator `d` by a pulse rests on is in `t` as in `a`: the generator, its settings, its stored phase and the time. -/
def SameSync (a : State) (d : Die) (t : State) : Prop := t.gens[d] = a.gens[d] ∧ t.now = a.now ∧
  (∀ sub < 256, t.genNat d sub = a.genNat d sub) ∧ t.objNat (0x5020 + d.val) 2 = a.objNat (0x5020 + d.val) 2

theorem SameSync.refl : SameSync s d s := ⟨rfl, rfl, fun _ _ => rfl, rfl⟩

/-- A change of an object past the settings that is no stored phase. -/
theorem SameSync.of_object {t u : State} {i j : Nat}
    (others : ∀ idx sub, objKey idx sub ≠ objKey i j → u.objNat idx sub = t.objNat idx sub)
    (past : 0x5002 ≤ i) (noPhase : j ≠ 2) (hj : j < 256) (gens : u.gens = t.gens) (now : u.now = t.now) (h : SameSync s d t) :
    SameSync s d u := by
  obtain ⟨gen, time, nat, phase⟩ := h
  have settings : ∀ sub < 256, objKey (0x5000 + d.val) sub ≠ objKey i j := fun sub hs => by
    have := d.isLt
    simp only [objKey]
    omega
  have phases : objKey (0x5020 + d.val) 2 ≠ objKey i j := by
    simp only [objKey]
    omega
  refine ⟨?_, now.trans time, fun sub hs => (others _ _ (settings sub hs)).trans (nat sub hs), (others _ _ phases).trans phase⟩
  rw [gens, gen]

theorem SameSync.putInt {t : State} {i j : Nat} {n : Int} (past : 0x5002 ≤ i) (noPhase : j ≠ 2) (hj : j < 256) (h : SameSync s d t) :
    SameSync s d (t.putInt i j n) :=
  h.of_object (fun _ _ other => t.objNat_put_other other _) past noPhase hj (t.putInt_gens ..) (t.putInt_now ..)

theorem SameSync.bump {t : State} {i j : Nat} (past : 0x5002 ≤ i) (noPhase : j ≠ 2) (hj : j < 256) (h : SameSync s d t) :
    SameSync s d (t.bump i j) :=
  h.of_object (fun _ _ other => t.objNat_bump_other other) past noPhase hj (t.bump_gens ..) (t.bump_now ..)

theorem SameSync.setEvBit {t : State} {r : EvReg} {i : Nat} (h : SameSync s d t) : SameSync s d (t.setEvBit r i) := by
  simpa [-Fin.getElem_fin, SameSync, State.genNat] using h

theorem SameSync.emit {t : State} {o : Out} (h : SameSync s d t) : SameSync s d (t.emit o) := h

theorem SameSync.withGen_other {t : State} {f : Gen → Gen} (other : d ≠ e) (h : SameSync s d t) : SameSync s d (t.withGen e f) := by
  unfold SameSync
  rw [State.withGen_other _ _ _ _ other]
  exact h

/-- A pulse leaves the start of the other generator alone: the deviation and the counter that it stores are those of its own (R259). -/
theorem SameSync.genSync_other (phase : Nat) (other : d ≠ e) : SameSync s d (s.genSync e phase) := by
  have scheduled := SameSync.withGen_other (f := fun g => { g with startAt := some (s.now + s.syncDelay e phase) }) other (.refl (s := s))
  have published := fun dev => scheduled.putInt (i := 0x5020 + e.val) (j := 6) (n := dev) (by omega) (by omega) (by omega)
  unfold State.genSync
  dsimp only
  split
  · split
    · split
      · exact .setEvBit (.bump (by omega) (by omega) (by omega) (published _))
      · exact published _
    · exact scheduled
  · exact .refl

theorem SameSync.syncDelay {t : State} {p : Nat} (h : SameSync s d t) : t.syncDelay d p = s.syncDelay d p := by
  obtain ⟨gen, -, nat, mean⟩ := h
  rw [State.syncDelay, gen, nat _ (by omega), nat _ (by omega), mean, State.syncDelay]

/-- A pulse schedules the start of a READY generator whose start source is SYNCIN (R257). -/
theorem State.genSync_gens (phase : Nat) (ready : s.gens[d].state = .ready) (source : s.genNat d 3 = 2)
    (free : s.gens[d].startAt = none) :
    (s.genSync d phase).gens = (s.withGen d (fun g => { g with startAt := some (s.now + s.syncDelay d phase) })).gens := by
  unfold State.genSync
  dsimp only
  rw [if_pos (by simp [-Fin.getElem_fin, ready, source, free])]
  split
  · split <;> simp only [State.setEvBit_gens, State.bump_gens, State.putInt_gens]
  · rfl

theorem die_cases : ∀ d : Die, d = 0 ∨ d = 1 := by decide

/-- A pulse that the ticks see serves each generator that waits for one, whichever comes first (R257). -/
theorem State.genSync_both (phase : Nat) (ready : s.gens[d].state = .ready) (source : s.genNat d 3 = 2)
    (free : s.gens[d].startAt = none) :
    ((s.genSync 0 phase).genSync 1 phase).gens[d] = { s.gens[d] with startAt := some (s.now + s.syncDelay d phase) } := by
  obtain rfl | rfl := die_cases d
  · obtain ⟨gen, -⟩ := SameSync.genSync_other (s := s.genSync 0 phase) (d := 0) (e := 1) phase (by decide)
    rw [gen, State.genSync_gens phase ready source free, State.withGen_same]
  · have first := SameSync.genSync_other (s := s) (d := 1) (e := 0) phase (by decide)
    have ⟨gen, now, nat, _⟩ := first
    rw [State.genSync_gens phase (by rw [gen, ready]) (by rw [nat _ (by omega), source]) (by rw [gen, free]), State.withGen_same, gen, now,
      first.syncDelay]

/-- A pulse that the ticks see is given to both generators once SYNCOUT has repeated it, where it does (R257, R258). -/
theorem exec_syncinPulse_seen {p : SyncinPulse} (thawed : s.frozen = false) (seen : s.syncSeen p = true) (d : Die) :
    ∃ t, SameSync s d t ∧ exec (.syncinPulse p) s = .next ((t.genSync 0 p.phase).genSync 1 p.phase) :=
  ⟨_, iteInduction (motive := SameSync s d) (fun _ => SameSync.refl.emit) (fun _ => .refl),
    congrArg Host.Outcome.next (if_neg (by simp [thawed, seen]))⟩

/-- While SYNCOUT is enabled it repeats a pulse, before anything that the pulse sets going is sent (R258). -/
theorem syncinPulse_repeats {p : SyncinPulse} (enabled : s.objBool 0x5030 1 = true) :
    Completes (.syncinPulse p) s (fun t => ∃ rest, t.out = s.out ++ .syncout (s.now + ns 6 - p.phase * 8 / 25)
      (s.now + ns 6 - p.phase * 8 / 25 + p.width * 8 / 25) :: rest) := by
  refine .next rfl ?_
  rw [if_pos enabled]
  generalize sent : s.emit _ = u
  have kept : Keeps u (if s.frozen || !s.syncSeen p then u else (u.genSync 0 p.phase).genSync 1 p.phase) :=
    .unless (.refl u) (fun h => .genSync (.genSync h))
  obtain ⟨-, -, -, rest, out⟩ := kept
  refine ⟨rest, ?_⟩
  rw [← out, ← sent, State.emit, List.append_assoc, List.singleton_append]

/-! ### Scheduled starts -/

/-- The instant that a sync pulse set has come: the run starts then (R257). -/
theorem exec_pgSyncStart_due {at_ : Nat} (thawed : s.frozen = false) (ready : s.gens[d].state = .ready) (source : s.genNat d 3 = 2)
    (start : s.gens[d].startAt = some at_) (due : at_ ≤ s.now) : exec (.pgSyncStart d) s = .next (s.genRun d at_) := by
  refine congrArg Host.Outcome.next ?_
  rw [start, dueAt_of_le due]
  exact (if_neg (by simp [thawed])).trans (if_pos ⟨ready, source⟩)

/-- The instant that a slot's target set has come: the run starts then (R251). -/
theorem exec_pgTimeStart_due {at_ : Nat} (thawed : s.frozen = false) (ready : s.gens[d].state = .ready)
    (target : s.gens[d].timeTarget.isSome = true) (start : s.gens[d].startAt = some at_) (due : at_ ≤ s.now) :
    exec (.pgTimeStart d) s = .next (s.genRun d at_) := by
  refine congrArg Host.Outcome.next ?_
  rw [start, dueAt_of_le due]
  exact if_pos ⟨by simp [thawed], ready, target⟩

/-! ### Sync calibration (R259) -/

/-- The status object of a sync calibration reads as it was set, to any status but the default. -/
theorem State.objNat_putNat_syncStatus {n : Nat} (h : n ≠ 0) (s : State) (d : Die) :
    (s.putNat (0x5020 + d.val) 5 n).objNat (0x5020 + d.val) 5 = n := by
  have zero : ∀ d : Die, objDefault (0x5020 + d.val) 5 = .num 0 := by decide
  have changed : Val.num n ≠ objDefault (0x5020 + d.val) 5 := by
    rw [zero]
    simpa using h
  rw [State.objNat, storeNat, storeInt, State.putNat, State.storeGet_put_same changed]
  rfl

@[simp] theorem State.objNat_needSpll (s : State) (d : Die) (idx sub : Nat) : (s.needSpll d).objNat idx sub = s.objNat idx sub := by
  simp only [State.objNat, State.needSpll_objs]

@[simp] theorem State.objNat_restSpll (s : State) (d : Die) (idx sub : Nat) : (s.restSpll d).objNat idx sub = s.objNat idx sub := by
  simp only [State.objNat, State.restSpll_objs]

/-- A calibration ends with its status, and keeps what it stored. -/
theorem State.endSyncCal_same (s : State) (d : Die) (status : Nat) :
    (s.endSyncCal d status).gens[d] = { s.gens[d] with calibrating := false } := by
  rw [State.endSyncCal, State.restSpll_gens, State.putNat_gens, State.withGen_same]

theorem State.endSyncCal_status {status : Nat} (h : status ≠ 0) (s : State) (d : Die) :
    (s.endSyncCal d status).objNat (0x5020 + d.val) 5 = status := by
  rw [State.endSyncCal, State.objNat_restSpll, State.objNat_putNat_syncStatus h]

theorem State.storeSyncCal_same (s : State) (d : Die) (mean : Nat) :
    (s.storeSyncCal d mean).gens[d] = { s.gens[d] with calibrating := false, calibrated := true } := by
  rw [State.storeSyncCal, State.endSyncCal_same, State.putNat_gens, State.putNat_gens, State.putNat_gens, State.withGen_same]
  rfl

/-! ### The loop cache (R254) -/

/-- A load of a range that lies in the deep store is begun, for as many bytes as the cache has behind its destination. -/
theorem State.loopCacheLoad_begins {via : Source} (serves : s.serves via = true) (die : s.hasDie d = true)
    (free : s.gens[d].loading = none) (stopped : s.genStopped d = true) (cached : s.cacheBytes d ≠ 0)
    (inRange : s.deep.rangeOk (s.objNat (0x5040 + d.val) 2) (s.objNat (0x5040 + d.val) 3) = true) :
    Completes (.loopCacheLoad d via) s (fun t => t.gens[d] = { s.gens[d] with loadStatus := 1, loading := some (s.objNat (0x5040 + d.val) 2,
      s.objNat (0x5040 + d.val) 4, min (s.objNat (0x5040 + d.val) 3) (s.cacheBytes d - s.objNat (0x5040 + d.val) 4)) }) := by
  refine .next (congrArg Host.Outcome.next ((if_pos serves).trans ((if_neg (by simp [die])).trans
    ((if_neg (by simp [-Fin.getElem_fin, free])).trans (if_neg (by simp [stopped, cached, inRange])))))) ?_
  dsimp only
  have clamped : ∀ (c : Prop) [Decidable c] (t : State), t.gens = s.gens → (if c then s else t).gens = s.gens :=
    fun c _ t h => iteInduction (motive := fun t : State => t.gens = s.gens) (fun _ => rfl) (fun _ => h)
  rw [(State.dsAsk_keeps ..).1, State.withGen_same, clamped _ _ (s.clampOp_gens ..)]

/-- A completed load stands in window 2 of the die's basin. -/
theorem exec_loopCacheLoadDone {src dst n : Nat} (thawed : s.frozen = false) (loads : s.gens[d].loading = some (src, dst, n)) :
    exec (.loopCacheLoadDone d) s = .next (((((
      { s with basin := s.basin.set d (memWriteBlock s.basin[d] ((s.cacheWindow d).1 + dst) (memReadBlock s.dsMem src n)) }.dsServed
        (genPort d)).dsGroups (genPort d) (n / 1024)).withGen d
          (fun g => { g with loading := none, loadStatus := 2, cacheValid := true })).genAsk d)) := by
  refine congrArg Host.Outcome.next ((if_neg (by simp [thawed])).trans ?_)
  rw [loads]

/-- Settles O14. Starts are read off `genRun`, the calibration off `endSyncCal` and `storeSyncCal`; a pulse reaches each generator past the
other, and what it sends stands behind SYNCOUT's pulse. -/
theorem generatorStartsAndLoadsComplete : Obligations.GeneratorStartsAndLoadsComplete := by
  refine ⟨fun d p s thawed ready source free seen => ?_, fun p s enabled => ?_, fun d at_ s thawed ready source start due => ?_,
    fun d at_ s thawed ready target start due => ?_, fun via s serves enabled => ?_, fun d via s serves die stopped rests => ?_,
    fun d r s thawed calibrates stamped => ?_, fun d s thawed calibrates asked ended => ?_,
    fun d via s serves die free stopped cached inRange => ?_, fun d src dst n s thawed loads => ?_⟩
  · obtain ⟨t, same, done⟩ := exec_syncinPulse_seen thawed seen d
    have ⟨gen, now, nat, _⟩ := same
    refine .next done ?_
    rw [State.genSync_both p.phase (by rw [gen, ready]) (by rw [nat _ (by decide), source]) (by rw [gen, free]), now,
      same.syncDelay, gen]
    exact ⟨rfl, ready⟩
  · exact syncinPulse_repeats enabled
  · refine .next (exec_pgSyncStart_due thawed ready source start due) ?_
    rw [State.genRun_same]
    exact ⟨rfl, rfl⟩
  · refine .next (exec_pgTimeStart_due thawed ready target start due) ?_
    rw [State.genRun_same]
    exact ⟨rfl, rfl, rfl⟩
  · exact .next (congrArg Host.Outcome.next ((if_pos serves).trans (if_pos enabled))) rfl
  · refine .next (congrArg Host.Outcome.next ((if_pos serves).trans ((if_neg (by simp [die])).trans
      (if_pos ⟨stopped, by simp [-Fin.getElem_fin, rests]⟩)))) ⟨?_, ?_⟩
    · rw [State.needSpll_gens, State.putNat_gens, State.withGen_same]
    · rw [State.objNat_needSpll, State.objNat_putNat_syncStatus Nat.one_ne_zero]
  · refine .next (congrArg Host.Outcome.next ((if_pos ⟨by simp [thawed], calibrates⟩).trans (if_pos stamped))) ?_
    rw [State.storeSyncCal_same]
    exact ⟨rfl, rfl⟩
  · refine .next (congrArg Host.Outcome.next ((if_pos ⟨by simp [thawed], calibrates⟩).trans
      ((if_neg (Nat.not_le.mpr asked)).trans (if_pos ⟨rfl, ended⟩)))) ?_
    rw [State.endSyncCal_same, State.endSyncCal_status (by decide)]
    exact ⟨rfl, rfl, rfl⟩
  · obtain ⟨t, done, loading⟩ := State.loopCacheLoad_begins serves die free stopped cached inRange
    refine .next done ?_
    rw [loading]
    exact ⟨rfl, rfl⟩
  · refine .next (exec_loopCacheLoadDone thawed loads) ?_
    rw [State.genAsk_same, State.withGen_same]
    simp only [State.genAsk_mem, State.withGen_dsMem, State.withGen_basin, State.dsGroups_keeps, State.dsServed_keeps,
      true_and]
    exact ⟨Vector.getElem_set_self d.isLt, Vector.getElem_set_ne d.isLt (otherDie d).isLt (Fin.val_ne_of_ne (otherDie_ne d))⟩

end Sys2Proof.Machine
end

section
/-! PROOFS. The plain registers, the guard, power and the pins change only under their commands (O56), every step keeps the memories in
canonical form (O52), and what else the frames of chapters 13 to 20 rest on: the time base, the dies and the four memories.

`Stays u a s` says that a state `s` has the part `u` of a state `a`; for `u = .canonical` it says that `s` has its memories in canonical
form where `a` has. Each operation of the model has one lemma, with the operation's name, from `Stays u a s` to `Stays u a` of what the
operation makes of `s`; its instances `Off u .guard`, `Off u .pins` and so on are the parts that the operation may change. `exec_stays`
says the same of each command. -/

namespace Sys2Proof.Machine

/-! ### The relation -/

/-- The parts of the state that the frames of this section speak of, and the canonical form of its memories. -/
inductive Holding where
  | host | guard | power | pins | tb | dies | dsMem | basin | ram | canonical

/-- The part `u` is another than `v`. -/
abbrev Off (u v : Holding) : Prop := Fact (u ≠ v)

/-- The part `u` is the same in two states. -/
def Stays (u : Holding) (a s : State) : Prop :=
  match u with
  | .host => s.host = a.host
  | .guard => s.guard = a.guard
  | .power => s.power = a.power
  | .pins => s.pins = a.pins
  | .tb => s.tb = a.tb
  | .dies => s.dies = a.dies
  | .dsMem => s.dsMem = a.dsMem
  | .basin => s.basin = a.basin
  | .ram => s.ram = a.ram
  | .canonical => MemInv a → MemInv s

/-- The next state of a result, where there is one, has the part `u` of `a`. -/
def StaysAfter (u : Holding) (a : State) : Result → Prop
  | .next s => Stays u a s
  | .fault _ => True
  | .refused _ => True

variable {u : Holding} {a s t : State}

theorem Stays.refl : Stays u s s := by
  cases u with
  | canonical => exact id
  | _ => rfl

/-- No part is another than itself. -/
theorem Off.elim (v : Holding) {P : Prop} [h : Off v v] : P := absurd rfl h.out

section
variable {n f pe o va ob ev gu ho pc di po he mr jt tb ne kn ga ge de ch cl pi ds dm ba ra}

/-- A change of none of the parts. -/
theorem Stays.update (h : Stays u a s) :
    Stays u a ⟨n, f, pe, o, va, ob, ev, s.guard, s.host, pc, di, s.power, he, mr, jt, s.tb, ne, kn, ga, ge, de, ch, cl, s.pins, s.dies,
      s.dsMem, s.basin, s.ram⟩ := by
  cases u <;> exact h

/-- Time passes. -/
theorem Stays.advance (h : Stays u a s) : Stays u a { s with now := n } := .update h

theorem Stays.updateHost [Off u .host] (h : Stays u a s) :
    Stays u a ⟨n, f, pe, o, va, ob, ev, s.guard, ho, pc, di, s.power, he, mr, jt, s.tb, ne, kn, ga, ge, de, ch, cl, s.pins, s.dies,
      s.dsMem, s.basin, s.ram⟩ := by
  cases u with
  | host => exact Off.elim .host
  | _ => exact h

theorem Stays.updateGuard [Off u .guard] (h : Stays u a s) :
    Stays u a ⟨n, f, pe, o, va, ob, ev, gu, s.host, pc, di, s.power, he, mr, jt, s.tb, ne, kn, ga, ge, de, ch, cl, s.pins, s.dies, s.dsMem,
      s.basin, s.ram⟩ := by
  cases u with
  | guard => exact Off.elim .guard
  | _ => exact h

theorem Stays.updatePower [Off u .power] (h : Stays u a s) :
    Stays u a ⟨n, f, pe, o, va, ob, ev, s.guard, s.host, pc, di, po, he, mr, jt, s.tb, ne, kn, ga, ge, de, ch, cl, s.pins, s.dies, s.dsMem,
      s.basin, s.ram⟩ := by
  cases u with
  | power => exact Off.elim .power
  | _ => exact h

theorem Stays.updatePins [Off u .pins] (h : Stays u a s) :
    Stays u a ⟨n, f, pe, o, va, ob, ev, s.guard, s.host, pc, di, s.power, he, mr, jt, s.tb, ne, kn, ga, ge, de, ch, cl, pi, s.dies,
      s.dsMem, s.basin, s.ram⟩ := by
  cases u with
  | pins => exact Off.elim .pins
  | _ => exact h

theorem Stays.updateTb [Off u .tb] (h : Stays u a s) :
    Stays u a ⟨n, f, pe, o, va, ob, ev, s.guard, s.host, pc, di, s.power, he, mr, jt, tb, ne, kn, ga, ge, de, ch, cl, s.pins, s.dies,
      s.dsMem, s.basin, s.ram⟩ := by
  cases u with
  | tb => exact Off.elim .tb
  | _ => exact h

theorem Stays.updateDies [Off u .dies] (h : Stays u a s) :
    Stays u a ⟨n, f, pe, o, va, ob, ev, s.guard, s.host, pc, di, s.power, he, mr, jt, s.tb, ne, kn, ga, ge, de, ch, cl, s.pins, ds,
      s.dsMem, s.basin, s.ram⟩ := by
  cases u with
  | dies => exact Off.elim .dies
  | _ => exact h

theorem Stays.updateDsMem [Off u .dsMem] (hm : s.dsMem.wf = true → Memory.wf dm = true) (h : Stays u a s) :
    Stays u a ⟨n, f, pe, o, va, ob, ev, s.guard, s.host, pc, di, s.power, he, mr, jt, s.tb, ne, kn, ga, ge, de, ch, cl, s.pins, s.dies, dm,
      s.basin, s.ram⟩ := by
  cases u with
  | dsMem => exact Off.elim .dsMem
  | canonical => exact fun i => ⟨hm (h i).1, (h i).2⟩
  | _ => exact h

theorem Stays.updateRam [Off u .ram] (hm : s.ram.wf = true → Memory.wf ra = true) (h : Stays u a s) :
    Stays u a ⟨n, f, pe, o, va, ob, ev, s.guard, s.host, pc, di, s.power, he, mr, jt, s.tb, ne, kn, ga, ge, de, ch, cl, s.pins, s.dies,
      s.dsMem, s.basin, ra⟩ := by
  cases u with
  | ram => exact Off.elim .ram
  | canonical => exact fun i => ⟨(h i).1, (h i).2.1, (h i).2.2.1, hm (h i).2.2.2⟩
  | _ => exact h

theorem Stays.updateBasins [Off u .basin] (hm : ∀ d : Die, s.basin[d].wf = true → Memory.wf (ba[d]) = true) (h : Stays u a s) :
    Stays u a ⟨n, f, pe, o, va, ob, ev, s.guard, s.host, pc, di, s.power, he, mr, jt, s.tb, ne, kn, ga, ge, de, ch, cl, s.pins, s.dies,
      s.dsMem, ba, s.ram⟩ := by
  cases u with
  | basin => exact Off.elim .basin
  | canonical => exact fun i => ⟨(h i).1, hm 0 (h i).2.1, hm 1 (h i).2.2.1, (h i).2.2.2⟩
  | _ => exact h

theorem Stays.updateBasin {d : Die} {m : Memory} [Off u .basin] (hm : u = .canonical → s.basin[d].wf = true → m.wf = true)
    (h : Stays u a s) : Stays u a { s with basin := s.basin.set d m } := by
  by_cases hu : u = .canonical
  · refine .updateBasins (fun e he => ?_) h
    by_cases hd : d = e
    · subst hd
      simpa using hm hu he
    · simpa [Vector.getElem_set, Fin.val_ne_of_ne hd] using he
  · cases u with
    | canonical => exact absurd rfl hu
    | basin => exact Off.elim .basin
    | _ => exact h

end
/-! ### Choices and repetitions -/

theorem Stays.ite {c : Prop} [Decidable c] (hs : Stays u a s) (ht : Stays u a t) : Stays u a (if c then s else t) := by
  split
  · exact hs
  · exact ht

/-- A further operation, on one side of a choice. -/
theorem Stays.when {c : Prop} [Decidable c] (hs : Stays u a s) (ht : Stays u a s → Stays u a t) : Stays u a (if c then t else s) :=
  .ite (ht hs) hs

/-- A further operation, on the other side of a choice. -/
theorem Stays.unless {c : Prop} [Decidable c] (hs : Stays u a s) (ht : Stays u a s → Stays u a t) : Stays u a (if c then s else t) :=
  .ite hs (ht hs)

theorem Stays.ite_fst {β} {c : Prop} [Decidable c] {p q : State × β} (hp : Stays u a p.1) (hq : Stays u a q.1) :
    Stays u a (if c then p else q).1 := by
  split
  · exact hp
  · exact hq

theorem Stays.foldl {α} {f : State → α → State} {l : List α} (hf : ∀ {t x}, Stays u a t → Stays u a (f t x)) (h : Stays u a s) :
    Stays u a (l.foldl f s) := by
  induction l generalizing s with
  | nil => exact h
  | cons x l ih => exact ih (hf h)

theorem Stays.foldl_fst {α β} {f : State × β → α → State × β} {l : List α} {p : State × β}
    (hf : ∀ {q x}, Stays u a q.1 → Stays u a (f q x).1) (h : Stays u a p.1) : Stays u a (l.foldl f p).1 := by
  induction l generalizing p with
  | nil => exact h
  | cons x l ih => exact ih (hf h)

theorem StaysAfter.next (h : Stays u a s) : StaysAfter u a (.next s) := h

theorem StaysAfter.fault {r} : StaysAfter u a (.fault r) := trivial

theorem StaysAfter.ite {c : Prop} [Decidable c] {p q : Result} (hp : StaysAfter u a p) (hq : StaysAfter u a q) :
    StaysAfter u a (if c then p else q) := by
  split
  · exact hp
  · exact hq

/-! ### A run's memory and effects

A die in the midst of a core word keeps its basin canonical, and of its effects only the mark of a late knot stores to the deep store. -/

/-- The effect stores to the deep store. -/
def Fx.stores : Fx → Bool
  | .lateDeep _ => true
  | _ => false

/-- What the part asks of a run: a canonical basin, and no effect that stores to the deep store. -/
def Orderly (u : Holding) (r : Run) : Prop :=
  match u with
  | .canonical => r.basin.wf = true
  | .dsMem => ∀ x ∈ r.fx, x.stores = false
  | _ => True

section
variable {r : Run}

theorem Orderly.update {d x no di inc st} (h : Orderly u r) : Orderly u ⟨d, x, r.basin, r.fx, no, di, inc, st⟩ := by cases u <;> exact h

theorem Orderly.updateBasin {x m} (hm : r.basin.wf = true → Memory.wf m = true) (h : Orderly u r) :
    Orderly u { r with die := x, basin := m } := by
  cases u with
  | canonical => exact hm h
  | _ => exact h

theorem Orderly.emit {x} (hx : u = .dsMem → x.stores = false) (h : Orderly u r) : Orderly u (r.emit x) := by
  cases u with
  | dsMem =>
    intro y hy
    rcases List.mem_append.mp hy with hy | hy
    · exact h y hy
    · exact List.mem_singleton.mp hy ▸ hx rfl
  | _ => exact h

/-- An effect that reaches no memory. -/
theorem Orderly.plain {x} (h : Orderly u r) (hx : x.stores = false := by rfl) : Orderly u (r.emit x) := .emit (fun _ => hx) h

theorem Orderly.ite {c : Prop} [Decidable c] {q : Run} (hq : Orderly u q) (hr : Orderly u r) : Orderly u (if c then q else r) := by
  split
  · exact hq
  · exact hr

theorem Orderly.when {c : Prop} [Decidable c] {q : Run} (h : Orderly u r) (hq : Orderly u r → Orderly u q) :
    Orderly u (if c then q else r) := .ite (hq h) h

theorem Orderly.unless {c : Prop} [Decidable c] {q : Run} (h : Orderly u r) (hq : Orderly u r → Orderly u q) :
    Orderly u (if c then r else q) := .ite h (hq h)

theorem Orderly.ite_fst {β} {c : Prop} [Decidable c] {p q : Run × β} (hp : Orderly u p.1) (hq : Orderly u q.1) :
    Orderly u (if c then p else q).1 := by
  split
  · exact hp
  · exact hq

theorem Orderly.foldl {α} {f : Run → α → Run} {l : List α} (hf : ∀ {q x}, Orderly u q → Orderly u (f q x)) (h : Orderly u r) :
    Orderly u (l.foldl f r) := by
  induction l generalizing r with
  | nil => exact h
  | cons x l ih => exact ih (hf h)

theorem Orderly.foldl_fst {α β} {f : Run × β → α → Run × β} {l : List α} {p : Run × β}
    (hf : ∀ {q x}, Orderly u q.1 → Orderly u (f q x).1) (h : Orderly u p.1) : Orderly u (l.foldl f p).1 := by
  induction l generalizing p with
  | nil => exact h
  | cons x l ih => exact ih (hf h)

theorem Orderly.withDie {f} (h : Orderly u r) : Orderly u (r.withDie f) := .update h
theorem Orderly.withStair {f} (h : Orderly u r) : Orderly u (r.withStair f) := .update h
theorem Orderly.withStore {f} (h : Orderly u r) : Orderly u (r.withStore f) := .update h
theorem Orderly.withStream {id f} (h : Orderly u r) : Orderly u (r.withStream id f) := .withStore h
theorem Orderly.count {k} (h : Orderly u r) : Orderly u (r.count k) := .plain h
theorem Orderly.putEvent {c i t n} (h : Orderly u r) : Orderly u (r.putEvent c i t n) := .withStore h
theorem Orderly.putSnap {c i l t n} (h : Orderly u r) : Orderly u (r.putSnap c i l t n) := .foldl .putEvent h

theorem Orderly.event {c n e} (h : Orderly u r) : Orderly u (r.event c n e) :=
  .ite (.plain (.withStore h)) (.withStair (.withStore (.putEvent h)))

theorem Orderly.eventSnap {c cs n e l} (h : Orderly u r) : Orderly u (r.eventSnap c cs n e l) :=
  .ite (.event h) (.withStair (.putSnap (.event h)))

theorem Orderly.saturate {n} (h : Orderly u r) : Orderly u (r.saturate n).1 := .withStair (.count h)

theorem Orderly.timerFull {x i} (h : Orderly u r) : Orderly u (r.timerFull x i) :=
  .ite (.ite (.event (.saturate (.withStair h))) (.saturate (.withStair h))) h

theorem Orderly.localActions {x c} (h : Orderly u r) : Orderly u (r.localActions x c).1 := .foldl_fst .saturate (.withStair h)

theorem Orderly.knotAction {x c} (h : Orderly u r) : Orderly u (r.knotAction x c).1 := by
  unfold Run.knotAction
  split
  · exact h
  · exact .ite_fst (.withStair h) (.plain (.count h))

theorem Orderly.towAction {x c} (h : Orderly u r) : Orderly u (r.towAction x c) := .unless h .plain
theorem Orderly.trigoutAction {x c} (h : Orderly u r) : Orderly u (r.trigoutAction x c) := .unless h .plain
theorem Orderly.noteBacklog (h : Orderly u r) : Orderly u r.noteBacklog := .when h .plain
theorem Orderly.setTrigger {t} (h : Orderly u r) : Orderly u (r.setTrigger t) := .plain (.noteBacklog (.withDie (.withStair h)))

theorem Orderly.prefillIgnored {x n b c} (h : Orderly u r) : Orderly u (r.prefillIgnored x n b c) :=
  .when (.withStair (.count h)) .event

theorem Orderly.entryRecord {x e} (h : Orderly u r) : Orderly u (r.entryRecord x e) := .ite (.withStair h) (.eventSnap h)

theorem Orderly.settleEntry {n p} (h : Orderly u r) : Orderly u (r.settleEntry n p) := by
  unfold Run.settleEntry
  split
  · exact .eventSnap (.withStair h)
  · exact h

theorem Orderly.win {x n b c} (h : Orderly u r) : Orderly u (r.win x n b c) := by
  unfold Run.win
  refine .ite (.prefillIgnored h) (.foldl .event ?_)
  exact have h1 := .withStair (.when (.when (.trigoutAction (.knotAction (.towAction (.localActions h)))) .setTrigger) (fun h2 =>
      .withStair (.count h2)))
    .ite (.when (.eventSnap h1) .entryRecord) (.ite (.entryRecord h1) (.when h1 .event))

theorem Orderly.executeDeferred {x df} (h : Orderly u r) : Orderly u (r.executeDeferred x df) := .eventSnap (.count (.withStair h))

theorem Orderly.forced {x} (h : Orderly u r) : Orderly u (r.forced x) :=
  .unless h (fun h => .ite (.when (.withStair (.count (.withStair h))) .event) (.ite (.eventSnap (.setTrigger (.withStair h)))
    (.when (.withStair (.count (.withStair h))) .event)))

theorem Orderly.placed {x n t no l} (h : Orderly u r) : Orderly u (r.placed x n t no l) := .eventSnap (.setTrigger (.withStair h))

theorem Orderly.pendingPlacement {x} (h : Orderly u r) : Orderly u (r.pendingPlacement x) := by
  unfold Run.pendingPlacement
  split
  · exact h
  · exact .ite (.count (.withStair h)) (.ite (.when (.placed h) .plain) h)

theorem Orderly.deferSample {x df} (h : Orderly u r) : Orderly u (r.deferSample x df) := .withStair h
theorem Orderly.rephaseAlone {x} (h : Orderly u r) : Orderly u (r.rephaseAlone x) := .when h .event

theorem Orderly.chamberSample {x} (h : Orderly u r) : Orderly u (r.chamberSample x) := by
  unfold Run.chamberSample
  dsimp only
  split
  · exact h
  · exact .win h

theorem Orderly.presentSample {x} (h : Orderly u r) : Orderly u (r.presentSample x) := .withStair (.foldl .timerFull h)

theorem Orderly.dueDeferral {x} (h : Orderly u r) : Orderly u (r.dueDeferral x) := by
  unfold Run.dueDeferral
  split
  · exact .when h .executeDeferred
  · exact h

theorem Orderly.stairSample {x} (h : Orderly u r) : Orderly u (r.stairSample x) := by
  refine .rephaseAlone (.pendingPlacement (.forced ?_))
  have h1 := Orderly.presentSample (x := x) (.dueDeferral (x := x) (.settleEntry (n := x.s) (p := x.pos) h))
  split
  · exact .deferSample h1
  · exact .chamberSample h1

theorem Orderly.storeBarge {b} (h : Orderly u r) : Orderly u (r.storeBarge b) :=
  .noteBacklog (.updateBasin (memWriteBlock_wf _ _ _) (.withStream h))

theorem Orderly.endSampling {c n} (h : Orderly u r) : Orderly u (r.endSampling c n) := .unless h (fun h => .plain (.withDie h))
theorem Orderly.acceptBarge {b} (h : Orderly u r) : Orderly u (r.acceptBarge b) := .storeBarge (.when (.withStream h) .plain)
theorem Orderly.dropBarge {b} (h : Orderly u r) : Orderly u (r.dropBarge b) := .withStream (.plain h)

theorem Orderly.closeBarge {b} (h : Orderly u r) : Orderly u (r.closeBarge b) :=
  .ite (.acceptBarge (.withStream h)) (.when (.dropBarge h) .endSampling)

theorem Orderly.closeOpen {id t} (h : Orderly u r) : Orderly u (r.closeOpen id t) := by
  unfold Run.closeOpen
  dsimp only
  split
  · exact h
  · exact .unless (.withStream h) .closeBarge

theorem Orderly.keepOpen {id t b} (h : Orderly u r) : Orderly u (r.keepOpen id t b) := .unless (.withStream h) .closeOpen
theorem Orderly.putSkip {x id b n} (h : Orderly u r) : Orderly u (r.putSkip x id b n) := .keepOpen (.withStream h)
theorem Orderly.flushSkip {x id} (h : Orderly u r) : Orderly u (r.flushSkip x id) := .unless h (fun h => .withStream (.foldl .putSkip h))
theorem Orderly.skipSample {x id} (h : Orderly u r) : Orderly u (r.skipSample x id) := .withStream (.when h .closeOpen)

theorem Orderly.fullSample {x n t q j} (h : Orderly u r) : Orderly u (r.fullSample x n t q j) :=
  .ite (.skipSample h) (.keepOpen (.withStream (.when (.flushSkip h) .closeOpen)))

theorem Orderly.encode {id x t w a q} (h : Orderly u r) : Orderly u (r.encode id x t w a q) :=
  .ite (.unless (.plain h) (fun h => .withStream (.plain h))) (.withStream h)

theorem Orderly.oweOverrun {id g} (h : Orderly u r) : Orderly u (r.oweOverrun id g) := .withStream (.closeOpen h)

theorem Orderly.drainOne {id} (h : Orderly u r) : Orderly u (r.drainOne id) := by
  unfold Run.drainOne
  split
  · exact h
  · refine .keepOpen ?_
    split
    · exact .oweOverrun (.withStream h)
    · exact .withStream h

theorem Orderly.drain {id n} (h : Orderly u r) : Orderly u (r.drain id n) := by
  induction n generalizing r with
  | zero => exact h
  | succ n ih => exact .unless h (fun h => ih (.drainOne h))

theorem Orderly.drainTo {id p} (h : Orderly u r) : Orderly u (r.drainTo id p) := .unless h (fun h => .withStream (.drain h))

theorem Orderly.encodeEdges {x j l b} (h : Orderly u r) : Orderly u (r.encodeEdges x j l b).1 :=
  .foldl_fst (fun hq => .foldl .encode (.drainTo hq)) h

theorem Orderly.transPeriod {x j} (h : Orderly u r) : Orderly u (r.transPeriod x j) := .withStream (.encodeEdges h)
theorem Orderly.flushHeld {x j} (h : Orderly u r) : Orderly u (r.flushHeld x j) := .unless h (fun h => .withStream (.encodeEdges h))
theorem Orderly.qgap {x j} (h : Orderly u r) : Orderly u (r.qgap x j) := .encode (.flushHeld h)
theorem Orderly.putEnv {g i a q p n x} (h : Orderly u r) : Orderly u (r.putEnv g i a q p n x) := .keepOpen h
theorem Orderly.flushEnv {x g} (h : Orderly u r) : Orderly u (r.flushEnv x g) := .withStream (.foldl .putEnv h)

theorem Orderly.endInterval {x n t g} (h : Orderly u r) : Orderly u (r.endInterval x n t g) :=
  .ite (.withStream (.putEnv (.flushEnv h))) (.withStream (.when h .closeOpen))

theorem Orderly.envSample {x n t q g} (h : Orderly u r) : Orderly u (r.envSample x n t q g) :=
  .when (.withStream (.when h .withStream)) .endInterval

theorem Orderly.drainEvent (h : Orderly u r) : Orderly u r.drainEvent := by
  unfold Run.drainEvent
  split
  · exact h
  · exact .when h .withStore

theorem Orderly.storeEventBarge {b} (h : Orderly u r) : Orderly u (r.storeEventBarge b) := .storeBarge (.withStream (.withStore h))

theorem Orderly.closeEventIfFull (h : Orderly u r) : Orderly u r.closeEventIfFull := by
  unfold Run.closeEventIfFull
  split
  · exact .when h .storeEventBarge
  · exact h

theorem Orderly.drainEvents {n} (h : Orderly u r) : Orderly u (r.drainEvents n) := by
  induction n generalizing r with
  | zero => exact h
  | succ n ih => exact .unless h (fun h => .ite (ih (.closeEventIfFull (.drainEvent h))) (.when h .endSampling))

theorem Orderly.fillEvents {n} (h : Orderly u r) : Orderly u (r.fillEvents n) := by
  induction n generalizing r with
  | zero => exact h
  | succ n ih => exact .unless h (fun h => ih (.closeEventIfFull (.drainEvent h)))

theorem Orderly.drainEventsTo {p} (h : Orderly u r) : Orderly u (r.drainEventsTo p) :=
  .unless h (fun h => .withStore (.closeEventIfFull (.drainEvents h)))

theorem Orderly.storeStrand {x q b j} (h : Orderly u r) : Orderly u (r.storeStrand x q b j) :=
  .when (.when (.when (.when h .transPeriod) .qgap) .drainTo) .fullSample

theorem Orderly.storeSample {x q b} (h : Orderly u r) : Orderly u (r.storeSample x q b) :=
  .unless h (fun h => .ite (.foldl .envSample h) (.foldl .storeStrand h))

theorem Orderly.checkDepth {x} (h : Orderly u r) : Orderly u (r.checkDepth x) := by
  unfold Run.checkDepth
  split
  · exact .when h .endSampling
  · exact h

theorem Orderly.prefillEnd {x} (h : Orderly u r) : Orderly u (r.prefillEnd x) := .when h .withDie
theorem Orderly.findStart (h : Orderly u r) : Orderly u r.findStart := .when h .withDie
theorem Orderly.latch {x} (h : Orderly u r) : Orderly u (r.latch x) := .withDie h
theorem Orderly.countSaturated (h : Orderly u r) : Orderly u r.countSaturated := .foldl (fun h => .plain h) h

theorem Orderly.trigEdges {x} (h : Orderly u r) : Orderly u (r.trigEdges x) := .unless h (.foldl (fun h => .unless h .plain))

theorem Orderly.sample {x} (h : Orderly u r) : Orderly u (r.sample x) := by
  unfold Run.sample
  extract_lets r1 qual before r2
  have h1 : Orderly u r1 := .prefillEnd (.countSaturated (.trigEdges (.latch h)))
  have h2 : Orderly u r2 := .storeSample (.stairSample h1)
  exact .checkDepth (.drainEventsTo (.withStore h2))

theorem Orderly.samples {n} (h : Orderly u r) : Orderly u (r.samples n) := by
  induction n generalizing r with
  | zero => exact h
  | succ n ih =>
    unfold Run.samples
    split
    · exact ih (.sample h)
    · exact h

theorem Orderly.coreWord {w} (h : Orderly u r) : Orderly u (r.coreWord w) := .samples (.findStart (.withDie h))

/-- Stores that keep the canonical form keep it one after the other. -/
theorem foldl_memory_wf {α} {f : Memory → α → Memory} (hf : ∀ {m x}, m.wf = true → (f m x).wf = true) {l : List α} {m : Memory}
    (h : m.wf = true) : Memory.wf (l.foldl f m) = true := by
  induction l generalizing m with
  | nil => exact h
  | cons x l ih => exact ih (hf h)

theorem Orderly.markLate {n} [Off u .dsMem] (h : Orderly u r) : Orderly u (r.markLate n) :=
  .unless (.updateBasin (foldl_memory_wf (patchFlag_wf _ _ _)) (.withStore h)) (.emit (fun e => absurd e Fact.out))

theorem Orderly.noteTrigger {n} (h : Orderly u r) : Orderly u (r.noteTrigger n) := .withStore h

theorem Orderly.placeNow {t no} [Off u .dsMem] (h : Orderly u r) : Orderly u (r.placeNow t no) :=
  .ite (.markLate (.plain (.placed h))) (.noteTrigger (.placed h))

theorem Orderly.place {t no} [Off u .dsMem] (h : Orderly u r) : Orderly u (r.place t no).1 := by
  unfold Run.place
  refine .ite_fst (.ite_fst (.placeNow h) ?_) (.count h)
  split
  · exact .ite_fst (.count h) (.count (.withStair h))
  · exact .withStair h

theorem Orderly.knotTerm {j t kn n} (h : Orderly u r) : Orderly u (r.knotTerm j t kn n).1 :=
  .ite_fst h (.ite_fst (.withDie h) (.ite_fst (.withDie (.plain h)) (.ite_fst (.withDie h) (.plain h))))

theorem Orderly.knotUses {kn n} [Off u .dsMem] (h : Orderly u r) : Orderly u (r.knotUses kn n).1 := by
  unfold Run.knotUses
  dsimp only
  refine have h1 := .foldl_fst (fun hq => ?_) h; .ite_fst (.place h1) h1
  split
  · exact .knotTerm hq
  · exact hq

theorem Orderly.closeStrand {e id} (h : Orderly u r) : Orderly u (Run.closeStrand e r id) :=
  .closeOpen (.closeOpen (.flushSkip (.drain (.flushHeld h))))

theorem Orderly.closeGroup {e g} (h : Orderly u r) : Orderly u (Run.closeGroup e r g) :=
  .closeOpen (.flushEnv (.unless h .endInterval))

theorem Orderly.closeStreams {e} (h : Orderly u r) : Orderly u (r.closeStreams e) := .ite (.foldl .closeGroup h) (.foldl .closeStrand h)
theorem Orderly.finalSnap (h : Orderly u r) : Orderly u r.finalSnap := .withStair (.putSnap (.rephaseAlone (.settleEntry h)))

theorem Orderly.sealEvents {n} (h : Orderly u r) : Orderly u (r.sealEvents n) := by
  induction n generalizing r with
  | zero => exact h
  | succ n ih =>
    unfold Run.sealEvents
    dsimp only
    split
    · exact .unless (.unless h .storeEventBarge) (fun h => ih (.drainEvent h))
    · exact .unless h (fun h => ih (.drainEvent h))

theorem Orderly.closeAll (h : Orderly u r) : Orderly u r.closeAll := by
  unfold Run.closeAll
  extract_lets r1 r2 r3
  have h1 : Orderly u r1 := .closeStreams h
  have h2 : Orderly u r2 := .finalSnap h1
  have h3 : Orderly u r3 := .sealEvents h2
  split
  · exact .storeEventBarge h3
  · exact h3

theorem Orderly.packStrand {j} (h : Orderly u r) : Orderly u (r.packStrand j) := .foldl .acceptBarge h

theorem Orderly.packLog (h : Orderly u r) : Orderly u r.packLog := by
  unfold Run.packLog
  extract_lets r1
  have h1 : Orderly u r1 := .foldl .packStrand h
  exact .withStore (.withDie h1)

theorem Orderly.adopt {t} (h : Orderly u r) : Orderly u (r.adopt t) := .noteTrigger (.noteBacklog (.withDie (.withStair h)))
theorem Orderly.giveWay {t} (h : Orderly u r) : Orderly u (r.giveWay t) := .when (.adopt (.withStair (.count h))) .event
theorem Orderly.dropPlacement (h : Orderly u r) : Orderly u r.dropPlacement := .when h (fun h => .count (.withStair h))
theorem Orderly.rephase {x} (h : Orderly u r) : Orderly u (r.rephase x) := .withStair h
theorem Orderly.oweFreeze {g} (h : Orderly u r) : Orderly u (r.oweFreeze g) := .withStore (.foldl .withStream h)
theorem Orderly.thaw {n} (h : Orderly u r) : Orderly u (Run.thaw n r) := .withDie (.when h (fun h => .oweFreeze (.closeStreams h)))

end
/-! ### Shared operations -/

theorem Stays.drawn (h : Stays u a s) : Stays u a s.drawn := .update h
theorem Stays.emit {o} (h : Stays u a s) : Stays u a (s.emit o) := .update h
theorem Stays.put {idx sub v} (h : Stays u a s) : Stays u a (s.put idx sub v) := .ite h (.update h)
theorem Stays.putNat {idx sub n} (h : Stays u a s) : Stays u a (s.putNat idx sub n) := .put h
theorem Stays.putInt {idx sub n} (h : Stays u a s) : Stays u a (s.putInt idx sub n) := .put h
theorem Stays.bumpBy {idx sub n} (h : Stays u a s) : Stays u a (s.bumpBy idx sub n) := .ite h (.update h)
theorem Stays.bump {idx sub} (h : Stays u a s) : Stays u a (s.bump idx sub) := .bumpBy h
theorem Stays.raiseTo {idx sub n} (h : Stays u a s) : Stays u a (s.raiseTo idx sub n) := .ite (.putNat h) h
theorem Stays.flushVector {v} (h : Stays u a s) : Stays u a (s.flushVector v) := .ite (.emit (.update h)) h
theorem Stays.flushAll (h : Stays u a s) : Stays u a s.flushAll := .foldl .flushVector h
theorem Stays.raise {v} (h : Stays u a s) : Stays u a (s.raise v) := .ite (.flushVector (.update h)) h

theorem Stays.setEv {r bits} (h : Stays u a s) : Stays u a (s.setEv r bits) := by
  unfold State.setEv
  refine .unless (.update h) (fun h1 => ?_)
  split
  · exact .raise h1
  · exact h1

theorem Stays.setEvBit {r i} (h : Stays u a s) : Stays u a (s.setEvBit r i) := .setEv h
theorem Stays.clearEv {r bits} (h : Stays u a s) : Stays u a (s.clearEv r bits) := .update h
theorem Stays.bbDrop (h : Stays u a s) : Stays u a s.bbDrop := .setEvBit (.bump (.update h))
theorem Stays.bbPush {e} (h : Stays u a s) : Stays u a (s.bbPush e) := .update h

theorem Stays.bb {code sev data} (h : Stays u a s) : Stays u a (s.bb code sev data) := by
  unfold State.bb
  refine .ite (.bbPush h) (.ite (.bbDrop h) ?_)
  split
  · exact .bbDrop (.bbPush (.update h))
  · exact .bbDrop h

theorem Stays.ignoreOp {loc via c} (h : Stays u a s) : Stays u a (s.ignoreOp loc via c) := .when (.setEvBit (.bump (.update h))) .bb

theorem Stays.clampOp {loc reason via requested applied} (h : Stays u a s) : Stays u a (s.clampOp loc reason via requested applied) :=
  .when (.setEvBit (.bump (.update h))) .bb

theorem Stays.withDie {d f} [Off u .dies] (h : Stays u a s) : Stays u a (s.withDie d f) := .updateDies h
theorem Stays.withGen {d f} (h : Stays u a s) : Stays u a (s.withGen d f) := .update h
theorem Stays.withGauge {g f} (h : Stays u a s) : Stays u a (s.withGauge g f) := .update h

/-! ### BAR0 writes and the guard -/

theorem Stays.guardFail {cause off value via} [Off u .guard] (h : Stays u a s) : Stays u a (s.guardFail cause off value via) :=
  .bb (.setEvBit (.setEvBit (.updateGuard h)))

theorem Stays.interrupt {off} [Off u .guard] (h : Stays u a s) : Stays u a (s.interrupt off) := by
  unfold State.interrupt
  split
  · exact .ite h (.guardFail (.updateGuard h))
  · exact h

theorem Stays.onBar0 {off f} [Off u .guard] (hf : ∀ {t}, Stays u a t → Stays u a (f t)) (h : Stays u a s) : Stays u a (s.onBar0 off f) :=
  .ite (hf (.interrupt h)) (.emit h)

theorem Stays.onPath {via f} (hf : ∀ {t}, Stays u a t → Stays u a (f t)) (h : Stays u a s) : Stays u a (s.onPath via f) := .ite (hf h) h

theorem Stays.byPath {via off f} [Off u .guard] (hf : ∀ {t}, Stays u a t → Stays u a (f t)) (h : Stays u a s) :
    Stays u a (s.byPath via off f) :=
  .ite (.onBar0 hf h) (.onPath hf h)

theorem Stays.closeLock [Off u .guard] (h : Stays u a s) : Stays u a s.closeLock := by
  unfold State.closeLock
  split
  · exact .ite (.setEvBit (.updateGuard h)) h
  · exact h

theorem Stays.guardedWrite {off v apply} [Off u .guard] (happly : ∀ {x t}, Stays u a t → Stays u a (apply x t)) (h : Stays u a s) :
    Stays u a (s.guardedWrite off v apply) := by
  unfold State.guardedWrite
  refine .onBar0 (fun h1 => .ite ?_ (.updateGuard (.closeLock h1))) h
  split
  · exact happly (.updateGuard (.closeLock h1))
  · exact .guardFail (.closeLock h1)

theorem Stays.complementWrite {off c apply} [Off u .guard] (happly : ∀ {x t}, Stays u a t → Stays u a (apply x t)) (h : Stays u a s) :
    Stays u a (s.complementWrite off c apply) := by
  unfold State.complementWrite
  refine .onBar0 (fun h1 => .ite h1 ?_) h
  split
  · exact .ite (happly (.updateGuard h1)) (.guardFail (.updateGuard h1))
  · exact .guardFail h1

theorem Stays.partialDword [Off u .host] (h : Stays u a s) : Stays u a s.partialDword := .setEvBit (.updateHost h)
theorem Stays.hkcAreaDword [Off u .host] (h : Stays u a s) : Stays u a s.hkcAreaDword := .setEvBit (.updateHost h)

theorem Stays.guardForm {off v g apply} [Off u .guard] (happly : ∀ {x t}, Stays u a t → Stays u a (apply x t)) (h : Stays u a s) :
    Stays u a (s.guardForm off v g apply) := by
  unfold State.guardForm
  split
  · exact .guardedWrite happly h
  · exact .complementWrite happly (.guardedWrite happly h)

/-! ### The time base: ticks, steps, slots, sources -/

theorem Stays.addTime {amt} [Off u .tb] (h : Stays u a s) : Stays u a (s.addTime amt) := .unless (.updateTb h) .setEvBit
theorem Stays.stepDies {amt} [Off u .dies] (h : Stays u a s) : Stays u a (s.stepDies amt) := .updateDies h
theorem Stays.bbStep {amt kind srv} (h : Stays u a s) : Stays u a (s.bbStep amt kind srv) := .ite (.bb h) h
theorem Stays.plainTick [Off u .tb] (h : Stays u a s) : Stays u a s.plainTick := .addTime (.advance h)

theorem Stays.applyStep [Off u .tb] [Off u .dies] (h : Stays u a s) : Stays u a s.applyStep := by
  unfold State.applyStep
  split
  · exact h
  · exact .bbStep (.putInt (.put (.bump (.stepDies (.addTime (.updateTb h))))))

theorem Stays.tick [Off u .tb] [Off u .dies] (h : Stays u a s) : Stays u a s.tick := .ite (.applyStep (.plainTick h)) h

theorem Stays.knowTime [Off u .dies] (h : Stays u a s) : Stays u a s.knowTime := by
  unfold State.knowTime
  split
  · exact h
  · exact .updateDies h

theorem Stays.setTimeset [Off u .tb] [Off u .dies] (h : Stays u a s) : Stays u a s.setTimeset := .ite h (.knowTime (.updateTb h))
theorem Stays.setDisciplined [Off u .tb] [Off u .dies] (h : Stays u a s) : Stays u a s.setDisciplined := .ite h (.setTimeset (.updateTb h))
theorem Stays.markGauges {bit} (h : Stays u a s) : Stays u a (s.markGauges bit) := .update h
theorem Stays.markDieGauges {d bit} (h : Stays u a s) : Stays u a (s.markDieGauges d bit) := .update h

theorem Stays.dropHold (h : Stays u a s) : Stays u a s.dropHold := by
  unfold State.dropHold
  split
  · exact .bb (.update h)
  · exact h

theorem Stays.enterHoldover {cause} [Off u .tb] (h : Stays u a s) :
    Stays u a (s.enterHoldover cause) := .ite (.bb (.markGauges (.updateTb (.dropHold h)))) h

theorem Stays.setInc {v} [Off u .tb] (h : Stays u a s) : Stays u a (s.setInc v) := .updateTb h

theorem Stays.commitInc {v via} [Off u .tb] (h : Stays u a s) : Stays u a (s.commitInc v via) := by
  unfold State.commitInc
  exact .unless (.setInc h) (fun h1 => .clampOp (.bump (.setEvBit h1)))

theorem Stays.loadInc [Off u .power] [Off u .tb] (h : Stays u a s) :
    Stays u a s.loadInc := .when (.updatePower h) (fun h1 => .updateTb (.setInc h1))

theorem Stays.feedWatchdog [Off u .tb] (h : Stays u a s) : Stays u a s.feedWatchdog := .updateTb h

theorem Stays.commitStep {amt via srv} [Off u .tb] (h : Stays u a s) : Stays u a (s.commitStep amt via srv) :=
  .ite (.ignoreOp (.setEvBit h)) (.ite (.bump (.setEvBit h)) (.updateTb h))

/-- The time of a tick, with or without its increment (R173). -/
theorem Stays.tickTime {c : Prop} [Off u .tb] [Decidable c] (h : Stays u a s) :
    Stays u a (if c then { s with now := s.plainTick.now } else s.plainTick) :=
  .ite (.advance h) (.plainTick h)

theorem Stays.forceStep {v abs srv} [Off u .tb] [Off u .dies] (h : Stays u a s) : Stays u a (s.forceStep v abs srv) := by
  unfold State.forceStep
  exact have h1 := .tickTime (.ite (.ignoreOp (.setEvBit (.updateTb h))) h)
    .when (.enterHoldover (.bbStep (.bb (.bump (.setTimeset (.ite (.updateTb h1) (.addTime h1))))))) .update

theorem Stays.fstepGo {v} [Off u .tb] [Off u .dies] (h : Stays u a s) :
    Stays u a (s.fstepGo v) := .ite (.ignoreOp (.bump (.setEvBit h))) (.when (.updateTb h) .forceStep)

theorem Stays.writeEpoch {v loc via} [Off u .tb] [Off u .dies] (h : Stays u a s) : Stays u a (s.writeEpoch v loc via) :=
  .ite (.ignoreOp h) (.bb (.setTimeset (.updateTb h)))

theorem Stays.withSlot {k f} [Off u .tb] (h : Stays u a s) : Stays u a (s.withSlot k f) := .updateTb h
theorem Stays.judgeSlot {k} [Off u .tb] (h : Stays u a s) : Stays u a (s.judgeSlot k) := .ite (.withSlot h) h
theorem Stays.commitTarget {k x} [Off u .tb] (h : Stays u a s) : Stays u a (s.commitTarget k x) := .judgeSlot (.withSlot h)
theorem Stays.enableSlot {k} [Off u .tb] (h : Stays u a s) : Stays u a (s.enableSlot k) := .ite h (.judgeSlot (.withSlot h))

theorem Stays.fireSlot {k} [Off u .tb] (h : Stays u a s) : Stays u a (s.fireSlot k) :=
  .when (.raise (.when (.when (.bump (.withSlot h)) .bump) .bumpBy)) .bb

theorem Stays.driveRefout [Off u .pins] (h : Stays u a s) : Stays u a s.driveRefout := .ite h (.emit (.updatePins h))

theorem Stays.swapSource {src interval fallback} [Off u .pins] [Off u .tb] [Off u .dies] (h : Stays u a s) :
    Stays u a (s.swapSource src interval fallback) :=
  .unless (.bb (.putInt (.driveRefout (.updateTb (.applyStep (.addTime (.advance h))))))) .setInc

/-! ### PLLs -/

theorem Stays.withPll {i f} (h : Stays u a s) : Stays u a (s.withPll i f) := .update h

theorem Stays.startPll {i n} (h : Stays u a s) : Stays u a (s.startPll i n) := by
  unfold State.startPll
  refine .ite (.withPll h) (.ite h ?_)
  split
  · exact .withPll (.update h)
  · exact .withPll h

theorem Stays.stopPll {i} (h : Stays u a s) : Stays u a (s.stopPll i) := .withPll h
theorem Stays.needSpll {d} (h : Stays u a s) : Stays u a (s.needSpll d) := .ite h (.startPll h)
theorem Stays.restSpll {d} (h : Stays u a s) : Stays u a (s.restSpll d) := .ite h (.stopPll h)

/-! ### The deep store -/

theorem Stays.withChan {c f} (h : Stays u a s) : Stays u a (s.withChan c f) := .update h

theorem Stays.dsGrant {c} (h : Stays u a s) : Stays u a (s.dsGrant c) := by
  unfold State.dsGrant
  split
  · exact .update h
  · exact h

theorem Stays.dsAsk {p addr write} (h : Stays u a s) : Stays u a (s.dsAsk p addr write) := .ite h (.ite (.bump h) (.dsGrant (.update h)))

theorem Stays.dsServed {p} (h : Stays u a s) : Stays u a (s.dsServed p) := by
  unfold State.dsServed
  split
  · exact h
  · exact .dsGrant (.raiseTo (.when (.bump (.update h)) .bump))

theorem Stays.dsGroups {p n} (h : Stays u a s) : Stays u a (s.dsGroups p n) := .bumpBy h

theorem Stays.dsAccess {p addr write n} (h : Stays u a s) :
    Stays u a (s.dsAccess p addr write n) := .ite (.dsGroups h) (.dsGroups (.dsAsk h))

theorem Stays.damage {barge cause} (h : Stays u a s) : Stays u a (s.damage barge cause) := .bump (.update (.put h))
theorem Stays.retireRank {c r} (h : Stays u a s) : Stays u a (s.retireRank c r) := .bb (.bump (.setEvBit (.update (.withChan (.update h)))))

theorem Stays.failChannel {c property} (h : Stays u a s) : Stays u a (s.failChannel c property) :=
  .bb (.bump (.setEvBit (.damage (.withChan h))))

/-! ### Pattern generators -/

theorem Stays.showIdle {d} (h : Stays u a s) : Stays u a (s.showIdle d) := .emit h
theorem Stays.genPlay {d} (h : Stays u a s) : Stays u a (s.genPlay d) := .ite h (.emit (.withGen h))

theorem Stays.genAsk {d} (h : Stays u a s) : Stays u a (s.genAsk d) := by
  unfold State.genAsk
  refine .ite ?_ h
  split
  · exact .dsAsk (.withGen h)
  · exact h

theorem Stays.genTake {d bad} (h : Stays u a s) : Stays u a (s.genTake d bad) := by
  unfold State.genTake
  split
  · exact h
  · exact .withGen h

theorem Stays.genLand {d i} (h : Stays u a s) : Stays u a (s.genLand d i) := .withGen h
theorem Stays.clampSync {d} (h : Stays u a s) : Stays u a (s.clampSync d) := .ite (.clampOp (.putNat h)) h

theorem Stays.genPrime {d startCmd target} (h : Stays u a s) : Stays u a (s.genPrime d startCmd target) :=
  .when (.startPll (.putNat (.withGen (.foldl .putNat (.clampSync h))))) .genAsk

theorem Stays.genRest {d} (h : Stays u a s) : Stays u a (s.genRest d) := .showIdle (.raise (.restSpll (.withGen h)))
theorem Stays.genRefuse {d e entry} (h : Stays u a s) : Stays u a (s.genRefuse d e entry) := .genRest (.withGen h)
theorem Stays.genRun {d x} (h : Stays u a s) : Stays u a (s.genRun d x) := .put (.withGen h)
theorem Stays.genEnd {d e from_} (h : Stays u a s) : Stays u a (s.genEnd d e from_) := .put (.withGen h)
theorem Stays.genStopIdle {d e} (h : Stays u a s) : Stays u a (s.genStopIdle d e) := .genRest (.withGen h)

theorem Stays.genFail {d e} (h : Stays u a s) :
    Stays u a (s.genFail d e) := .bb (.setEvBit (.bump (.putNat (.putNat (.putNat (.genEnd h))))))

theorem Stays.genSettle {d} (h : Stays u a s) : Stays u a (s.genSettle d) := .when (.genPlay h) .genFail
theorem Stays.genRefilled {d bad} (h : Stays u a s) : Stays u a (s.genRefilled d bad) := .genAsk (.genTake (.genSettle h))

theorem Stays.genHalt {d e} (h : Stays u a s) : Stays u a (s.genHalt d e) := by
  unfold State.genHalt
  dsimp only
  split
  · exact .genStopIdle (.genSettle h)
  · exact .genStopIdle (.genSettle h)
  · exact .genEnd (.genSettle h)
  · exact .ite (.withGen (.genSettle h)) (.genEnd (.genSettle h))
  · exact .genSettle h
  · exact .genSettle h

theorem Stays.genEnter {d i x} (h : Stays u a s) : Stays u a (s.genEnter d i x) := .withGen h

theorem Stays.genExit {d e x} (h : Stays u a s) : Stays u a (s.genExit d e x) := by
  unfold State.genExit
  split
  · exact .ite (.genEnd h) (.genEnter h)
  · exact .genEnter h
  · exact .withGen h
  · exact .withGen h
  · exact .genEnd h

theorem Stays.genPass {d x} (h : Stays u a s) : Stays u a (s.genPass d x) :=
  .ite (.genEnd h) (.ite (.genEnter (.genLand (.bump (.withGen h)))) (.ite (.withGen (.withGen h)) (.genExit (.withGen h))))

theorem Stays.genJump {d src ref} (h : Stays u a s) : Stays u a (s.genJump d src ref) := by
  unfold State.genJump
  refine .ite ?_ ?_
  · split
    · exact .ignoreOp h
    · exact h
    · exact h
  · split
    · exact .ite (.bump h) (.ite (.withGen h) (.setEvBit (.bump (.withGen h))))
    · exact .ite (.bump h) (.setEvBit (.bump (.withGen h)))
    · exact .bump h
    · exact .bump h
    · exact .bump h
    · exact .bump h

theorem Stays.genTrigin {d pin rising ref} (h : Stays u a s) : Stays u a (s.genTrigin d pin rising ref) := .ite (.genJump h) h

theorem Stays.genTimeStart {d target} (h : Stays u a s) : Stays u a (s.genTimeStart d target) := by
  unfold State.genTimeStart
  refine .ite (.ignoreOp h) ?_
  split
  · exact .ite (.genPrime h) (.ignoreOp h)
  · exact .withGen h
  · exact .ignoreOp h
  · exact .ignoreOp h
  · exact .ignoreOp h
  · exact .ignoreOp h

theorem Stays.genSync {d phase} (h : Stays u a s) : Stays u a (s.genSync d phase) :=
  .ite (.when (.withGen h) (fun h1 => .when (.putInt h1) (fun h2 => .setEvBit (.bump h2)))) h

theorem Stays.genKnot {d cls k} (h : Stays u a s) : Stays u a (s.genKnot d cls k).1 :=
  .ite_fst (.ite_fst (.setEvBit (.bump (.withGen h))) (.withGen h)) h

theorem Stays.genCoast {d} (h : Stays u a s) : Stays u a (s.genCoast d) := .genHalt h
theorem Stays.genAbort {d} (h : Stays u a s) : Stays u a (s.genAbort d) := .withGen (.unless (.genPlay h) .emit)

/-! ### Running a die -/

theorem Stays.pulseOver {p at_} [Off u .pins] (h : Stays u a s) : Stays u a (s.pulseOver p at_) := by
  unfold State.pulseOver
  split
  · exact .ite (.emit (.updatePins h)) h
  · exact h

theorem Stays.startPulse {p x} [Off u .pins] (h : Stays u a s) : Stays u a (s.startPulse p x) := .unless (.updatePins (.pulseOver h)) .emit
theorem Stays.settlePin {p} [Off u .pins] (h : Stays u a s) : Stays u a (s.settlePin p) := .foldl .startPulse (.updatePins h)
theorem Stays.settlePins [Off u .pins] (h : Stays u a s) : Stays u a s.settlePins := .settlePin (.settlePin h)
theorem Stays.pulse {p d at_} [Off u .pins] (h : Stays u a s) : Stays u a (s.pulse p d at_) := .ite (.updatePins h) h
theorem Stays.loadTrigRam {d} [Off u .dies] (h : Stays u a s) : Stays u a (s.loadTrigRam d) := .withDie h

theorem Stays.towFlags {d flags latch} [Off u .dies] (h : Stays u a s) :
    Stays u a (s.towFlags d flags latch) := .when (.ite (.withDie h) h) .genJump

theorem Stays.endPartner {d cause} [Off u .dies] (h : Stays u a s) : Stays u a (s.endPartner d cause) := .ite (.withDie h) h

theorem Stays.applyFx {d} {x : Fx} [Off u .pins] [Off u .dies] (hx : u = .dsMem → x.stores = false) (h : Stays u a s) :
    Stays u a (s.applyFx d x) := by
  unfold State.applyFx
  split
  · exact .bumpBy h
  · exact .raiseTo h
  · exact .towFlags h
  · exact .when (.ite (.pulse h) h) .pulse
  · exact .genTrigin h
  next l =>
    have : Off u .dsMem := ⟨fun e => Bool.noConfusion (hx e)⟩
    exact .updateDsMem (foldl_memory_wf (patchFlag_wf _ _ _)) h
  · exact .raise h
  · exact .endPartner h
  · exact .bb h

theorem Stays.applyAll {d} {l : List Fx} [Off u .pins] [Off u .dies] (hl : u = .dsMem → ∀ x ∈ l, x.stores = false) (h : Stays u a s) :
    Stays u a (l.foldl (State.applyFx d) s) := by
  induction l generalizing s with
  | nil => exact h
  | cons x l ih =>
    exact ih (fun e y hy => hl e y (List.mem_cons_of_mem x hy)) (.applyFx (fun e => hl e x List.mem_cons_self) h)

theorem Stays.noteTrigTime {d was now_} (h : Stays u a s) : Stays u a (s.noteTrigTime d was now_) := by
  unfold State.noteTrigTime
  split
  · exact .ite h (.put h)
  · exact h

theorem Stays.runDie {d f} [Off u .pins] [Off u .dies] [Off u .basin] (hf : ∀ {r}, Orderly u r → Orderly u (f r)) (h : Stays u a s) :
    Stays u a (s.runDie d f) := by
  unfold State.runDie
  refine .noteTrigTime (.settlePins (.applyAll (fun e => ?_) (.updateDies (.updateBasin (fun e => ?_) h))))
  · subst e
    exact hf (r := s.toRun d) (fun _ hx => nomatch hx)
  · subst e
    exact hf (r := s.toRun d)

theorem Stays.endDie {d cause} [Off u .pins] [Off u .dies] [Off u .basin] (h : Stays u a s) :
    Stays u a (s.endDie d cause) := .ite (.runDie .endSampling h) h

/-! ### Written values -/

theorem Stays.clampField {r idx sub v via} (h : Stays u a s) : Stays u a (s.clampField r idx sub v via).1 := by
  unfold State.clampField
  dsimp only
  split
  · exact .clampOp h
  · exact h

theorem Stays.writeField {idx sub v via} (h : Stays u a s) : Stays u a (s.writeField idx sub v via) := by
  unfold State.writeField
  split
  · exact .put (.clampField h)
  · exact h

/-! ### Commands of the time base -/

theorem Stays.ownHost {off f} (hf : ∀ {t}, Stays u a t → Stays u a (f t)) (h : Stays u a s) : Stays u a (s.ownHost off f) :=
  .ite (hf h) (.ignoreOp (.setEvBit h))

theorem Stays.writeIncHi {hi} [Off u .tb] (h : Stays u a s) :
    Stays u a (s.writeIncHi hi) := .ownHost (fun h1 => .feedWatchdog (.commitInc (.updateTb h1))) h

theorem StaysAfter.incrementCommit {hi} [Off u .guard] [Off u .tb] (h : Stays u a s) :
    StaysAfter u a (execIncrementCommit hi s) := .next (.onBar0 .writeIncHi h)

theorem Stays.writeIncLo {lo} [Off u .tb] (h : Stays u a s) : Stays u a (s.writeIncLo lo) := .ownHost .updateTb h
theorem Stays.writeStepLo {lo} [Off u .tb] (h : Stays u a s) : Stays u a (s.writeStepLo lo) := .ownHost .updateTb h
theorem Stays.writeStepHi {hi} [Off u .tb] (h : Stays u a s) : Stays u a (s.writeStepHi hi) := .ownHost .commitStep h

theorem StaysAfter.stepCommit {hi} [Off u .guard] [Off u .tb] (h : Stays u a s) :
    StaysAfter u a (execStepCommit hi s) := .next (.onBar0 .writeStepHi h)

theorem StaysAfter.stepApply [Off u .tb] [Off u .dies] (h : Stays u a s) : StaysAfter u a (execStepApply s) := .next (.ite (.tick h) h)

theorem StaysAfter.forceStepAmount {g} [Off u .guard] [Off u .tb] [Off u .dies] (h : Stays u a s) :
    StaysAfter u a (execForceStepAmount g s) := .next (.guardForm .fstepGo h)

theorem StaysAfter.forceStepAbsolute {g} [Off u .guard] [Off u .tb] [Off u .dies] (h : Stays u a s) :
    StaysAfter u a (execForceStepAbsolute g s) := .next (.guardForm .fstepGo h)

theorem StaysAfter.epochWrite {v via} [Off u .guard] [Off u .tb] [Off u .dies] (h : Stays u a s) :
    StaysAfter u a (execEpochWrite v via s) := .next (.byPath .writeEpoch h)

theorem StaysAfter.timewordWrap [Off u .tb] [Off u .dies] (h : Stays u a s) :
    StaysAfter u a (execTimewordWrap s) := .next (.ite (.tick h) h)

theorem Stays.discSet [Off u .tb] [Off u .dies] (h : Stays u a s) :
    Stays u a s.discSet := .ownHost (fun h1 => .feedWatchdog (.setDisciplined (.updateTb h1))) h

theorem Stays.discClear [Off u .tb] (h : Stays u a s) :
    Stays u a s.discClear := .ownHost (fun h1 => .feedWatchdog (.when (.updateTb h1) .enterHoldover)) h

theorem StaysAfter.discSet [Off u .guard] [Off u .tb] [Off u .dies] (h : Stays u a s) :
    StaysAfter u a (execDiscSet s) := .next (.onBar0 .discSet h)

theorem StaysAfter.discClear [Off u .guard] [Off u .tb] (h : Stays u a s) : StaysAfter u a (execDiscClear s) := .next (.onBar0 .discClear h)

theorem StaysAfter.hostWatchdogExpiry [Off u .tb] (h : Stays u a s) : StaysAfter u a (execHostWatchdogExpiry s) :=
  .next (.ite (.bb (.bump (.enterHoldover (.updateTb h)))) h)

theorem Stays.freeRun [Off u .tb] (h : Stays u a s) : Stays u a s.freeRun := .put (.updateTb (.setInc h))

theorem Stays.writeOwner {o} [Off u .tb] (h : Stays u a s) :
    Stays u a (s.writeOwner o) := .ite h (.when (.updateTb (.enterHoldover h)) .freeRun)

theorem StaysAfter.servoOwnerWrite {v via} [Off u .tb] (h : Stays u a s) : StaysAfter u a (execServoOwnerWrite v via s) :=
  .next (.onPath (fun h1 => .writeOwner (.ite h1 (.clampOp h1))) h)

theorem StaysAfter.compareTargetCommit {k x via} [Off u .guard] [Off u .tb] (h : Stays u a s) :
    StaysAfter u a (execCompareTargetCommit k x via s) :=
  .next (.byPath (.byPath .commitTarget) h)

theorem StaysAfter.compareSlotEnable {k via} [Off u .guard] [Off u .tb] (h : Stays u a s) :
    StaysAfter u a (execCompareSlotEnable k via s) := .next (.byPath .enableSlot h)

theorem Stays.selectSource {v via} [Off u .tb] (h : Stays u a s) :
    Stays u a (s.selectSource v via) := .ite (.updateTb (.ite h (.clampOp h))) (.ignoreOp h)

theorem StaysAfter.sourceSelect {v via} [Off u .tb] (h : Stays u a s) :
    StaysAfter u a (execSourceSelect v via s) := .next (.onPath .selectSource h)

theorem StaysAfter.sourceSwap {interval} [Off u .pins] [Off u .tb] [Off u .dies] (h : Stays u a s) :
    StaysAfter u a (execSourceSwap interval s) := by
  unfold execSourceSwap
  refine .next ?_
  split
  · exact .ite h (.swapSource h)
  · exact h

theorem StaysAfter.refinFallback {interval} [Off u .pins] [Off u .tb] [Off u .dies] (h : Stays u a s) :
    StaysAfter u a (execRefinFallback interval s) :=
  .next (.ite h (.enterHoldover (.bump (.setEvBit (.swapSource h)))))

theorem StaysAfter.refinAutoReturn {interval} [Off u .pins] [Off u .tb] [Off u .dies] (h : Stays u a s) :
    StaysAfter u a (execRefinAutoReturn interval s) := .next (.ite (.swapSource h) h)

theorem StaysAfter.freeRunUpdate [Off u .tb] (h : Stays u a s) : StaysAfter u a (execFreeRunUpdate s) := .next (.ite (.freeRun h) h)

theorem StaysAfter.ageingLearned {pick} (h : Stays u a s) : StaysAfter u a (execAgeingLearned pick s) := by
  unfold execAgeingLearned
  refine .next ?_
  split
  · exact .ite (.update h) h
  · exact h

theorem Stays.latchPair {p} [Off u .host] [Off u .tb] (h : Stays u a s) : Stays u a (s.latchPair p).1 := by
  unfold State.latchPair
  split
  · exact .updateTb h
  · exact .ite_fst (.updateHost h) h
  · exact .withGen h
  · exact .update h
  · exact .update h

theorem StaysAfter.latchingPairRead {p} [Off u .host] [Off u .tb] (h : Stays u a s) :
    StaysAfter u a (execLatchingPairRead p s) := .next (.ite (.emit (.latchPair h)) (.emit h))

/-! ### The PTP engine -/

theorem Stays.withPort {p f} (h : Stays u a s) : Stays u a (s.withPort p f) := .update h
theorem Stays.countFrame {p} (h : Stays u a s) : Stays u a (s.countFrame p) := .bump h
theorem Stays.dropFrame {p} (h : Stays u a s) : Stays u a (s.dropFrame p) := .bump h

theorem Stays.ptpFrame {p f} (hf : ∀ {t}, Stays u a t → Stays u a (f t)) (h : Stays u a s) : Stays u a (s.ptpFrame p f) :=
  .ite (.ite (hf (.countFrame h)) (.dropFrame (.countFrame h))) h

theorem Stays.sendPtp {p m} (h : Stays u a s) : Stays u a (s.sendPtp p m) := .emit h

theorem Stays.dropWaiting (h : Stays u a s) : Stays u a s.dropWaiting := by
  unfold State.dropWaiting
  split
  · exact .bump (.update h)
  · exact h

theorem Stays.newParent {parent} (h : Stays u a s) : Stays u a (s.newParent parent) := .update (.unless (.dropWaiting h) .dropHold)
theorem Stays.elect (h : Stays u a s) : Stays u a s.elect := .update (.ite (.update h) (.newParent h))

theorem Stays.ptpSettle [Off u .tb] (h : Stays u a s) :
    Stays u a s.ptpSettle := .elect (.update (.unless (.ite (.enterHoldover h) h) .dropHold))

theorem Stays.takeStamp {p e} (h : Stays u a s) : Stays u a (s.takeStamp p e) := by
  unfold State.takeStamp
  dsimp only
  split
  · exact .withPort h
  · split
    · exact .sendPtp (.withPort h)
    · exact .sendPtp (.withPort h)
    · exact .withPort h
    · exact .withPort h

theorem Stays.takeStamps {p} (h : Stays u a s) : Stays u a (s.takeStamps p) := .ite (.foldl .takeStamp (.withPort h)) h

theorem Stays.queueStamp {p typ seq mii} (h : Stays u a s) : Stays u a (s.queueStamp p typ seq mii) :=
  .ite (.withPort (.bump (.bump (.setEvBit h)))) (.takeStamps (.withPort h))

theorem Stays.steerRate {wide} [Off u .tb] (h : Stays u a s) : Stays u a (s.steerRate wide) := by
  unfold State.steerRate
  exact .commitInc (.drawn (.drawn (.update h)))

theorem Stays.publishSync {m} (h : Stays u a s) : Stays u a (s.publishSync m) :=
  .putNat (.put (.putInt (.putInt (.put (.putNat (.putNat (.update h)))))))

theorem Stays.countLock {offset} [Off u .tb] [Off u .dies] (h : Stays u a s) : Stays u a (s.countLock offset) :=
  .when (.update h) (fun h1 => .setDisciplined (.update h1))

theorem Stays.acquire {offset} [Off u .tb] [Off u .dies] (h : Stays u a s) : Stays u a (s.acquire offset) :=
  .ite (.countLock (.steerRate h)) (.ite (.countLock (.commitStep h)) (.ite (.forceStep (.writeEpoch h)) (.countLock (.steerRate
    (.setEvBit h)))))

theorem Stays.servoOffset {offset} [Off u .tb] [Off u .dies] (h : Stays u a s) : Stays u a (s.servoOffset offset) := by
  unfold State.servoOffset
  split
  · exact .acquire (.update h)
  · exact .acquire (.update h)
  · exact .acquire h
  · exact .ite (.steerRate h) (.commitStep h)
  · exact h
  · exact h
  · exact h

theorem Stays.takeSync {p seq t1 t2 coasted} [Off u .tb] [Off u .dies] (h : Stays u a s) : Stays u a (s.takeSync p seq t1 t2 coasted) := by
  unfold State.takeSync
  dsimp only
  split
  · exact .ite (.when (.publishSync (.update (.bump (.withPort h)))) .servoOffset) (.bump (.withPort h))
  · exact .bump (.withPort h)

theorem Stays.bbPath {port phase step} (h : Stays u a s) : Stays u a (s.bbPath port phase step) := .bb h
theorem Stays.raiseHold {port old v} (h : Stays u a s) : Stays u a (s.raiseHold port old v) := .bbPath (.setEvBit (.update h))
theorem Stays.endHold (h : Stays u a s) : Stays u a s.endHold := .update h

theorem Stays.judgeDelay {mine port old v adopt forget} [Off u .tb] (hadopt : ∀ {t}, Stays u a t → Stays u a (adopt t))
    (hforget : ∀ {t}, Stays u a t → Stays u a (forget t)) (h : Stays u a s) :
    Stays u a (s.judgeDelay mine port old v adopt forget) := by
  unfold State.judgeDelay
  dsimp only
  split
  · exact .ite (.when (.raiseHold h) .bump) (hadopt h)
  · refine .ite (hadopt h) ?_
    split
    · exact .bbPath (.when (.endHold h) .bump)
    · exact .bbPath (.when (hadopt (.endHold h)) .putInt)
    · exact .enterHoldover (hforget h)
    · exact .update h
  · exact hadopt h

theorem Stays.takeDelay {p v} [Off u .tb] (h : Stays u a s) : Stays u a (s.takeDelay p v) :=
  .judgeDelay (fun h1 => .putInt (.withPort h1)) .withPort (.withPort h)

theorem Stays.missDelay {p} (h : Stays u a s) :
    Stays u a (s.missDelay p) := .ite h (.when (.withPort h) (fun h1 => .bb (.bump (.setEvBit h1))))

/-! ### Knots on their way -/

theorem Stays.withAlp {k f} (h : Stays u a s) : Stays u a (s.withAlp k f) := .update h
theorem Stays.sendFrame {k typ data} (h : Stays u a s) : Stays u a (s.sendFrame k typ data) := .emit h
theorem Stays.discardFrame {k} (h : Stays u a s) : Stays u a (s.discardFrame k) := .bump h

theorem Stays.sendAlp {k kn} (h : Stays u a s) : Stays u a (s.sendAlp k kn) :=
  .ite (.bb (.bump (.setEvBit h))) (.sendFrame (.raiseTo (.withAlp h)))

theorem Stays.remember {kn} (h : Stays u a s) : Stays u a (s.remember kn) := .update h
theorem Stays.reportGroup {p v6} (h : Stays u a s) : Stays u a (s.reportGroup p v6) := .ite (.emit h) h
theorem Stays.reportGroups {p} (h : Stays u a s) : Stays u a (s.reportGroups p) := .reportGroup (.reportGroup h)
theorem Stays.sendKnotOver {p kn v6} (h : Stays u a s) : Stays u a (s.sendKnotOver p kn v6) := .ite (.emit h) h
theorem Stays.sendEth {p kn} (h : Stays u a s) : Stays u a (s.sendEth p kn) := .sendKnotOver (.sendKnotOver h)
theorem Stays.cacheKnot {kn} (h : Stays u a s) : Stays u a (s.cacheKnot kn) := .when (.update h) .bump
theorem Stays.forwardAlp {ports kn} (h : Stays u a s) : Stays u a (s.forwardAlp ports kn) := .foldl (fun h1 => .bump (.sendAlp h1)) h
theorem Stays.relayEth {kn} (h : Stays u a s) : Stays u a (s.relayEth kn) := .foldl .sendEth h

theorem Stays.forward {route kn} (h : Stays u a s) : Stays u a (s.forward route kn) := by
  unfold State.forward
  split
  · exact h
  · exact .ite (.bump h) (.when (.remember (.forwardAlp h)) .relayEth)
  · exact .ite h (.ite (.bump h) (.remember (.forwardAlp h)))

theorem Stays.refuseKnot {bs} (h : Stays u a s) : Stays u a (s.refuseKnot bs) := .unless (.setEvBit (.bump h)) (fun h1 => .bb (.update h1))

theorem Stays.judgeKnot {route kn bs} (h : Stays u a s) : Stays u a (s.judgeKnot route kn bs) :=
  .ite (.bump h) (.ite (.refuseKnot h) (.ite (.put (.refuseKnot h)) (.update (.when (.put (.bump h)) .bump))))

theorem Stays.takeKnot {route bs} (h : Stays u a s) : Stays u a (s.takeKnot route bs) := by
  unfold State.takeKnot
  split
  · exact .bump (.bump h)
  · exact .ite (.bump (.bump h)) (.judgeKnot (.forward (.cacheKnot (.bump h))))

theorem Stays.sendKnot {kn} (h : Stays u a s) : Stays u a (s.sendKnot kn) := by
  unfold State.sendKnot
  exact .takeKnot (.ite (.bump (.putNat h)) (.remember (.relayEth (.foldl .sendAlp (.putNat h)))))

/-! ### The dictionary service -/

theorem Stays.touchRam {off len} (h : Stays u a s) : Stays u a (s.touchRam off len) := .ite (.bump (.update h)) h
theorem Stays.ramError {e} (h : Stays u a s) : Stays u a (s.ramError e) := .ite (.bb (.bump h)) (.bump h)
theorem Stays.meetFlaws {off len} (h : Stays u a s) : Stays u a (s.meetFlaws off len) := .foldl .ramError (.update h)
theorem Stays.ramStore {off bs} [Off u .ram] (h : Stays u a s) : Stays u a (s.ramStore off bs) := .updateRam (memWriteBlock_wf _ _ _) h
theorem Stays.hkcReads {off len} (h : Stays u a s) : Stays u a (s.hkcReads off len) := .meetFlaws (.touchRam h)
theorem Stays.hkcRam {off bs} [Off u .ram] (h : Stays u a s) : Stays u a (s.hkcRam off bs) := .ramStore (.update (.touchRam h))
theorem Stays.setMbRsp {seq serving} [Off u .ram] (h : Stays u a s) : Stays u a (s.setMbRsp seq serving) := .hkcRam h
theorem Stays.mbServing [Off u .ram] (h : Stays u a s) : Stays u a s.mbServing := .setMbRsp h
theorem Stays.mbAnswer {f} [Off u .ram] (h : Stays u a s) : Stays u a (s.mbAnswer f) := .raise (.setMbRsp (.hkcRam (.ite (.bumpBy h) h)))

theorem Stays.mbNotify {idx sub typ merged x value} [Off u .ram] (h : Stays u a s) : Stays u a (s.mbNotify idx sub typ merged x value) := by
  unfold State.mbNotify
  exact .ite (.bump (.update h)) (.raise (.bump (.hkcRam (.hkcRam (.update h)))))

theorem Stays.mbReset [Off u .ram] (h : Stays u a s) : Stays u a s.mbReset := .update (.setMbRsp h)

theorem Stays.authentic {key f} (h : Stays u a s) : Stays u a (s.authentic key f).1 := by
  unfold State.authentic
  split
  · exact h
  · exact .update h

theorem Stays.sendTunnelFrame {k f} (h : Stays u a s) : Stays u a (s.sendTunnelFrame k f) := .emit h

theorem Stays.drainTunnel {k n} (h : Stays u a s) : Stays u a (s.drainTunnel k n) := by
  induction n generalizing s with
  | zero => exact h
  | succ n ih =>
    unfold State.drainTunnel
    split
    · exact h
    · exact .ite (ih (.sendTunnelFrame (.withAlp h))) h

theorem Stays.sendTunnelOn {f k} (h : Stays u a s) : Stays u a (s.sendTunnelOn f k) := .drainTunnel (.withAlp h)
theorem Stays.sendTunnel {ports dest frame} (h : Stays u a s) : Stays u a (s.sendTunnel ports dest frame) := .foldl (.foldl .sendTunnelOn) h
theorem Stays.keep {p r f} (h : Stays u a s) : Stays u a (s.keep p r f) := .update h
theorem Stays.sendUdp {p addr port key f} (h : Stays u a s) : Stays u a (s.sendUdp p addr port key f) := .ite (.emit (.authentic h)) h

theorem Stays.sendBack {r f} [Off u .ram] (h : Stays u a s) : Stays u a (s.sendBack r f) := by
  unfold State.sendBack
  split
  · exact .ite h (.mbAnswer h)
  · exact .keep (.sendUdp h)
  · exact .keep (.sendUdp h)
  · exact .sendTunnel h
  · exact h
  · exact h

theorem Stays.answerStatus {r status} [Off u .ram] (h : Stays u a s) : Stays u a (s.answerStatus r status) := .sendBack h
theorem Stays.unreachable {r} [Off u .ram] (h : Stays u a s) : Stays u a (s.unreachable r) := .answerStatus (.bump h)

theorem Stays.tunnelAway {r} [Off u .ram] (h : Stays u a s) : Stays u a (s.tunnelAway r) :=
  .ite (.answerStatus h) (.ite (.unreachable h) (.sendTunnel (.update h)))

theorem Stays.endAsks {p} [Off u .ram] (h : Stays u a s) : Stays u a (s.endAsks p) := .ite (.foldl .unreachable (.update h)) h
theorem Stays.noteRelayed {x f} (h : Stays u a s) : Stays u a (s.noteRelayed x f) := .ite (.update h) h

theorem Stays.tunnelReply {from_ f} [Off u .ram] (h : Stays u a s) : Stays u a (s.tunnelReply from_ f) := by
  unfold State.tunnelReply
  dsimp only
  split
  · exact h
  · exact .sendBack (.noteRelayed (.update h))

theorem Stays.tunnelNotify {from_ f} [Off u .ram] (h : Stays u a s) : Stays u a (s.tunnelNotify from_ f) := by
  unfold State.tunnelNotify
  split
  · exact h
  · split
    · exact .sendUdp h
    · exact .sendUdp h
    · exact .mbNotify h
    · exact h
    · exact h
    · exact h

theorem Stays.admitRequest {r} [Off u .ram] (h : Stays u a s) : Stays u a (s.admitRequest r) := by
  unfold State.admitRequest
  refine have h1 := .ite (.mbServing h) h; .ite (.tunnelAway h1) (.ite h1 (.ite (.answerStatus h1) ?_))
  split
  · exact .answerStatus h1
  · exact .ite (.answerStatus h1) (.ite (.answerStatus h1) (.update h1))

theorem Stays.takeMailbox [Off u .ram] (h : Stays u a s) : Stays u a s.takeMailbox := by
  unfold State.takeMailbox
  refine .unless (.hkcReads (.update h)) (fun h1 => ?_)
  split
  · exact .admitRequest h1
  · exact .bump h1

theorem Stays.takeEth {p} [Off u .ram] (h : Stays u a s) : Stays u a (s.takeEth p) := by
  unfold State.takeEth
  dsimp only
  split
  · exact h
  · split
    · exact .bump (.sendUdp (.update h))
    · exact .admitRequest (.update h)

theorem Stays.takeTunnel [Off u .ram] (h : Stays u a s) : Stays u a s.takeTunnel := by
  unfold State.takeTunnel
  split
  · exact h
  · exact .admitRequest (.update h)

theorem Stays.takeFrom {i} [Off u .ram] (h : Stays u a s) : Stays u a (s.takeFrom i) := by
  unfold State.takeFrom
  split
  · exact .takeMailbox (.update h)
  · exact .takeEth (.update h)
  · exact .takeEth (.update h)
  · exact .takeTunnel (.update h)

theorem Stays.takeUpTo {n} [Off u .ram] (h : Stays u a s) : Stays u a (State.takeUpTo n s) := by
  induction n generalizing s with
  | zero => exact h
  | succ n ih =>
    unfold State.takeUpTo
    refine .ite h ?_
    split
    · exact ih (.takeFrom h)
    · exact h

theorem Stays.takeNext [Off u .ram] (h : Stays u a s) : Stays u a s.takeNext := .takeUpTo h
theorem Stays.mbSubmit [Off u .ram] (h : Stays u a s) : Stays u a s.mbSubmit := .ite h (.takeNext (.update h))
theorem Stays.restartAnswers [Off u .ram] (h : Stays u a s) : Stays u a s.restartAnswers := .takeNext (.foldl .answerStatus (.update h))

/-! ### The Aelop ports -/

theorem Stays.servoOrphaned [Off u .tb] (h : Stays u a s) : Stays u a s.servoOrphaned := .update (.enterHoldover h)

theorem Stays.parentChange {wasRef old new} [Off u .tb] (h : Stays u a s) : Stays u a (s.parentChange wasRef old new) :=
  .ite h (.when (.update h) .servoOrphaned)

theorem Stays.setReference {v} [Off u .tb] (h : Stays u a s) : Stays u a (s.setReference v) := .when (.ptpSettle (.put h)) .servoOrphaned
theorem Stays.resend {k} (h : Stays u a s) : Stays u a (s.resend k) := .foldl .sendAlp h
theorem Stays.retree [Off u .tb] (h : Stays u a s) : Stays u a s.retree := .ite h (.parentChange (.foldl .resend (.setEvBit (.update h))))
theorem Stays.noNeighbour {k} (h : Stays u a s) : Stays u a (s.noNeighbour k) := .putNat h

theorem Stays.alpDown {k} [Off u .tb] [Off u .ram] (h : Stays u a s) : Stays u a (s.alpDown k) :=
  .ite (.endAsks (.retree (.bb (.bump (.setEvBit (.noNeighbour (.withAlp h))))))) h

theorem Stays.alpEnable {k on} [Off u .tb] [Off u .ram] (h : Stays u a s) : Stays u a (s.alpEnable k on) :=
  .ite (.ite (.retree (.withAlp (.putNat h))) (.putNat h)) (.endAsks (.retree (.noNeighbour (.withAlp (.putNat h)))))

theorem Stays.setDomain {v} (h : Stays u a s) : Stays u a (s.setDomain v) := .unless (.put h) .update
theorem Stays.alpHold {k st node} (h : Stays u a s) : Stays u a (s.alpHold k st node) := .bb (.setEvBit (.withAlp h))
theorem Stays.publishLink {k delay offset} (h : Stays u a s) : Stays u a (s.publishLink k delay offset) := .putInt (.putInt (.withAlp h))

theorem Stays.takeExchange {k x} (h : Stays u a s) : Stays u a (s.takeExchange k x) := by
  unfold State.takeExchange
  split
  · exact .withAlp h
  · exact .withAlp h
  · exact h
  · exact h
  · exact h
  · exact h

theorem Stays.maybeUp {k} (h : Stays u a s) : Stays u a (s.maybeUp k) := .ite (.publishLink (.withAlp h)) h

theorem Stays.goodBeat {k x} [Off u .tb] (h : Stays u a s) : Stays u a (s.goodBeat k x) := by
  unfold State.goodBeat
  refine .ite (.alpHold (.putNat (.withAlp h))) (.ite (.alpHold (.putNat (.withAlp h))) (.drainTunnel (.retree (.maybeUp ?_))))
  split
  · exact .takeExchange (.putNat (.withAlp h))
  · exact .putNat (.withAlp h)

theorem Stays.badBeat {k} (h : Stays u a s) : Stays u a (s.badBeat k) := .withAlp (.discardFrame h)

theorem Stays.alpServo {k delay offset coasted} [Off u .tb] [Off u .dies] (h : Stays u a s) :
    Stays u a (s.alpServo k delay offset coasted) :=
  .when (.judgeDelay .withAlp .withAlp h) (fun h1 => .servoOffset (.bump (.update h1)))

theorem Stays.alpMeasure {k m} [Off u .tb] [Off u .dies] (h : Stays u a s) :
    Stays u a (s.alpMeasure k m) := .alpServo (.publishLink (.withAlp h))

theorem Stays.tunnelHere {source bs} [Off u .ram] (h : Stays u a s) : Stays u a (s.tunnelHere source bs) :=
  .ite (.bump h) (.ite (.ite (.tunnelNotify h) (.tunnelReply h)) (.takeNext (.update h)))

theorem Stays.tunnelFragment {f} [Off u .ram] (h : Stays u a s) : Stays u a (s.tunnelFragment f) := by
  unfold State.tunnelFragment
  split
  · exact .update h
  · exact .ite (.update h) (.tunnelHere (.update h))

theorem Stays.tunnelOnward {k f} (h : Stays u a s) : Stays u a (s.tunnelOnward k f) := .unless (.foldl .sendTunnelOn h) .bump

/-! ### Commands of the Aelop link -/

theorem Stays.sendBeat {k stamp} (h : Stays u a s) : Stays u a (s.sendBeat k stamp) := .sendFrame (.drawn (.withAlp h))
theorem StaysAfter.heartbeatSend {k stamp} (h : Stays u a s) : StaysAfter u a (execHeartbeatSend k stamp s) := .next (.ite (.sendBeat h) h)

theorem StaysAfter.heartbeatReceive {k x} [Off u .tb] (h : Stays u a s) : StaysAfter u a (execHeartbeatReceive k x s) :=
  .next (.ite h (.ite (.goodBeat h) (.badBeat h)))

theorem StaysAfter.alpPortEnable {k on via} [Off u .tb] [Off u .ram] (h : Stays u a s) :
    StaysAfter u a (execAlpPortEnable k on via s) := .next (.onPath .alpEnable h)

theorem StaysAfter.alpPortDown {k} [Off u .tb] [Off u .ram] (h : Stays u a s) :
    StaysAfter u a (execAlpPortDown k s) := .next (.ite (.alpDown h) h)

theorem Stays.laneFailure {k} [Off u .tb] [Off u .ram] (h : Stays u a s) : Stays u a (s.laneFailure k) := by
  unfold State.laneFailure
  split
  · exact .alpDown h
  · exact .withAlp h
  · exact h

theorem StaysAfter.alpLaneFailure {k lane} [Off u .tb] [Off u .ram] (h : Stays u a s) :
    StaysAfter u a (execAlpLaneFailure k lane s) := .next (.ite h (.laneFailure h))

theorem StaysAfter.alpMeasurement {k} [Off u .tb] [Off u .dies] (h : Stays u a s) : StaysAfter u a (execAlpMeasurement k s) := by
  unfold execAlpMeasurement
  refine .next ?_
  split
  · exact .ite (.alpMeasure h) h
  · exact h

theorem StaysAfter.tunnelFrameReceive {k f} [Off u .ram] (h : Stays u a s) : StaysAfter u a (execTunnelFrameReceive k f s) :=
  .next (.ite h (.ite (.discardFrame h) (.ite (.ite (.tunnelFragment h) (.tunnelOnward h)) h)))

/-! ### Maintenance tasks -/

theorem Stays.makeDue {x} (h : Stays u a s) : Stays u a (s.makeDue x) := .ite h (.update h)

theorem Stays.startTask {x} (h : Stays u a s) : Stays u a (s.startTask x) :=
  .when (.raiseTo (.putNat (.put (.update h)))) (fun h1 => .setEvBit (.bump h1))

/-! ### Commands of the deep store -/

theorem Stays.writeSpeed {v} (h : Stays u a s) : Stays u a (s.writeSpeed v) :=
  have h1 := .ite (.clampOp (.update h)) (.update h); .ite (.update h1) (.makeDue (.update h1))

theorem StaysAfter.speedChangeRequest {v g} [Off u .guard] (h : Stays u a s) :
    StaysAfter u a (execSpeedChangeRequest v g s) := .next (.guardForm .writeSpeed h)

theorem Stays.applySpeed (h : Stays u a s) : Stays u a s.applySpeed := .foldl .startPll (.update (.startTask h))

theorem StaysAfter.speedChangeApply (h : Stays u a s) : StaysAfter u a (execSpeedChangeApply s) :=
  .next (.ite (.ite (.ite h (.bb (.setEvBit (.bump (.update h))))) (.applySpeed h)) h)

theorem Stays.trained {r c} (h : Stays u a s) : Stays u a (s.trained r c) :=
  .ite (.failChannel (.update (.withChan h))) (.withChan (.update (.withChan h)))

theorem StaysAfter.speedChangeComplete {r} (h : Stays u a s) : StaysAfter u a (execSpeedChangeComplete r s) :=
  .next (.ite (.bump (.foldl .trained (.update h))) h)

theorem Stays.beginTraining {c} (h : Stays u a s) : Stays u a (s.beginTraining c) := .withChan (.startTask h)

theorem StaysAfter.trainingDue {c} (h : Stays u a s) :
    StaysAfter u a (execTrainingDue c s) := .next (.ite (.ite (.beginTraining h) (.makeDue h)) h)

theorem StaysAfter.trainingComplete {c r} (h : Stays u a s) :
    StaysAfter u a (execTrainingComplete c r s) := .next (.ite (.when (.trained h) .applySpeed) h)

theorem Stays.abortTraining (h : Stays u a s) : Stays u a s.abortTraining := .ite (.makeDue (.update h)) h
theorem Stays.bumpHeat {c doubled hot} (h : Stays u a s) : Stays u a (s.bumpHeat c doubled hot) := .putNat h

theorem Stays.readDimm {temps c} (h : Stays u a s) : Stays u a (s.readDimm temps c) := by
  unfold State.readDimm
  refine .ite h ?_
  split
  · exact .when (.bumpHeat (.withChan h)) (fun h1 => .bb (.setEvBit h1))
  · exact .when (.bumpHeat (.withChan h)) .bb

theorem StaysAfter.dimmSensorRead {temps} (h : Stays u a s) :
    StaysAfter u a (execDimmSensorRead temps s) := .next (.ite (.foldl .readDimm h) h)

theorem Stays.damaged {b cause} [Off u .dies] (h : Stays u a s) : Stays u a (s.damaged b cause) := by
  unfold State.damaged
  split
  · exact .withDie h
  · exact .withDie h
  · exact .damage h

theorem Stays.migrateNext (h : Stays u a s) : Stays u a s.migrateNext := by
  unfold State.migrateNext
  split
  · exact .ite (.dsAsk h) h
  · exact h

theorem Stays.leaveService {c r} (h : Stays u a s) : Stays u a (s.leaveService c r) := by
  unfold State.leaveService
  split
  · exact .migrateNext (.putNat (.update h))
  · exact .retireRank h

theorem Stays.rankOut {c r} (h : Stays u a s) : Stays u a (s.rankOut c r) := .ite h (.ite (.retireRank (.update h)) (.leaveService h))
theorem Stays.correctedRead {c r} (h : Stays u a s) : Stays u a (s.correctedRead c r) := .when (.bump (.update h)) .rankOut
theorem Stays.lostRead {b c r} [Off u .dies] (h : Stays u a s) : Stays u a (s.lostRead b c r) := .damaged (.bb (.setEvBit (.bump h)))
theorem Stays.badRead {b c r} [Off u .dies] (h : Stays u a s) : Stays u a (s.badRead b c r) := .rankOut (.lostRead h)

theorem Stays.groupRead {addr g} [Off u .dies] (h : Stays u a s) :
    Stays u a (s.groupRead addr g) := .ite h (.when (.ite (.correctedRead h) h) .badRead)

theorem Stays.migrated {addr g} [Off u .dies] (h : Stays u a s) : Stays u a (s.migrated addr g) := by
  unfold State.migrated
  split
  · exact .groupRead h
  · exact .migrateNext (.putNat (.update (.when (.ite (.bump h) h) .lostRead)))

theorem StaysAfter.dsRequestComplete {p g} [Off u .dies] (h : Stays u a s) : StaysAfter u a (execDsRequestComplete p g s) := by
  unfold execDsRequestComplete
  refine .next (.ite h ?_)
  split
  · exact h
  · exact .ite h
      (have h1 := .ite (.dsServed h) (.ite (.migrated (.dsServed h)) (.groupRead (.dsServed h)))
       .ite (.genRefilled h1) (.ite (.genRefilled h1) h1))

theorem StaysAfter.dsParityError {barge again} [Off u .dies] (h : Stays u a s) : StaysAfter u a (execDsParityError barge again s) :=
  .next (.ite h (.rankOut (.when (.bb (.setEvBit (.bump h))) .damaged)))

theorem StaysAfter.migrationDone {c bad} [Off u .dies] (h : Stays u a s) : StaysAfter u a (execMigrationDone c bad s) := by
  unfold execMigrationDone
  refine .next (.ite h ?_)
  split
  · exact h
  · exact .bb (.setEvBit (.bump (.putNat (.dsServed (.withChan (.update (.foldl .damaged h)))))))

theorem StaysAfter.urgencyRise {p} (h : Stays u a s) : StaysAfter u a (execUrgencyRise p s) := by
  unfold execUrgencyRise
  refine .next (.ite h ?_)
  split
  · exact h
  · exact .update h

theorem StaysAfter.patrolScrubRead {g} [Off u .dies] (h : Stays u a s) : StaysAfter u a (execPatrolScrubRead g s) := by
  unfold execPatrolScrubRead
  refine .next (.ite ?_ h)
  split
  · exact h
  · exact .ite (.bump h) (.groupRead (.dsGroups (.update h)))

theorem Stays.writeRas {v} (h : Stays u a s) : Stays u a (s.writeRas v) := .when (.update h) (fun h1 => .retireRank (.update h1))

theorem StaysAfter.rankRetire {c r g} [Off u .guard] (h : Stays u a s) :
    StaysAfter u a (execRankRetire c r g s) := .next (.guardForm .writeRas h)

theorem StaysAfter.spareEnable {on g} [Off u .guard] (h : Stays u a s) :
    StaysAfter u a (execSpareEnable on g s) := .next (.guardForm .writeRas h)

theorem StaysAfter.retiredListClear {g} [Off u .guard] (h : Stays u a s) :
    StaysAfter u a (execRetiredListClear g s) := .next (.guardForm .writeRas h)

theorem Stays.windowHole {sub} (h : Stays u a s) : Stays u a (s.windowHole sub) := .setEvBit (.bump (.bump h))

theorem StaysAfter.windowRead {off len} (h : Stays u a s) : StaysAfter u a (execWindowRead off len s) :=
  .ite .fault (.next (.ite (.emit h) (.ite (.emit (.bump h)) (.ite (.emit (.dsAccess h)) (.emit (.windowHole h))))))

theorem Stays.windowStore {x bytes} [Off u .dsMem] (h : Stays u a s) : Stays u a (s.windowStore x bytes) := by
  unfold State.windowStore
  refine .foldl (fun h1 => ?_) h
  split
  · exact .updateDsMem (memWriteBlock_wf _ _ _) h1
  · exact .bump h1

theorem StaysAfter.windowWrite {off bytes} [Off u .dsMem] (h : Stays u a s) : StaysAfter u a (execWindowWrite off bytes s) :=
  .ite .fault (.next (.ite (.emit h) (.ite (.bump (.update h)) (.ite (.windowStore (.dsAccess h)) (.windowHole h)))))

theorem Stays.writeWindowBase {v} (h : Stays u a s) : Stays u a (s.writeWindowBase v) := .bump (.update h)

theorem StaysAfter.windowBaseWrite {v} [Off u .guard] (h : Stays u a s) :
    StaysAfter u a (execWindowBaseWrite v s) := .next (.onBar0 .writeWindowBase h)

/-! ### Commands of the on-chip memories -/

theorem Stays.scrambleBasin {d mask} [Off u .basin] (h : Stays u a s) : Stays u a (s.scrambleBasin d mask) :=
  .drawn (.updateBasin (fun _ _ => freeCells_wf _ _ _ _ _) h)

theorem Stays.beginTest {target preserving} (h : Stays u a s) : Stays u a (s.beginTest target preserving) := .putNat (.putNat (.update h))

theorem Stays.commandTest {via} (h : Stays u a s) : Stays u a (s.commandTest via) :=
  .ite (.beginTest (.ite (.clampOp h) h)) (.ignoreOp (.update h))

theorem Stays.commandClamp {idx sub v via} (h : Stays u a s) : Stays u a (s.commandClamp idx sub v via) := .ite (.clampOp h) h

theorem StaysAfter.marchTestCommand {v via} (h : Stays u a s) : StaysAfter u a (execMarchTestCommand v via s) :=
  .next (.onPath (fun h1 => .commandTest (.commandClamp h1)) h)

theorem Stays.keepMaps (h : Stays u a s) : Stays u a s.keepMaps := .update h
theorem Stays.basinBankOut {d bank} (h : Stays u a s) : Stays u a (s.basinBankOut d bank) := .when (.keepMaps (.update h)) .withGen

theorem Stays.bankOut {mem f} [Off u .power] (h : Stays u a s) : Stays u a (s.bankOut mem f) := by
  unfold State.bankOut
  split
  · exact .basinBankOut (.bb h)
  · exact .basinBankOut (.bb h)
  · exact .updatePower (.bb h)

theorem Stays.repairRow {mem f} [Off u .power] (h : Stays u a s) : Stays u a (s.repairRow mem f).1 :=
  .ite_fst (.keepMaps (.bb (.update h))) (.bankOut (.update h))

theorem Stays.testFault {m f} [Off u .power] (h : Stays u a s) :
    Stays u a (s.testFault m f) := .ite (.ite (.bump (.repairRow h)) (.bump (.repairRow h))) h

theorem Stays.endTest {status} (h : Stays u a s) : Stays u a (s.endTest status) := .put (.update h)

theorem StaysAfter.marchTestDone {faults} [Off u .power] [Off u .dies] [Off u .basin] (h : Stays u a s) :
    StaysAfter u a (execMarchTestDone faults s) := by
  unfold execMarchTestDone
  refine .next ?_
  split
  · exact h
  · refine .ite h (.endTest ?_)
    split
    · exact .ite (.ite (.foldl .testFault h) (.scrambleBasin (.foldl .testFault h))) (.loadTrigRam (.foldl .testFault h))
    · exact .foldl .testFault h

theorem Stays.abortTest [Off u .dies] [Off u .basin] (h : Stays u a s) : Stays u a s.abortTest := by
  unfold State.abortTest
  split
  · exact h
  · refine .endTest ?_
    split
    · exact .ite (.ite h (.scrambleBasin h)) (.loadTrigRam h)
    · exact h

theorem Stays.nextBlock (h : Stays u a s) : Stays u a s.nextBlock := .when (.update h) .bump
theorem Stays.blockFault {f} [Off u .power] (h : Stays u a s) : Stays u a (s.blockFault f) := .repairRow (.bump h)

theorem StaysAfter.backgroundTestStep {faults} [Off u .power] (h : Stays u a s) : StaysAfter u a (execBackgroundTestStep faults s) :=
  .next (.ite (.ite (.ite (.nextBlock (.update h)) (.update (.update h))) (.nextBlock (.foldl .blockFault (.update h)))) h)

theorem Stays.ramDword {d} [Off u .host] [Off u .guard] [Off u .ram] (h : Stays u a s) : Stays u a (s.ramDword d) := by
  unfold State.ramDword
  split
  · exact .partialDword h
  · exact .ite (.hkcAreaDword h) (.when (.ramStore (.touchRam (.interrupt h))) .mbSubmit)

theorem Stays.ramClash {clash d} (h : Stays u a s) : Stays u a (s.ramClash clash d) := by
  unfold State.ramClash
  split
  · exact .ite h (.bump h)
  · exact h

theorem Stays.ramWrite {off w} [Off u .host] [Off u .guard] [Off u .ram] (h : Stays u a s) :
    Stays u a (s.ramWrite off w) := .update (.foldl (fun h1 => .ramDword (.ramClash h1)) h)

theorem StaysAfter.descriptorRamHostWrite {off w} [Off u .host] [Off u .guard] [Off u .ram] (h : Stays u a s) :
    StaysAfter u a (execDescriptorRamHostWrite off w s) :=
  .ite .fault (.next (.ite (.ramWrite h) (.emit h)))

theorem StaysAfter.descriptorRamHostRead {off len met} (h : Stays u a s) : StaysAfter u a (execDescriptorRamHostRead off len met s) :=
  .ite .fault (.next (.ite (.emit (.meetFlaws (.touchRam (.update h)))) (.emit h)))

/-! ### ARMING -/

theorem Stays.endEye {status} [Off u .dies] (h : Stays u a s) :
    Stays u a (s.endEye status) := .restSpll (.restSpll (.putNat (.withDie (.withDie h))))

theorem Stays.endCheck {d} [Off u .dies] (h : Stays u a s) : Stays u a (s.endCheck d) := by
  unfold State.endCheck
  split
  · exact .ite (.restSpll (.bumpBy (.withDie h))) h
  · exact h

theorem Stays.breakCheck {d} [Off u .dies] (h : Stays u a s) : Stays u a (s.breakCheck d) := by
  unfold State.breakCheck
  dsimp only
  split
  · exact .restSpll (.makeDue (.withDie (.endCheck h)))
  · exact .endCheck h

theorem Stays.layout {d home} [Off u .dies] [Off u .basin] (h : Stays u a s) : Stays u a (s.layout d home) :=
  .withDie (.ite (.updateBasin (fun _ => moveCells_wf _ _ _ _) h) h)

theorem Stays.thermal (h : Stays u a s) : Stays u a s.thermal.1 := .putNat (.putNat (.drawn (.drawn h)))
theorem Stays.armClamp {c} (h : Stays u a s) : Stays u a (s.armClamp c) := .clampOp h

theorem Stays.readPlans {ds} (h : Stays u a s) : Stays u a (s.readPlans ds).1 := by
  unfold State.readPlans
  refine .foldl_fst (fun hq => ?_) h
  dsimp only
  exact .foldl .armClamp hq

theorem Stays.admitPlans {ds} [Off u .dies] [Off u .basin] (h : Stays u a s) : Stays u a (s.admitPlans ds).1 := by
  unfold State.admitPlans
  dsimp only
  split
  · exact .foldl .putNat (.putNat (.thermal (.readPlans (.foldl .layout h))))
  · split
    · exact .foldl .putNat (.putNat (.thermal (.readPlans (.foldl .layout h))))
    · exact .foldl .armClamp (.foldl .putNat (.putNat (.thermal (.readPlans (.foldl .layout h)))))

theorem Stays.endArming {d status} [Off u .dies] (h : Stays u a s) : Stays u a (s.endArming d status) :=
  .raise (.restSpll (.putNat (.when (.withDie h) .ignoreOp)))

theorem Stays.beginArming {took calibrate x} [Off u .dies] (h : Stays u a t) : Stays u a (s.beginArming took calibrate t x) :=
  .putNat (.putNat (.putNat (.when (.withDie (.unless (.startPll h) .markDieGauges)) .putNat)))

theorem Stays.arm {ds} [Off u .dies] [Off u .basin] (h : Stays u a s) : Stays u a (s.arm ds) := by
  unfold State.arm
  extract_lets s1 s2 s3 s4
  have h4 : Stays u a s4 := by
    have h3 : Stays u a s3 := .abortTraining (.foldl .breakCheck (.ite (.endEye h) h))
    unfold s4
    split
    · exact .ite (.abortTest h3) h3
    · exact h3
  have h5 := Stays.admitPlans (ds := ds) h4
  split
  next e =>
    rw [e] at h5
    exact .foldl .endArming h5
  next e =>
    rw [e] at h5
    exact .foldl .beginArming h5

theorem Stays.armCommand {d loc via} [Off u .dies] [Off u .basin] (h : Stays u a s) : Stays u a (s.armCommand d loc via) :=
  .ite h (.ite (.ignoreOp h) (.ite (.ignoreOp h) (.ite (.ignoreOp h) (.ite (.ignoreOp h) (.ite (.ignoreOp h) (.arm h))))))

/-! ### The sluice and sealing -/

theorem Stays.deepDrop {d} [Off u .dies] (h : Stays u a s) : Stays u a (s.deepDrop d) := .withDie h

theorem Stays.deepPut {lead slot bytes} [Off u .dies] [Off u .dsMem] (h : Stays u a s) : Stays u a (s.deepPut lead slot bytes) :=
  .withDie (.updateDsMem (memWriteBlock_wf _ _ _) h)

theorem Stays.deepStop {d} [Off u .pins] [Off u .dies] [Off u .basin] (h : Stays u a s) : Stays u a (s.deepStop d) := .endDie (.withDie h)

theorem Stays.moveBarge {d m slot ring} [Off u .dies] [Off u .dsMem] (h : Stays u a s) :
    Stays u a (s.moveBarge d m slot ring) := .withDie (.dsGroups (.deepPut h))

theorem Stays.sluiceOne {d} [Off u .pins] [Off u .dies] [Off u .dsMem] [Off u .basin] (h : Stays u a s) (e : s.sluiceOne d = some t) :
    Stays u a t := by
  unfold State.sluiceOne at e
  extract_lets _ _ _ _ _ _ old _ s' at e
  split at e
  · cases e
  split at e
  · cases e
  split at e
  · cases e
  split at e
  · exact Option.some.inj e ▸ .deepStop h
  · refine Option.some.inj e ▸ .moveBarge ?_
    unfold s'
    cases old with
    | none => exact h
    | some m => exact .deepDrop h

theorem Stays.sluiceAll {ds n} [Off u .pins] [Off u .dies] [Off u .dsMem] [Off u .basin] (h : Stays u a s) :
    Stays u a (s.sluiceAll ds n) := by
  induction n generalizing s with
  | zero => exact h
  | succ n ih =>
    unfold State.sluiceAll
    split
    next t e =>
      obtain ⟨d, -, e⟩ := Option.bind_eq_some_iff.mp e
      exact ih (.sluiceOne h e)
    next => exact h

theorem Stays.reserveMove {d m} [Off u .dies] [Off u .dsMem] (h : Stays u a s) : Stays u a (s.reserveMove d m) := by
  unfold State.reserveMove
  dsimp only
  split
  · exact h
  · exact .ite (.moveBarge h) h

theorem Stays.reserveEvents {d} [Off u .dies] [Off u .dsMem] (h : Stays u a s) :
    Stays u a (s.reserveEvents d) := .ite (.foldl .reserveMove h) h

theorem Stays.markFault {d} [Off u .dies] [Off u .dsMem] [Off u .basin] (h : Stays u a s) : Stays u a (s.markFault d) :=
  .ite h (.withDie (.updateDsMem (foldl_memory_wf (patchFlag_wf _ _ _)) (.updateBasin (fun _ => foldl_memory_wf (patchFlag_wf _ _ _)) h)))

theorem Stays.closeDie {d} [Off u .pins] [Off u .dies] [Off u .basin] (h : Stays u a s) :
    Stays u a (s.closeDie d) := .foldl .putNat (.runDie .closeAll h)

/-! ### The convoy directory -/

theorem Stays.putDir {lead b} [Off u .dies] [Off u .dsMem] [Off u .basin] (h : Stays u a s) : Stays u a (s.putDir lead b) := by
  unfold State.putDir
  refine .ite ?_ (.withDie (.updateBasin (fun _ => memWriteBlock_wf _ _ _) h))
  split
  · exact h
  · exact .withDie (.deepPut h)

theorem Stays.sealDie {addr short d} [Off u .dies] (h : Stays u a s) :
    Stays u a (s.sealDie addr short d) := .restSpll (.withDie (.putNat (.putNat h)))

theorem Stays.sealConvoy {ds lead} [Off u .dies] [Off u .dsMem] [Off u .basin] (h : Stays u a s) : Stays u a (s.sealConvoy ds lead) :=
  .raise (.when (.foldl .sealDie (.foldl .putDir h)) .bb)

/-! ### Commands of a capture -/

theorem StaysAfter.coreWord {d w} [Off u .pins] [Off u .dies] [Off u .basin] (h : Stays u a s) :
    StaysAfter u a (execCoreWord d w s) := .next (.ite (.runDie .coreWord h) h)

theorem StaysAfter.deferredAdvanceExecute {d} [Off u .pins] [Off u .dies] [Off u .basin] (h : Stays u a s) :
    StaysAfter u a (execDeferredAdvanceExecute d s) := by
  unfold execDeferredAdvanceExecute
  refine .next ?_
  split
  · exact .ite (.runDie .executeDeferred h) h
  · exact h

theorem StaysAfter.timerSaturation {d x} [Off u .pins] [Off u .dies] [Off u .basin] (h : Stays u a s) :
    StaysAfter u a (execTimerSaturation d x s) := .next (.ite (.runDie .timerFull h) h)

theorem StaysAfter.trigoutPulseEnd {p} [Off u .pins] (h : Stays u a s) :
    StaysAfter u a (execTrigoutPulseEnd p s) := .next (.unless (.settlePin h) .pulseOver)

theorem StaysAfter.eventBargeClose {d} [Off u .pins] [Off u .dies] [Off u .basin] (h : Stays u a s) :
    StaysAfter u a (execEventBargeClose d s) := .next (.ite (.runDie (fun hr => .fillEvents (.closeEventIfFull hr)) h) h)

theorem Stays.forceTrigger {d loc via} [Off u .dies] (h : Stays u a s) :
    Stays u a (s.forceTrigger d loc via) := .ite h (.ite (.withDie h) (.ignoreOp h))

theorem StaysAfter.forceTrigger {d} [Off u .guard] [Off u .dies] (h : Stays u a s) :
    StaysAfter u a (execForceTrigger d s) := .next (.onBar0 .forceTrigger h)

theorem StaysAfter.pendingPlacementCommit {d} [Off u .pins] [Off u .dies] [Off u .basin] (h : Stays u a s) :
    StaysAfter u a (execPendingPlacementCommit d s) := by
  unfold execPendingPlacementCommit
  refine .next ?_
  split
  · exact .ite (.runDie .pendingPlacement h) h
  · exact h

theorem StaysAfter.triggerLineArrival {d} [Off u .pins] [Off u .dies] [Off u .basin] (h : Stays u a s) :
    StaysAfter u a (execTriggerLineArrival d s) := by
  unfold execTriggerLineArrival
  refine .next ?_
  split
  · refine .ite h ?_
    split
    · exact .raise (.runDie (fun hr => .adopt (.dropPlacement hr)) (.withDie h))
    · exact .ite (.runDie .giveWay (.withDie h)) (.withDie h)
  · exact h

theorem StaysAfter.arm {d} [Off u .guard] [Off u .dies] [Off u .basin] (h : Stays u a s) :
    StaysAfter u a (execArm d s) := .next (.onBar0 .armCommand h)

theorem Stays.ramFound {d r} [Off u .dies] (h : Stays u a s) : Stays u a (s.ramFound d r) := by
  unfold State.ramFound
  split
  · exact .bumpBy h
  · exact .bb (.bump (.loadTrigRam (.bumpBy h)))
  · exact .bb (.bump (.loadTrigRam (.bumpBy h)))

theorem Stays.openObjects {d id delay} (h : Stays u a s) : Stays u a (s.openObjects d id delay) :=
  .putNat (.foldl .putNat (.foldl .putNat (.foldl .putNat (.put (.putNat h)))))

theorem Stays.openDie {id thin d} [Off u .pins] [Off u .dies] [Off u .basin] (h : Stays u a s) :
    Stays u a (s.openDie id thin d) := .raise (.when (.withDie (.openObjects h)) (.runDie .packLog))

theorem Stays.openConvoy {ds lead} [Off u .pins] [Off u .dies] [Off u .basin] (h : Stays u a s) :
    Stays u a (s.openConvoy ds lead) := .when (.when (.foldl .openDie (.update h)) .bb) .bb

theorem StaysAfter.convoyOpen {d ram} [Off u .pins] [Off u .dies] [Off u .basin] (h : Stays u a s) :
    StaysAfter u a (execConvoyOpen d ram s) :=
  .next (.ite (have h1 := .foldl .ramFound h; .ite (.foldl .endArming h1) (.openConvoy h1)) h)

theorem Stays.captureStop {d loc via} [Off u .pins] [Off u .dies] [Off u .basin] (h : Stays u a s) : Stays u a (s.captureStop d loc via) :=
  .ite h (.ite (.foldl .endArming h) (.ite (.foldl .endDie h) (.ignoreOp h)))

theorem StaysAfter.stop {d} [Off u .guard] [Off u .pins] [Off u .dies] [Off u .basin] (h : Stays u a s) :
    StaysAfter u a (execStop d s) := .next (.onBar0 .captureStop h)

theorem Stays.releaseDie {d} [Off u .dies] (h : Stays u a s) : Stays u a (s.releaseDie d) := .withDie h

theorem Stays.releaseCommand {d loc via} [Off u .dies] (h : Stays u a s) : Stays u a (s.releaseCommand d loc via) :=
  .ite h (.ite (.foldl .releaseDie h) (.ignoreOp h))

theorem StaysAfter.release {d} [Off u .guard] [Off u .dies] (h : Stays u a s) :
    StaysAfter u a (execRelease d s) := .next (.onBar0 .releaseCommand h)

theorem StaysAfter.sluiceCopy {d} [Off u .pins] [Off u .dies] [Off u .dsMem] [Off u .basin] (h : Stays u a s) :
    StaysAfter u a (execSluiceCopy d s) := by
  refine .next (.ite ?_ h)
  cases e : s.sluiceOne d with
  | none => exact h
  | some t => exact .sluiceOne h e

theorem Stays.sluiceBegin {d} [Off u .dies] (h : Stays u a s) : Stays u a (s.sluiceBegin d) := .withDie h

theorem StaysAfter.convoySealed {d} [Off u .pins] [Off u .dies] [Off u .dsMem] [Off u .basin] (h : Stays u a s) :
    StaysAfter u a (execConvoySealed d s) :=
  .next (.ite (.ite (.sealConvoy (.foldl .markFault (.foldl .reserveEvents (.sluiceAll (.foldl .sluiceBegin (.foldl .closeDie h)))))) h) h)

theorem StaysAfter.sluiceSealedConvoy {d via} [Off u .dies] (h : Stays u a s) : StaysAfter u a (execSluiceSealedConvoy d via s) :=
  .next (.onPath (fun h1 => .ite h1 (.ite (.withDie h1) (.ignoreOp h1))) h)

theorem Stays.copyBarges {l b} [Off u .dsMem] (h : Stays u a s) : Stays u a (s.copyBarges l b) := by
  induction l generalizing s b with
  | nil => exact h
  | cons x l ih => exact ih (.updateDsMem (memWriteBlock_wf _ _ _) h)

theorem StaysAfter.sluiceSealedCopyDone {d} [Off u .dies] [Off u .dsMem] (h : Stays u a s) :
    StaysAfter u a (execSluiceSealedCopyDone d s) := by
  unfold execSluiceSealedCopyDone
  refine .next ?_
  split
  · exact .ite h (.foldl .putNat (.withDie (.dsGroups (.copyBarges h))))
  · exact h

theorem StaysAfter.quadrantReturn {d} [Off u .dies] (h : Stays u a s) :
    StaysAfter u a (execQuadrantReturn d s) := .next (.ite (.withDie h) h)

/-! ### Commands of the clocks -/

theorem Stays.coastDie {d} [Off u .dies] (h : Stays u a s) : Stays u a (s.coastDie d) := .genCoast (.markDieGauges (.withDie h))

theorem Stays.enterCoast {i lock} [Off u .dies] (h : Stays u a s) : Stays u a (s.enterCoast i lock) := by
  unfold State.enterCoast
  dsimp only
  split
  · exact .coastDie (.bb (.setEvBit (.bump (.withPll h))))
  · exact .bb (.setEvBit (.bump (.withPll h)))

theorem Stays.refLost {i} [Off u .dies] (h : Stays u a s) : Stays u a (s.refLost i) := by
  unfold State.refLost
  refine .ite h ?_
  split
  · exact .bump (.enterCoast h)
  · exact .bump (.withPll h)
  · exact .withPll h
  · exact .withPll h
  · exact h

theorem StaysAfter.referenceLoss [Off u .dies] (h : Stays u a s) :
    StaysAfter u a (execReferenceLoss s) := .next (.setEvBit (.foldl .refLost h))

theorem Stays.failAttempt {i} (h : Stays u a s) : Stays u a (s.failAttempt i) := .bump (.withPll h)

theorem StaysAfter.lockLoss {i} [Off u .dies] (h : Stays u a s) : StaysAfter u a (execLockLoss i s) :=
  .next (.ite h (.ite (.failAttempt (.enterCoast h)) (.enterCoast h)))

theorem Stays.clockSeal {ds estimate} [Off u .pins] [Off u .dies] [Off u .basin] (h : Stays u a s) :
    Stays u a (s.clockSeal ds estimate) := .ite h (.bb (.setEvBit (.foldl .endDie h)))

theorem StaysAfter.coastEstimate {i estimate} [Off u .pins] [Off u .dies] [Off u .basin] (h : Stays u a s) :
    StaysAfter u a (execCoastEstimate i estimate s) :=
  .next (.ite (.when (.putInt (.withPll h)) .clockSeal) h)

theorem StaysAfter.coastEstimateTimeout {i} [Off u .pins] [Off u .dies] [Off u .basin] (h : Stays u a s) :
    StaysAfter u a (execCoastEstimateTimeout i s) := .next (.ite (.clockSeal h) h)

theorem Stays.reenter {i residual} [Off u .pins] [Off u .dies] [Off u .basin] (h : Stays u a s) : Stays u a (s.reenter i residual) := by
  unfold State.reenter
  extract_lets r s1 s2 s3 _ s4
  have h3 : Stays u a s3 := .bb (.setEvBit (.put (.putInt (.withPll h))))
  have h4 : Stays u a s4 := by
    refine .ite ?_ h3
    split
    · exact .update h3
    · exact h3
  split
  · exact .when (.withDie h4) (.runDie .rephase)
  · exact h4

theorem Stays.takeWanted {i} (h : Stays u a s) : Stays u a (s.takeWanted i) := by
  unfold State.takeWanted
  split
  · exact .startPll (.withPll h)
  · exact h

theorem StaysAfter.reentry {i residual} [Off u .pins] [Off u .dies] [Off u .basin] (h : Stays u a s) :
    StaysAfter u a (execReentry i residual s) :=
  .next (.ite (.takeWanted (.reenter h)) (.ite (.withPll h) h))

theorem StaysAfter.reentryAttempt {i residual} [Off u .pins] [Off u .dies] [Off u .basin] (h : Stays u a s) :
    StaysAfter u a (execReentryAttempt i residual s) :=
  .next (.ite (.takeWanted (.reenter h)) h)

theorem Stays.relockChan {i} (h : Stays u a s) : Stays u a (s.relockChan i) := by
  unfold State.relockChan
  split
  · exact .ite (.withChan h) h
  · exact h

theorem StaysAfter.lockConfirmed {i locked} [Off u .dies] (h : Stays u a s) : StaysAfter u a (execLockConfirmed i locked s) :=
  .next (.ite (.ite (.relockChan (.withPll h)) (.failAttempt (.enterCoast h))) h)

theorem Stays.bandFound {i band tuning} (h : Stays u a s) :
    Stays u a (s.bandFound i band tuning) := .setEvBit (.bump (.withPll (.update h)))

theorem Stays.returnPll {i back} (h : Stays u a s) : Stays u a (s.returnPll i back) := by
  unfold State.returnPll
  split
  · exact h
  · exact .startPll h
  · exact .restSpll h
  · exact .stopPll h

theorem StaysAfter.bandSearchDone {i band tuning} (h : Stays u a s) : StaysAfter u a (execBandSearchDone i band tuning s) :=
  .next (.ite (.relockChan (.takeWanted (.returnPll (.bandFound h)))) h)

theorem Stays.beginReval {i} (h : Stays u a s) : Stays u a (s.beginReval i) := .withPll h

theorem StaysAfter.bandRevalidate {mask via} (h : Stays u a s) : StaysAfter u a (execBandRevalidate mask via s) :=
  .next (.onPath (.foldl (fun h2 => .ite (.beginReval h2) (.ignoreOp h2))) h)

theorem Stays.dueBands (h : Stays u a s) : Stays u a s.dueBands := .foldl .makeDue h

theorem StaysAfter.spreadChange {v via} (h : Stays u a s) : StaysAfter u a (execSpreadChange v via s) :=
  .next (.onPath (fun h1 => have h2 := .ite h1 (.clampOp h1); .ite (.update (.putNat h2)) (.update (.putNat h2))) h)

theorem StaysAfter.elasticBufferSeal {d} [Off u .pins] [Off u .dies] [Off u .basin] (h : Stays u a s) :
    StaysAfter u a (execElasticBufferSeal d s) :=
  .next (.ite (.clockSeal h) (.ite (.clockSeal h) h))

theorem StaysAfter.mpllCoastSelfRefresh {c} (h : Stays u a s) :
    StaysAfter u a (execMpllCoastSelfRefresh c s) := .next (.ite (.bb (.bump (.withChan h))) h)

/-! ### Gauges -/

theorem Stays.clampGauge {g} (h : Stays u a s) : Stays u a (s.clampGauge g).1 :=
  .when (.ite (.clampOp (.putNat h)) h) (fun h1 => .clampOp (.putInt h1))

theorem Stays.freshResult {g} (h : Stays u a s) : Stays u a (s.freshResult g) := .withGauge h
theorem Stays.openGate {g at_ tw len} (h : Stays u a s) : Stays u a (s.openGate g at_ tw len) := .withGauge (.freshResult h)

theorem Stays.sendResult {g at_ flags vals} (h : Stays u a s) : Stays u a (s.sendResult g at_ flags vals) :=
  .bump (.foldl .putInt (.putNat (.put h)))

theorem Stays.publish {g at_ flags vals} (h : Stays u a s) : Stays u a (s.publish g at_ flags vals) :=
  .ite (.sendResult (.withGauge h)) (.withGauge (.withGauge h))

theorem Stays.sendUnsent (h : Stays u a s) : Stays u a s.sendUnsent := .foldl (fun h1 => .withGauge (.foldl .sendResult h1)) h
theorem Stays.publishPartial {g at_} (h : Stays u a s) : Stays u a (s.publishPartial g at_) := .ite (.publish h) h
theorem Stays.endGauge {g st} (h : Stays u a s) : Stays u a (s.endGauge g st) := .restSpll (.withGauge h)
theorem Stays.setDone {g at_} (h : Stays u a s) : Stays u a (s.setDone g at_) := .ite (.freshResult (.publish h)) (.endGauge (.publish h))
theorem Stays.overspeed {g} (h : Stays u a s) : Stays u a (s.overspeed g) := .bump (.withGauge h)

theorem Stays.freqEdge {g x} (h : Stays u a s) : Stays u a (s.freqEdge g x) := by
  unfold State.freqEdge
  refine .ite (.withGauge h) ?_
  split
  · exact .withGauge h
  · exact .ite (.overspeed (.withGauge h)) (.withGauge (.withGauge h))
  · exact .ite (.overspeed (.withGauge (.withGauge h))) (.withGauge (.withGauge h))

theorem Stays.shotMissed {g} (h : Stays u a s) : Stays u a (s.shotMissed g) := by
  unfold State.shotMissed
  dsimp only
  split
  · exact .when (.bump (.withGauge h)) .overspeed
  · exact .bump (.withGauge h)

theorem Stays.pairShot {g x b} (h : Stays u a s) : Stays u a (s.pairShot g x b) :=
  .ite (.overspeed (.withGauge h)) (.when (.withGauge (.withGauge h)) .setDone)

theorem Stays.stopUnused {g e} (h : Stays u a s) : Stays u a (s.stopUnused g e) := .bump h
theorem Stays.pruneStops {g before} (h : Stays u a s) : Stays u a (s.pruneStops g before) := .foldl .stopUnused (.withGauge h)

theorem Stays.expireShot {g x} (h : Stays u a s) : Stays u a (s.expireShot g x) := by
  unfold State.expireShot
  split
  · exact .ite (.shotMissed h) h
  · exact h

theorem Stays.shotEdge {g x} (h : Stays u a s) : Stays u a (s.shotEdge g x) := by
  unfold State.shotEdge
  dsimp only
  refine .ite (.bump (.expireShot h)) (.ite (.bump (.withGauge (.expireShot h))) (.ite (.withGauge (.expireShot h)) ?_))
  split
  · exact .pairShot (.withGauge (.withGauge (.pruneStops (.withGauge (.expireShot h)))))
  · exact .withGauge (.pruneStops (.withGauge (.expireShot h)))

theorem Stays.keepStop {g e} (h : Stays u a s) : Stays u a (s.keepStop g e) :=
  .ite (.withGauge (.pruneStops h)) (.foldl .stopUnused (.withGauge (.pruneStops h)))

theorem Stays.stopEdge {g x} (h : Stays u a s) : Stays u a (s.stopEdge g x) := by
  unfold State.stopEdge
  dsimp only
  refine .ite (.bump (.expireShot h)) ?_
  split
  · exact .pairShot (.withGauge (.expireShot h))
  · exact .ite (.keepStop (.withGauge (.expireShot h))) (.stopUnused (.withGauge (.expireShot h)))

theorem Stays.afterGate {g} (h : Stays u a s) : Stays u a (s.afterGate g) := by
  unfold State.afterGate
  refine .ite (.endGauge h) (.ite (.withGauge (.freshResult h)) ?_)
  split
  · exact .withGauge (.openGate h)
  · exact .openGate h

theorem Stays.closeGate {g} (h : Stays u a s) : Stays u a (s.closeGate g) := .afterGate (.ite (.publishPartial h) (.publish h))
theorem Stays.gatePast {g at_} (h : Stays u a s) : Stays u a (s.gatePast g at_) := .ite (.closeGate h) h

theorem Stays.slotGate {k target} (h : Stays u a s) : Stays u a (s.slotGate k target) :=
  .foldl (fun h1 => .ite (.ite (.bump h1) (.openGate h1)) h1) h

theorem Stays.abortGauges (h : Stays u a s) : Stays u a s.abortGauges := .update h

/-! ### Commands of the gauges -/

theorem StaysAfter.gaugeStart {g via} (h : Stays u a s) : StaysAfter u a (execGaugeStart g via s) :=
  .next (.onPath (fun h1 => .ite h1 (.ite (.ignoreOp h1) (.ite (.ignoreOp h1) (.freshResult (.needSpll (.withGauge (.foldl .putNat
    (.putNat (.clampGauge h1))))))))) h)

theorem StaysAfter.gaugeStop {g via} (h : Stays u a s) : StaysAfter u a (execGaugeStop g via s) :=
  .next (.onPath (fun h1 => .ite h1 (.ite (.endGauge (.publishPartial h1)) (.ignoreOp h1))) h)

theorem StaysAfter.gaugeStampingBegin {g} (h : Stays u a s) : StaysAfter u a (execGaugeStampingBegin g s) := by
  unfold execGaugeStampingBegin
  refine .next (.ite ?_ h)
  split
  · exact .openGate (.withGauge h)
  · exact .withGauge h
  · exact .openGate (.withGauge h)

theorem StaysAfter.gateClose {g} (h : Stays u a s) : StaysAfter u a (execGateClose g s) := .next (.ite (.closeGate h) h)

theorem Stays.gaugeEdge {g ch at_ f} (hf : ∀ {t x}, Stays u a t → Stays u a (f t x)) (h : Stays u a s) :
    Stays u a (s.gaugeEdge g ch at_ f) :=
  .ite h (.when (.gatePast h) hf)

theorem StaysAfter.gaugeStartEdge {g e} (h : Stays u a s) : StaysAfter u a (execGaugeStartEdge g e s) :=
  .next (.ite (.gaugeEdge (fun h1 => .ite (.shotEdge h1) (.freqEdge h1)) h) h)

theorem StaysAfter.gaugeStopEdge {g e} (h : Stays u a s) :
    StaysAfter u a (execGaugeStopEdge g e s) := .next (.ite (.gaugeEdge .stopEdge h) h)

theorem StaysAfter.shotTimeout {g} (h : Stays u a s) : StaysAfter u a (execShotTimeout g s) := .next (.ite (.shotMissed h) h)

theorem StaysAfter.gaugeTimeout {g} (h : Stays u a s) :
    StaysAfter u a (execGaugeTimeout g s) := .next (.ite (.endGauge (.publishPartial h)) h)

/-! ### Ethernet ports -/

theorem Stays.bulkEnd {status} (h : Stays u a s) : Stays u a (s.bulkEnd status) := .putNat (.update h)

theorem Stays.bulkAbort {p} (h : Stays u a s) : Stays u a (s.bulkAbort p) := by
  unfold State.bulkAbort
  split
  · exact .ite (.bulkEnd h) h
  · exact h

theorem Stays.bulkBegin {p addr} (h : Stays u a s) : Stays u a (s.bulkBegin p addr) := .ite (.bulkEnd (.update h)) (.putNat (.update h))

theorem Stays.bulkStart {via addr} (h : Stays u a s) : Stays u a (s.bulkStart via addr) := by
  unfold State.bulkStart
  refine .ite (.ignoreOp h) ?_
  split
  · exact .ignoreOp h
  · exact .ite (.ignoreOp h) (.ite (.putNat h) (.bulkBegin h))

theorem Stays.bulkSend {b data} (h : Stays u a s) : Stays u a (s.bulkSend b data) := .when (.update (.emit (.ite (.dsAccess h) h))) .bulkEnd

theorem Stays.ethDown {p} (h : Stays u a s) : Stays u a (s.ethDown p) := by
  unfold State.ethDown
  refine .when (.bulkAbort h) (fun h1 => .elect (.withPort ?_))
  split
  · exact .when (.bump (.setEvBit h1)) .bb
  · exact .bump (.setEvBit h1)

theorem Stays.ethEnable {p on} [Off u .tb] (h : Stays u a s) : Stays u a (s.ethEnable p on) := .ptpSettle (.unless (.putNat h) .ethDown)
theorem Stays.settleFec {p via} (h : Stays u a s) : Stays u a (s.settleFec p via) := .ite (.putNat (.clampOp h)) h

theorem Stays.setPort {p sub v via} (h : Stays u a s) : Stays u a (s.setPort p sub v via) :=
  .ite (.putNat (.clampOp h)) (.settleFec (.writeField h))

theorem Stays.reconfigure {p sub v via} (h : Stays u a s) : Stays u a (s.reconfigure p sub v via) := .ethDown (.setPort h)

/-! ### Commands of the Ethernet ports -/

theorem StaysAfter.portReconfigure {p sub value via} (h : Stays u a s) : StaysAfter u a (execPortReconfigure p sub value via s) := by
  unfold execPortReconfigure
  refine .next (.onPath (fun h1 => ?_) h)
  split
  · exact .ite (.reconfigure h1) h1
  · exact h1

theorem StaysAfter.ethLinkLoss {p} (h : Stays u a s) : StaysAfter u a (execEthLinkLoss p s) := .next (.ethDown h)

theorem StaysAfter.ethLinkUp {p} [Off u .tb] (h : Stays u a s) :
    StaysAfter u a (execEthLinkUp p s) := .next (.ite (.ptpSettle (.reportGroups (.withPort h))) h)

theorem StaysAfter.bulkReadoutStart {via addr} (h : Stays u a s) :
    StaysAfter u a (execBulkReadoutStart via addr s) := .next (.onPath .bulkStart h)

theorem StaysAfter.bulkReadoutDatagram (h : Stays u a s) : StaysAfter u a (execBulkReadoutDatagram s) := by
  unfold execBulkReadoutDatagram
  refine .next ?_
  split
  · exact h
  · refine .ite ?_ h
    split
    · exact .bulkSend h
    · exact h

/-! ### Commands of IEEE 1588 time -/

theorem Stays.hearSync {p m} [Off u .tb] [Off u .dies] (h : Stays u a s) : Stays u a (s.hearSync p m) :=
  .ite h (.ite (.bump h) (.ite (.update (.dropWaiting h)) (.takeSync h)))

theorem StaysAfter.syncReceive {p m} [Off u .tb] [Off u .dies] (h : Stays u a s) :
    StaysAfter u a (execSyncReceive p m s) := .next (.ptpFrame .hearSync h)

theorem Stays.hearFollowUp {p m} [Off u .tb] [Off u .dies] (h : Stays u a s) : Stays u a (s.hearFollowUp p m) := by
  unfold State.hearFollowUp
  refine .ite h ?_
  split
  · exact h
  · exact .ite (.ite (.bump (.update h)) (.takeSync (.update h))) h

theorem StaysAfter.followUpReceive {p m} [Off u .tb] [Off u .dies] (h : Stays u a s) :
    StaysAfter u a (execFollowUpReceive p m s) := .next (.ptpFrame .hearFollowUp h)

theorem Stays.hearAnnounce {p m} (h : Stays u a s) : Stays u a (s.hearAnnounce p m) := .ite h (.elect (.withPort h))
theorem StaysAfter.announceReceive {p m} (h : Stays u a s) : StaysAfter u a (execAnnounceReceive p m s) := .next (.ptpFrame .hearAnnounce h)
theorem Stays.hearDelayReq {p m} (h : Stays u a s) : Stays u a (s.hearDelayReq p m) := .ite (.sendPtp h) h
theorem StaysAfter.delayReqReceive {p m} (h : Stays u a s) : StaysAfter u a (execDelayReqReceive p m s) := .next (.ptpFrame .hearDelayReq h)

theorem Stays.hearDelayResp {p m} [Off u .tb] (h : Stays u a s) : Stays u a (s.hearDelayResp p m) := by
  unfold State.hearDelayResp
  dsimp only
  refine .ite h ?_
  split
  · exact h
  · split
    · exact .takeDelay (.withPort h)
    · exact .withPort h

theorem StaysAfter.delayRespReceive {p m} [Off u .tb] (h : Stays u a s) :
    StaysAfter u a (execDelayRespReceive p m s) := .next (.ptpFrame .hearDelayResp h)

theorem Stays.hearPdelayReq {p m egress} (h : Stays u a s) : Stays u a (s.hearPdelayReq p m egress) :=
  .ite (.queueStamp (.withPort (.sendPtp h))) h

theorem StaysAfter.pdelayReqReceive {p m egress} (h : Stays u a s) : StaysAfter u a (execPdelayReqReceive p m egress s) :=
  .next (.ptpFrame .hearPdelayReq h)

theorem Stays.hearPdelayResp {p m} [Off u .tb] (h : Stays u a s) : Stays u a (s.hearPdelayResp p m) := by
  unfold State.hearPdelayResp
  refine .ite h ?_
  split
  · exact h
  · refine .ite ?_ (.ite (.withPort h) ?_)
    · split
      · exact .takeDelay (.withPort h)
      · exact h
    · split
      · exact .takeDelay (.withPort h)
      · exact .withPort h

theorem StaysAfter.pdelayRespReceive {p m} [Off u .tb] (h : Stays u a s) :
    StaysAfter u a (execPdelayRespReceive p m s) := .next (.ptpFrame .hearPdelayResp h)

theorem Stays.hearManagement {p} (h : Stays u a s) : Stays u a (s.hearManagement p) := .ite (.bump h) h

theorem StaysAfter.managementMessageReceive {p} (h : Stays u a s) :
    StaysAfter u a (execManagementMessageReceive p s) := .next (.ptpFrame .hearManagement h)

theorem StaysAfter.syncSend {p stamp} (h : Stays u a s) :
    StaysAfter u a (execSyncSend p stamp s) := .next (.ite (.queueStamp (.sendPtp (.withPort h))) h)

theorem StaysAfter.announceSend {p} (h : Stays u a s) : StaysAfter u a (execAnnounceSend p s) := .next (.ite (.sendPtp (.withPort h)) h)

theorem StaysAfter.delayReqSend {p stamp} (h : Stays u a s) : StaysAfter u a (execDelayReqSend p stamp s) :=
  .next (.ite (.ite (.queueStamp (.sendPtp (.withPort (.missDelay h)))) (.queueStamp (.sendPtp (.withPort (.missDelay h))))) h)

theorem Stays.monitorExpired {cause} [Off u .tb] (h : Stays u a s) :
    Stays u a (s.monitorExpired cause) := .when (.setEvBit h) .enterHoldover

theorem StaysAfter.syncTimeout [Off u .tb] (h : Stays u a s) : StaysAfter u a (execSyncTimeout s) :=
  .next (.ite (.ite (.monitorExpired h) (.ite (.enterHoldover h) h)) h)

theorem Stays.announceLost {p} [Off u .tb] (h : Stays u a s) : Stays u a (s.announceLost p) := by
  unfold State.announceLost
  split
  · exact h
  · exact .ite (.elect (.withPort (.ite (.monitorExpired h) h))) h

theorem StaysAfter.announceReceiptTimeout [Off u .tb] (h : Stays u a s) :
    StaysAfter u a (execAnnounceReceiptTimeout s) := .next (.announceLost (.announceLost h))

/-! ### DMA jobs and the function -/

theorem Stays.withDma {k f} (h : Stays u a s) : Stays u a (s.withDma k f) := .update h

theorem Stays.issueRead {k use addr len} (h : Stays u a s) (e : s.issueRead k use addr len = some t) : Stays u a t := by
  unfold State.issueRead at e
  split at e
  · split at e
    · exact Option.some.inj e ▸ .emit (.update h)
    · cases e
  · cases e

theorem Stays.pumpJob {k n} (h : Stays u a s) : Stays u a (s.pumpJob k n) := by
  induction n generalizing s with
  | zero => exact h
  | succ n ih =>
    unfold State.pumpJob
    split
    · exact h
    · refine .ite ?_ h
      dsimp only
      split
      next t e => exact ih (.withDma (.issueRead h e))
      next => exact h

theorem Stays.pump {k} (h : Stays u a s) : Stays u a (s.pump k) := .pumpJob h
theorem Stays.toHost {relaxed addr bs} (h : Stays u a s) : Stays u a (s.toHost relaxed addr bs) := .update h
theorem Stays.dataToHost {addr bs} (h : Stays u a s) : Stays u a (s.dataToHost addr bs) := .toHost h

theorem Stays.intoDeep {x bs} [Off u .dsMem] (h : Stays u a s) : Stays u a (s.intoDeep x bs) := by
  refine .ite (.updateDsMem (memWriteBlock_wf _ _ _) h) (.updateDsMem (foldl_memory_wf (fun hm => ?_)) h)
  split
  · exact memWrite_wf _ _ _ hm
  · exact hm

theorem Stays.writeStatus {k status done} [Off u .ram] (h : Stays u a s) :
    Stays u a (s.writeStatus k status done) := .unless (.hkcRam h) .toHost

theorem Stays.jobVector {k status irq} (h : Stays u a s) : Stays u a (s.jobVector k status irq) := .ite (.ite (.raise h) h) (.raise h)
theorem Stays.countJob {k status moved} (h : Stays u a s) : Stays u a (s.countJob k status moved) := .bumpBy (.bump h)

theorem Stays.endJob {k status} [Off u .ram] (h : Stays u a s) : Stays u a (s.endJob k status) :=
  .jobVector (.unless (.withDma (.update (.countJob (.writeStatus h)))) .setEvBit)

theorem Stays.cutShort {k} (h : Stays u a s) : Stays u a (s.cutShort k) := by
  unfold State.cutShort
  split
  · exact h
  · exact .ite h (.withDma (.dataToHost (.drawn h)))

theorem Stays.haltJob {k status} [Off u .ram] (h : Stays u a s) : Stays u a (s.haltJob k status) := .ite (.endJob (.cutShort h)) h
theorem Stays.haltAll {status} [Off u .ram] (h : Stays u a s) : Stays u a (s.haltAll status) := .foldl .haltJob h
theorem Stays.beginJob {k d} (h : Stays u a s) : Stays u a (s.beginJob k d) := .pump (.when (.withDma h) .dsAsk)

theorem Stays.kick {k} (h : Stays u a s) : Stays u a (s.kick k) := by
  unfold State.kick
  refine .ite (.ite (.unless (.hkcReads h) .beginJob) ?_) h
  split
  next t e => exact .withDma (.issueRead h e)
  next => exact h

theorem Stays.kickAll (h : Stays u a s) : Stays u a s.kickAll := .foldl (fun h1 => .pump (.kick h1)) h
theorem Stays.bmeOff [Off u .ram] (h : Stays u a s) : Stays u a s.bmeOff := .ite (.when (.haltAll (.update h)) .setEvBit) h
theorem Stays.bmeOn (h : Stays u a s) : Stays u a s.bmeOn := .ite h (.kickAll (.flushAll (.update h)))
theorem Stays.enterD3 [Off u .ram] (h : Stays u a s) : Stays u a s.enterD3 := .ite (.update (.when (.haltAll (.update h)) .setEvBit)) h
theorem Stays.leaveD3 (h : Stays u a s) : Stays u a s.leaveD3 := .ite (.flushAll (.update h)) h
theorem Stays.resetFunction [Off u .guard] [Off u .ram] (h : Stays u a s) : Stays u a s.resetFunction := .mbReset (.updateGuard h)
theorem Stays.retireTags (h : Stays u a s) : Stays u a s.retireTags := .update h
theorem Stays.beginReset {flr} [Off u .ram] (h : Stays u a s) : Stays u a (s.beginReset flr) := .bump (.update (.haltAll h))

theorem Stays.linkLost {ltssm} [Off u .guard] [Off u .ram] (h : Stays u a s) : Stays u a (s.linkLost ltssm) := by
  unfold State.linkLost
  exact .bb (.bump (.resetFunction (.retireTags (.haltAll (.update h)))))

theorem Stays.withCfg {f} (h : Stays u a s) : Stays u a (s.withCfg f) := .update h
theorem Stays.withMsix {f} (h : Stays u a s) : Stays u a (s.withMsix f) := .update h
theorem Stays.startFlr [Off u .ram] (h : Stays u a s) : Stays u a s.startFlr := .ite (.beginReset h) h
theorem Stays.clearPme (h : Stays u a s) : Stays u a s.clearPme := .update h

theorem Stays.writeCommand {v be} [Off u .ram] (h : Stays u a s) : Stays u a (s.writeCommand v be) :=
  .when (.when (.ite (.ite (.bmeOn (.withCfg h)) (.bmeOff (.withCfg h))) h) .withCfg) .update

theorem Stays.writePmcsr {v be} [Off u .ram] (h : Stays u a s) : Stays u a (s.writePmcsr v be) :=
  .when (.ite (.ite (.enterD3 h) (.ite (.leaveD3 h) h)) h) (fun h1 => .when (.withCfg h1) .clearPme)

theorem Stays.writeMsixCtl {v be} (h : Stays u a s) : Stays u a (s.writeMsixCtl v be) := .ite (.flushAll (.withMsix h)) h

theorem Stays.writeDevCtl {v be} [Off u .ram] (h : Stays u a s) : Stays u a (s.writeDevCtl v be) :=
  .when (.ite (.withCfg h) h) (fun h1 => .when (.withCfg h1) .startFlr)

theorem Stays.writeDevCtl2 {v be} (h : Stays u a s) : Stays u a (s.writeDevCtl2 v be) := .when (.ite (.withCfg h) h) .withCfg

theorem Stays.writeCfg {off v be} [Off u .ram] (h : Stays u a s) : Stays u a (s.writeCfg off v be) := by
  unfold State.writeCfg
  split
  · exact .writeCommand h
  · exact .ite (.withCfg h) h
  · exact .withCfg h
  · exact .withCfg h
  · exact .withCfg h
  · exact .withCfg h
  · exact .withCfg h
  · exact .withCfg h
  · exact .ite (.withCfg h) h
  · exact .writePmcsr h
  · exact .writeMsixCtl h
  · exact .writeDevCtl h
  · exact .ite (.withCfg h) h
  · exact .writeDevCtl2 h
  · exact .update h
  · exact .withCfg h
  · exact .withCfg h
  · exact .withCfg h
  · exact h

/-! ### Commands of the endpoint -/

theorem Stays.dmaRun {k} (h : Stays u a s) : Stays u a (s.dmaRun k) := .ite h (.kick (.withDma h))
theorem Stays.dmaAbort {k} [Off u .ram] (h : Stays u a s) : Stays u a (s.dmaAbort k) := .haltJob h
theorem Stays.dmaStop {k} [Off u .ram] (h : Stays u a s) : Stays u a (s.dmaStop k) := .withDma (.dmaAbort h)
theorem Stays.dmaResume {k} (h : Stays u a s) : Stays u a (s.dmaResume k) := .ite (.ignoreOp h) (.ite (.kick (.withDma h)) h)
theorem StaysAfter.dmaRun {k} [Off u .guard] (h : Stays u a s) : StaysAfter u a (execDmaRun k s) := .next (.onBar0 .dmaRun h)

theorem StaysAfter.dmaStop {k} [Off u .guard] [Off u .ram] (h : Stays u a s) :
    StaysAfter u a (execDmaStop k s) := .next (.onBar0 .dmaStop h)

theorem StaysAfter.dmaAbort {k} [Off u .guard] [Off u .ram] (h : Stays u a s) :
    StaysAfter u a (execDmaAbort k s) := .next (.onBar0 .dmaAbort h)

theorem StaysAfter.dmaResume {k} [Off u .guard] (h : Stays u a s) : StaysAfter u a (execDmaResume k s) := .next (.onBar0 .dmaResume h)
theorem Stays.dmaProd {k i} (h : Stays u a s) : Stays u a (s.dmaProd k i) := .kick (.withDma h)

theorem StaysAfter.dmaProducerWrite {k i} [Off u .guard] (h : Stays u a s) :
    StaysAfter u a (execDmaProducerWrite k i s) := .next (.onBar0 .dmaProd h)

theorem Stays.finishToHost {k j} [Off u .ram] (h : Stays u a s) :
    Stays u a (s.finishToHost k j) := .endJob (.withDma (.when (.dataToHost h) .dsServed))

theorem Stays.finishJob {k j} [Off u .ram] (h : Stays u a s) : Stays u a (s.finishJob k j) := by
  unfold State.finishJob
  split
  · exact .endJob h
  · exact .ite h (.ite (.ite (.endJob (.dsServed h)) h) (.ite (.finishToHost h) h))

theorem StaysAfter.dmaJobComplete {k} [Off u .ram] (h : Stays u a s) : StaysAfter u a (execDmaJobComplete k s) := by
  unfold execDmaJobComplete
  refine .next ?_
  split
  · exact h
  · exact .kick (.finishJob h)

theorem Stays.logRead {tag cause} (h : Stays u a s) : Stays u a (s.logRead tag cause) := .update h
theorem Stays.readFailed {e} [Off u .ram] (h : Stays u a s) : Stays u a (s.readFailed e) := .ite (.endJob h) h
theorem Stays.descriptorHere {k bs} [Off u .ram] (h : Stays u a s) : Stays u a (s.descriptorHere k bs) := .beginJob (.hkcRam h)
theorem Stays.dataHere {e x bs} [Off u .dsMem] (h : Stays u a s) : Stays u a (s.dataHere e x bs) := .pump (.withDma (.intoDeep h))

theorem Stays.completed {e st bs} [Off u .dsMem] [Off u .ram] (h : Stays u a s) : Stays u a (s.completed e st bs) := by
  unfold State.completed
  split
  · exact .bump (.update h)
  · exact .readFailed (.logRead (.update h))
  · exact .readFailed (.logRead (.update h))
  · exact .readFailed (.logRead (.update h))
  · exact .descriptorHere (.update h)
  · exact .dataHere (.update h)

theorem StaysAfter.pcieCompletionReceive {tag st data} [Off u .dsMem] [Off u .ram] (h : Stays u a s) :
    StaysAfter u a (execPcieCompletionReceive tag st data s) := by
  unfold execPcieCompletionReceive
  refine .next (.ite (.bump (.setEvBit h)) ?_)
  split
  · exact .kickAll (.completed h)
  · exact h

theorem StaysAfter.completionTimeout {tag} [Off u .ram] (h : Stays u a s) : StaysAfter u a (execCompletionTimeout tag s) := by
  unfold execCompletionTimeout
  refine .next ?_
  split
  · refine .ite h ?_
    split
    · exact .logRead (.bump (.update h))
    · exact .readFailed (.logRead (.bump (.update h)))
    · exact .readFailed (.logRead (.bump (.update h)))
  · exact h

theorem StaysAfter.busMasterDisable [Off u .ram] (h : Stays u a s) : StaysAfter u a (execBusMasterDisable s) := .next (.ite (.bmeOff h) h)
theorem StaysAfter.busMasterEnable (h : Stays u a s) : StaysAfter u a (execBusMasterEnable s) := .next (.ite (.bmeOn h) h)
theorem StaysAfter.d3hotEntry [Off u .ram] (h : Stays u a s) : StaysAfter u a (execD3hotEntry s) := .next (.ite (.enterD3 h) h)
theorem StaysAfter.d0Return (h : Stays u a s) : StaysAfter u a (execD0Return s) := .next (.ite (.leaveD3 h) h)
theorem Stays.maskVector {v on} (h : Stays u a s) : Stays u a (s.maskVector v on) := .flushVector (.withMsix h)

theorem StaysAfter.msixUnmask {what} (h : Stays u a s) : StaysAfter u a (execMsixUnmask what s) := by
  unfold execMsixUnmask
  refine .next ?_
  split
  · exact .ite (.maskVector h) (.emit h)
  · exact .ite (.flushAll (.withMsix h)) h
  · exact .ite (.flushAll (.withMsix h)) h

theorem StaysAfter.pmeStatusClear (h : Stays u a s) : StaysAfter u a (execPmeStatusClear s) := .next (.ite (.clearPme h) h)

theorem StaysAfter.configurationWrite {off value be} [Off u .ram] (h : Stays u a s) :
    StaysAfter u a (execConfigurationWrite off value be s) :=
  .ite .fault (.next (.ite (.writeCfg h) h))

theorem StaysAfter.functionLevelReset [Off u .ram] (h : Stays u a s) : StaysAfter u a (execFunctionLevelReset s) := .next (.startFlr h)
theorem StaysAfter.hotReset [Off u .ram] (h : Stays u a s) : StaysAfter u a (execHotReset s) := .next (.ite (.update (.beginReset h)) h)

theorem StaysAfter.flrWaitEnd [Off u .guard] [Off u .ram] (h : Stays u a s) :
    StaysAfter u a (execFlrWaitEnd s) := .next (.ite (.resetFunction (.retireTags h)) h)

theorem StaysAfter.retiredTagExpiry {tag} (h : Stays u a s) : StaysAfter u a (execRetiredTagExpiry tag s) := by
  unfold execRetiredTagExpiry
  refine .next ?_
  split
  · exact .ite (.kickAll (.update h)) h
  · exact h

theorem StaysAfter.pcieLinkLoss {ltssm} [Off u .guard] [Off u .ram] (h : Stays u a s) :
    StaysAfter u a (execPcieLinkLoss ltssm s) := .next (.ite (.linkLost h) h)

theorem StaysAfter.pcieLinkUp {rate width} (h : Stays u a s) : StaysAfter u a (execPcieLinkUp rate width s) := .next (.ite (.update h) h)

/-! ### Commands of the pattern generators -/

theorem Stays.genCommand {d via f} [Off u .guard] (hf : ∀ {t}, Stays u a t → Stays u a (f t)) (h : Stays u a s) :
    Stays u a (s.genCommand d via f) :=
  .byPath (fun h1 => .ite (hf h1) h1) h

theorem Stays.primeCommand {d via} (h : Stays u a s) :
    Stays u a (s.primeCommand d via) := .ite (.ignoreOp h) (.ite (.ignoreOp h) (.genPrime h))

theorem StaysAfter.pgPrime {d via} [Off u .guard] (h : Stays u a s) :
    StaysAfter u a (execPgPrime d via s) := .next (.genCommand .primeCommand h)

theorem Stays.startCommand {d via} (h : Stays u a s) : Stays u a (s.startCommand d via) := by
  unfold State.startCommand
  refine .ite (.ignoreOp h) ?_
  split
  · exact .ite (.genPrime h) (.ignoreOp h)
  · exact .genRun h
  · exact .ignoreOp h
  · exact .ignoreOp h
  · exact .ignoreOp h
  · exact .ignoreOp h

theorem StaysAfter.pgStart {d via} [Off u .guard] (h : Stays u a s) :
    StaysAfter u a (execPgStart d via s) := .next (.genCommand .startCommand h)

theorem StaysAfter.pgReady {d} (h : Stays u a s) : StaysAfter u a (execPgReady d s) := by
  unfold execPgReady
  refine .next (.ite ?_ h)
  split
  · exact .genRefuse h
  · refine .ite h (have h1 := .putNat (.withGen h); .ite (.genRun h1) ?_)
    split
    · exact .bump (.withGen h1)
    · exact h1

theorem Stays.stopCommand {d via} (h : Stays u a s) : Stays u a (s.stopCommand d via) := by
  unfold State.stopCommand
  split
  · exact .ignoreOp h
  · exact .ignoreOp h
  · exact .genHalt h
  · exact .genHalt h
  · exact .genHalt h
  · exact .genHalt h

theorem StaysAfter.pgStop {d via} [Off u .guard] (h : Stays u a s) :
    StaysAfter u a (execPgStop d via s) := .next (.genCommand .stopCommand h)

theorem StaysAfter.pgJumpRequest {d src} [Off u .guard] (h : Stays u a s) : StaysAfter u a (execPgJumpRequest d src s) := by
  unfold execPgJumpRequest
  refine .next ?_
  split
  · exact .genCommand .genJump h
  · exact .genJump h
  · exact .ite h (.genTrigin h)

theorem StaysAfter.pgPassEnd {d} (h : Stays u a s) : StaysAfter u a (execPgPassEnd d s) :=
  .next (.ite (.when (.genSettle h) (fun h1 => .genAsk (.genPass h1))) h)

theorem StaysAfter.pgUnderrun {d} (h : Stays u a s) : StaysAfter u a (execPgUnderrun d s) := .next (.ite (.genAsk (.genSettle h)) h)
theorem StaysAfter.pgHoldEnd {d} (h : Stays u a s) : StaysAfter u a (execPgHoldEnd d s) := .next (.ite (.genRest h) h)

theorem StaysAfter.pgKnotStart {d} (h : Stays u a s) : StaysAfter u a (execPgKnotStart d s) := by
  unfold execPgKnotStart
  refine .next (.ite ?_ h)
  split
  · exact .genEnter h
  · exact h

theorem StaysAfter.syncinPulse {p} (h : Stays u a s) : StaysAfter u a (execSyncinPulse p s) :=
  .next (.unless (.ite (.emit h) h) (fun h1 => .genSync (.genSync h1)))

theorem StaysAfter.pgSyncStart {d} (h : Stays u a s) : StaysAfter u a (execPgSyncStart d s) := by
  unfold execPgSyncStart
  refine .next ?_
  split
  · exact .ite h (.ite (.genRun h) (.ite (.genEnter h) h))
  · exact h

theorem StaysAfter.pgTimeStart {d} (h : Stays u a s) : StaysAfter u a (execPgTimeStart d s) := by
  unfold execPgTimeStart
  refine .next ?_
  split
  · exact .ite (.genRun h) h
  · exact h

theorem StaysAfter.syncoutOriginate {via} (h : Stays u a s) : StaysAfter u a (execSyncoutOriginate via s) :=
  .next (.onPath (fun h1 => .ite (.emit h1) (.ignoreOp h1)) h)

theorem StaysAfter.pgSyncCalibration {d via} (h : Stays u a s) : StaysAfter u a (execPgSyncCalibration d via s) :=
  .next (.onPath (fun h1 => .ite h1 (.ite (.needSpll (.putNat (.withGen h1))) (.ignoreOp h1))) h)

theorem Stays.endSyncCal {d status} (h : Stays u a s) : Stays u a (s.endSyncCal d status) := .restSpll (.putNat (.withGen h))

theorem Stays.storeSyncCal {d mean} (h : Stays u a s) : Stays u a (s.storeSyncCal d mean) :=
  .endSyncCal (.putNat (.putNat (.putNat (.withGen (.drawn (.drawn h))))))

theorem StaysAfter.syncCalibrationEnd {d r} (h : Stays u a s) : StaysAfter u a (execSyncCalibrationEnd d r s) :=
  .next (.ite (.ite (.storeSyncCal h) (.ite (.endSyncCal h) h)) h)

theorem StaysAfter.loopCacheLoad {d via} (h : Stays u a s) : StaysAfter u a (execLoopCacheLoad d via s) :=
  .next (.onPath (fun h1 => .ite h1 (.ite (.ignoreOp h1) (.ite (.withGen h1) (.dsAsk (.withGen (.ite h1 (.clampOp h1))))))) h)

theorem StaysAfter.loopCacheLoadDone {d} [Off u .basin] (h : Stays u a s) : StaysAfter u a (execLoopCacheLoadDone d s) := by
  unfold execLoopCacheLoadDone
  refine .next (.ite h ?_)
  split
  · exact .genAsk (.withGen (.dsGroups (.dsServed (.updateBasin (fun _ => memWriteBlock_wf _ _ _) h))))
  · exact h

/-! ### Commands of knots -/

theorem Stays.takeQueued {kn} [Off u .dies] (h : Stays u a s) (e : s.takeQueued = some (kn, t)) : Stays u a t := by
  unfold State.takeQueued at e
  split at e
  · cases e
    exact .withDie h
  · cases e
    exact .withDie h
  · cases e
    exact .update h
  · cases e

theorem StaysAfter.knotSend [Off u .dies] (h : Stays u a s) : StaysAfter u a (execKnotSend s) := by
  unfold execKnotSend
  refine .ite (.next h) ?_
  split
  next e => exact .next (.sendKnot (.takeQueued h e))
  next => exact .next h

theorem Stays.sendHostKnot {cls} (h : Stays u a s) : Stays u a (s.sendHostKnot cls) := .ite (.update h) (.sendKnot h)

theorem StaysAfter.hostKnotSend {cls via} (h : Stays u a s) : StaysAfter u a (execHostKnotSend cls via s) :=
  .next (.onPath (fun h1 => .sendHostKnot (.ite h1 (.clampOp h1))) h)

theorem Stays.countArrival {x} (h : Stays u a s) : Stays u a (s.countArrival x) := by
  unfold State.countArrival
  split
  · exact h
  · exact .countFrame h
  · exact h

theorem Stays.strayKnot {x} (h : Stays u a s) : Stays u a (s.strayKnot x) := by
  unfold State.strayKnot
  split
  · exact h
  · exact .ite (.dropFrame (.countFrame h)) h
  · exact h

theorem StaysAfter.knotReceive {route bytes} (h : Stays u a s) : StaysAfter u a (execKnotReceive route bytes s) := by
  unfold execKnotReceive
  refine .next (.ite h ?_)
  split
  · exact .ite (.discardFrame h) h
  · exact .ite (.takeKnot (.countArrival h)) (.strayKnot h)

theorem Stays.knotToDie {d kn} [Off u .pins] [Off u .dies] [Off u .dsMem] [Off u .basin] (h : Stays u a s) :
    Stays u a (s.knotToDie d kn).1 := .ite_fst (.runDie .knotUses h) h

theorem Stays.knotToWatch {d kn} [Off u .dies] (h : Stays u a s) : Stays u a (s.knotToWatch d kn).1 := .ite_fst (.withDie h) h
theorem Stays.knotPme {kn} (h : Stays u a s) : Stays u a (s.knotPme kn).1 := .ite_fst (.emit (.update h)) h

theorem Stays.applyUses {us : List (State → State × Bool)} (hus : ∀ f ∈ us, ∀ {t}, Stays u a t → Stays u a (f t).1) (h : Stays u a s) :
    Stays u a (applyUses s us).1 := by
  unfold Machine.applyUses
  generalize false = b
  induction us generalizing s b with
  | nil => exact h
  | cons f us ih => exact ih (fun g hg => hus g (List.mem_cons_of_mem f hg)) (hus f List.mem_cons_self h) _

theorem Stays.dieKnot {kn} [Off u .pins] [Off u .dies] [Off u .dsMem] [Off u .basin] (h : Stays u a s) : Stays u a (s.dieKnot kn).1 := by
  refine .applyUses ?_ h
  simp only [List.forall_mem_cons, List.not_mem_nil, false_imp_iff, implies_true, and_true]
  exact ⟨.knotToDie, .knotToDie, .knotToWatch, .knotToWatch, .genKnot, .genKnot⟩

theorem Stays.countUse {q} (h : Stays u a q.1) : Stays u a (State.countUse q) := .ite h (.bump h)

theorem Stays.useKnot {kn} [Off u .pins] [Off u .dies] [Off u .dsMem] [Off u .basin] (h : Stays u a s) : Stays u a (s.useKnot kn) := by
  refine .countUse (.applyUses ?_ h)
  simp only [List.forall_mem_cons, List.not_mem_nil, false_imp_iff, implies_true, and_true]
  exact ⟨.dieKnot, .knotPme⟩

theorem Stays.holdKnot {x} (h : Stays u a s) : Stays u a (s.holdKnot x) := .ite (.update (.knotPme h)) (.countUse (.knotPme h))

theorem StaysAfter.knotDeliver [Off u .pins] [Off u .dies] [Off u .dsMem] [Off u .basin] (h : Stays u a s) :
    StaysAfter u a (execKnotDeliver s) := by
  unfold execKnotDeliver
  refine .ite (.next h) ?_
  split
  · exact .next h
  · exact .next (.ite (.holdKnot (.update h)) (.useKnot (.update h)))

theorem StaysAfter.duplicateEntryExpiry {node seq} (h : Stays u a s) :
    StaysAfter u a (execDuplicateEntryExpiry node seq s) := .next (.update h)

/-! ### Freeze and thaw -/

theorem Stays.endPulse {p} [Off u .pins] (h : Stays u a s) :
    Stays u a (s.endPulse p) := .when (.foldl .startPulse (.updatePins h)) (fun h1 => .emit (.updatePins h1))

theorem Stays.beginFreeze {full byReg} [Off u .guard] [Off u .power] [Off u .pins] [Off u .ram] (h : Stays u a s) :
    Stays u a (s.beginFreeze full byReg) :=
  .bb (.update (.when (.when (.genSettle (.genSettle (.endPulse (.endPulse (.put (.bump h)))))) .linkLost) .updatePower))

theorem Stays.ignoreFreeze (h : Stays u a s) : Stays u a s.ignoreFreeze := .bump h

theorem Stays.requestFreeze {full byReg} [Off u .guard] [Off u .power] [Off u .pins] [Off u .ram] (h : Stays u a s) :
    Stays u a (s.requestFreeze full byReg) := by
  unfold State.requestFreeze
  refine .ite (.ignoreFreeze h) ?_
  split
  · exact .beginFreeze h
  · exact .ite (.beginFreeze h) (.ignoreFreeze h)

theorem Stays.thawDie {took d} [Off u .pins] [Off u .dies] [Off u .basin] (h : Stays u a s) :
    Stays u a (s.thawDie took d) := .when (.withGen (.markDieGauges h)) (.runDie .thaw)

theorem Stays.thaw [Off u .pins] [Off u .dies] [Off u .dsMem] [Off u .basin] (h : Stays u a s) : Stays u a s.thaw := by
  unfold State.thaw
  split
  · exact h
  · exact .foldl (fun h1 => .countUse (.dieKnot h1)) (.foldl .thawDie (.bb (.setEvBit (.putNat (.update h)))))

theorem Stays.requestThaw [Off u .pins] [Off u .dies] [Off u .dsMem] [Off u .basin] (h : Stays u a s) : Stays u a s.requestThaw := by
  unfold State.requestThaw
  refine .ite (.ignoreFreeze h) ?_
  split
  · exact .ite (.thaw h) h
  · exact h

theorem Stays.writeFreeze {v} [Off u .host] [Off u .guard] [Off u .power] [Off u .pins] [Off u .dies] [Off u .dsMem] [Off u .basin]
    [Off u .ram] (h : Stays u a s) :
    Stays u a (s.writeFreeze v) := .when (.when (.updateHost h) .requestFreeze) .requestThaw

/-! ### Commands of the front end -/

theorem Stays.checkDelay {ch via} (h : Stays u a s) : Stays u a (s.checkDelay ch via) := .ite h (.clampOp h)

theorem Stays.checkDelays {idx sub via} (h : Stays u a s) : Stays u a (s.checkDelays idx sub via) :=
  .ite (.checkDelay h) (.ite (.foldl .checkDelay h) h)

theorem Stays.beginCal {d} [Off u .dies] (h : Stays u a s) :
    Stays u a (s.beginCal d) := .needSpll (.markDieGauges (.withDie (.ite (.startTask h) h)))

theorem Stays.markFine {d c wide} [Off u .dies] (h : Stays u a s) : Stays u a (s.markFine d c wide) := .when (.withDie (.putNat h)) .bb
theorem Stays.storeCal {d} [Off u .dies] (h : Stays u a s) : Stays u a (s.storeCal d) := .withDie (.update (.putNat (.putInt (.put h))))

theorem StaysAfter.calibrationComplete {d wide} [Off u .dies] (h : Stays u a s) : StaysAfter u a (execCalibrationComplete d wide s) :=
  .next (.ite (.restSpll (.when (.foldl .markFine (.storeCal h)) .bump)) h)

theorem StaysAfter.fullCalibrationCommand {mask via} [Off u .dies] (h : Stays u a s) :
    StaysAfter u a (execFullCalibrationCommand mask via s) :=
  .next (.onPath (fun h1 => .foldl (fun h2 => .ite h2 (.ite (.ignoreOp h2) (.ite (.beginCal h2) (.ignoreOp h2)))) (.ite (.clampOp h1) h1))
    h)

theorem Stays.beginCheck {d drift deskew} [Off u .dies] (h : Stays u a s) : Stays u a (s.beginCheck d drift deskew) :=
  .needSpll (.markDieGauges (.withDie (.startTask h)))

theorem StaysAfter.driftCheck {d moved} [Off u .dies] (h : Stays u a s) :
    StaysAfter u a (execDriftCheck d moved s) := .next (.ite (.ite (.beginCheck h) (.makeDue h)) h)

theorem StaysAfter.deskewRecalibration {d} [Off u .dies] (h : Stays u a s) : StaysAfter u a (execDeskewRecalibration d s) :=
  .next (.ite (.ite (.beginCheck h) (.makeDue h)) h)

theorem StaysAfter.calibrationAgeDue {d} [Off u .dies] (h : Stays u a s) : StaysAfter u a (execCalibrationAgeDue d s) :=
  .next (.ite (.when (.makeDue (.withDie h)) .beginCal) h)

theorem Stays.revalidate {is} (h : Stays u a s) : Stays u a (s.revalidate is) := .foldl .beginReval h

theorem Stays.runDieTask {d moved} [Off u .dies] (h : Stays u a s) : Stays u a (s.runDieTask d moved) :=
  .ite (.beginCal h) (.revalidate (.ite (.beginCheck h) (.startTask h)))

theorem StaysAfter.maintenanceTaskRun {x} [Off u .dies] (h : Stays u a s) : StaysAfter u a (execMaintenanceTaskRun x s) := by
  unfold execMaintenanceTaskRun
  refine .next (.ite h ?_)
  split
  · exact .ite (.runDieTask h) h
  · exact .ite (.runDieTask h) h
  · refine .ite ?_ h
    split
    · exact .beginTraining h
    · exact .startTask h
  · exact .ite (.applySpeed h) h
  · exact .ite (.revalidate (.startTask h)) h

theorem StaysAfter.eyeFinderStart {via} [Off u .dies] (h : Stays u a s) : StaysAfter u a (execEyeFinderStart via s) :=
  .next (.onPath (fun h1 => .ite (.ignoreOp h1) (.ite (.ignoreOp h1) (.when (.needSpll (.markDieGauges (.putNat (.withDie h1))))
    .beginCal))) h)

theorem Stays.eyeResult {e d results c} (h : Stays u a s) : Stays u a (s.eyeResult e d results c) := by
  unfold State.eyeResult
  split
  · exact .putInt (.putInt (.putInt h))
  · exact .putInt (.putInt (.putInt (.drawn (.drawn h))))

theorem Stays.eyeApply {e d r} (h : Stays u a s) : Stays u a (s.eyeApply e d r) := .unless (.checkDelay (.writeField h)) .putInt

theorem StaysAfter.eyeFinderDone {results} [Off u .dies] (h : Stays u a s) : StaysAfter u a (execEyeFinderDone results s) := by
  unfold execEyeFinderDone
  refine .next ?_
  split
  · exact .ite h (.endEye (.when (.foldl .eyeResult h) (.foldl .eyeApply)))
  · exact h

theorem StaysAfter.eyeFinderNoClock [Off u .dies] (h : Stays u a s) : StaysAfter u a (execEyeFinderNoClock s) := .next (.ite (.endEye h) h)

theorem Stays.writeYdir {d k v} [Off u .pins] (h : Stays u a s) :
    Stays u a (s.writeYdir d k v) := .ite (.showIdle (.updatePins h)) (.ignoreOp h)

theorem Stays.writeYdrv {d k v} [Off u .pins] (h : Stays u a s) : Stays u a (s.writeYdrv d k v) := .ite (.updatePins h) (.ignoreOp h)

theorem StaysAfter.writeYarnDirection {d k v g} [Off u .guard] [Off u .pins] (h : Stays u a s) :
    StaysAfter u a (execWriteYarnDirection d k v g s) :=
  .next (.ite (.guardForm .writeYdir h) (.onBar0 (fun h1 => h1) h))

theorem StaysAfter.writeYarnDrive {d k v g} [Off u .guard] [Off u .pins] (h : Stays u a s) :
    StaysAfter u a (execWriteYarnDrive d k v g s) :=
  .next (.ite (.guardForm .writeYdrv h) (.onBar0 (fun h1 => h1) h))

/-! ### Power states and resets -/

theorem Stays.refusePower {via c} (h : Stays u a s) : Stays u a (s.refusePower via c) := .ignoreOp (.setEvBit (.bump h))
theorem Stays.holdPlan {x} [Off u .dies] (h : Stays u a s) : Stays u a (s.holdPlan x) := .withDie h

theorem Stays.watchPlans [Off u .dies] [Off u .basin] (h : Stays u a s) : Stays u a s.watchPlans.1 := by
  unfold State.watchPlans
  refine .foldl_fst (fun {q ds} hq => .ite_fst ?_ hq) h
  have hp := Stays.admitPlans (ds := ds) hq
  split
  next e =>
    rw [e] at hp
    exact .foldl .holdPlan hp
  next e =>
    rw [e] at hp
    exact hp

theorem Stays.startMove {x wake took next} [Off u .power] (h : Stays u a s) : Stays u a (s.startMove x wake took next) := .updatePower h
theorem Stays.clearPlans [Off u .dies] (h : Stays u a s) : Stays u a s.clearPlans := .updateDies h

theorem Stays.leaveOn {x via} [Off u .power] [Off u .dies] [Off u .basin] (h : Stays u a s) : Stays u a (s.leaveOn x via) := by
  have start := Stays.breakCheck (d := 1) (Stays.breakCheck (d := 0) (.abortTraining h))
  have held := Stays.watchPlans (.clearPlans start)
  unfold State.leaveOn
  refine .ite ?_ (.startMove start)
  split
  next e =>
    rw [e] at held
    exact .startMove held
  next e =>
    rw [e] at held
    exact .refusePower held

theorem Stays.startClocks (h : Stays u a s) : Stays u a s.startClocks := .foldl .startPll (.startPll h)
theorem Stays.returnOn {wake next} [Off u .power] (h : Stays u a s) : Stays u a (s.returnOn wake next) := .startMove (.startClocks h)

theorem Stays.beginRequest {x via} [Off u .power] [Off u .dies] [Off u .basin] (h : Stays u a s) : Stays u a (s.beginRequest x via) :=
  .ite h (.ite (.ite (.refusePower h) (.ite (.refusePower h) (.ite (.refusePower h) (.leaveOn h)))) (.ite (.returnOn h) (.returnOn h)))

theorem Stays.requestPower {x via} [Off u .power] [Off u .dies] [Off u .basin] (h : Stays u a s) : Stays u a (s.requestPower x via) := by
  unfold State.requestPower
  refine .ite (.refusePower (.putNat h)) ?_
  split
  · exact .updatePower (.putNat h)
  · exact .beginRequest (.putNat h)

theorem Stays.loseSealed {d} [Off u .dies] (h : Stays u a s) : Stays u a (s.loseSealed d) := .ite (.when (.foldl .releaseDie h) .bb) h
theorem Stays.restDeep (h : Stays u a s) : Stays u a s.restDeep := .update h

theorem Stays.dropPorts [Off u .tb] [Off u .ram] (h : Stays u a s) : Stays u a s.dropPorts :=
  .foldl (fun h1 => .ite h1 (.alpDown h1)) (.foldl (fun h1 => .ite h1 (.ethDown h1)) h)

theorem Stays.restClocks {x} (h : Stays u a s) :
    Stays u a (s.restClocks x) := have h1 := .foldl .stopPll h; .ite (.startPll h1) (.stopPll h1)

theorem Stays.enterWatch {d} [Off u .dies] [Off u .basin] (h : Stays u a s) : Stays u a (s.enterWatch d) := .withDie (.putNat (.layout h))

theorem Stays.loseBasins [Off u .basin] (h : Stays u a s) : Stays u a s.loseBasins :=
  .updateBasins (fun d _ => by simp [memory_wf_nil]) h

theorem Stays.enterLow {x} [Off u .power] [Off u .pins] [Off u .tb] [Off u .dies] [Off u .dsMem] [Off u .basin] [Off u .ram]
    (h : Stays u a s) :
    Stays u a (s.enterLow x) := by
  unfold State.enterLow
  dsimp only
  have h1 := Stays.restClocks (x := x) (.restDeep (.abortGauges (.thaw h)))
  split
  · exact .loseBasins (.loseSealed (.loseSealed (.dropPorts (.updatePower h1))))
  · exact .foldl .enterWatch (.dropPorts (.updatePower h1))
  · exact .dropPorts (.updatePower h1)
  · exact .dropPorts (.updatePower h1)
  · exact .dropPorts (.updatePower h1)

theorem Stays.arriveOn {wake} [Off u .power] [Off u .dies] (h : Stays u a s) : Stays u a (s.arriveOn wake) := by
  cases u with
  | power => exact Off.elim .power
  | dies => exact Off.elim .dies
  | _ => exact h

theorem Stays.wiped {keepBasin} [Off u .host] [Off u .guard] [Off u .pins] [Off u .dies] [Off u .basin] [Off u .ram] (h : Stays u a s) :
    Stays u a (s.wiped keepBasin) := by
  cases u with
  | host => exact Off.elim .host
  | guard => exact Off.elim .guard
  | pins => exact Off.elim .pins
  | dies => exact Off.elim .dies
  | basin => exact Off.elim .basin
  | ram => exact Off.elim .ram
  | canonical =>
    intro i
    obtain ⟨deep, first, second, -⟩ := h i
    cases keepBasin with
    | false => exact ⟨deep, memory_wf_nil, memory_wf_nil, memory_wf_nil⟩
    | true => exact ⟨deep, first, second, memory_wf_nil⟩
  | _ => exact h

theorem Stays.saveTime (h : Stays u a s) : Stays u a s.saveTime := .ite (.update h) h

theorem Stays.endWork [Off u .pins] [Off u .dies] [Off u .basin] (h : Stays u a s) :
    Stays u a s.endWork := .updatePins (.abortGauges (.genAbort (.genAbort (.abortTest h))))

theorem Stays.dropLinks [Off u .guard] [Off u .ram] (h : Stays u a s) : Stays u a s.dropLinks := .resetFunction (.update h)

theorem Stays.goOff {pfw} [Off u .host] [Off u .guard] [Off u .power] [Off u .pins] [Off u .dies] [Off u .basin] [Off u .ram]
    (h : Stays u a s) :
    Stays u a (s.goOff pfw) := .updatePower (.wiped (.dropLinks (.endWork (.saveTime h))))

theorem Stays.powerFail {rails} [Off u .host] [Off u .guard] [Off u .power] [Off u .pins] [Off u .dies] [Off u .basin] [Off u .ram]
    (h : Stays u a s) :
    Stays u a (s.powerFail rails) := .goOff (.bb (.setEvBit (.bump h)))

theorem Stays.latch {x} [Off u .guard] (h : Stays u a s) : Stays u a (s.latch x) := .updateGuard h
theorem Stays.noteReset {code} [Off u .power] (h : Stays u a s) : Stays u a (s.noteReset code) := .bump (.put (.putNat (.updatePower h)))

theorem Stays.loseItem {i} [Off u .dies] (h : Stays u a s) : Stays u a (s.loseItem i) := by
  unfold State.loseItem
  split <;> exact .updateDies (.update h)

theorem Stays.readHistory {x} [Off u .dies] (h : Stays u a s) :
    Stays u a (s.readHistory x) := .putNat (.unless (.bumpBy (.foldl .loseItem h)) .bb)

theorem Stays.beginStart {x y dimms} [Off u .guard] [Off u .power] [Off u .dies] [Off u .dsMem] (h : Stays u a s) :
    Stays u a (s.beginStart x y dimms) := by
  have h1 : Stays u a ((s.latch x).readHistory y) := .readHistory (.latch h)
  cases u with
  | power => exact Off.elim .power
  | dsMem => exact Off.elim .dsMem
  | canonical =>
    intro i
    obtain ⟨deep, rest⟩ := h1 i
    cases dimms with
    | false => exact ⟨memory_wf_nil, rest⟩
    | true => exact ⟨deep, rest⟩
  | _ => exact h1

theorem Stays.restartTime [Off u .tb] (h : Stays u a s) : Stays u a s.restartTime := .updateTb h

theorem Stays.leaveOff {x y} [Off u .guard] [Off u .power] [Off u .tb] [Off u .dies] [Off u .dsMem] (h : Stays u a s) :
    Stays u a (s.leaveOff x y) :=
  .ite (.updatePower h) (.beginStart (.noteReset (.restartTime (.updatePower h))))

theorem Stays.leaveBacklog {d} [Off u .dies] (h : Stays u a s) : Stays u a (s.leaveBacklog d) := .ite (.withDie h) h

theorem Stays.abortConvoy {d} [Off u .pins] [Off u .dies] [Off u .dsMem] [Off u .basin] (h : Stays u a s) : Stays u a (s.abortConvoy d) :=
  .ite (.sealConvoy (.foldl .markFault (.foldl .leaveBacklog (.foldl .reserveEvents (.sluiceAll (.foldl .sluiceBegin (.foldl .closeDie
    (.endDie h)))))))) h

theorem Stays.enterReset {kind} [Off u .host] [Off u .guard] [Off u .power] [Off u .pins] [Off u .dies] [Off u .dsMem] [Off u .basin]
    [Off u .ram] (h : Stays u a s) :
    Stays u a (s.enterReset kind) :=
  .updatePower (.wiped (.bb (.noteReset (.abortConvoy (.abortConvoy (.endWork (.dropLinks (.updatePower h))))))))

theorem Stays.passUntil {x} [Off u .tb] [Off u .dies] (h : Stays u a s) :
    Stays u a (s.passUntil x) := .ite h (.applyStep (.addTime (.advance h)))

/-! ### Start-up -/

theorem Stays.loadPatch {p} (h : Stays u a s) : Stays u a (s.loadPatch p) := by
  unfold State.loadPatch
  split
  · exact .putNat (.putNat h)
  · exact .putNat (.putNat h)
  · exact .bb (.putNat (.putNat h))

theorem Stays.testHub {f} [Off u .power] (h : Stays u a s) : Stays u a (s.testHub f) := by
  unfold State.testHub
  split
  · exact .update h
  · exact .repairRow (.update h)

theorem Stays.bringUp {i n} (h : Stays u a s) : Stays u a (s.bringUp i n).1 :=
  .ite_fst (.startPll h) (.bandFound (.drawn (.drawn (.startPll h))))

theorem Stays.startPlls (h : Stays u a s) :
    Stays u a s.startPlls.1 := .withPll (.foldl .stopPll (.stopPll (.stopPll (.foldl_fst .bringUp h))))

theorem Stays.refuseDimm {c property} (h : Stays u a s) : Stays u a (s.refuseDimm c property) := .bb (.withChan h)

theorem Stays.readSpd {ds org spare c} (h : Stays u a s) : Stays u a (s.readSpd ds org spare c) := by
  unfold State.readSpd
  split
  · exact .withChan h
  · split
    · exact .refuseDimm h
    · exact .ite (.update (.withChan h)) (.refuseDimm h)

theorem Stays.markRetired (h : Stays u a s) : Stays u a s.markRetired := .foldl .withChan (.update h)
theorem Stays.clearRetired (h : Stays u a s) : Stays u a s.clearRetired := .ite (.update h) h
theorem Stays.buildMap {ds} (h : Stays u a s) : Stays u a (s.buildMap ds) := .foldl .readSpd (.update h)
theorem Stays.startMap {ds} (h : Stays u a s) : Stays u a (s.startMap ds) := .update (.markRetired (.unless (.clearRetired h) .buildMap))
theorem Stays.loseChannel {c} [Off u .dsMem] (h : Stays u a s) : Stays u a (s.loseChannel c) := .updateDsMem (memory_wf_filter _ _) h

theorem Stays.checkFailed {property c} [Off u .dsMem] (h : Stays u a s) :
    Stays u a (s.checkFailed property c) := .bb (.damage (.loseChannel h))

theorem Stays.startTraining {r} [Off u .dsMem] (h : Stays u a s) :
    Stays u a (s.startTraining r) := .update (.foldl .trained (.ite (.foldl .checkFailed h) h))

theorem Stays.testBasin {faults d} [Off u .power] (h : Stays u a s) : Stays u a (s.testBasin faults d) :=
  .keepMaps (.foldl (fun h1 => .ite (.repairRow h1) h1) (.update h))

theorem Stays.testBasins {faults} [Off u .power] (h : Stays u a s) :
    Stays u a (s.testBasins faults) := .ite (.update h) (.foldl .testBasin h)

theorem Stays.loadCal {d} [Off u .dies] (h : Stays u a s) : Stays u a (s.loadCal d) := .putNat (.withDie h)
theorem Stays.firstPower (h : Stays u a s) : Stays u a s.firstPower := .ite (.bb h) h
theorem Stays.becomeReady {wake} [Off u .power] (h : Stays u a s) : Stays u a (s.becomeReady wake) := .updatePower h

theorem Stays.startUp {r} [Off u .power] [Off u .tb] [Off u .dies] [Off u .dsMem] (h : Stays u a s) : Stays u a (s.startUp r) :=
  .setEvBit (.becomeReady (.firstPower (.putNat (.putNat (.foldl .loadCal (.startTraining (.testBasins (.startPlls (.startMap (.when
    (.testHub (.loadPatch h)) .loadInc))))))))))

/-! ### Commands of power and reset -/

theorem Stays.askPower {x via} [Off u .guard] [Off u .power] [Off u .dies] [Off u .basin] (h : Stays u a s) :
    Stays u a (s.askPower x via) := .byPath .requestPower h

theorem StaysAfter.requestOn {via} [Off u .guard] [Off u .power] [Off u .dies] [Off u .basin] (h : Stays u a s) :
    StaysAfter u a (execRequestOn via s) := .next (.askPower h)

theorem StaysAfter.requestStandby {via} [Off u .guard] [Off u .power] [Off u .dies] [Off u .basin] (h : Stays u a s) :
    StaysAfter u a (execRequestStandby via s) := .next (.askPower h)

theorem StaysAfter.requestRetain {via} [Off u .guard] [Off u .power] [Off u .dies] [Off u .basin] (h : Stays u a s) :
    StaysAfter u a (execRequestRetain via s) := .next (.askPower h)

theorem StaysAfter.requestWatch {via} [Off u .guard] [Off u .power] [Off u .dies] [Off u .basin] (h : Stays u a s) :
    StaysAfter u a (execRequestWatch via s) := .next (.askPower h)

theorem StaysAfter.requestOff {via} [Off u .guard] [Off u .power] [Off u .dies] [Off u .basin] (h : Stays u a s) :
    StaysAfter u a (execRequestOff via s) := .next (.askPower h)

theorem Stays.endMove {m} [Off u .host] [Off u .guard] [Off u .power] [Off u .pins] [Off u .tb] [Off u .dies] [Off u .dsMem] [Off u .basin]
    [Off u .ram] (h : Stays u a s) :
    Stays u a (s.endMove m) := by
  unfold State.endMove
  dsimp only
  split
  · exact .arriveOn (.setEvBit (.bump h))
  · exact .goOff (.loseSealed (.loseSealed (.setEvBit (.bump h))))
  · exact .enterLow (.setEvBit (.bump h))
  · exact .enterLow (.setEvBit (.bump h))
  · exact .enterLow (.setEvBit (.bump h))

theorem StaysAfter.powerTransitionDone [Off u .host] [Off u .guard] [Off u .power] [Off u .pins] [Off u .tb] [Off u .dies] [Off u .dsMem]
    [Off u .basin] [Off u .ram] (h : Stays u a s) :
    StaysAfter u a (execPowerTransitionDone s) := by
  unfold execPowerTransitionDone
  refine .next ?_
  split
  · exact h
  · refine .ite ?_ h
    split
    · exact .beginRequest (.endMove h)
    · exact .endMove h

theorem StaysAfter.domainIdleOff {n} [Off u .power] (h : Stays u a s) : StaysAfter u a (execDomainIdleOff n s) := by
  unfold execDomainIdleOff
  refine .next (.ite ?_ h)
  split
  · exact .ite (.updatePower h) h
  · exact h

theorem StaysAfter.powerFailWarning {rails} [Off u .host] [Off u .guard] [Off u .power] [Off u .pins] [Off u .dies] [Off u .basin]
    [Off u .ram] (h : Stays u a s) :
    StaysAfter u a (execPowerFailWarning rails s) := .next (.ite h (.powerFail h))

theorem Stays.lost [Off u .host] [Off u .guard] [Off u .power] [Off u .pins] [Off u .tb] [Off u .dies] [Off u .dsMem] [Off u .basin]
    [Off u .ram] (_ : Stays u a s) :
    Stays u a s.lost := by
  cases u with
  | host => exact Off.elim .host
  | guard => exact Off.elim .guard
  | power => exact Off.elim .power
  | pins => exact Off.elim .pins
  | tb => exact Off.elim .tb
  | dies => exact Off.elim .dies
  | dsMem => exact Off.elim .dsMem
  | basin => exact Off.elim .basin
  | ram => exact Off.elim .ram
  | canonical => exact fun _ => ⟨memory_wf_nil, memory_wf_nil, memory_wf_nil, memory_wf_nil⟩

theorem StaysAfter.powerOnReset [Off u .host] [Off u .guard] [Off u .power] [Off u .pins] [Off u .tb] [Off u .dies] [Off u .dsMem]
    [Off u .basin] [Off u .ram] (h : Stays u a s) :
    StaysAfter u a (execPowerOnReset s) := .next (.lost (.saveTime h))

theorem StaysAfter.powerOnResetRelease {straps x} [Off u .guard] [Off u .power] [Off u .dies] [Off u .dsMem] (h : Stays u a s) :
    StaysAfter u a (execPowerOnResetRelease straps x s) :=
  .next (.ite (.when (.beginStart (.noteReset (.update h))) .updatePower) h)

theorem Stays.pinFalls {p} [Off u .power] (h : Stays u a s) : Stays u a (s.pinFalls p) := by
  unfold State.pinFalls
  split <;> exact .updatePower h

theorem StaysAfter.fundamentalResetAssert {pin} [Off u .host] [Off u .guard] [Off u .power] [Off u .pins] [Off u .dies] [Off u .dsMem]
    [Off u .basin] [Off u .ram] (h : Stays u a s) :
    StaysAfter u a (execFundamentalResetAssert pin s) := by
  unfold execFundamentalResetAssert
  refine .next ?_
  split
  · exact .pinFalls h
  · exact .pinFalls h
  · exact .enterReset (.pinFalls h)
  · exact .ite (.updatePower (.pinFalls h)) (.enterReset (.pinFalls h))

theorem Stays.dropScan (h : Stays u a s) : Stays u a s.dropScan := .ite (.update h) h

theorem StaysAfter.fundamentalResetRelease {straps x} [Off u .guard] [Off u .power] [Off u .tb] [Off u .dies] [Off u .dsMem]
    (h : Stays u a s) :
    StaysAfter u a (execFundamentalResetRelease straps x s) :=
  .next (.ite (.ite (.leaveOff (.dropScan h)) (.beginStart (.passUntil (.dropScan h)))) (.updatePower h))

theorem StaysAfter.startupComplete {r} [Off u .power] [Off u .tb] [Off u .dies] [Off u .dsMem] (h : Stays u a s) :
    StaysAfter u a (execStartupComplete r s) := .next (.ite (.startUp h) h)

theorem StaysAfter.mainRailsReturn {straps x} [Off u .guard] [Off u .power] [Off u .tb] [Off u .dies] [Off u .dsMem] (h : Stays u a s) :
    StaysAfter u a (execMainRailsReturn straps x s) :=
  .next (.ite (.ite (.updatePower h) (.leaveOff h)) h)

theorem StaysAfter.offWakeEdge {rising} [Off u .power] (h : Stays u a s) :
    StaysAfter u a (execOffWakeEdge rising s) := .next (.ite (.updatePower h) h)

theorem Stays.restartArming {d} [Off u .dies] (h : Stays u a s) : Stays u a (s.restartArming d) := .ite (.endArming h) h

theorem Stays.dropCal {d} [Off u .dies] (h : Stays u a s) :
    Stays u a (s.dropCal d) := .when (.breakCheck h) (fun h1 => .restSpll (.makeDue (.withDie h1)))

theorem Stays.dropWork [Off u .dies] [Off u .basin] (h : Stays u a s) : Stays u a s.dropWork := by
  unfold State.dropWork
  exact .when (.dropCal (.dropCal (.abortTraining (.abortTest (.restartArming (.restartArming h)))))) .endEye

theorem Stays.restartHkc {cause} [Off u .power] [Off u .tb] [Off u .dies] [Off u .basin] (h : Stays u a s) :
    Stays u a (s.restartHkc cause) :=
  .when (.dropWork (.bb (.setEvBit (.updatePower h)))) .enterHoldover

theorem StaysAfter.hkcWatchdogExpiry [Off u .power] [Off u .tb] [Off u .dies] [Off u .basin] (h : Stays u a s) :
    StaysAfter u a (execHkcWatchdogExpiry s) := .next (.ite (.restartHkc h) h)

theorem StaysAfter.scratchpadUe [Off u .power] [Off u .tb] [Off u .dies] [Off u .basin] (h : Stays u a s) :
    StaysAfter u a (execScratchpadUe s) := .next (.ite (.restartHkc h) h)

theorem StaysAfter.hkcRestartComplete [Off u .power] [Off u .ram] (h : Stays u a s) : StaysAfter u a (execHkcRestartComplete s) :=
  .next (.ite (.takeStamps (.takeStamps (.restartAnswers (.sendUnsent (.updatePower h))))) h)

/-! ### Commands of health and the black box -/

theorem Stays.publishTemps (h : Stays u a s) : Stays u a s.publishTemps := .putInt (.when (.putInt (.putInt h)) .putInt)

theorem Stays.checkWarn (h : Stays u a s) : Stays u a s.checkWarn := by
  unfold State.checkWarn
  split
  · exact .ite (.bb (.setEvBit (.bump (.update h)))) (.ite (.update h) h)
  · exact h

theorem Stays.thermalSeal {d} [Off u .pins] [Off u .dies] [Off u .basin] (h : Stays u a s) : Stays u a (s.thermalSeal d) := by
  unfold State.thermalSeal
  split
  · exact h
  · exact .ite (.endArming h) (.ite (.bb (.setEvBit (.bump (.foldl .endDie h)))) h)

theorem Stays.checkSeal [Off u .pins] [Off u .dies] [Off u .dsMem] [Off u .basin] (h : Stays u a s) :
    Stays u a s.checkSeal := .ite h (.thermalSeal (.thermalSeal (.ite (.thaw h) h)))

theorem Stays.checkHold (h : Stays u a s) : Stays u a s.checkHold := by
  unfold State.checkHold
  refine .ite (.update h) ?_
  split
  · exact .ite (.update h) (.ite (.update h) h)
  · exact h

theorem Stays.checkTrip [Off u .host] [Off u .guard] [Off u .power] [Off u .pins] [Off u .dies] [Off u .basin] [Off u .ram]
    (h : Stays u a s) :
    Stays u a s.checkTrip := by
  unfold State.checkTrip
  split
  · exact .ite (.powerFail (.update (.bb (.bump h)))) h
  · exact h

theorem Stays.releaseHeld [Off u .guard] [Off u .power] [Off u .tb] [Off u .dies] [Off u .dsMem] (h : Stays u a s) :
    Stays u a s.releaseHeld := by
  unfold State.releaseHeld
  split
  · exact .ite (.leaveOff h) h
  · exact h

theorem StaysAfter.sensorRead {readings} [Off u .host] [Off u .guard] [Off u .power] [Off u .pins] [Off u .tb] [Off u .dies] [Off u .dsMem]
    [Off u .basin] [Off u .ram] (h : Stays u a s) :
    StaysAfter u a (execSensorRead readings s) :=
  .next (.unless (.update h) (fun h1 => .ite (.releaseHeld h1) (.checkTrip (.checkHold (.checkSeal (.checkWarn (.dueBands (.publishTemps
    h1))))))))

theorem StaysAfter.freezePinLow [Off u .guard] [Off u .power] [Off u .pins] [Off u .ram] (h : Stays u a s) :
    StaysAfter u a (execFreezePinLow s) := .next (.ite h (.unless (.update h) .requestFreeze))

theorem StaysAfter.freezePinRelease [Off u .pins] [Off u .dies] [Off u .dsMem] [Off u .basin] (h : Stays u a s) :
    StaysAfter u a (execFreezePinRelease s) := by
  unfold execFreezePinRelease
  refine .next ?_
  split
  · exact .ite (.thaw (.update h)) (.update h)
  · exact .update h

theorem StaysAfter.freezeRegister {full g} [Off u .host] [Off u .guard] [Off u .power] [Off u .pins] [Off u .dies] [Off u .dsMem]
    [Off u .basin] [Off u .ram] (h : Stays u a s) :
    StaysAfter u a (execFreezeRegister full g s) := .next (.guardForm .writeFreeze h)

theorem StaysAfter.thawRegister {g} [Off u .host] [Off u .guard] [Off u .power] [Off u .pins] [Off u .dies] [Off u .dsMem] [Off u .basin]
    [Off u .ram] (h : Stays u a s) :
    StaysAfter u a (execThawRegister g s) := .next (.guardForm .writeFreeze h)

theorem Stays.writeBbadm {v} (h : Stays u a s) : Stays u a (s.writeBbadm v) := .when (.update h) .bb

theorem StaysAfter.hostMark {opt g} [Off u .guard] (h : Stays u a s) :
    StaysAfter u a (execHostMark opt g s) := .next (.guardForm .writeBbadm h)

theorem StaysAfter.optionalCategoriesWrite {opt g} [Off u .guard] (h : Stays u a s) :
    StaysAfter u a (execOptionalCategoriesWrite opt g s) :=
  .next (.guardForm .writeBbadm h)

theorem StaysAfter.blackBoxCommit (h : Stays u a s) : StaysAfter u a (execBlackBoxCommit s) := by
  unfold execBlackBoxCommit
  refine .next ?_
  split
  · exact h
  · exact .ite h (.when (.setEvBit (.bump (.update h))) .setEvBit)

/-! ### Register writes -/

theorem Stays.regApply {reg v} [Off u .host] [Off u .guard] [Off u .power] [Off u .pins] [Off u .tb] [Off u .dies] [Off u .dsMem]
    [Off u .basin] [Off u .ram] (h : Stays u a s) :
    Stays u a (regApply reg v s) := by
  cases reg with
  | ydir => exact .writeYdir h
  | ydrv => exact .writeYdrv h
  | fstepGo => exact .fstepGo h
  | dsSpeed => exact .writeSpeed h
  | dsRas => exact .writeRas h
  | hltFrz => exact .writeFreeze h
  | hltBbadm => exact .writeBbadm h

theorem Stays.writeCap {d off v} [Off u .pins] [Off u .dies] [Off u .basin] (h : Stays u a s) : Stays u a (s.writeCap d off v) := by
  unfold State.writeCap
  refine .ite h ?_
  split
  · exact .when (.when (.ite (.armCommand h) h) .captureStop) .releaseCommand
  · exact .ite (.forceTrigger h) h
  · exact .when (.when (.when (.ite (.primeCommand h) h) .startCommand) .stopCommand) .genJump
  · exact .clearEv h
  · exact h

theorem Stays.writeSlotCtl {k v} [Off u .tb] (h : Stays u a s) : Stays u a (s.writeSlotCtl k v) :=
  .ite (.enableSlot (.withSlot h)) (.withSlot (.withSlot h))

theorem Stays.writeSlot {k off v} [Off u .tb] (h : Stays u a s) : Stays u a (s.writeSlot k off v) := by
  unfold State.writeSlot
  split
  · exact .withSlot h
  · exact .commitTarget h
  · exact .writeSlotCtl h
  · exact h

theorem Stays.writeHctl {v} [Off u .tb] [Off u .dies] (h : Stays u a s) :
    Stays u a (s.writeHctl v) := .ite (.ite (.discSet h) (.discClear h)) (.ownHost .feedWatchdog h)

theorem Stays.writeTb {off v} [Off u .tb] [Off u .dies] (h : Stays u a s) : Stays u a (s.writeTb off v) := by
  unfold State.writeTb
  split
  · exact .writeEpoch h
  · exact .writeIncLo h
  · exact .writeIncHi h
  · exact .writeStepLo h
  · exact .writeStepHi h
  · exact .updateTb h
  · exact .updateTb h
  · exact .clearEv h
  · exact .writeHctl h
  · exact .ite (.writeSlot h) h

theorem Stays.writeDmaSize {k v} (h : Stays u a s) : Stays u a (s.writeDmaSize k v) :=
  .withDma (.ite (.clampOp h) (.ite (.clampOp h) (.ite (.clampOp h) h)))

theorem Stays.writeDmaCtl {k v} [Off u .ram] (h : Stays u a s) : Stays u a (s.writeDmaCtl k v) :=
  .when (.when (.ite (.ite (.dmaRun h) (.dmaStop h)) h) .dmaAbort) .dmaResume

theorem Stays.stoppedDma {k off f} (hf : ∀ {t}, Stays u a t → Stays u a (f t)) (h : Stays u a s) : Stays u a (s.stoppedDma k off f) :=
  .ite (.ignoreOp h) (hf h)

theorem Stays.writeDma {k off v} [Off u .ram] (h : Stays u a s) : Stays u a (s.writeDma k off v) := by
  unfold State.writeDma
  split
  · exact .stoppedDma .withDma h
  · exact .stoppedDma .withDma h
  · exact .stoppedDma .writeDmaSize h
  · exact .writeDmaCtl h
  · exact .dmaProd h
  · exact .clearEv h
  · exact h

theorem Stays.writeHdma {off v} [Off u .ram] (h : Stays u a s) : Stays u a (s.writeHdma off v) := .ite (.writeDma h) (.ite (.clearEv h) h)

theorem Stays.writePowerReq {n via} [Off u .power] [Off u .dies] [Off u .basin] (h : Stays u a s) :
    Stays u a (s.writePowerReq n via) := .requestPower (.ite (.clampOp h) h)

theorem Stays.writeHub {off v} [Off u .host] [Off u .power] [Off u .dies] [Off u .basin] (h : Stays u a s) :
    Stays u a (s.writeHub off v) := by
  unfold State.writeHub
  split
  · exact .clearEv h
  · exact .updateHost h
  · exact .clearEv h
  · exact .clearEv h
  · exact .clearEv h
  · exact .clearEv h
  · exact .clearEv h
  · exact .writeWindowBase h
  · exact .clearEv h
  · exact .writePowerReq h
  · exact .clearEv h
  · exact .clearEv h
  · exact .updateHost h
  · exact h

theorem Stays.writeUnlock {v} [Off u .guard] (h : Stays u a s) :
    Stays u a (s.writeUnlock v) := .ite (.ite (.updateGuard h) (.guardFail (.updateGuard h))) (.ignoreOp h)

theorem Stays.selectGuard {v via} [Off u .guard] (h : Stays u a s) :
    Stays u a (s.selectGuard v via) := .ite (.ignoreOp h) (.updateGuard (.ite h (.clampOp h)))

theorem StaysAfter.guardUnlock {v} [Off u .guard] (h : Stays u a s) : StaysAfter u a (execGuardUnlock v s) := .next (.onBar0 .writeUnlock h)

theorem StaysAfter.guardLockTimeout [Off u .guard] (h : Stays u a s) : StaysAfter u a (execGuardLockTimeout s) := by
  unfold execGuardLockTimeout
  refine .next ?_
  split
  · exact .ite (.setEvBit (.updateGuard h)) h
  · exact h

theorem StaysAfter.guardComplementWrite {reg v} [Off u .host] [Off u .guard] [Off u .power] [Off u .pins] [Off u .tb] [Off u .dies]
    [Off u .dsMem] [Off u .basin] [Off u .ram] (h : Stays u a s) :
    StaysAfter u a (execGuardComplementWrite reg v s) :=
  .next (.ite (.complementWrite .regApply h) (.onBar0 (fun h1 => h1) h))

theorem StaysAfter.guardModeSelect {v via} [Off u .guard] (h : Stays u a s) :
    StaysAfter u a (execGuardModeSelect v via s) := .next (.byPath .selectGuard h)

theorem Stays.plainDword {off v} [Off u .host] [Off u .guard] [Off u .power] [Off u .pins] [Off u .tb] [Off u .dies] [Off u .basin]
    [Off u .ram] (h : Stays u a s) :
    Stays u a (s.plainDword off v) := by
  unfold State.plainDword
  split
  · exact .writeTb h
  · exact .writeCap h
  · exact .writeCap h
  · exact .writeHdma h
  · exact .ite (.writeUnlock h) (.ite (.selectGuard h) (.writeHub h))

theorem Stays.wholeDword {off v} [Off u .host] [Off u .guard] [Off u .power] [Off u .pins] [Off u .tb] [Off u .dies] [Off u .dsMem]
    [Off u .basin] [Off u .ram] (h : Stays u a s) :
    Stays u a (s.wholeDword off v) := by
  unfold State.wholeDword
  split
  · exact .guardedWrite .regApply h
  · exact .complementWrite .regApply h
  · exact .onBar0 .plainDword h

theorem Stays.regDword {d} [Off u .host] [Off u .guard] [Off u .power] [Off u .pins] [Off u .tb] [Off u .dies] [Off u .dsMem] [Off u .basin]
    [Off u .ram] (h : Stays u a s) :
    Stays u a (s.regDword d) := by
  unfold State.regDword
  refine .ite (.ramDword h) ?_
  split
  · exact .partialDword h
  · exact .wholeDword h

theorem StaysAfter.registerWrite {off bytes} [Off u .host] [Off u .guard] [Off u .power] [Off u .pins] [Off u .tb] [Off u .dies]
    [Off u .dsMem] [Off u .basin] [Off u .ram] (h : Stays u a s) :
    StaysAfter u a (execRegisterWrite off bytes s) :=
  .ite .fault (.next (.ite (.foldl .regDword h) (.emit h)))

theorem StaysAfter.mailboxSubmit {seq} [Off u .host] [Off u .guard] [Off u .ram] (h : Stays u a s) :
    StaysAfter u a (execMailboxSubmit seq s) := .next (.ite (.ramDword h) (.emit h))

/-! ### Dictionary writes -/

theorem Stays.after {r} (hr : StaysAfter u a r) (h : Stays u a s) : Stays u a (after r s) := by
  cases r with
  | next t => exact hr
  | fault => exact h
  | refused => exact h

theorem Stays.disturb {lo n} (h : Stays u a s) : Stays u a (s.disturb lo n) := .update h
theorem Stays.actChannel {idx sub v via} (h : Stays u a s) : Stays u a (s.actChannel idx sub v via) := .disturb (.checkDelays (.put h))
theorem Stays.actPhase {idx sub v via} (h : Stays u a s) : Stays u a (s.actPhase idx sub v via) := .disturb (.checkDelays (.put h))
theorem Stays.actVariant {idx sub v via} (h : Stays u a s) : Stays u a (s.actVariant idx sub v via) := .ite (.putNat (.clampOp h)) (.put h)

theorem Stays.actCapture {idx sub v via} [Off u .dies] (h : Stays u a s) : Stays u a (s.actCapture idx sub v via) := by
  unfold State.actCapture
  split
  · exact .after (.fullCalibrationCommand h) h
  · exact .actVariant h
  · exact .after (.eyeFinderStart h) h
  · exact .actVariant h
  · exact .actVariant h
  · exact .actVariant h
  · exact .after (.sluiceSealedConvoy h) h
  · exact .after (.sluiceSealedConvoy h) h
  · exact .ite (.actChannel h) (.ite (.actPhase h) (.ite (.loadTrigRam (.put h)) (.put h)))

theorem Stays.actWatchdog {v} [Off u .tb] (h : Stays u a s) : Stays u a (s.actWatchdog v) := .when (.put h) .updateTb

theorem Stays.actSlot {k idx sub v} [Off u .tb] (h : Stays u a s) : Stays u a (s.actSlot k idx sub v) :=
  .ite (.commitTarget h) (.ite (.ite (.withSlot h) (.enableSlot h)) (.put h))

theorem Stays.actTime {idx sub v via} [Off u .tb] [Off u .dies] (h : Stays u a s) : Stays u a (s.actTime idx sub v via) := by
  unfold State.actTime
  split
  · exact .writeOwner h
  · exact .actWatchdog h
  · exact .selectSource h
  · exact .writeEpoch h
  · exact .ite (.actSlot h) (.put h)

theorem Stays.actPort {p idx sub v via} [Off u .tb] (h : Stays u a s) : Stays u a (s.actPort p idx sub v via) :=
  .ite (.ethEnable h) (.ite (.reconfigure h) (.ite (.ptpSettle (.reportGroups (.put h))) (.ptpSettle (.put h))))

theorem Stays.actGroup6 {v via} (h : Stays u a s) : Stays u a (s.actGroup6 v via) := .ite (.put h) (.put (.clampOp h))

theorem Stays.actNet {idx sub v via addr} [Off u .tb] [Off u .ram] (h : Stays u a s) : Stays u a (s.actNet idx sub v via addr) := by
  unfold State.actNet
  split
  · exact .actPort h
  · exact .actPort h
  · exact .ptpSettle (.put h)
  · exact .bulkStart h
  · exact .setDomain h
  · exact .reportGroup (.reportGroup (.put h))
  · exact .reportGroup (.reportGroup (.actGroup6 h))
  · exact .sendHostKnot h
  · exact .setReference h
  · exact .ite (.alpEnable h) (.put h)

theorem Stays.genCode {d n via} (h : Stays u a s) : Stays u a (s.genCode d n via) := by
  unfold State.genCode
  split
  · exact .primeCommand h
  · exact .startCommand h
  · exact .stopCommand h
  · exact .genJump h
  · exact .after (.pgSyncCalibration h) h

theorem Stays.actCacheSize {d idx v} [Off u .dies] [Off u .basin] (h : Stays u a s) :
    Stays u a (s.actCacheSize d idx v) := .when (.layout (.put h)) .withGen

theorem Stays.actTable {idx v via} (h : Stays u a s) : Stays u a (s.actTable idx v via) := .put (.foldl .clampOp h)

theorem Stays.actInstrument {idx sub v via} [Off u .dies] [Off u .basin] (h : Stays u a s) : Stays u a (s.actInstrument idx sub v via) :=
  .ite (.ite (.after (.gaugeStart h) h) (.after (.gaugeStop h) h)) (.ite (.genCode h) (.ite (.showIdle (.put h)) (.ite (.actTable h) (.ite
    (.after (.syncoutOriginate h) h) (.ite (.actCacheSize h) (.ite (.after (.loopCacheLoad h) h) (.put h)))))))

theorem Stays.writeKey {n key} (h : Stays u a s) : Stays u a (s.writeKey n key) := .update h
theorem Stays.actSubsystem {sub v} (h : Stays u a s) : Stays u a (s.actSubsystem sub v) := .update h
theorem Stays.actKeepUp {sub v} [Off u .tb] [Off u .ram] (h : Stays u a s) : Stays u a (s.actKeepUp sub v) := .unless (.put h) .dropPorts
theorem Stays.actTempLimit {sub v} (h : Stays u a s) : Stays u a (s.actTempLimit sub v) := .ite h (.put h)

theorem Stays.actHub {idx sub v via} [Off u .power] [Off u .pins] [Off u .tb] [Off u .dies] [Off u .basin] [Off u .ram] (h : Stays u a s) :
    Stays u a (s.actHub idx sub v via) := by
  unfold State.actHub
  split
  · exact .commandTest h
  · exact .driveRefout (.put h)
  · exact .after (.spreadChange h) h
  · exact .after (.bandRevalidate h) h
  · exact .actSubsystem h
  · exact .writePowerReq h
  · exact .actKeepUp h
  · exact .actTempLimit h
  · exact .actTempLimit h
  · exact .update h
  · exact .put h

theorem Stays.actService {idx sub v via} [Off u .guard] (h : Stays u a s) : Stays u a (s.actService idx sub v via) :=
  .ite (.selectGuard h) (.ite (.writeKey h) (.put h))

theorem Stays.act {idx sub v via addr} [Off u .guard] [Off u .power] [Off u .pins] [Off u .tb] [Off u .dies] [Off u .basin] [Off u .ram]
    (h : Stays u a s) :
    Stays u a (s.act idx sub v via addr) :=
  .ite (.actService h) (.ite (.actCapture h) (.ite (.actTime h) (.ite (.actNet h) (.ite (.actInstrument h) (.actHub h)))))

/-! ### Commands of the dictionary -/

theorem Stays.dictGuardFail {i cause via} (h : Stays u a s) : Stays u a (s.dictGuardFail i cause via) := .bb (.bump h)

theorem Stays.applyWrite {req r i v} [Off u .guard] [Off u .power] [Off u .pins] [Off u .tb] [Off u .dies] [Off u .basin] [Off u .ram]
    (h : Stays u a s) :
    Stays u a (s.applyWrite req r i v).1 := .act (.ite_fst h (.clampField h))

theorem Stays.writeForm {req r i value} [Off u .guard] [Off u .power] [Off u .pins] [Off u .tb] [Off u .dies] [Off u .basin] [Off u .ram]
    (h : Stays u a s) :
    Stays u a (s.writeForm req r i value).1 :=
  .ite_fst (.ignoreOp h) (.ite_fst (.ignoreOp h) (.applyWrite h))

theorem Stays.writeGuarded {req r i} [Off u .guard] [Off u .power] [Off u .pins] [Off u .tb] [Off u .dies] [Off u .basin] [Off u .ram]
    (h : Stays u a s) :
    Stays u a (s.writeGuarded req r i).1 :=
  .ite_fst (.ite_fst h (.ite_fst (.writeForm h) (.dictGuardFail h))) (.dictGuardFail h)

theorem Stays.writeItem {req i} [Off u .guard] [Off u .power] [Off u .pins] [Off u .tb] [Off u .dies] [Off u .basin] [Off u .ram]
    (h : Stays u a s) :
    Stays u a (s.writeItem req i).1 := by
  unfold State.writeItem
  split
  · exact h
  · exact .ite_fst h (.ite_fst (.bump h) (.ite_fst h (.ite_fst (.writeGuarded h) (.ite_fst (.writeForm h) h))))

theorem Stays.writeItems {req l} [Off u .guard] [Off u .power] [Off u .pins] [Off u .tb] [Off u .dies] [Off u .basin] [Off u .ram]
    (h : Stays u a s) :
    Stays u a (State.writeItems req l s).1 := by
  induction l generalizing s with
  | nil => exact h
  | cons i l ih => exact ih (.writeItem h)

theorem Stays.served (h : Stays u a s) : Stays u a s.served := .update h
theorem Stays.complete {r items} [Off u .ram] (h : Stays u a s) : Stays u a (s.complete r items) := .takeNext (.sendBack (.bump h))

theorem StaysAfter.odpRead [Off u .ram] (h : Stays u a s) : StaysAfter u a (execOdpRead s) := by
  unfold execOdpRead
  refine .next ?_
  split
  · exact .complete (.served h)
  · exact h

theorem Stays.serveWrite {r items} [Off u .guard] [Off u .power] [Off u .pins] [Off u .tb] [Off u .dies] [Off u .basin] [Off u .ram]
    (h : Stays u a s) :
    Stays u a (s.serveWrite r items) := .complete (.writeItems (.served h))

theorem StaysAfter.odpWrite [Off u .guard] [Off u .power] [Off u .pins] [Off u .tb] [Off u .dies] [Off u .basin] [Off u .ram]
    (h : Stays u a s) :
    StaysAfter u a (execOdpWrite s) := by
  unfold execOdpWrite
  refine .next ?_
  split
  · exact .serveWrite h
  · exact h

theorem StaysAfter.odpReadBlock [Off u .ram] (h : Stays u a s) : StaysAfter u a (execOdpReadBlock s) := by
  unfold execOdpReadBlock
  refine .next ?_
  split
  · exact .complete (.served h)
  · exact h

theorem StaysAfter.odpWriteBlock [Off u .guard] [Off u .power] [Off u .pins] [Off u .tb] [Off u .dies] [Off u .basin] [Off u .ram]
    (h : Stays u a s) :
    StaysAfter u a (execOdpWriteBlock s) := by
  unfold execOdpWriteBlock
  refine .next ?_
  split
  · exact .serveWrite h
  · exact h

theorem Stays.withSubs {l} (h : Stays u a s) : Stays u a (s.withSubs l) := .update h
theorem Stays.subscribe {r i} (h : Stays u a s) : Stays u a (s.subscribe r i).1 := .ite_fst (.withSubs h) (.ite_fst h (.withSubs h))

theorem Stays.subscribeItem {r i} (h : Stays u a s) : Stays u a (s.subscribeItem r i).1 := by
  unfold State.subscribeItem
  split
  · exact h
  · exact .ite_fst h (.ite_fst h (.subscribe h))

theorem StaysAfter.odpSubscribe [Off u .ram] (h : Stays u a s) : StaysAfter u a (execOdpSubscribe s) := by
  unfold execOdpSubscribe
  refine .next ?_
  split
  · exact .complete (.subscribeItem (.served h))
  · exact h

theorem Stays.notifyEth {p x payload} (h : Stays u a s) :
    Stays u a (s.notifyEth p x payload) := .ite h (.ite (.bump h) (.bump (.sendUdp h)))

theorem Stays.sendNotify {x n y i} [Off u .ram] (h : Stays u a s) : Stays u a (s.sendNotify x n y i) := by
  unfold State.sendNotify
  split
  · exact .mbNotify h
  · exact .notifyEth h
  · exact .notifyEth h
  · exact .ite (.bump (.sendTunnel h)) h
  · exact h
  · exact h

theorem Stays.notify {i x} [Off u .ram] (h : Stays u a s) : Stays u a (s.notify i x) := .bumpBy (.sendNotify (.withSubs h))

theorem StaysAfter.notify {i} [Off u .ram] (h : Stays u a s) : StaysAfter u a (execNotify i s) := by
  unfold execNotify
  refine .next ?_
  split
  · exact .ite (.notify h) h
  · exact h

theorem StaysAfter.subscriptionLapse {i} (h : Stays u a s) : StaysAfter u a (execSubscriptionLapse i s) := by
  unfold execSubscriptionLapse
  refine .next ?_
  split
  · exact .ite (.withSubs h) h
  · exact h

theorem StaysAfter.keyWrite {n key via} (h : Stays u a s) :
    StaysAfter u a (execKeyWrite n key via s) := .next (.ite (.writeKey (.ite h (.clampOp h))) h)

theorem Stays.authFail {p addr sub} (h : Stays u a s) : Stays u a (s.authFail p addr sub) := .unless (.bump h) (fun h1 => .bb (.update h1))

theorem Stays.queueOdp {p addr port key f} [Off u .ram] (h : Stays u a s) : Stays u a (s.queueOdp p addr port key f) := by
  unfold State.queueOdp
  dsimp only
  split
  · exact .bump (.sendUdp h)
  · exact .ite (.bump h) (.takeNext (.update h))

theorem Stays.odpFrame {p addr port f} [Off u .ram] (h : Stays u a s) : Stays u a (s.odpFrame p addr port f) := by
  unfold State.odpFrame
  refine .ite (.bump h) (.ite h (.ite (.ite (.authFail h) ?_) (.queueOdp h)))
  split
  · exact .authFail h
  · split
    · exact .authFail h
    · exact .queueOdp (.update h)

theorem Stays.odpArrive {p addr port fragment f} [Off u .ram] (h : Stays u a s) : Stays u a (s.odpArrive p addr port fragment f) :=
  .ite (.dropFrame h) (.ite (.bump h) (.ite h (.odpFrame h)))

theorem StaysAfter.odpDatagramReceive {p dg} [Off u .ram] (h : Stays u a s) : StaysAfter u a (execOdpDatagramReceive p dg s) :=
  .next (.ite (.ite (.odpArrive (.countFrame h)) (.dropFrame (.countFrame h))) h)

theorem Stays.hearPtp {p m} [Off u .tb] [Off u .dies] (h : Stays u a s) : Stays u a (s.hearPtp p m) := by
  unfold State.hearPtp
  split
  · exact .hearSync h
  · exact .hearFollowUp h
  · exact .hearAnnounce h
  · exact .hearDelayReq h
  · exact .hearDelayResp h
  · exact .hearPdelayReq h
  · exact .hearPdelayResp h
  · exact .hearManagement h
  · exact h

theorem Stays.hearUdp {p v6 addr src dst fragment payload} [Off u .ram] (h : Stays u a s) :
    Stays u a (s.hearUdp p v6 addr src dst fragment payload) :=
  .ite (.odpArrive h) (.ite (.takeKnot h) (.dropFrame h))

theorem Stays.hearBody {p b} [Off u .tb] [Off u .dies] [Off u .ram] (h : Stays u a s) : Stays u a (s.hearBody p b) := by
  unfold State.hearBody
  split
  · exact .ite (.emit h) (.dropFrame h)
  · exact .ite (.reportGroup h) (.dropFrame h)
  · exact .ite (.emit h) (.dropFrame h)
  · exact .ite (.hearPtp h) (.dropFrame h)
  · exact .ite (.hearUdp h) (.dropFrame h)
  · exact .dropFrame h

theorem StaysAfter.ethFrameReceive {p frame} [Off u .tb] [Off u .dies] [Off u .ram] (h : Stays u a s) :
    StaysAfter u a (execEthFrameReceive p frame s) :=
  .next (.ite (.ite (.hearBody (.countFrame h)) (.dropFrame (.countFrame h))) h)

/-! ### Commands of the TAP -/

theorem Stays.loadIr {i} (h : Stays u a s) : Stays u a (s.loadIr i) := .ite (.update h) h
theorem Stays.loadScan {i} (h : Stays u a s) : Stays u a (s.loadScan i) := .loadIr h
theorem Stays.shiftOut {bits v} (h : Stays u a s) : Stays u a (s.shiftOut bits v) := .emit h
theorem StaysAfter.jtagExtest (h : Stays u a s) : StaysAfter u a (execJtagExtest s) := .next (.loadScan h)
theorem StaysAfter.jtagIdcode (h : Stays u a s) : StaysAfter u a (execJtagIdcode s) := .next (.ite (.shiftOut (.loadIr h)) h)
theorem StaysAfter.jtagSamplePreload (h : Stays u a s) : StaysAfter u a (execJtagSamplePreload s) := .next (.loadIr h)
theorem StaysAfter.jtagClamp (h : Stays u a s) : StaysAfter u a (execJtagClamp s) := .next (.loadScan h)
theorem StaysAfter.jtagHighz (h : Stays u a s) : StaysAfter u a (execJtagHighz s) := .next (.loadScan h)
theorem StaysAfter.jtagExtestPulse (h : Stays u a s) : StaysAfter u a (execJtagExtestPulse s) := .next (.loadScan h)
theorem StaysAfter.jtagBypass {opcode} (h : Stays u a s) : StaysAfter u a (execJtagBypass opcode s) := .next (.ite h (.loadIr h))
theorem StaysAfter.frzSeg {seg} (h : Stays u a s) : StaysAfter u a (execFrzSeg seg s) := .next (.ite (.update h) h)
theorem Stays.drawHold (h : Stays u a s) : Stays u a s.drawHold := .ite (.update h) h
theorem StaysAfter.frzRead (h : Stays u a s) : StaysAfter u a (execFrzRead s) := .next (.ite (.shiftOut (.drawHold (.loadIr h))) h)
theorem StaysAfter.bbAddr {index} (h : Stays u a s) : StaysAfter u a (execBbAddr index s) := .next (.ite (.update h) h)
theorem StaysAfter.bbRead (h : Stays u a s) : StaysAfter u a (execBbRead s) := .next (.ite (.emit (.loadIr h)) h)

/-! ### Commands of the watchkeeper -/

theorem Stays.watchEdge {d c x level} [Off u .dies] [Off u .basin] (h : Stays u a s) : Stays u a (s.watchEdge d c x level) :=
  .bumpBy (.withDie (.updateBasin (fun _ => foldl_memory_wf (memWriteBlock_wf _ _ _)) h))

theorem StaysAfter.watchedEdge {d slot time level} [Off u .dies] [Off u .basin] (h : Stays u a s) :
    StaysAfter u a (execWatchedEdge d slot time level s) := by
  unfold execWatchedEdge
  refine .next ?_
  split
  · exact .ite (.watchEdge h) h
  · exact h

theorem Stays.wakePme (h : Stays u a s) : Stays u a s.wakePme := .ite (.emit (.update h)) h

theorem Stays.wakeDie {d} [Off u .dies] (h : Stays u a s) : Stays u a (s.wakeDie d) := by
  unfold State.wakeDie
  split
  · exact .beginArming (.ite (.makeDue h) h)
  · exact h

theorem Stays.stopWatch {d} [Off u .dies] (h : Stays u a s) : Stays u a (s.stopWatch d) := .withDie h

theorem Stays.watchWake {d code} [Off u .power] [Off u .dies] (h : Stays u a s) : Stays u a (s.watchWake d code) :=
  .wakePme (.stopWatch (.stopWatch (.foldl .wakeDie (.updatePower (.startClocks (.setEvBit (.put (.bump h))))))))

theorem StaysAfter.chamberWEvaluation {d} [Off u .power] [Off u .dies] (h : Stays u a s) : StaysAfter u a (execChamberWEvaluation d s) := by
  unfold execChamberWEvaluation
  refine .next (.ite ?_ h)
  dsimp only
  split
  · exact .withDie h
  · exact .when (.withDie h) .watchWake

/-! ### The firing of a slot -/

theorem Stays.slotDie {d loc f} (hf : ∀ {t}, Stays u a t → Stays u a (f t)) (h : Stays u a s) : Stays u a (s.slotDie d loc f) :=
  .ite (hf h) (.ignoreOp h)

theorem Stays.slotFunction {k target} [Off u .power] [Off u .pins] [Off u .dies] [Off u .basin] (h : Stays u a s) :
    Stays u a (s.slotFunction k target) := by
  unfold State.slotFunction
  split
  · exact .slotDie .armCommand h
  · exact .slotDie .armCommand h
  · exact .slotDie .captureStop h
  · exact .slotDie .captureStop h
  · exact .slotDie .forceTrigger h
  · exact .slotDie .forceTrigger h
  · exact .genTimeStart h
  · exact .genTimeStart h
  · exact .slotGate h
  · exact .ite (.watchWake h) (.ignoreOp h)
  · exact .ite (.watchWake h) (.ignoreOp h)
  · exact h

theorem StaysAfter.compareSlotFire {k} [Off u .power] [Off u .pins] [Off u .tb] [Off u .dies] [Off u .basin] (h : Stays u a s) :
    StaysAfter u a (execCompareSlotFire k s) := .next (.ite (.slotFunction (.fireSlot h)) h)

/-! ### Every command -/

/-- The parts that a command names in its frame lists; of a freeze by the register, whose paired write may bring a thaw that waits, the
deep store besides. -/
def Holding.mayChange : Holding → Instr → Bool
  | .host => Instr.changesHost
  | .guard => Instr.changesGuard
  | .power => Instr.changesPower
  | .pins => Instr.changesPins
  | .tb => Instr.changesTime
  | .dies => Instr.changesDies
  | .dsMem => fun
    | .freezeRegister .. => true
    | c => c.storesDeep
  | .basin => Instr.storesBasin
  | .ram => Instr.storesRam
  | .canonical => fun _ => false

/-- A command that does not name `u` is to leave it as it was. -/
def Omits (c : Instr) (u : Holding) : Prop := u.mayChange c = false

theorem Omits.off {c : Instr} (hm : Omits c u) (v : Holding) (hv : v.mayChange c = true) : Off u v := by
  refine ⟨?_⟩
  rintro rfl
  exact Bool.noConfusion (hm.symm.trans hv)

/-- Every command leaves the parts that it does not name as they were, and the memories in canonical form. -/
theorem exec_stays (s : State) : ∀ c : Instr, Omits c u → StaysAfter u s (exec c s)
  | .coreWord .., hm =>
    have := hm.off .pins rfl; have := hm.off .dies rfl; have := hm.off .basin rfl
    .coreWord .refl
  | .deferredAdvanceExecute .., hm =>
    have := hm.off .pins rfl; have := hm.off .dies rfl; have := hm.off .basin rfl
    .deferredAdvanceExecute .refl
  | .timerSaturation .., hm =>
    have := hm.off .pins rfl; have := hm.off .dies rfl; have := hm.off .basin rfl
    .timerSaturation .refl
  | .trigoutPulseEnd .., hm =>
    have := hm.off .pins rfl
    .trigoutPulseEnd .refl
  | .eventBargeClose .., hm =>
    have := hm.off .pins rfl; have := hm.off .dies rfl; have := hm.off .basin rfl
    .eventBargeClose .refl
  | .forceTrigger .., hm =>
    have := hm.off .guard rfl; have := hm.off .dies rfl
    .forceTrigger .refl
  | .pendingPlacementCommit .., hm =>
    have := hm.off .pins rfl; have := hm.off .dies rfl; have := hm.off .basin rfl
    .pendingPlacementCommit .refl
  | .triggerLineArrival .., hm =>
    have := hm.off .pins rfl; have := hm.off .dies rfl; have := hm.off .basin rfl
    .triggerLineArrival .refl
  | .arm .., hm =>
    have := hm.off .guard rfl; have := hm.off .dies rfl; have := hm.off .basin rfl
    .arm .refl
  | .convoyOpen .., hm =>
    have := hm.off .pins rfl; have := hm.off .dies rfl; have := hm.off .basin rfl
    .convoyOpen .refl
  | .stop .., hm =>
    have := hm.off .guard rfl; have := hm.off .pins rfl; have := hm.off .dies rfl; have := hm.off .basin rfl
    .stop .refl
  | .release .., hm =>
    have := hm.off .guard rfl; have := hm.off .dies rfl
    .release .refl
  | .sluiceCopy .., hm =>
    have := hm.off .pins rfl; have := hm.off .dies rfl; have := hm.off .dsMem rfl; have := hm.off .basin rfl
    .sluiceCopy .refl
  | .convoySealed .., hm =>
    have := hm.off .pins rfl; have := hm.off .dies rfl; have := hm.off .dsMem rfl; have := hm.off .basin rfl
    .convoySealed .refl
  | .sluiceSealedConvoy .., hm =>
    have := hm.off .dies rfl
    .sluiceSealedConvoy .refl
  | .sluiceSealedCopyDone .., hm =>
    have := hm.off .dies rfl; have := hm.off .dsMem rfl
    .sluiceSealedCopyDone .refl
  | .watchedEdge .., hm =>
    have := hm.off .dies rfl; have := hm.off .basin rfl
    .watchedEdge .refl
  | .quadrantReturn .., hm =>
    have := hm.off .dies rfl
    .quadrantReturn .refl
  | .eyeFinderStart .., hm =>
    have := hm.off .dies rfl
    .eyeFinderStart .refl
  | .eyeFinderDone .., hm =>
    have := hm.off .dies rfl
    .eyeFinderDone .refl
  | .eyeFinderNoClock, hm =>
    have := hm.off .dies rfl
    .eyeFinderNoClock .refl
  | .fullCalibrationCommand .., hm =>
    have := hm.off .dies rfl
    .fullCalibrationCommand .refl
  | .calibrationComplete .., hm =>
    have := hm.off .dies rfl
    .calibrationComplete .refl
  | .driftCheck .., hm =>
    have := hm.off .dies rfl
    .driftCheck .refl
  | .deskewRecalibration .., hm =>
    have := hm.off .dies rfl
    .deskewRecalibration .refl
  | .calibrationAgeDue .., hm =>
    have := hm.off .dies rfl
    .calibrationAgeDue .refl
  | .maintenanceTaskRun .., hm =>
    have := hm.off .dies rfl
    .maintenanceTaskRun .refl
  | .writeYarnDirection .., hm =>
    have := hm.off .guard rfl; have := hm.off .pins rfl
    .writeYarnDirection .refl
  | .writeYarnDrive .., hm =>
    have := hm.off .guard rfl; have := hm.off .pins rfl
    .writeYarnDrive .refl
  | .incrementCommit .., hm =>
    have := hm.off .guard rfl; have := hm.off .tb rfl
    .incrementCommit .refl
  | .stepCommit .., hm =>
    have := hm.off .guard rfl; have := hm.off .tb rfl
    .stepCommit .refl
  | .stepApply, hm =>
    have := hm.off .tb rfl; have := hm.off .dies rfl
    .stepApply .refl
  | .forceStepAmount .., hm =>
    have := hm.off .guard rfl; have := hm.off .tb rfl; have := hm.off .dies rfl
    .forceStepAmount .refl
  | .forceStepAbsolute .., hm =>
    have := hm.off .guard rfl; have := hm.off .tb rfl; have := hm.off .dies rfl
    .forceStepAbsolute .refl
  | .epochWrite .., hm =>
    have := hm.off .guard rfl; have := hm.off .tb rfl; have := hm.off .dies rfl
    .epochWrite .refl
  | .timewordWrap, hm =>
    have := hm.off .tb rfl; have := hm.off .dies rfl
    .timewordWrap .refl
  | .discSet, hm =>
    have := hm.off .guard rfl; have := hm.off .tb rfl; have := hm.off .dies rfl
    .discSet .refl
  | .discClear, hm =>
    have := hm.off .guard rfl; have := hm.off .tb rfl
    .discClear .refl
  | .hostWatchdogExpiry, hm =>
    have := hm.off .tb rfl
    .hostWatchdogExpiry .refl
  | .servoOwnerWrite .., hm =>
    have := hm.off .tb rfl
    .servoOwnerWrite .refl
  | .compareTargetCommit .., hm =>
    have := hm.off .guard rfl; have := hm.off .tb rfl
    .compareTargetCommit .refl
  | .compareSlotEnable .., hm =>
    have := hm.off .guard rfl; have := hm.off .tb rfl
    .compareSlotEnable .refl
  | .compareSlotFire .., hm =>
    have := hm.off .power rfl; have := hm.off .pins rfl; have := hm.off .tb rfl; have := hm.off .dies rfl; have := hm.off .basin rfl
    .compareSlotFire .refl
  | .sourceSelect .., hm =>
    have := hm.off .tb rfl
    .sourceSelect .refl
  | .sourceSwap .., hm =>
    have := hm.off .pins rfl; have := hm.off .tb rfl; have := hm.off .dies rfl
    .sourceSwap .refl
  | .refinFallback .., hm =>
    have := hm.off .pins rfl; have := hm.off .tb rfl; have := hm.off .dies rfl
    .refinFallback .refl
  | .refinAutoReturn .., hm =>
    have := hm.off .pins rfl; have := hm.off .tb rfl; have := hm.off .dies rfl
    .refinAutoReturn .refl
  | .freeRunUpdate, hm =>
    have := hm.off .tb rfl
    .freeRunUpdate .refl
  | .ageingLearned .., _ => .ageingLearned .refl
  | .latchingPairRead .., hm =>
    have := hm.off .host rfl; have := hm.off .tb rfl
    .latchingPairRead .refl
  | .portReconfigure .., _ => .portReconfigure .refl
  | .ethLinkLoss .., _ => .ethLinkLoss .refl
  | .ethLinkUp .., hm =>
    have := hm.off .tb rfl
    .ethLinkUp .refl
  | .ethFrameReceive .., hm =>
    have := hm.off .tb rfl; have := hm.off .dies rfl; have := hm.off .ram rfl
    .ethFrameReceive .refl
  | .bulkReadoutStart .., _ => .bulkReadoutStart .refl
  | .bulkReadoutDatagram, _ => .bulkReadoutDatagram .refl
  | .syncReceive .., hm =>
    have := hm.off .tb rfl; have := hm.off .dies rfl
    .syncReceive .refl
  | .followUpReceive .., hm =>
    have := hm.off .tb rfl; have := hm.off .dies rfl
    .followUpReceive .refl
  | .announceReceive .., _ => .announceReceive .refl
  | .delayReqReceive .., _ => .delayReqReceive .refl
  | .delayRespReceive .., hm =>
    have := hm.off .tb rfl
    .delayRespReceive .refl
  | .pdelayReqReceive .., _ => .pdelayReqReceive .refl
  | .pdelayRespReceive .., hm =>
    have := hm.off .tb rfl
    .pdelayRespReceive .refl
  | .managementMessageReceive .., _ => .managementMessageReceive .refl
  | .syncSend .., _ => .syncSend .refl
  | .announceSend .., _ => .announceSend .refl
  | .delayReqSend .., _ => .delayReqSend .refl
  | .syncTimeout, hm =>
    have := hm.off .tb rfl
    .syncTimeout .refl
  | .announceReceiptTimeout, hm =>
    have := hm.off .tb rfl
    .announceReceiptTimeout .refl
  | .knotSend, hm =>
    have := hm.off .dies rfl
    .knotSend .refl
  | .hostKnotSend .., _ => .hostKnotSend .refl
  | .knotReceive .., _ => .knotReceive .refl
  | .knotDeliver, hm =>
    have := hm.off .pins rfl; have := hm.off .dies rfl; have := hm.off .dsMem rfl; have := hm.off .basin rfl
    .knotDeliver .refl
  | .duplicateEntryExpiry .., _ => .duplicateEntryExpiry .refl
  | .heartbeatSend .., _ => .heartbeatSend .refl
  | .heartbeatReceive .., hm =>
    have := hm.off .tb rfl
    .heartbeatReceive .refl
  | .alpPortEnable .., hm =>
    have := hm.off .tb rfl; have := hm.off .ram rfl
    .alpPortEnable .refl
  | .alpPortDown .., hm =>
    have := hm.off .tb rfl; have := hm.off .ram rfl
    .alpPortDown .refl
  | .alpLaneFailure _ lane, hm =>
    have := hm.off .tb rfl; have := hm.off .ram rfl
    .alpLaneFailure (lane := lane) .refl
  | .alpMeasurement .., hm =>
    have := hm.off .tb rfl; have := hm.off .dies rfl
    .alpMeasurement .refl
  | .tunnelFrameReceive .., hm =>
    have := hm.off .ram rfl
    .tunnelFrameReceive .refl
  | .gaugeStart .., _ => .gaugeStart .refl
  | .gaugeStop .., _ => .gaugeStop .refl
  | .gaugeStampingBegin .., _ => .gaugeStampingBegin .refl
  | .gateClose .., _ => .gateClose .refl
  | .gaugeStartEdge .., _ => .gaugeStartEdge .refl
  | .gaugeStopEdge .., _ => .gaugeStopEdge .refl
  | .shotTimeout .., _ => .shotTimeout .refl
  | .gaugeTimeout .., _ => .gaugeTimeout .refl
  | .pgPrime .., hm =>
    have := hm.off .guard rfl
    .pgPrime .refl
  | .pgStart .., hm =>
    have := hm.off .guard rfl
    .pgStart .refl
  | .pgReady .., _ => .pgReady .refl
  | .pgStop .., hm =>
    have := hm.off .guard rfl
    .pgStop .refl
  | .pgJumpRequest .., hm =>
    have := hm.off .guard rfl
    .pgJumpRequest .refl
  | .pgPassEnd .., _ => .pgPassEnd .refl
  | .pgUnderrun .., _ => .pgUnderrun .refl
  | .pgHoldEnd .., _ => .pgHoldEnd .refl
  | .pgKnotStart .., _ => .pgKnotStart .refl
  | .syncinPulse .., _ => .syncinPulse .refl
  | .pgSyncStart .., _ => .pgSyncStart .refl
  | .syncoutOriginate .., _ => .syncoutOriginate .refl
  | .pgSyncCalibration .., _ => .pgSyncCalibration .refl
  | .syncCalibrationEnd .., _ => .syncCalibrationEnd .refl
  | .loopCacheLoad .., _ => .loopCacheLoad .refl
  | .loopCacheLoadDone .., hm =>
    have := hm.off .basin rfl
    .loopCacheLoadDone .refl
  | .speedChangeRequest .., hm =>
    have := hm.off .guard rfl
    .speedChangeRequest .refl
  | .speedChangeApply, _ => .speedChangeApply .refl
  | .speedChangeComplete .., _ => .speedChangeComplete .refl
  | .trainingDue .., _ => .trainingDue .refl
  | .trainingComplete .., _ => .trainingComplete .refl
  | .dimmSensorRead .., _ => .dimmSensorRead .refl
  | .dsRequestComplete .., hm =>
    have := hm.off .dies rfl
    .dsRequestComplete .refl
  | .dsParityError .., hm =>
    have := hm.off .dies rfl
    .dsParityError .refl
  | .migrationDone .., hm =>
    have := hm.off .dies rfl
    .migrationDone .refl
  | .urgencyRise .., _ => .urgencyRise .refl
  | .patrolScrubRead .., hm =>
    have := hm.off .dies rfl
    .patrolScrubRead .refl
  | .rankRetire .., hm =>
    have := hm.off .guard rfl
    .rankRetire .refl
  | .spareEnable .., hm =>
    have := hm.off .guard rfl
    .spareEnable .refl
  | .retiredListClear .., hm =>
    have := hm.off .guard rfl
    .retiredListClear .refl
  | .mpllCoastSelfRefresh .., _ => .mpllCoastSelfRefresh .refl
  | .windowRead .., _ => .windowRead .refl
  | .windowWrite .., hm =>
    have := hm.off .dsMem rfl
    .windowWrite .refl
  | .windowBaseWrite .., hm =>
    have := hm.off .guard rfl
    .windowBaseWrite .refl
  | .marchTestCommand .., _ => .marchTestCommand .refl
  | .marchTestDone .., hm =>
    have := hm.off .power rfl; have := hm.off .dies rfl; have := hm.off .basin rfl
    .marchTestDone .refl
  | .backgroundTestStep .., hm =>
    have := hm.off .power rfl
    .backgroundTestStep .refl
  | .descriptorRamHostWrite .., hm =>
    have := hm.off .host rfl; have := hm.off .guard rfl; have := hm.off .ram rfl
    .descriptorRamHostWrite .refl
  | .descriptorRamHostRead .., _ => .descriptorRamHostRead .refl
  | .scratchpadUe, hm =>
    have := hm.off .power rfl; have := hm.off .tb rfl; have := hm.off .dies rfl; have := hm.off .basin rfl
    .scratchpadUe .refl
  | .referenceLoss, hm =>
    have := hm.off .dies rfl
    .referenceLoss .refl
  | .lockLoss .., hm =>
    have := hm.off .dies rfl
    .lockLoss .refl
  | .coastEstimate .., hm =>
    have := hm.off .pins rfl; have := hm.off .dies rfl; have := hm.off .basin rfl
    .coastEstimate .refl
  | .coastEstimateTimeout .., hm =>
    have := hm.off .pins rfl; have := hm.off .dies rfl; have := hm.off .basin rfl
    .coastEstimateTimeout .refl
  | .reentry .., hm =>
    have := hm.off .pins rfl; have := hm.off .dies rfl; have := hm.off .basin rfl
    .reentry .refl
  | .reentryAttempt .., hm =>
    have := hm.off .pins rfl; have := hm.off .dies rfl; have := hm.off .basin rfl
    .reentryAttempt .refl
  | .lockConfirmed .., hm =>
    have := hm.off .dies rfl
    .lockConfirmed .refl
  | .bandSearchDone .., _ => .bandSearchDone .refl
  | .bandRevalidate .., _ => .bandRevalidate .refl
  | .spreadChange .., _ => .spreadChange .refl
  | .elasticBufferSeal .., hm =>
    have := hm.off .pins rfl; have := hm.off .dies rfl; have := hm.off .basin rfl
    .elasticBufferSeal .refl
  | .dmaRun .., hm =>
    have := hm.off .guard rfl
    .dmaRun .refl
  | .dmaStop .., hm =>
    have := hm.off .guard rfl; have := hm.off .ram rfl
    .dmaStop .refl
  | .dmaAbort .., hm =>
    have := hm.off .guard rfl; have := hm.off .ram rfl
    .dmaAbort .refl
  | .dmaResume .., hm =>
    have := hm.off .guard rfl
    .dmaResume .refl
  | .dmaProducerWrite .., hm =>
    have := hm.off .guard rfl
    .dmaProducerWrite .refl
  | .dmaJobComplete .., hm =>
    have := hm.off .ram rfl
    .dmaJobComplete .refl
  | .pcieCompletionReceive .., hm =>
    have := hm.off .dsMem rfl; have := hm.off .ram rfl
    .pcieCompletionReceive .refl
  | .completionTimeout .., hm =>
    have := hm.off .ram rfl
    .completionTimeout .refl
  | .busMasterDisable, hm =>
    have := hm.off .ram rfl
    .busMasterDisable .refl
  | .busMasterEnable, _ => .busMasterEnable .refl
  | .d3hotEntry, hm =>
    have := hm.off .ram rfl
    .d3hotEntry .refl
  | .d0Return, _ => .d0Return .refl
  | .functionLevelReset, hm =>
    have := hm.off .ram rfl
    .functionLevelReset .refl
  | .hotReset, hm =>
    have := hm.off .ram rfl
    .hotReset .refl
  | .flrWaitEnd, hm =>
    have := hm.off .guard rfl; have := hm.off .ram rfl
    .flrWaitEnd .refl
  | .retiredTagExpiry .., _ => .retiredTagExpiry .refl
  | .pcieLinkLoss .., hm =>
    have := hm.off .guard rfl; have := hm.off .ram rfl
    .pcieLinkLoss .refl
  | .msixUnmask .., _ => .msixUnmask .refl
  | .pmeStatusClear, _ => .pmeStatusClear .refl
  | .mailboxSubmit .., hm =>
    have := hm.off .host rfl; have := hm.off .guard rfl; have := hm.off .ram rfl
    .mailboxSubmit .refl
  | .odpDatagramReceive .., hm =>
    have := hm.off .ram rfl
    .odpDatagramReceive .refl
  | .odpRead, hm =>
    have := hm.off .ram rfl
    .odpRead .refl
  | .odpWrite, hm =>
    have := hm.off .guard rfl; have := hm.off .power rfl; have := hm.off .pins rfl; have := hm.off .tb rfl; have := hm.off .dies rfl
    have := hm.off .basin rfl; have := hm.off .ram rfl
    .odpWrite .refl
  | .odpReadBlock, hm =>
    have := hm.off .ram rfl
    .odpReadBlock .refl
  | .odpWriteBlock, hm =>
    have := hm.off .guard rfl; have := hm.off .power rfl; have := hm.off .pins rfl; have := hm.off .tb rfl; have := hm.off .dies rfl
    have := hm.off .basin rfl; have := hm.off .ram rfl
    .odpWriteBlock .refl
  | .odpSubscribe, hm =>
    have := hm.off .ram rfl
    .odpSubscribe .refl
  | .keyWrite .., _ => .keyWrite .refl
  | .notify .., hm =>
    have := hm.off .ram rfl
    .notify .refl
  | .subscriptionLapse .., _ => .subscriptionLapse .refl
  | .registerWrite .., hm =>
    have := hm.off .host rfl; have := hm.off .guard rfl; have := hm.off .power rfl; have := hm.off .pins rfl; have := hm.off .tb rfl
    have := hm.off .dies rfl; have := hm.off .dsMem rfl; have := hm.off .basin rfl; have := hm.off .ram rfl
    .registerWrite .refl
  | .guardUnlock .., hm =>
    have := hm.off .guard rfl
    .guardUnlock .refl
  | .guardLockTimeout, hm =>
    have := hm.off .guard rfl
    .guardLockTimeout .refl
  | .guardComplementWrite .., hm =>
    have := hm.off .host rfl; have := hm.off .guard rfl; have := hm.off .power rfl; have := hm.off .pins rfl; have := hm.off .tb rfl
    have := hm.off .dies rfl; have := hm.off .dsMem rfl; have := hm.off .basin rfl; have := hm.off .ram rfl
    .guardComplementWrite .refl
  | .guardModeSelect .., hm =>
    have := hm.off .guard rfl
    .guardModeSelect .refl
  | .requestOn .., hm =>
    have := hm.off .guard rfl; have := hm.off .power rfl; have := hm.off .dies rfl; have := hm.off .basin rfl
    .requestOn .refl
  | .requestStandby .., hm =>
    have := hm.off .guard rfl; have := hm.off .power rfl; have := hm.off .dies rfl; have := hm.off .basin rfl
    .requestStandby .refl
  | .requestRetain .., hm =>
    have := hm.off .guard rfl; have := hm.off .power rfl; have := hm.off .dies rfl; have := hm.off .basin rfl
    .requestRetain .refl
  | .requestWatch .., hm =>
    have := hm.off .guard rfl; have := hm.off .power rfl; have := hm.off .dies rfl; have := hm.off .basin rfl
    .requestWatch .refl
  | .requestOff .., hm =>
    have := hm.off .guard rfl; have := hm.off .power rfl; have := hm.off .dies rfl; have := hm.off .basin rfl
    .requestOff .refl
  | .powerTransitionDone, hm =>
    have := hm.off .host rfl; have := hm.off .guard rfl; have := hm.off .power rfl; have := hm.off .pins rfl; have := hm.off .tb rfl
    have := hm.off .dies rfl; have := hm.off .dsMem rfl; have := hm.off .basin rfl; have := hm.off .ram rfl
    .powerTransitionDone .refl
  | .domainIdleOff .., hm =>
    have := hm.off .power rfl
    .domainIdleOff .refl
  | .powerFailWarning .., hm =>
    have := hm.off .host rfl; have := hm.off .guard rfl; have := hm.off .power rfl; have := hm.off .pins rfl; have := hm.off .dies rfl
    have := hm.off .basin rfl; have := hm.off .ram rfl
    .powerFailWarning .refl
  | .powerOnReset, hm =>
    have := hm.off .host rfl; have := hm.off .guard rfl; have := hm.off .power rfl; have := hm.off .pins rfl; have := hm.off .tb rfl
    have := hm.off .dies rfl; have := hm.off .dsMem rfl; have := hm.off .basin rfl; have := hm.off .ram rfl
    .powerOnReset .refl
  | .powerOnResetRelease .., hm =>
    have := hm.off .guard rfl; have := hm.off .power rfl; have := hm.off .dies rfl; have := hm.off .dsMem rfl
    .powerOnResetRelease .refl
  | .fundamentalResetAssert .., hm =>
    have := hm.off .host rfl; have := hm.off .guard rfl; have := hm.off .power rfl; have := hm.off .pins rfl; have := hm.off .dies rfl
    have := hm.off .dsMem rfl; have := hm.off .basin rfl; have := hm.off .ram rfl
    .fundamentalResetAssert .refl
  | .fundamentalResetRelease .., hm =>
    have := hm.off .guard rfl; have := hm.off .power rfl; have := hm.off .tb rfl; have := hm.off .dies rfl; have := hm.off .dsMem rfl
    .fundamentalResetRelease .refl
  | .startupComplete .., hm =>
    have := hm.off .power rfl; have := hm.off .tb rfl; have := hm.off .dies rfl; have := hm.off .dsMem rfl
    .startupComplete .refl
  | .mainRailsReturn .., hm =>
    have := hm.off .guard rfl; have := hm.off .power rfl; have := hm.off .tb rfl; have := hm.off .dies rfl; have := hm.off .dsMem rfl
    .mainRailsReturn .refl
  | .offWakeEdge .., hm =>
    have := hm.off .power rfl
    .offWakeEdge .refl
  | .hkcWatchdogExpiry, hm =>
    have := hm.off .power rfl; have := hm.off .tb rfl; have := hm.off .dies rfl; have := hm.off .basin rfl
    .hkcWatchdogExpiry .refl
  | .hkcRestartComplete, hm =>
    have := hm.off .power rfl; have := hm.off .ram rfl
    .hkcRestartComplete .refl
  | .sensorRead .., hm =>
    have := hm.off .host rfl; have := hm.off .guard rfl; have := hm.off .power rfl; have := hm.off .pins rfl; have := hm.off .tb rfl
    have := hm.off .dies rfl; have := hm.off .dsMem rfl; have := hm.off .basin rfl; have := hm.off .ram rfl
    .sensorRead .refl
  | .freezePinLow, hm =>
    have := hm.off .guard rfl; have := hm.off .power rfl; have := hm.off .pins rfl; have := hm.off .ram rfl
    .freezePinLow .refl
  | .freezePinRelease, hm =>
    have := hm.off .pins rfl; have := hm.off .dies rfl; have := hm.off .dsMem rfl; have := hm.off .basin rfl
    .freezePinRelease .refl
  | .freezeRegister .., hm =>
    have := hm.off .host rfl; have := hm.off .guard rfl; have := hm.off .power rfl; have := hm.off .pins rfl; have := hm.off .dies rfl
    have := hm.off .dsMem rfl; have := hm.off .basin rfl; have := hm.off .ram rfl
    .freezeRegister .refl
  | .thawRegister .., hm =>
    have := hm.off .host rfl; have := hm.off .guard rfl; have := hm.off .power rfl; have := hm.off .pins rfl; have := hm.off .dies rfl
    have := hm.off .dsMem rfl; have := hm.off .basin rfl; have := hm.off .ram rfl
    .thawRegister .refl
  | .hostMark .., hm =>
    have := hm.off .guard rfl
    .hostMark .refl
  | .optionalCategoriesWrite .., hm =>
    have := hm.off .guard rfl
    .optionalCategoriesWrite .refl
  | .blackBoxCommit, _ => .blackBoxCommit .refl
  | .jtagExtest, _ => .jtagExtest .refl
  | .jtagIdcode, _ => .jtagIdcode .refl
  | .jtagSamplePreload, _ => .jtagSamplePreload .refl
  | .jtagClamp, _ => .jtagClamp .refl
  | .jtagHighz, _ => .jtagHighz .refl
  | .jtagExtestPulse, _ => .jtagExtestPulse .refl
  | .jtagBypass .., _ => .jtagBypass .refl
  | .frzSeg .., _ => .frzSeg .refl
  | .frzRead, _ => .frzRead .refl
  | .bbAddr .., _ => .bbAddr .refl
  | .bbRead, _ => .bbRead .refl
  | .chamberWEvaluation .., hm =>
    have := hm.off .power rfl; have := hm.off .dies rfl
    .chamberWEvaluation .refl
  | .pgTimeStart .., _ => .pgTimeStart .refl
  | .pcieLinkUp .., _ => .pcieLinkUp .refl
  | .configurationWrite .., hm =>
    have := hm.off .ram rfl
    .configurationWrite .refl

/-- A command that completes leaves a part that it does not name as it was. -/
theorem stays_of_exec {c : Instr} (e : exec c s = .next t) (hm : Omits c u) : Stays u s t := by
  have h := exec_stays s c hm
  rwa [e] at h

/-- Settles O56: each command's meaning is built of operations that change no part but those that the command names. -/
theorem registerAndPowerFrames : Obligations.RegisterAndPowerFrames := fun _ _ _ e =>
  ⟨stays_of_exec (u := .host) e, stays_of_exec (u := .guard) e, stays_of_exec (u := .power) e, stays_of_exec (u := .pins) e⟩

theorem Stays.countWait {n} (h : Stays u a s) : Stays u a (s.countWait n) := .foldl .bumpBy h

theorem Stays.bootInc [Off u .power] [Off u .tb] (h : Stays u a s) : Stays u a s.bootInc := .when h .loadInc

theorem Stays.judgeAsk {x} [Off u .ram] (h : Stays u a s) : Stays u a (s.judgeAsk x) := by
  unfold State.judgeAsk
  exact .ite (.unreachable (.update h)) (.update h)

theorem Stays.expireAsks [Off u .ram] (h : Stays u a s) : Stays u a s.expireAsks := .when h (.foldl .judgeAsk)
theorem Stays.migrateOn (h : Stays u a s) : Stays u a s.migrateOn := .unless h .migrateNext

theorem Stays.noteDomain {n} [Off u .power] (h : Stays u a s) : Stays u a (s.noteDomain n) := by
  unfold State.noteDomain
  split
  · exact h
  · exact .ite (.updatePower h) (.when h .updatePower)

theorem Stays.noteDomains [Off u .power] (h : Stays u a s) : Stays u a s.noteDomains := .foldl .noteDomain h

/-- What passes while no command waits. -/
theorem Stays.idle [Off u .power] [Off u .pins] [Off u .tb] [Off u .dies] [Off u .ram] (h : Stays u a s) : Stays u a s.idle :=
  .noteDomains (.migrateOn (.expireAsks (.settlePins (.genAsk (.genAsk (.endCheck (.endCheck (.bootInc (.tick (.countWait h))))))))))

/-- Settles O52: a step is a command on the state without that command, or what passes while none waits; each keeps the canonical form. -/
theorem stepKeepsInvariant : Obligations.StepKeepsInvariant := by
  intro s t inv e
  unfold step at e
  split at e
  · have hp : Off .canonical .power := ⟨nofun⟩
    have hi : Off .canonical .pins := ⟨nofun⟩
    have ht : Off .canonical .tb := ⟨nofun⟩
    have hd : Off .canonical .dies := ⟨nofun⟩
    have hr : Off .canonical .ram := ⟨nofun⟩
    have kept : Stays .canonical s s.idle := .idle .refl
    exact Host.Outcome.next.inj e ▸ kept inv
  next c rest _ =>
    have kept : Stays .canonical { s with pending := rest } t := stays_of_exec e rfl
    exact kept inv

end Sys2Proof.Machine
end


section
/-! PROOFS. What every command answers (O51), the reset state (O50), the scan instructions (O43), and guarded writes that meet a lapsed lock
(O23, O25, O41, O42). -/

namespace Sys2Proof.Machine

/-! ### Answers and the reset state -/

/-- Settles O50: every memory of the reset state is empty. -/
theorem resetInv : Obligations.ResetInv := ⟨rfl, rfl, rfl, rfl⟩

/-- The commands that check their own form before they act (R325, R372). -/
theorem exec_of_wf {c : Instr} {s : State} (wf : c.wf = true) : ∃ t, exec c s = .next t := by
  have checked (r : State) : ∃ t, (if !c.wf then .fault .illFormed else .next r : Result) = .next t := ⟨r, if_neg (by simp [wf])⟩
  cases c with
  | windowRead => exact checked _
  | windowWrite => exact checked _
  | descriptorRamHostWrite => exact checked _
  | descriptorRamHostRead => exact checked _
  | registerWrite => exact checked _
  | configurationWrite => exact checked _
  | knotSend =>
    show ∃ t, execKnotSend s = .next t
    unfold execKnotSend
    split
    · exact ⟨_, rfl⟩
    · split <;> exact ⟨_, rfl⟩
  | knotDeliver =>
    show ∃ t, execKnotDeliver s = .next t
    unfold execKnotDeliver
    split
    · exact ⟨_, rfl⟩
    · split <;> exact ⟨_, rfl⟩
  | _ => exact ⟨_, rfl⟩

theorem exec_of_illFormed {c : Instr} {s : State} (wf : c.wf = false) : exec c s = .fault .illFormed := by
  have checked (r : State) : (if !c.wf then .fault .illFormed else .next r : Result) = .fault .illFormed := if_pos (by simp [wf])
  cases c with
  | windowRead => exact checked _
  | windowWrite => exact checked _
  | descriptorRamHostWrite => exact checked _
  | descriptorRamHostRead => exact checked _
  | registerWrite => exact checked _
  | configurationWrite => exact checked _
  | _ => exact absurd wf Bool.noConfusion

/-- Settles O51: six commands check their form and are a fault without it; every other one is well formed and answers a state. -/
theorem everyCommandAnswers : Obligations.EveryCommandAnswers := fun _ _ => ⟨exec_of_wf, exec_of_illFormed⟩

/-! ### The scan instructions (R430, R431) -/

section Scan
variable {s : State} {i : JtagIr} {c : Instr}

theorem State.loadIr_of_tapUp (up : s.tapUp = true) : s.loadIr i = { s with jtag := { s.jtag with ir := i } } := if_pos up

/-- A fundamental reset loads the scan instruction itself (R431). -/
theorem loadScan_inReset (runs : exec c s = .next (s.loadScan i)) (reset : s.power.phase = .fundamental) :
    Completes c s (fun t => t.jtag.ir = i ∧ t.pins = s.pins) := by
  refine .next runs ?_
  rw [State.loadScan, if_pos reset, State.loadIr_of_tapUp (by simp [State.tapUp, reset])]
  exact ⟨rfl, rfl⟩

/-- At any other time BYPASS loads in its place (R431). -/
theorem loadScan_outside (runs : exec c s = .next (s.loadScan i)) (up : s.tapUp = true) (free : s.power.phase ≠ .fundamental) :
    Completes c s (fun t => t.jtag.ir = .bypass ∧ t.pins = s.pins) := by
  refine .next runs ?_
  rw [State.loadScan, if_neg free, State.loadIr_of_tapUp up]
  exact ⟨rfl, rfl⟩

theorem State.dropScan_extest (loaded : s.jtag.ir = .extest) : s.dropScan.jtag.ir = .bypass := by
  rw [State.dropScan, if_pos (by rw [loaded]; rfl)]

/-! The instruction that is loaded at the end of a reset stays through what the release begins. -/

theorem State.addTime_jtag (s : State) (amt : Int) : (s.addTime amt).jtag = s.jtag := by
  unfold State.addTime
  dsimp only
  split <;> simp

theorem State.bbStep_jtag (s : State) (amt : Int) (forced : Nat) (srv : Bool) : (s.bbStep amt forced srv).jtag = s.jtag := by
  unfold State.bbStep
  split <;> simp

theorem State.applyStep_jtag (s : State) : s.applyStep.jtag = s.jtag := by
  unfold State.applyStep
  split
  · rfl
  · dsimp only
    rw [State.bbStep_jtag, State.putInt_jtag, State.put_jtag, State.bump_jtag]
    exact State.addTime_jtag ..

theorem State.passUntil_jtag (s : State) (at_ : Nat) : (s.passUntil at_).jtag = s.jtag := by
  unfold State.passUntil
  dsimp only
  split
  · rfl
  · rw [State.applyStep_jtag, State.addTime_jtag]

theorem State.loseItem_jtag (s : State) (n : Fin 8) : (s.loseItem n).jtag = s.jtag := by
  unfold State.loseItem
  split <;> rfl

theorem State.readHistory_jtag (s : State) (h : HistoryCheck) : (s.readHistory h).jtag = s.jtag := by
  unfold State.readHistory
  dsimp only
  rw [State.putNat_jtag]
  split
  · rw [State.bumpBy_jtag, State.foldl_keeps (p := State.jtag) _ _ State.loseItem_jtag]
  · rw [State.bb_jtag, State.bumpBy_jtag, State.foldl_keeps (p := State.jtag) _ _ State.loseItem_jtag]

theorem State.beginStart_jtag (s : State) (x : Straps) (h : HistoryCheck) (dimms : Bool) : (s.beginStart x h dimms).jtag = s.jtag :=
  State.readHistory_jtag ..

theorem State.leaveOff_jtag (s : State) (x : Straps) (h : HistoryCheck) : (s.leaveOff x h).jtag = s.jtag := by
  unfold State.leaveOff State.noteReset
  split
  · rfl
  · dsimp only
    rw [State.beginStart_jtag, State.bump_jtag, State.put_jtag, State.putNat_jtag]
    rfl

theorem fundamentalResetRelease_jtag (straps : Straps) (h : HistoryCheck) (reset : s.power.phase = .fundamental) :
    Completes (.fundamentalResetRelease straps h) s (fun t => t.jtag = s.dropScan.jtag) := by
  refine .next (congrArg Host.Outcome.next (if_pos reset)) ?_
  dsimp only
  split
  · exact State.leaveOff_jtag ..
  · rw [State.beginStart_jtag, State.passUntil_jtag]

end Scan

/-- Settles O43: the four instructions load through `State.loadScan`, and the release of the reset drops one that is loaded. -/
theorem scanOnlyInReset : Obligations.ScanOnlyInReset := by
  refine ⟨fun s reset => ⟨?_, ?_, ?_, ?_⟩, fun s up free => ⟨?_, ?_, ?_, ?_⟩, fun straps h s reset loaded => ?_⟩
  · exact loadScan_inReset rfl reset
  · exact loadScan_inReset rfl reset
  · exact loadScan_inReset rfl reset
  · exact loadScan_inReset rfl reset
  · exact loadScan_outside rfl up free
  · exact loadScan_outside rfl up free
  · exact loadScan_outside rfl up free
  · exact loadScan_outside rfl up free
  · obtain ⟨t, done, same⟩ := fundamentalResetRelease_jtag straps h reset
    exact .next done (by rw [same, State.dropScan_extest loaded])

/-! ### Guarded writes that meet a lapsed lock

`State.admits` asks of a pair that paired mode is in force, but not that the write leaves it so. In `State.lapsedLock` the first dword
closes the lock, keyed mode comes into force, and the pair is refused as LOCKED. -/

/-! What raises an interrupt changes no more of the host endpoint than its messages (R334). -/

/-- A part of the host endpoint that holds no message. -/
def MsixFree {β : Type} (p : Pcie → β) : Prop := ∀ x m, p { x with msix := m } = p x

section MsixFree
variable {β : Type} {p : Pcie → β} {s : State}

theorem MsixFree.flushVector (free : MsixFree p) (v : Fin 64) : p (s.flushVector v).pcie = p s.pcie := by
  unfold State.flushVector
  split
  · exact free ..
  · rfl

theorem MsixFree.raise (free : MsixFree p) (v : Fin 64) : p (s.raise v).pcie = p s.pcie := by
  unfold State.raise
  split
  · exact (free.flushVector v).trans (free ..)
  · rfl

theorem MsixFree.setEv (free : MsixFree p) (r : EvReg) (b : Dword) : p (s.setEv r b).pcie = p s.pcie := by
  unfold State.setEv
  dsimp only
  split
  · rfl
  · split
    · exact free.raise _
    · rfl

theorem MsixFree.setEvBit (free : MsixFree p) (r : EvReg) (i : Nat) : p (s.setEvBit r i).pcie = p s.pcie := free.setEv r _

theorem MsixFree.bbDrop (free : MsixFree p) : p s.bbDrop.pcie = p s.pcie := (free.setEvBit ..).trans (by rw [State.bump_pcie])

theorem MsixFree.bb (free : MsixFree p) (code sev : Nat) (data : List Byte) : p (s.bb code sev data).pcie = p s.pcie := by
  unfold State.bb
  dsimp only
  split
  · rfl
  · split
    · exact free.bbDrop
    · split
      · exact free.bbDrop
      · exact free.bbDrop

theorem MsixFree.ignoreOp (free : MsixFree p) (loc : Nat × Nat) (via : Source) (c : Cause) :
    p (s.ignoreOp loc via c).pcie = p s.pcie := by
  unfold State.ignoreOp
  dsimp only
  split
  · rw [free.bb, free.setEvBit, State.bump_pcie]
  · rw [free.setEvBit, State.bump_pcie]

theorem MsixFree.clampOp (free : MsixFree p) (loc : Nat × Nat) (reason : Nat) (via : Source) (asked used : Int) :
    p (s.clampOp loc reason via asked used).pcie = p s.pcie := by
  unfold State.clampOp
  dsimp only
  split
  · rw [free.bb, free.setEvBit, State.bump_pcie]
  · rw [free.setEvBit, State.bump_pcie]

theorem MsixFree.guardFail (free : MsixFree p) (cause off : Nat) (v : Dword) (via : Source) :
    p (s.guardFail cause off v via).pcie = p s.pcie := by
  unfold State.guardFail
  dsimp only
  rw [free.bb, free.setEvBit, free.setEvBit]

theorem MsixFree.closeLock (free : MsixFree p) : p s.closeLock.pcie = p s.pcie := by
  unfold State.closeLock
  split
  · split
    · exact free.setEvBit ..
    · rfl
  · rfl

theorem msixFree_answers : MsixFree Pcie.answers := fun _ _ => rfl

end MsixFree

section Lapsed
variable {s : State} {at_ : Nat}

theorem State.guardFail_keyed (s : State) (cause off : Nat) (v : Dword) (via : Source) :
    (s.guardFail cause off v via).guard.keyed = s.guard.keyed ∧
      (s.guardFail cause off v via).guard.pendingWrite = s.guard.pendingWrite := by
  unfold State.guardFail
  dsimp only
  rw [State.bb_guard]
  simp

/-- The lock closes, and the selected mode comes into force (R377, R379). -/
theorem State.closeLock_of_lapsed (lapsed : s.guard.unlocked = some at_) (past : at_ < s.now) (idle : s.guard.pendingWrite = none) :
    s.closeLock.guard.keyed = s.guard.chosen ∧ s.closeLock.guard.unlocked = none ∧ s.closeLock.guard.pendingWrite = none := by
  unfold State.closeLock
  rw [lapsed]
  dsimp only
  rw [if_pos past]
  simp [Guard.settle, Guard.isOpen, idle, Guard.chosen]

/-- The value of a guarded pair is not applied where a lock has lapsed and keyed mode is selected. -/
theorem State.guardForm_of_lapsed (quiet : s.quiet = true) (lapsed : s.guard.unlocked = some at_) (past : at_ < s.now)
    (selected : s.guard.chosen = true) (off : Nat) (v c : Dword) (apply : Dword → State → State) :
    s.guardForm off v (.pair c) apply = s.closeLock.guardFail 1 off v .bar0 := by
  obtain ⟨answers, idle⟩ := Bool.and_eq_true_iff.mp quiet
  rw [Option.isNone_iff_eq_none] at idle
  obtain ⟨keyed, closed, waits⟩ := State.closeLock_of_lapsed lapsed past idle
  have first : s.guardedWrite off v apply = s.closeLock.guardFail 1 off v .bar0 := by
    unfold State.guardedWrite
    rw [State.onBar0_of_quiet quiet]
    dsimp only
    rw [if_pos (keyed.trans selected), closed]
  obtain ⟨keyed', waits'⟩ := s.closeLock.guardFail_keyed 1 off v .bar0
  show (s.guardedWrite off v apply).complementWrite off c apply = _
  rw [first]
  unfold State.complementWrite
  rw [State.onBar0_of_quiet (by
    rw [State.quiet, msixFree_answers.guardFail, msixFree_answers.closeLock, answers, waits', waits]
    rfl)]
  exact if_pos (keyed'.trans (keyed.trans selected))

end Lapsed

/-- What a guarded pair makes of the lapsed lock. -/
theorem State.lapsedLock_guardForm (off : Nat) (v c : Dword) (apply : Dword → State → State) :
    State.lapsedLock.guardForm off v (.pair c) apply = State.lapsedLock.closeLock.guardFail 1 off v .bar0 :=
  State.guardForm_of_lapsed (at_ := 0) rfl rfl (by decide) rfl ..

/-- A unit that a refusal leaves alone stands as it stood under the lapsed lock. -/
theorem State.lapsedLock_refuses {c : Instr} {t : State} {off : Nat} {v w : Dword} {apply : Dword → State → State}
    (runs : exec c .lapsedLock = .next (State.lapsedLock.guardForm off v (.pair w) apply)) (done : exec c .lapsedLock = .next t) :
    t = State.lapsedLock.closeLock.guardFail 1 off v .bar0 :=
  (Host.Outcome.next.inj (done.symm.trans runs)).trans (State.lapsedLock_guardForm ..)

/-- Refutes O23: the speed is not asked for. -/
theorem not_speedAndTrainingComplete : ¬ Obligations.SpeedAndTrainingComplete := by
  rintro ⟨request, -⟩
  obtain ⟨t, done, asked, -⟩ := request 1 (.pair (~~~1)) .lapsedLock (by decide)
  rw [State.lapsedLock_refuses rfl done] at asked
  exact absurd asked (by decide)

/-- Refutes O25: the choice of sparing for the next start-up is not taken. -/
theorem not_rasWritesAndMemoryTestsComplete : ¬ Obligations.RasWritesAndMemoryTestsComplete := by
  rintro ⟨-, spare, -⟩
  obtain ⟨t, done, taken, -⟩ := spare true (.pair (~~~rasWord 0 0 false true false)) .lapsedLock (by decide)
  rw [State.lapsedLock_refuses rfl done] at taken
  exact absurd taken (by decide)

/-- Refutes O42: the optional categories are not taken. -/
theorem not_blackBoxAndJtagComplete : ¬ Obligations.BlackBoxAndJtagComplete := by
  rintro ⟨-, categories, -⟩
  obtain ⟨t, done, taken, -⟩ := categories 1 (.pair (~~~256)) .lapsedLock (by decide)
  rw [State.lapsedLock_refuses rfl done] at taken
  exact absurd taken (by decide)

/-- The lapsed lock in a part that a register froze in capture scope. -/
def State.lapsedFrozen : State :=
  { State.lapsedLock with
    health := { Health.reset with freeze := some { full := false, byReg := true, timeword := 0, epoch := 0, since := 0 } } }

/-- Refutes O41: the part is not thawed. -/
theorem not_sensorsAndFreezesComplete : ¬ Obligations.SensorsAndFreezesComplete := by
  rintro ⟨-, -, -, -, -, thaw⟩
  obtain ⟨t, done, thawed, -⟩ := thaw _ (.pair (~~~2)) .lapsedFrozen (by decide) rfl rfl rfl rfl
  obtain rfl : State.lapsedFrozen.closeLock.guardFail 1 0xC0010 2 .bar0 = t :=
    (State.guardForm_of_lapsed (at_ := 0) rfl rfl (by decide) rfl ..).symm.trans (Host.Outcome.next.inj done)
  exact absurd thawed (by decide)

end Sys2Proof.Machine
end


section
/-! PROOFS. A lock that lapses into paired mode (O37), and a knot that a thaw hands on when power goes down (O38). -/

namespace Sys2Proof.Machine

/-! ### A lock that lapses into paired mode -/

/-- Keyed mode is in force with a lock whose time is past; paired mode was selected while the lock was open, and waits for it to close
(R377, R379). -/
def State.lapsedKey : State :=
  { State.reset with
    now := 1
    guard := { Guard.reset with sel := 1, selWritten := true, keyed := true, unlocked := some 0 }
    pcie := { Pcie.reset with cfg := { CfgSpace.reset with memEnable := true } } }

/-- The write closes the lock, which puts paired mode in force: the value waits for its complement, and nothing fails. -/
theorem State.lapsedKey_registerWrite :
    ∃ t, exec (.registerWrite (BitVec.ofNat 20 (regOffset .dsSpeed)) [some 0, some 0, some 0, some 0]) .lapsedKey = .next t ∧
      t.guard.fails = 0 := ⟨_, rfl, by decide⟩

/-- Refutes O37: a write that meets a lapsed lock fails only where keyed mode stays in force. -/
theorem not_registersAndGuardComplete : ¬ Obligations.RegistersAndGuardComplete := by
  rintro ⟨-, -, -, -, -, -, -, -, -, locked, -⟩
  obtain ⟨t, done, -, failed, -⟩ := locked .dsSpeed 0 0 0 0 .lapsedKey (by decide) (by decide) rfl (by
    rintro _ ⟨⟩
    decide)
  obtain ⟨u, done', kept⟩ := State.lapsedKey_registerWrite
  obtain rfl : t = u := Host.Outcome.next.inj (done.symm.trans done')
  exact absurd (failed.symm.trans kept) (by decide)

/-! ### A knot that the thaw hands on -/

/-- A barge of die 0 in the deep store, of sample 0 alone. -/
def lateBarge : BargeMeta :=
  { slot := 0, closed := 0, stream := 0, die := 0, kind := .full, seq := 0, anchor := 0, endTime := 0, firstSample := 0, lastSample := 0,
    flags := 0 }

/-- A die in ARMED whose placement takes knots of class 0, at sample 0, which is later than timeword 0 (R85). -/
def DieSt.placing : DieSt :=
  { DieSt.reset with
    state := .armed
    plan := { Plan.reset with state := true, program := { Plan.reset.program with placeMask := 1 } }
    convoy := { Convoy.reset with startTime := 1, lastTime := 1, nextSample := 1 }
    win := { DieSt.reset.win with deep := [lateBarge] } }

/-- A knot of class 0 and timeword 0. -/
def earlyKnot : Knot :=
  { cls := 0, node := 0, die := 0, convoy := 0, time := 0, offset := 0, hops := 0, holdover := false, relayed := false, host := false,
    seq := 0 }

/-- A capture-scope freeze holds a knot for die 0 while the transition to STANDBY is due (R391, R410). -/
def State.heldKnot : State :=
  { State.reset with
    power := { Power.reset with transition := some { target := .standby, wake := 0, done := 0, next := none } }
    health := { Health.reset with freeze := some { full := false, byReg := false, timeword := 0, epoch := 0, since := 0 } }
    knots := { Knots.reset with held := [{ knot := earlyKnot, aelop := false, arrived := 0 }] }
    dies := State.reset.dies.set 0 .placing }

/-- The transition thaws the part first, and the knot commits late: the barge of sample 0 gains KNOT_LATE in the deep store (R214). -/
theorem State.heldKnot_powerTransitionDone :
    ∃ t, exec .powerTransitionDone .heldKnot = .next t ∧ memRead t.dsMem 24 = 0x80 := ⟨_, rfl, by decide +kernel⟩

/-- Refutes O38: a transition out of ON may store to the deep store. -/
theorem not_powerCompletes : ¬ Obligations.PowerCompletes := by
  rintro ⟨-, -, -, -, moved, -⟩
  obtain ⟨t, done, -, -, -, same⟩ := moved { target := .standby, wake := 0, done := 0, next := none } .heldKnot rfl (by decide) rfl
  obtain ⟨u, done', flagged⟩ := State.heldKnot_powerTransitionDone
  obtain rfl : t = u := Host.Outcome.next.inj (done.symm.trans done')
  rw [same] at flagged
  exact absurd flagged (by decide)

end Sys2Proof.Machine
end


section
/-! PROOFS. The clocks: coasts (O29), and re-entry, lock, band searches and spread (O30).

What a coast makes of the PLLs is said once, of the whole register file (`State.enterCoast_plls`): the PLL itself is changed, and the sample
PLL of a die that has no user left stops (R16). An event bit that is set stays set (`Marked`). -/

namespace Sys2Proof.Machine

variable {s a : State} {r : EvReg} {n : Nat} {i j : Fin 13} {d : Die}

/-! ### Event bits that stay set -/

theorem Events.get_set_other (e : Events) {q : EvReg} (h : r ≠ q) (v : Dword) : (e.set q v).get r = e.get r := by
  cases q <;> cases r <;> simp_all [Events.get, Events.set, Fin.ext_iff, eq_comm]

/-- Bits that are or-ed into a register clear no bit of any register. -/
theorem Events.get_set_or {e : Events} (q : EvReg) (bits : Dword) (h : (e.get r).getLsbD n = true) :
    ((e.set q (e.get q ||| bits)).get r).getLsbD n = true := by
  by_cases hq : r = q
  · subst hq
    rw [Events.get_set_same, BitVec.getLsbD_or, h, Bool.true_or]
  · rwa [Events.get_set_other e hq]

/-- Bit `n` of an event register is set. -/
def Marked (r : EvReg) (n : Nat) (s : State) : Prop := (s.events.get r).getLsbD n = true

theorem Marked.of_setEvBit (hn : n < 32) : Marked r n (s.setEvBit r n) := s.setEvBit_sets r hn

theorem Marked.of_events {t : State} (e : t.events = s.events) (h : Marked r n s) : Marked r n t := by
  unfold Marked
  rw [e]
  exact h

theorem Marked.setEvBit {q m} (h : Marked r n s) : Marked r n (s.setEvBit q m) := by
  unfold Marked State.setEvBit
  rw [State.setEv_events]
  exact Events.get_set_or q _ h

theorem Marked.bbDrop (h : Marked r n s) : Marked r n s.bbDrop := .setEvBit (.of_events (by simp) h)

theorem Marked.bb {code sev data} (h : Marked r n s) : Marked r n (s.bb code sev data) := by
  unfold State.bb
  dsimp only
  split
  · exact h
  · split
    · exact h.bbDrop
    · split
      · exact .bbDrop (.of_events rfl h)
      · exact h.bbDrop

theorem Marked.ite {t : State} {c : Prop} [Decidable c] (hs : Marked r n s) (ht : Marked r n t) : Marked r n (if c then s else t) := by
  split
  · exact hs
  · exact ht

theorem Marked.genPlay (h : Marked r n s) : Marked r n (s.genPlay d) := .ite h h
theorem Marked.genEnd {e m} (h : Marked r n s) : Marked r n (s.genEnd d e m) := .of_events (by simp [State.genEnd]) h

theorem Marked.genFail {e} (h : Marked r n s) : Marked r n (s.genFail d e) := by
  have ended := h.genEnd (d := d) (e := e) (m := s.gens[d].passStart + s.gens[d].played * s.gens[d].period)
  refine .bb (.setEvBit (.of_events ?_ ended))
  rw [State.bump_events, State.putNat_events, State.putNat_events, State.putNat_events]

theorem Marked.genSettle (h : Marked r n s) : Marked r n (s.genSettle d) := .ite h.genPlay.genFail h.genPlay

theorem Marked.restSpll (h : Marked r n s) : Marked r n (s.restSpll d) := .ite h h

theorem Marked.raise {v} (h : Marked r n s) : Marked r n (s.raise v) := .of_events (State.raise_events ..) h

theorem Marked.genRest (h : Marked r n s) : Marked r n (s.genRest d) :=
  .of_events (s := State.raise _ _) rfl (.raise (.restSpll (.of_events rfl h)))

theorem Marked.genHalt {e} (h : Marked r n s) : Marked r n (s.genHalt d e) := by
  unfold State.genHalt
  dsimp only
  split
  · exact .genRest (.of_events rfl h.genSettle)
  · exact .genRest (.of_events rfl h.genSettle)
  · exact h.genSettle.genEnd
  · exact .ite h.genSettle h.genSettle.genEnd
  · exact h.genSettle
  · exact h.genSettle

theorem State.markDieGauges_events (s : State) (d : Die) (n : Nat) : (s.markDieGauges d n).events = s.events := by
  simp only [State.markDieGauges]

theorem State.markDieGauges_clocks (s : State) (d : Die) (n : Nat) : (s.markDieGauges d n).clocks = s.clocks := by
  simp only [State.markDieGauges]

theorem Marked.coastDie (h : Marked r n s) : Marked r n (s.coastDie d) := by
  unfold State.coastDie State.genCoast
  exact .genHalt (.of_events ((State.markDieGauges_events ..).trans (State.withDie_events ..)) h)

/-! ### What a coast makes of the PLLs -/

/-- A PLL that enters coast (R312). -/
def Pll.coasting (now : Nat) (lock : Bool) (p : Pll) : Pll :=
  { p with state := .coast, coastAt := now, loss := lock, noRef := !lock, estimateAt := now, closed := none, swap := false }

/-- A PLL that stops (R16). -/
def Pll.stopped (p : Pll) : Pll := { p with state := .off, residual := 0, closed := none, swap := false, back := none, wanted := none }

/-- The PLLs of `s` are those of `a`, but that the sample PLL of a die may have stopped. -/
def Rested (d : Die) (a s : State) : Prop :=
  s.clocks.plls = a.clocks.plls ∨ s.clocks.plls = vmod a.clocks.plls (spll d) Pll.stopped

theorem Rested.of_clocks {b : State} (e : b.clocks = a.clocks) (h : Rested d b s) : Rested d a s := by
  unfold Rested at *
  rwa [← e]

theorem Rested.of_same (e : s.clocks = a.clocks) : Rested d a s := .inl (by rw [e])

theorem State.genSettle_clocks (s : State) (d : Die) : (s.genSettle d).clocks = s.clocks := Same.genSettle (u := .clocks) .refl
theorem State.genEnd_clocks (s : State) (d : Die) (e : GenEnd) (n : Nat) : (s.genEnd d e n).clocks = s.clocks :=
  Same.genEnd (u := .clocks) .refl

theorem Rested.genRest (e : s.clocks = a.clocks) : Rested d a (s.genRest d) := by
  unfold Rested State.genRest State.restSpll
  simp only [State.showIdle, State.emit_clocks, State.raise_clocks]
  split
  · exact .inl (by rw [← e]; rfl)
  · exact .inr (by rw [← e]; rfl)

theorem Rested.genHalt (s : State) (d : Die) (e : GenEnd) : Rested d s (s.genHalt d e) := by
  have settled := s.genSettle_clocks d
  unfold State.genHalt
  dsimp only
  split
  · exact .genRest settled
  · exact .genRest settled
  · exact .of_same ((State.genEnd_clocks ..).trans settled)
  · split
    · exact .of_same settled
    · exact .of_same ((State.genEnd_clocks ..).trans settled)
  · exact .of_same settled
  · exact .of_same settled

theorem spll_of_spllDie (own : spllDie i = some d) : spll d = i ∧ i.val ≤ 1 := by
  unfold spllDie at own
  split at own
  next h0 =>
    obtain rfl := Option.some.inj own
    exact ⟨Fin.ext h0.symm, by omega⟩
  · split at own
    next h1 =>
      obtain rfl := Option.some.inj own
      exact ⟨Fin.ext h1.symm, by omega⟩
    · exact absurd own (by simp)

theorem Rested.coastDie (s : State) (d : Die) : Rested d s (s.coastDie d) := by
  unfold State.coastDie State.genCoast
  exact .of_clocks ((State.markDieGauges_clocks ..).trans (State.withDie_clocks ..)) (Rested.genHalt _ d .coast)

/-- A coast changes its PLL alone; a sample PLL stops where that leaves it without a user. -/
theorem State.enterCoast_plls (s : State) (i : Fin 13) (lock : Bool) :
    (s.enterCoast i lock).clocks.plls = vmod s.clocks.plls i (Pll.coasting s.now lock) ∨
      i.val ≤ 1 ∧ (s.enterCoast i lock).clocks.plls = vmod (vmod s.clocks.plls i (Pll.coasting s.now lock)) i Pll.stopped := by
  have noted (data : List Byte) :
      ((((s.withPll i (Pll.coasting s.now lock)).bump (pllObj i) 5).setEvBit .clk i.val).bb 0x0030 2 data).clocks.plls =
        vmod s.clocks.plls i (Pll.coasting s.now lock) := by
    rw [State.bb_clocks, State.setEvBit_clocks, State.bump_clocks]
    rfl
  unfold State.enterCoast
  dsimp only
  split
  next d own =>
    obtain ⟨rfl, low⟩ := spll_of_spllDie own
    rcases Rested.coastDie _ d with same | stopped
    · exact .inl (same.trans (noted _))
    · exact .inr ⟨low, stopped.trans (congrArg (vmod · (spll d) Pll.stopped) (noted _))⟩
  · exact .inl (noted _)

/-- A PLL that is in coast, or a sample PLL that is off. -/
def Fallen (i : Fin 13) (s : State) : Prop := s.clocks.plls[i].state = .coast ∨ i.val ≤ 1 ∧ s.clocks.plls[i].state = .off

theorem State.enterCoast_fallen (s : State) (i : Fin 13) (lock : Bool) : Fallen i (s.enterCoast i lock) := by
  unfold Fallen
  rcases s.enterCoast_plls i lock with coast | ⟨low, off⟩
  · exact .inl (by rw [coast, vmod_same]; rfl)
  · exact .inr ⟨low, by rw [off, vmod_same]; rfl⟩

theorem State.enterCoast_other (lock : Bool) (h : j ≠ i) : (s.enterCoast i lock).clocks.plls[j] = s.clocks.plls[j] := by
  rcases s.enterCoast_plls i lock with coast | ⟨-, off⟩
  · rw [coast, vmod_other _ _ _ _ h]
  · rw [off, vmod_other _ _ _ _ h, vmod_other _ _ _ _ h]

theorem State.enterCoast_attempts (s : State) (i : Fin 13) (lock : Bool) :
    (s.enterCoast i lock).clocks.plls[i].attempts = s.clocks.plls[i].attempts := by
  rcases s.enterCoast_plls i lock with coast | ⟨-, off⟩
  · rw [coast, vmod_same]
    rfl
  · rw [off, vmod_same, vmod_same]
    rfl

theorem State.enterCoast_marked (s : State) (i : Fin 13) (lock : Bool) : Marked .clk i.val (s.enterCoast i lock) := by
  unfold State.enterCoast
  dsimp only
  split
  · exact .coastDie (.bb (.of_setEvBit (by omega)))
  · exact .bb (.of_setEvBit (by omega))

/-! ### A loss of the reference (R312) -/

/-- PLL `j` is as it was in `a`. -/
def PllKept (j : Fin 13) (a s : State) : Prop := s.clocks.plls[j] = a.clocks.plls[j]

theorem PllKept.of_clocks {t : State} (e : t.clocks = s.clocks) (h : PllKept j a s) : PllKept j a t := by
  unfold PllKept
  rw [e]
  exact h

theorem State.refLost_other (h : j ≠ i) : PllKept j s (s.refLost i) := by
  unfold State.refLost
  dsimp only
  split
  · rfl
  · split
    · exact .of_clocks (State.bump_clocks ..) (State.enterCoast_other _ h)
    · exact .of_clocks (State.bump_clocks ..) (State.withPll_other _ _ _ _ h)
    · exact State.withPll_other _ _ _ _ h
    · exact State.withPll_other _ _ _ _ h
    · rfl

theorem Fallen.of_clocks {t : State} (e : t.clocks = s.clocks) (h : Fallen i s) : Fallen i t := by
  unfold Fallen
  rw [e]
  exact h

theorem State.refLost_fallen (source : i.val ≠ 12) (h : s.clocks.plls[i].state = .locked ∨ Fallen i s) : Fallen i (s.refLost i) := by
  unfold State.refLost
  dsimp only
  rw [if_neg source]
  rcases h with locked | coast | ⟨low, off⟩
  · rw [locked]
    exact .of_clocks (State.bump_clocks ..) (s.enterCoast_fallen i false)
  · rw [coast]
    exact .of_clocks (State.bump_clocks ..) (.inl ((congrArg Pll.state (s.withPll_same i _)).trans coast))
  · rw [off]
    exact .inr ⟨low, off⟩

/-- What one step of a repetition brings about, and every step keeps, the repetition brings about. -/
theorem foldl_reaches {α : Type} {P Q : State → Prop} {f : State → α → State} {x : α} (keeps : ∀ s y, P s → P (f s y))
    (hits : ∀ s, P s → Q (f s x)) (stays : ∀ s y, Q s → Q (f s y)) (l : List α) (mem : x ∈ l) (s : State) (start : P s) :
    Q (l.foldl f s) := by
  induction l generalizing s with
  | nil => exact absurd mem List.not_mem_nil
  | cons y l ih =>
    rcases List.mem_cons.mp mem with rfl | later
    · exact List.foldlRecOn (motive := Q) l f (hits s start) (fun t ht z _ => stays t z ht)
    · exact ih later _ (keeps s y start)

theorem foldl_refLost_fallen (source : i.val ≠ 12) (locked : s.clocks.plls[i].state = .locked) :
    Fallen i ((List.finRange 13).foldl State.refLost s) := by
  have stays (t : State) (j : Fin 13) (h : Fallen i t) : Fallen i (t.refLost j) := by
    by_cases hj : i = j
    · exact hj ▸ State.refLost_fallen source (.inr h)
    · unfold Fallen
      rwa [show (t.refLost j).clocks.plls[i] = _ from State.refLost_other hj]
  refine foldl_reaches (P := fun t => t.clocks.plls[i].state = .locked ∨ Fallen i t) (fun t j h => ?_)
    (fun t => State.refLost_fallen source)    stays _ (List.mem_finRange i) s (.inl locked)
  by_cases hj : i = j
  · exact .inr (hj ▸ State.refLost_fallen source h)
  · rcases h with locked | fallen
    · exact .inl ((congrArg Pll.state (State.refLost_other hj)).trans locked)
    · exact .inr (stays t j fallen)

/-! ### Captures that a coast seals (R313) -/

/-- A die whose capture stores. -/
def DieSt.live (x : DieSt) : Prop := x.isOpen = true ∧ x.convoy.storing = true

/-- A die whose sampling part has ended with a cause. -/
def DieSt.endedBy (c : EndCause) (x : DieSt) : Prop := x.convoy.endCause = c ∧ x.convoy.storing = false

variable {c : EndCause}

theorem Run.endSampling_of_ended {q : Run} (h : q.die.convoy.storing = false) (m : Nat) : q.endSampling c m = q := by
  rw [Run.endSampling, if_pos (by simp [h])]

theorem Run.endSampling_ends {q : Run} (h : q.die.convoy.storing = true) (m : Nat) : (q.endSampling c m).die.endedBy c := by
  rw [Run.endSampling, if_neg (by simp [h])]
  exact ⟨rfl, rfl⟩

theorem Run.endSampling_fx {q : Run} (h : q.die.convoy.storing = true) (m : Nat) : (q.endSampling c m).fx = q.fx ++ [.ended c] := by
  rw [Run.endSampling, if_neg (by simp [h])]
  rfl

theorem State.noteTrigTime_dies (s : State) (d : Die) (x y : Option Trigger) : (s.noteTrigTime d x y).dies = s.dies := by
  unfold State.noteTrigTime
  split
  · split
    · rfl
    · exact State.put_dies ..
  · rfl

/-- Die `d` is as it was in `a`, or has ended with a cause. -/
def KeptOrEnded (c : EndCause) (d : Die) (a s : State) : Prop := s.dies[d] = a.dies[d] ∨ s.dies[d].endedBy c

theorem State.endPartner_dies (s : State) (e d : Die) (c : EndCause) : KeptOrEnded c d s (s.endPartner e c) := by
  unfold State.endPartner
  split
  · by_cases hd : d = otherDie e
    · subst hd
      have changed := s.withDie_same (otherDie e) (fun x => if x.isOpen then
        (({ s.toRun (otherDie e) with die := x }).endSampling c x.lastSample).die else x)
      unfold KeptOrEnded
      rw [changed]
      by_cases opened : s.dies[otherDie e].isOpen = true
      · rw [if_pos opened]
        cases storing : s.dies[otherDie e].convoy.storing with
        | false => exact .inl (congrArg Run.die (Run.endSampling_of_ended storing _))
        | true => exact .inr (Run.endSampling_ends (q := { s.toRun (otherDie e) with die := s.dies[otherDie e] }) storing _)
      · exact .inl (if_neg opened)
    · exact .inl (State.withDie_other _ _ _ _ hd)
  · exact .inl rfl

theorem KeptOrEnded.of_dies {t : State} (e : t.dies = s.dies) (h : KeptOrEnded c d a s) : KeptOrEnded c d a t := by
  unfold KeptOrEnded
  rw [e]
  exact h

/-- The end of a die leaves each die as it was, or ended for that cause. -/
theorem State.endDie_dies (s : State) (e d : Die) (c : EndCause) : KeptOrEnded c d s (s.endDie e c) := by
  unfold State.endDie
  split
  · by_cases hd : d = e
    · subst hd
      unfold KeptOrEnded
      rw [State.runDie_own]
      cases storing : s.dies[d].convoy.storing with
      | false => exact .inl (congrArg Run.die (Run.endSampling_of_ended (q := s.toRun d) storing _))
      | true => exact .inr (Run.endSampling_ends (q := s.toRun d) storing _)
    · have other (x : DieSt) : (s.dies.set e x)[d] = s.dies[d] := Vector.getElem_set_ne _ _ (fun h => hd (Fin.ext h.symm))
      unfold State.runDie
      refine .of_dies ((State.noteTrigTime_dies ..).trans (State.settlePins_dies _)) ?_
      dsimp only
      cases storing : s.dies[e].convoy.storing with
      | false =>
        rw [Run.endSampling_of_ended (q := s.toRun e) storing]
        exact .inl (other _)
      | true =>
        rw [Run.endSampling_fx (q := s.toRun e) storing]
        rcases State.endPartner_dies _ e d c with same | ended
        · exact .inl (same.trans (other _))
        · exact .inr ended
  · exact .inl rfl

theorem State.endDie_ends (live : s.dies[d].live) (c : EndCause) : (s.endDie d c).dies[d].endedBy c := by
  rw [State.endDie, if_pos live.1, State.runDie_own]
  exact Run.endSampling_ends live.2 _

theorem State.foldl_endDie_ends {l : List Die} (mem : d ∈ l) (live : s.dies[d].live) (c : EndCause) :
    (l.foldl (fun s e => s.endDie e c) s).dies[d].endedBy c := by
  have stays (t : State) (e : Die) (h : t.dies[d].endedBy c) : (t.endDie e c).dies[d].endedBy c := by
    rcases t.endDie_dies e d c with same | ended
    · rwa [same]
    · exact ended
  refine foldl_reaches (P := fun t => t.dies[d].live ∨ t.dies[d].endedBy c) (Q := fun t => t.dies[d].endedBy c) (fun t e h => ?_)
    (fun t h => ?_) stays l mem s (.inl live)
  · rcases t.endDie_dies e d c with same | ended
    · rwa [same]
    · exact .inr ended
  · rcases h with live | ended
    · exact State.endDie_ends live c
    · exact stays t d ended

/-- A die that stores is sealed with CLOCK_FAULT, and CLK_EVT.SEALED says so. -/
theorem State.clockSeal_seals {ds : List Die} (mem : d ∈ ds) (live : s.dies[d].live) (estimate : Int) :
    Marked .clk 18 (s.clockSeal ds estimate) ∧ (s.clockSeal ds estimate).dies[d].endedBy .clockFault := by
  obtain ⟨opened, storing⟩ := live
  have hit : d ∈ ds.filter (fun e => s.dies[e].isOpen && s.dies[e].convoy.storing) :=
    List.mem_filter.mpr ⟨mem, Bool.and_eq_true_iff.mpr ⟨opened, storing⟩⟩
  unfold State.clockSeal
  dsimp only
  rw [if_neg (by simpa using List.ne_nil_of_mem hit)]
  refine ⟨.bb (.of_setEvBit (by decide)), ?_⟩
  rw [State.bb_dies, State.setEvBit_dies]
  exact State.foldl_endDie_ends hit ⟨opened, storing⟩ _

theorem State.clockSeal_clocks (s : State) (ds : List Die) (estimate : Int) : (s.clockSeal ds estimate).clocks = s.clocks :=
  Same.clockSeal (u := .clocks) .refl

theorem clampInt_of_small {lo hi x : Int} (hlo : lo ≤ x) (hhi : x ≤ hi) : clampInt lo hi x = x := by
  unfold clampInt
  omega

/-- `t` holds an estimate of a coasting PLL, made in `s`; the dies are as they were where it is within 10 ppm. -/
def EstimateNoted (s : State) (i : Fin 13) (estimate : Int) (t : State) : Prop :=
  t.clocks.plls[i].estimate = clampInt (-1000000) 1000000 estimate ∧ t.clocks.plls[i].estimateAt = s.now ∧
    (estimate.natAbs ≤ 10000 → t.dies = s.dies)

/-- An estimate is noted, and one within 10 ppm ends no capture. -/
theorem State.coastEstimate_notes (s : State) (i : Fin 13) (estimate : Int) : EstimateNoted s i estimate
    (let e := clampInt (-1000000) 1000000 estimate
    let t := (s.withPll i (fun p => { p with estimate := e, estimateAt := s.now })).putInt (pllObj i) 0x0B e
    if 10000 < e.natAbs then t.clockSeal (sealDies i) e else t) := by
  have noted (t : State) (e : t.clocks = (s.withPll i (fun p =>
      { p with estimate := clampInt (-1000000) 1000000 estimate, estimateAt := s.now })).clocks)
      (dies : estimate.natAbs ≤ 10000 → t.dies = s.dies) : EstimateNoted s i estimate t := by
    unfold EstimateNoted
    rw [e, State.withPll_same]
    exact ⟨rfl, rfl, dies⟩
  dsimp only
  split
  next far =>
    refine noted _ ((State.clockSeal_clocks ..).trans (State.putInt_clocks ..)) (fun near => absurd far ?_)
    rw [clampInt_of_small (by omega) (by omega)]
    omega
  · exact noted _ (State.putInt_clocks ..) (fun _ => State.putInt_dies ..)

/-- Settles O29: a coast is `State.enterCoast`, and a seal `State.clockSeal`. -/
theorem coastsComplete : Obligations.CoastsComplete := by
  refine ⟨fun s => ?_, fun i s source locked sure => ?_, fun i estimate s up coast notF notX => ?_,
    fun i d s coast past mem opened storing => ?_,    fun d s coast opened storing => ?_⟩
  · refine .next rfl ⟨Marked.of_setEvBit (r := .clk) (by decide), fun i source locked => ?_⟩
    rw [State.setEvBit_clocks]
    exact foldl_refLost_fallen source locked
  · refine .next (congrArg Host.Outcome.next ((if_neg (not_or.mpr ⟨source, not_not.mpr locked⟩)).trans
      (if_neg (by rw [sure]; exact Bool.false_ne_true)))) ⟨?_, ?_, ?_⟩
    · exact s.enterCoast_marked i true
    · exact s.enterCoast_fallen i true
    · exact fun j hj => State.enterCoast_other _ hj
  · exact .next (congrArg Host.Outcome.next (if_pos ⟨up, coast, notF, notX⟩)) (s.coastEstimate_notes i estimate)
  · have sealed := State.clockSeal_seals mem ⟨opened, storing⟩ s.clocks.plls[i].estimate
    exact .next (congrArg Host.Outcome.next (if_pos ⟨coast, past⟩)) ⟨sealed.1, sealed.2.1, sealed.2.2⟩
  · have sealed := State.clockSeal_seals (List.mem_singleton_self d) ⟨opened, storing⟩ s.clocks.plls[spll d].estimate
    exact .next (congrArg Host.Outcome.next (if_pos coast)) ⟨sealed.1, sealed.2.1⟩

/-! ### Re-entry (R314 to R316) -/

/-- A PLL that closes its loop with a residual. -/
def Pll.closing (now : Nat) (time : Qword) (residual : Int) (p : Pll) : Pll :=
  { p with state := .locked, closed := some now, swap := false, noRef := false, residual := residual, reentryTime := time }

theorem Marked.startPulse {p x} (h : Marked r n s) : Marked r n (State.startPulse p s x) := by
  have ended : Marked r n (s.pulseOver p x.1) := by
    unfold State.pulseOver
    split
    · split
      · exact h
      · exact h
    · exact h
  exact .ite (.of_events rfl ended) (.of_events rfl ended)

theorem Marked.settlePin {p} (h : Marked r n s) : Marked r n (s.settlePin p) :=
  List.foldlRecOn (motive := Marked r n) _ _ (.of_events rfl h) (fun _ ht _ _ => ht.startPulse)

theorem Marked.noteTrigTime {x y} (h : Marked r n s) : Marked r n (s.noteTrigTime d x y) := by
  unfold State.noteTrigTime
  split
  · exact .ite h (.of_events (State.put_events ..) h)
  · exact h

/-- A re-phase leaves no effect outside its die. -/
theorem Marked.rephase (residual : Int) (h : Marked r n s) : Marked r n (s.runDie d (fun x => x.rephase residual)) :=
  .noteTrigTime (.settlePin (.settlePin (.of_events rfl h)))

theorem Marked.spread (h : Marked r n s) : Marked r n (match s.clocks.spreadNext with
    | some x => { s with clocks := { s.clocks with spread := x, spreadNext := none } }
    | none => s) := by
  split
  · exact h
  · exact h

theorem State.reenter_marked (s : State) (i : Fin 13) (residual : Int) : Marked .clk 17 (s.reenter i residual) := by
  have noted (t : State) (data : List Byte) : Marked .clk 17 ((t.setEvBit .clk 17).bb 0x0031 1 data) := .bb (.of_setEvBit (by decide))
  have reset {t : State} {d : Die} {f : DieSt → DieSt} (h : Marked .clk 17 t) : Marked .clk 17 (t.withDie d f) := h
  unfold State.reenter
  dsimp only
  split
  · exact .ite (.rephase _ (reset (.ite (.spread (noted ..)) (noted ..)))) (reset (.ite (.spread (noted ..)) (noted ..)))
  · exact .ite (.spread (noted ..)) (noted ..)

/-- The PLLs of a state. -/
def PllsAre (v : Vector Pll 13) (s : State) : Prop := s.clocks.plls = v

section PllsAre
variable {v : Vector Pll 13}

theorem PllsAre.of_clocks {t : State} (e : t.clocks = s.clocks) (h : PllsAre v s) : PllsAre v t := by
  unfold PllsAre
  rw [e]
  exact h

theorem PllsAre.ite {t : State} {c : Prop} [Decidable c] (hs : PllsAre v s) (ht : PllsAre v t) : PllsAre v (if c then s else t) := by
  split
  · exact hs
  · exact ht

theorem PllsAre.withDie {f} (h : PllsAre v s) : PllsAre v (s.withDie d f) := .of_clocks (State.withDie_clocks ..) h
theorem PllsAre.runDie {f} (h : PllsAre v s) : PllsAre v (s.runDie d f) := .of_clocks (Same.runDie (u := .clocks) .refl) h

/-- A spread that waited is taken (R311). -/
theorem PllsAre.spread (h : PllsAre v s) : PllsAre v (match s.clocks.spreadNext with
    | some x => { s with clocks := { s.clocks with spread := x, spreadNext := none } }
    | none => s) := by
  split
  · exact h
  · exact h

end PllsAre

theorem State.reenter_plls (s : State) (i : Fin 13) (residual : Int) :
    PllsAre (vmod s.clocks.plls i (Pll.closing s.now s.time (clampInt (-3276800) 3276800 residual))) (s.reenter i residual) := by
  have noted (x : Val) (data : List Byte) {f : Pll → Pll} {n : Int} : PllsAre (vmod s.clocks.plls i f)
      (((((s.withPll i f).putInt (pllObj i) 9 n).put (pllObj i) 0x0A x).setEvBit .clk 17).bb 0x0031 1 data) :=
    .of_clocks ((State.bb_clocks ..).trans ((State.setEvBit_clocks ..).trans ((State.put_clocks ..).trans (State.putInt_clocks ..)))) rfl
  unfold State.reenter
  dsimp only
  split
  · exact .ite (.runDie (.withDie (.ite (.spread (noted ..)) (noted ..)))) (.withDie (.ite (.spread (noted ..)) (noted ..)))
  · exact .ite (.spread (noted ..)) (noted ..)

/-- A PLL of which no other count is asked takes none. -/
theorem State.takeWanted_of_none (none : s.clocks.plls[i].wanted = none) : s.takeWanted i = s := by
  unfold State.takeWanted
  rw [none]

/-- A re-entry closes the loop of a PLL of which no other count is asked. -/
theorem State.reenter_closes (free : s.clocks.plls[i].wanted = none) (residual : Int) :
    (s.reenter i residual).takeWanted i = s.reenter i residual ∧ (s.reenter i residual).clocks.plls[i] =
      s.clocks.plls[i].closing s.now s.time (clampInt (-3276800) 3276800 residual) := by
  have closed : (s.reenter i residual).clocks.plls[i] =
      s.clocks.plls[i].closing s.now s.time (clampInt (-3276800) 3276800 residual) := by
    rw [show (s.reenter i residual).clocks.plls = _ from s.reenter_plls i residual, vmod_same]
  exact ⟨State.takeWanted_of_none (by rw [closed]; exact free), closed⟩

/-! ### Lock and band searches (R308 to R310, R314) -/

theorem State.relockChan_clocks (s : State) (i : Fin 13) : (s.relockChan i).clocks = s.clocks :=
  Same.relockChan (u := .clocks) Part.noConfusion .refl

theorem State.failAttempt_pll (s : State) (i : Fin 13) : (s.failAttempt i).clocks.plls[i].closed = none ∧
    (s.failAttempt i).clocks.plls[i].attempts = s.clocks.plls[i].attempts + 1 ∧ (s.failAttempt i).clocks.plls[i].state = .coast := by
  unfold State.failAttempt
  rw [State.bump_clocks, State.withPll_same]
  exact ⟨rfl, rfl, rfl⟩

theorem State.bandFound_marked (s : State) (i : Fin 13) (band : BitVec 6) (tuning : BitVec 12) :
    Marked .clk 19 (s.bandFound i band tuning) := .of_setEvBit (by decide)

theorem State.bandFound_pll (s : State) (i : Fin 13) (band : BitVec 6) (tuning : BitVec 12) :
    (s.bandFound i band tuning).clocks.plls[i].state = .locked ∧ (s.bandFound i band tuning).clocks.plls[i].band = band.toNat ∧
      (s.bandFound i band tuning).clocks.plls[i].vtune = tuning.toNat ∧
      (s.bandFound i band tuning).clocks.plls[i].wanted = s.clocks.plls[i].wanted := by
  unfold State.bandFound
  dsimp only
  rw [State.setEvBit_clocks, State.bump_clocks, State.withPll_same]
  exact ⟨rfl, rfl, rfl, rfl⟩

theorem State.relockChan_marked (h : Marked .clk 19 s) : Marked .clk 19 (s.relockChan i) := by
  unfold State.relockChan
  split
  · exact .ite h h
  · exact h

/-! ### Revalidation (R310) -/

/-- What `State.revalFree` asks beside the PLLs is the same in two states. -/
def FreeAlike (a s : State) : Prop := s.isOn = a.isOn ∧ s.variant = a.variant ∧ s.dies = a.dies ∧ s.gens = a.gens

theorem State.bb_freeze (s : State) (code sev : Nat) (data : List Byte) : (s.bb code sev data).health.freeze = s.health.freeze := by
  unfold State.bb State.bbDrop
  dsimp only
  split
  · rfl
  · split
    · simp
    · split
      · rw [State.setEvBit_health, State.bump_health]
        rfl
      · simp

theorem State.ignoreOp_freeze (s : State) (loc : Nat × Nat) (via : Source) (c : Cause) :
    (s.ignoreOp loc via c).health.freeze = s.health.freeze := by
  unfold State.ignoreOp
  dsimp only
  split
  · rw [State.bb_freeze, State.setEvBit_health, State.bump_health]
  · rw [State.setEvBit_health, State.bump_health]

theorem FreeAlike.ignoreOp (s : State) (loc : Nat × Nat) (via : Source) (c : Cause) : FreeAlike s (s.ignoreOp loc via c) := by
  refine ⟨?_, by simp, by simp, by simp⟩
  simp only [State.isOn, State.frozenFull, State.ignoreOp_freeze, State.ignoreOp_power]

theorem FreeAlike.revalFree {t : State} (like : FreeAlike s t) (same : t.clocks.plls[i] = s.clocks.plls[i]) :
    t.revalFree i = s.revalFree i := by
  obtain ⟨on, variant, dies, gens⟩ := like
  simp only [State.revalFree, State.anyBusy, State.anyOpen, State.anyArming, State.genStopped, State.hasDie, same, on, variant, dies, gens]

/-- One PLL of a revalidation. -/
def State.revalOne (via : Source) (s : State) (i : Fin 13) : State :=
  if s.revalFree i then s.beginReval i else s.ignoreOp (0x5A40, 1) via .state

theorem State.revalOne_alike (via : Source) (s : State) (j : Fin 13) : FreeAlike s (s.revalOne via j) := by
  unfold State.revalOne
  split
  · exact ⟨rfl, rfl, rfl, rfl⟩
  · exact .ignoreOp ..

theorem State.revalOne_other (via : Source) (h : j ≠ i) : PllKept j s (s.revalOne via i) := by
  unfold State.revalOne
  split
  · exact State.withPll_other _ _ _ _ h
  · exact .of_clocks (State.ignoreOp_clocks ..) rfl

theorem State.revalOne_refused (via : Source) (h : s.revalFree i = false) : PllKept i s (s.revalOne via i) := by
  unfold State.revalOne
  rw [if_neg (by simp [h])]
  exact .of_clocks (State.ignoreOp_clocks ..) rfl

theorem State.revalOne_begins (via : Source) (h : s.revalFree i = true) : (s.revalOne via i).clocks.plls[i].state = .search := by
  unfold State.revalOne State.beginReval
  rw [if_pos h, State.withPll_same]

/-- Each PLL of a list that is free is searched; the others stay as they were. -/
theorem State.foldl_revalOne (via : Source) (l : List (Fin 13)) (s : State) : (l.foldl (State.revalOne via) s).clocks.plls[i].state =
    if i ∈ l ∧ s.revalFree i = true then .search else s.clocks.plls[i].state := by
  induction l generalizing s with
  | nil => simp
  | cons j l ih =>
    rw [List.foldl_cons, ih]
    by_cases hj : i = j
    · subst hj
      cases free : s.revalFree i with
      | true =>
        have searched := State.revalOne_begins via free
        rw [searched, ite_self, if_pos ⟨List.mem_cons_self, rfl⟩]
      | false =>
        have kept : (s.revalOne via i).clocks.plls[i] = s.clocks.plls[i] := State.revalOne_refused via free
        rw [(s.revalOne_alike via i).revalFree kept, kept, free, if_neg (by simp), if_neg (by simp)]
    · have kept : (s.revalOne via j).clocks.plls[i] = s.clocks.plls[i] := State.revalOne_other via hj
      rw [(s.revalOne_alike via j).revalFree kept, kept]
      simp only [List.mem_cons, hj, false_or]

/-- Settles O30: a re-entry closes the loop, a confirmation ends it in lock or in a failed attempt, and a search ends in lock. -/
theorem reentryCompletes : Obligations.ReentryCompletes := by
  refine ⟨fun i residual s coast ref free few => ?_, fun i residual s coast lost ref few due free => ?_, fun i s closed => ?_,
    fun i s closed => ?_, fun i band tuning s source search ref back free => ?_, fun mask via s serves => ?_,
    fun v via s serves low runs => ?_⟩
  · obtain ⟨took, pll⟩ := State.reenter_closes free residual
    refine .next (congrArg Host.Outcome.next ((if_pos (.inl ⟨coast, .inl (by rw [ref]; rfl), few⟩)).trans took)) ?_
    rw [pll]
    exact ⟨rfl, rfl, rfl, s.reenter_marked i residual⟩
  · obtain ⟨took, pll⟩ := State.reenter_closes free residual
    refine .next (congrArg Host.Outcome.next ((if_pos ⟨coast, lost, by rw [ref]; rfl, few, due⟩).trans took)) ?_
    rw [pll]
    exact ⟨rfl, rfl⟩
  · refine .next (congrArg Host.Outcome.next ((if_pos closed).trans (if_pos rfl))) ?_
    rw [State.relockChan_clocks, State.withPll_same]
    exact ⟨rfl, rfl, rfl⟩
  · obtain ⟨sure, attempts, coast⟩ := (s.enterCoast i true).failAttempt_pll i
    refine .next (congrArg Host.Outcome.next ((if_pos closed).trans (if_neg Bool.false_ne_true))) ⟨sure, ?_, coast⟩
    rw [attempts, State.enterCoast_attempts]
  · obtain ⟨locked, found, tuned, asked⟩ := s.bandFound_pll i band tuning
    have took : ((s.bandFound i band tuning).returnPll i s.clocks.plls[i].back).takeWanted i = s.bandFound i band tuning := by
      rw [back]
      exact State.takeWanted_of_none (asked.trans free)
    refine .next (congrArg Host.Outcome.next ((if_pos ⟨source, .inl ⟨search, by rw [ref]; rfl⟩⟩).trans
      (congrArg (State.relockChan · i) took))) ?_
    rw [State.relockChan_clocks]
    exact ⟨locked, found, tuned, State.relockChan_marked (s.bandFound_marked i band tuning)⟩
  · refine .next (congrArg Host.Outcome.next (if_pos serves)) (fun i => ?_)
    refine (State.foldl_revalOne via _ s).trans ?_
    simp only [List.mem_filter, List.mem_finRange, true_and, Bool.and_eq_true, decide_eq_true_eq, and_assoc]
  · have least : min v.toNat 2 = v.toNat := min_eq_left low
    refine .next (congrArg Host.Outcome.next (if_pos serves)) ?_
    dsimp only
    rw [if_pos least, least, State.putNat_clocks, if_neg (show ¬ s.clocks.plls[2].state = .coast from runs)]
    exact ⟨rfl, rfl, rfl⟩

end Sys2Proof.Machine
end


section
/-! PROOFS. Bytes: the items of a frame and blocks of memory (O60), and what a byte-enabled write stores (O27, O28) and a window read
answers (O26).

`memRead_memWriteBlock` says what a block store leaves at every address. A byte-enabled write is a repetition of it, one whole dword at a
time (`memRead_storeDwords`), for the window and for the descriptor RAM alike. -/

namespace Sys2Proof.Machine

/-! ### The items of a frame (R357, R359) -/

/-- The item that stands at the front of a payload, as far as its eight bytes of fields say. -/
theorem odpItem_fields (i : Item) (rest : List Byte) :
    fieldOf (odpItem i ++ rest) 0 2 = i.index % 65536 ∧ fieldOf (odpItem i ++ rest) 2 1 = i.sub % 256 ∧
      fieldOf (odpItem i ++ rest) 3 1 = i.typ % 256 ∧ fieldOf (odpItem i ++ rest) 5 1 = i.iflags % 256 ∧
      fieldOf (odpItem i ++ rest) 6 2 = i.value.length % 65536 := by
  simp (disch := decide) only [odpItem, List.append_assoc, fieldOf_past, fieldOf_front, Nat.reduceSub, Nat.reducePow, true_and]

theorem odpItem_length (i : Item) : (odpItem i).length = 8 + i.value.length + padTo4 i.value.length := by
  simp [odpItem, zeros]
  omega

theorem odpItem_value (i : Item) (rest : List Byte) : ((odpItem i ++ rest).drop 8).take i.value.length = i.value := by
  have front : odpItem i ++ rest = (leBytes 2 i.index ++ leBytes 1 i.sub ++ leBytes 1 i.typ ++ leBytes 1 i.istat ++ leBytes 1 i.iflags ++
      leBytes 2 i.value.length) ++ (i.value ++ (zeros (padTo4 i.value.length) ++ rest)) := by
    simp only [odpItem, List.append_assoc]
  rw [front, List.drop_left' (by simp), List.take_left' rfl]

/-- The items of a payload spell themselves, the status bytes aside. -/
theorem parseItems_flatMap (l : List Item) (fits : ∀ i ∈ l, i.index < 65536 ∧ i.sub < 256 ∧ i.typ < 256 ∧ i.istat < 256 ∧ i.iflags < 256 ∧
    i.value.length < 65536) : parseItems l.length (l.flatMap odpItem) = some (l.map (fun i => { i with istat := 0 })) := by
  induction l with
  | nil => rfl
  | cons i l ih =>
    obtain ⟨index, sub, typ, -, iflags, value⟩ := fits i List.mem_cons_self
    obtain ⟨findex, fsub, ftyp, fiflags, fvalue⟩ := odpItem_fields i (l.flatMap odpItem)
    rw [Nat.mod_eq_of_lt index] at findex
    rw [Nat.mod_eq_of_lt sub] at fsub
    rw [Nat.mod_eq_of_lt typ] at ftyp
    rw [Nat.mod_eq_of_lt iflags] at fiflags
    rw [Nat.mod_eq_of_lt value] at fvalue
    have len := odpItem_length i
    rw [List.flatMap_cons, List.length_cons, parseItems, fvalue]
    dsimp only
    rw [if_neg (by rw [List.length_append]; omega), List.drop_left' len, ih (fun j hj => fits j (List.mem_cons_of_mem i hj)), findex, fsub,
      ftyp, fiflags, odpItem_value]
    rfl

/-! ### Blocks of memory -/

theorem mget_append {α : Type} (k : Nat) (l m : SMap α) : mget k (l ++ m) = (mget k l).or (mget k m) := by
  induction l with
  | nil => simp [mget]
  | cons p l ih =>
    rw [List.cons_append, mget, mget]
    split
    · rfl
    · exact ih

theorem mget_eq_none {α : Type} {k : Nat} {m : SMap α} (h : ∀ p ∈ m, p.1 ≠ k) : mget k m = none := by
  induction m with
  | nil => rfl
  | cons p m ih =>
    rw [mget, if_neg (h p List.mem_cons_self)]
    exact ih (fun q hq => h q (List.mem_cons_of_mem p hq))

theorem mget_blockCells (a x : Nat) (bs : List Byte) (lo : a ≤ x) : (mget x (blockCells a bs)).getD unlistedByte = bs.getD (x - a) 0 := by
  induction bs generalizing a with
  | nil => rfl
  | cons b bs ih =>
    rw [blockCells]
    by_cases here : a = x
    · subst here
      have above : mget a (blockCells (a + 1) bs) = none := mget_eq_none (fun c hc => by
        have := ((blockCells_spec (a + 1) bs).2 c hc).1
        omega)
      split
      next zero => simp [above, zero, unlistedByte]
      · simp [mget]
    · have rest := ih (a + 1) (by omega)
      have shift : (b :: bs).getD (x - a) 0 = bs.getD (x - (a + 1)) 0 := by
        rw [show x - a = x - (a + 1) + 1 by omega, List.getD_cons_succ]
      rw [shift, ← rest]
      split
      · rfl
      · rw [mget, if_neg here]

/-- A block store leaves the block at its place and every other byte as it was. -/
theorem memRead_memWriteBlock {m : Memory} (a x : Nat) (bs : List Byte) (wf : m.wf = true) :
    memRead (memWriteBlock m a bs) x = if a ≤ x ∧ x < a + bs.length then bs.getD (x - a) 0 else memRead m x := by
  obtain ⟨rises, -⟩ := (memory_wf_iff m).mp wf
  let up := m.dropWhile (fun c => decide (c.1 < a))
  have whole : m = m.takeWhile (fun c => decide (c.1 < a)) ++ (up.takeWhile (fun c => decide (c.1 < a + bs.length)) ++
      up.dropWhile (fun c => decide (c.1 < a + bs.length))) := by
    rw [List.takeWhile_append_dropWhile, List.takeWhile_append_dropWhile]
  have upRises : up.Pairwise (fun x y => x.1 < y.1) := rises.sublist (List.dropWhile_sublist _)
  have below : a ≤ x → mget x (m.takeWhile (fun c => decide (c.1 < a))) = none := fun h =>
    mget_eq_none (fun c hc => by have := takeWhile_lt m a c hc; omega)
  have between : (x < a ∨ a + bs.length ≤ x) → mget x (up.takeWhile (fun c => decide (c.1 < a + bs.length))) = none := fun h =>
    mget_eq_none (fun c hc => by
      have := takeWhile_lt up (a + bs.length) c hc
      have := dropWhile_ge m a rises c ((List.takeWhile_sublist _).subset hc)
      omega)
  have above : x < a + bs.length → mget x (up.dropWhile (fun c => decide (c.1 < a + bs.length))) = none := fun h =>
    mget_eq_none (fun c hc => by have := dropWhile_ge up (a + bs.length) upRises c hc; omega)
  have outside : (x < a ∨ a + bs.length ≤ x) → mget x (blockCells a bs) = none := fun h =>
    mget_eq_none (fun c hc => by have := (blockCells_spec a bs).2 c hc; omega)
  unfold memRead memWriteBlock
  rw [mget_append, mget_append]
  split
  next inside =>
    rw [below inside.1, above inside.2, Option.or_none, Option.none_or, mget_blockCells a x bs inside.1]
  next out =>
    have out : x < a ∨ a + bs.length ≤ x := by omega
    conv_rhs => rw [whole, mget_append, mget_append, between out]
    rw [outside out]

/-- Settles O60: each item is read back from its own fields, and a block store is read back cell by cell. -/
theorem itemsAndBlocksReadBack : Obligations.ItemsAndBlocksReadBack :=
  ⟨parseItems_flatMap, fun _ a x bs wf => memRead_memWriteBlock a x bs wf⟩

/-! ### Byte-enabled writes (R325, R373) -/

/-- The dword that four enabled bytes make. -/
def dwordOf (e : Nat → Option Byte) : Option Dword :=
  match e 0, e 1, e 2, e 3 with
  | some a, some b, some c, some d => some (d ++ c ++ b ++ a)
  | _, _, _, _ => none

/-- A dword of a write is stored in a memory where its address is kept. -/
def storeDword (keep : Nat → Bool) (m : Memory) (d : Nat × Option Dword) : Memory :=
  match d.2 with
  | some v => if keep d.1 then memWriteBlock m d.1 (leBytes 4 v.toNat) else m
  | none => m

theorem storeDword_wf {keep : Nat → Bool} {m : Memory} (d : Nat × Option Dword) (wf : m.wf = true) : (storeDword keep m d).wf = true := by
  unfold storeDword
  split
  · split
    · exact memWriteBlock_wf _ _ _ wf
    · exact wf
  · exact wf

theorem memRead_storeDword {keep : Nat → Bool} {m : Memory} (p x : Nat) (d : Option Dword) (wf : m.wf = true) :
    memRead (storeDword keep m (p, d)) x = if keep p = true ∧ p ≤ x ∧ x < p + 4 then
      (d.map (fun v => (leBytes 4 v.toNat).getD (x - p) 0)).getD (memRead m x) else memRead m x := by
  cases d with
  | none => exact (ite_self _).symm
  | some v =>
    show memRead (if keep p then _ else _) x = _
    by_cases kept : keep p = true
    · rw [if_pos kept, memRead_memWriteBlock _ _ _ wf, leBytes_length, Option.map_some, Option.getD_some]
      simp only [kept, true_and]
    · rw [if_neg kept, if_neg (fun h => kept h.1)]

theorem leBytes_dword (a b c d : Byte) : leBytes 4 (d ++ c ++ b ++ a : Dword).toNat = [a, b, c, d] := by
  have ha := a.isLt
  have hb := b.isLt
  have hc := c.isLt
  have hd := d.isLt
  have spelled : (d ++ c ++ b ++ a : Dword).toNat = a.toNat + 256 * (b.toNat + 256 * (c.toNat + 256 * d.toNat)) := by
    simp only [BitVec.toNat_append]
    rw [← Nat.shiftLeft_add_eq_or_of_lt ha, ← Nat.shiftLeft_add_eq_or_of_lt hb, ← Nat.shiftLeft_add_eq_or_of_lt hc]
    simp only [Nat.shiftLeft_eq]
    omega
  rw [spelled]
  simp only [leBytes, List.cons.injEq, and_true]
  refine ⟨?_, ?_, ?_, ?_⟩ <;> exact BitVec.eq_of_toNat_eq (by rw [BitVec.toNat_ofNat]; omega)

section Dwords
variable (off : Nat) (bytes : List (Option Byte))

/-- The dwords of a write, each by the bytes that are enabled at its address. -/
theorem dwordsOf_eq : dwordsOf off bytes = (List.range ((off % 4 + bytes.length + 3) / 4)).map (fun k =>
    (off - off % 4 + 4 * k, dwordOf (fun j => enabledAt off bytes (off - off % 4 + 4 * k + j)))) := by
  have byte (i x : Nat) (h : x = off - off % 4 + i) : enabledByte bytes (off % 4) i = enabledAt off bytes x := by
    subst h
    unfold enabledByte enabledAt
    have := Nat.mod_le off 4
    by_cases hi : i < off % 4
    · rw [if_pos hi, if_pos (by omega)]
    · rw [if_neg hi, if_neg (by omega), show off - off % 4 + i - off = i - off % 4 by omega]
  unfold dwordsOf dwordOf
  refine List.map_congr_left (fun k _ => ?_)
  rw [byte (4 * k) _ rfl, byte (4 * k + 1) _ rfl, byte (4 * k + 2) _ rfl, byte (4 * k + 3) _ rfl]
  rfl

/-- A byte is stored where the dword that it stands in is whole. -/
theorem storedAt_of_dword {k j : Nat} (hj : j < 4) : storedAt off bytes (off - off % 4 + 4 * k + j) =
    (dwordOf (fun j => enabledAt off bytes (off - off % 4 + 4 * k + j))).map (fun v => (leBytes 4 v.toNat).getD j 0) := by
  unfold storedAt dwordOf
  rw [show (off - off % 4 + 4 * k + j) / 4 * 4 = off - off % 4 + 4 * k by omega]
  split
  next whole =>
    have enabled (n : Nat) (hn : n < 4) : ∃ v, enabledAt off bytes (off - off % 4 + 4 * k + n) = some v :=
      Option.isSome_iff_exists.mp (List.all_eq_true.mp whole n (List.mem_range.mpr hn))
    obtain ⟨a, ha⟩ := enabled 0 (by decide)
    obtain ⟨b, hb⟩ := enabled 1 (by decide)
    obtain ⟨c, hc⟩ := enabled 2 (by decide)
    obtain ⟨d, hd⟩ := enabled 3 (by decide)
    dsimp only
    rw [ha, hb, hc, hd, Option.map_some, leBytes_dword]
    interval_cases j
    · exact ha
    · exact hb
    · exact hc
    · exact hd
  next part =>
    split
    next ha hb hc hd =>
      refine absurd (List.all_eq_true.mpr (fun n hn => ?_)) part
      have hn := List.mem_range.mp hn
      interval_cases n
      · exact Option.isSome_of_eq_some ha
      · exact Option.isSome_of_eq_some hb
      · exact Option.isSome_of_eq_some hc
      · exact Option.isSome_of_eq_some hd
    · rfl

theorem storedAt_outside {x : Nat} (h : x < off - off % 4 ∨ off - off % 4 + 4 * ((off % 4 + bytes.length + 3) / 4) ≤ x) :
    storedAt off bytes x = none := by
  refine if_neg (fun whole => ?_)
  have first := List.all_eq_true.mp whole 0 (by decide)
  unfold enabledAt at first
  split at first
  · exact absurd first Bool.false_ne_true
  · rw [List.getD_eq_default _ _ (by omega)] at first
    exact absurd first Bool.false_ne_true

/-- The bytes of the whole dwords that are kept are stored, and no other byte changes. -/
theorem memRead_storeDwords {keep : Nat → Bool} {m : Memory} (wf : m.wf = true) (x : Nat) :
    memRead ((dwordsOf off bytes).foldl (storeDword keep) m) x =
      if keep (x / 4 * 4) = true then (storedAt off bytes x).getD (memRead m x) else memRead m x := by
  let base := off - off % 4
  let place := fun k => (base + 4 * k, dwordOf (fun j => enabledAt off bytes (base + 4 * k + j)))
  have upTo (n : Nat) : (((List.range n).map place).foldl (storeDword keep) m).wf = true ∧
      memRead (((List.range n).map place).foldl (storeDword keep) m) x =
        if keep (x / 4 * 4) = true ∧ base ≤ x ∧ x < base + 4 * n then (storedAt off bytes x).getD (memRead m x) else memRead m x := by
    induction n with
    | zero => exact ⟨wf, (if_neg (by omega)).symm⟩
    | succ n ih =>
      obtain ⟨twf, tread⟩ := ih
      rw [List.range_succ, List.map_append, List.foldl_append]
      refine ⟨storeDword_wf _ twf, (memRead_storeDword _ _ _ twf).trans ?_⟩
      by_cases here : base + 4 * n ≤ x ∧ x < base + 4 * n + 4
      · have stored := storedAt_of_dword off bytes (k := n) (j := x - (base + 4 * n)) (by omega)
        rw [show off - off % 4 + 4 * n + (x - (base + 4 * n)) = x by omega] at stored
        have old := tread.trans (if_neg (fun ⟨_, _, h⟩ => by omega))
        rw [← stored, old, show x / 4 * 4 = base + 4 * n by omega]
        exact if_congr (and_congr_right' (iff_of_true here ⟨by omega, by omega⟩)) rfl rfl
      · rw [tread, if_neg (fun h => here h.2)]
        exact if_congr (and_congr_right' (by omega)) rfl rfl
  rw [dwordsOf_eq]
  refine (upTo _).2.trans ?_
  by_cases inside : base ≤ x ∧ x < base + 4 * ((off % 4 + bytes.length + 3) / 4)
  · exact if_congr (and_iff_left inside) rfl rfl
  · rw [if_neg (fun h => inside h.2), storedAt_outside off bytes (by omega)]
    exact (ite_self _).symm

end Dwords

/-! ### The BAR2 window (R286, R325, R342) -/

variable {s : State}

theorem State.dsGrant_out (s : State) (c : Fin 8) : (s.dsGrant c).out = s.out := by
  unfold State.dsGrant
  split
  · rfl
  · rfl

theorem State.dsAccess_out (s : State) (p : Fin 8) (addr : Nat) (write : Bool) (n : Nat) : (s.dsAccess p addr write n).out = s.out := by
  unfold State.dsAccess State.dsGroups State.dsAsk
  dsimp only
  split
  · exact State.bumpBy_out ..
  · rw [State.bumpBy_out]
    split
    · exact State.bump_out ..
    · exact State.dsGrant_out ..

theorem State.windowStore_dsMem (s : State) (a : Nat) (bytes : List (Option Byte)) :
    (s.windowStore a bytes).dsMem = (dwordsOf a bytes).foldl (storeDword (fun _ => true)) s.dsMem := by
  refine (List.foldl_hom State.dsMem (fun t d => ?_)).symm
  rcases d with ⟨p, _ | v⟩
  · exact (State.bump_dsMem ..).symm
  · rfl

theorem exec_windowWrite {off : BitVec 36} {bytes : List (Option Byte)} (wf : (Instr.windowWrite off bytes).wf = true)
    (answers : s.pcie.answers = true) (low : s.windowAddr off.toNat < s.deep.top)
    (there : s.deep.reachable (s.windowAddr off.toNat) = true) :
    exec (.windowWrite off bytes) s = .next ((s.dsAccess 4 (s.windowAddr off.toNat) true (groupsOf (s.windowAddr off.toNat)
      bytes.length)).windowStore (s.windowAddr off.toNat) bytes) :=
  (if_neg (by simp [wf])).trans (congrArg Host.Outcome.next ((if_neg (by simp [answers])).trans ((if_neg (by omega)).trans (if_pos there))))

/-- Settles O27: a window write stores the whole dwords of its bytes one after another. -/
theorem windowWriteStores : Obligations.WindowWriteStores := by
  intro off bytes s ⟨wfMem, _⟩ wf answers low there
  have done := exec_windowWrite wf answers low there
  refine .next done ⟨stays_of_exec (u := .basin) done rfl, stays_of_exec (u := .ram) done rfl, fun x => ?_⟩
  have same : (s.dsAccess 4 (s.windowAddr off.toNat) true (groupsOf (s.windowAddr off.toNat) bytes.length)).dsMem = s.dsMem :=
    Stays.dsAccess (u := .dsMem) .refl
  rw [State.windowStore_dsMem, same, memRead_storeDwords _ _ wfMem, if_pos rfl]

/-- A command that names none of the memories leaves them as they were. -/
theorem sameMem_of_exec {c : Instr} {t : State} (done : exec c s = .next t) (deep : Omits c .dsMem) (basin : Omits c .basin)
    (ram : Omits c .ram) : SameMem t s :=
  ⟨stays_of_exec (u := .dsMem) done deep, stays_of_exec (u := .basin) done basin, stays_of_exec (u := .ram) done ram⟩

/-- Settles O26: a read of the window answers bytes of the deep store or, of a hole, ones. -/
theorem windowReadsComplete : Obligations.WindowReadsComplete := by
  refine ⟨fun off len s wf answers low there => ?_, fun off len s wf answers low hole => ?_, fun v s quiet => ?_⟩
  · have done : exec (.windowRead off len) s = .next _ := (if_neg (by simp [wf])).trans (congrArg Host.Outcome.next
      ((if_neg (by simp [answers])).trans ((if_neg (by omega)).trans (if_pos there))))
    refine .next done ⟨?_, sameMem_of_exec done rfl rfl rfl⟩
    exact congrArg (· ++ _) (State.dsAccess_out ..)
  · have done : exec (.windowRead off len) s = .next _ := (if_neg (by simp [wf])).trans (congrArg Host.Outcome.next
      ((if_neg (by simp [answers])).trans ((if_neg (by omega)).trans (if_neg (by simp [hole])))))
    refine .next done ⟨?_, ?_, sameMem_of_exec done rfl rfl rfl⟩
    · exact List.getLast?_concat
    · exact State.setEvBit_sets _ .ds (by decide)
  · have done : exec (.windowBaseWrite v) s = .next _ := congrArg Host.Outcome.next (State.onBar0_of_quiet quiet _ _)
    refine .next done ⟨?_, sameMem_of_exec done rfl rfl rfl⟩
    rw [State.writeWindowBase, State.bump_pcie]

/-! ### The host port of the descriptor RAM (R293 to R295) -/

/-- The dwords below the HKC working area. -/
def belowHkc (p : Nat) : Bool := decide (p < 0xC000)

/-- A dword of a host write, but for MB_REQ, stores no more than itself, and that below the HKC working area. -/
theorem State.ramDword_ram {d : Nat × Option Dword} (h : d.1 ≠ 0) (s : State) : (s.ramDword d).ram = storeDword belowHkc s.ram d := by
  have touched : ((s.interrupt (odmBase + d.1)).touchRam d.1 4).ram = s.ram :=
    have : Off .ram .guard := ⟨nofun⟩
    Stays.touchRam (u := .ram) (.interrupt .refl)
  have host : Off .ram .host := ⟨nofun⟩
  rcases d with ⟨p, _ | v⟩
  · exact Stays.partialDword (u := .ram) .refl
  · show (if 0xC000 ≤ p then s.hkcAreaDword else if p = 0 then _ else _ : State).ram = if belowHkc p then _ else _
    unfold belowHkc
    by_cases high : 0xC000 ≤ p
    · rw [if_pos high, if_neg (by simp [high])]
      exact Stays.hkcAreaDword (u := .ram) .refl
    · rw [if_neg high, if_neg (show ¬p = 0 from h), if_pos (decide_eq_true (by omega)), State.ramStore, touched]

theorem State.ramWrite_ram {off : Nat} (h : 4 ≤ off) (s : State) (w : RamBytes) :
    (s.ramWrite off w).ram = (dwordsOf off w.bytes).foldl (storeDword belowHkc) s.ram := by
  have past : ∀ d ∈ dwordsOf off w.bytes, d.1 ≠ 0 := by
    intro d hd
    rw [dwordsOf_eq] at hd
    obtain ⟨k, -, rfl⟩ := List.mem_map.mp hd
    show off - off % 4 + 4 * k ≠ 0
    omega
  unfold State.ramWrite
  dsimp only
  generalize dwordsOf off w.bytes = l at past
  induction l generalizing s with
  | nil => rfl
  | cons d l ih =>
    have clash : (s.ramClash w.clash d).ram = s.ram := Stays.ramClash (u := .ram) .refl
    rw [List.foldl_cons, List.foldl_cons, ih _ (fun e he => past e (List.mem_cons_of_mem d he)),
      State.ramDword_ram (past d List.mem_cons_self), clash]

theorem exec_descriptorRamHostWrite {off : BitVec 16} {w : RamBytes} (wf : (Instr.descriptorRamHostWrite off w).wf = true)
    (answers : s.pcie.answers = true) : exec (.descriptorRamHostWrite off w) s = .next (s.ramWrite off.toNat w) :=
  (if_neg (by simp [wf])).trans (congrArg Host.Outcome.next (if_pos answers))

/-- What a read of the host port sees: the bytes, and what the HKC port wrote in this cycle (R294). -/
def State.hostPort (s : State) : Memory × List (Nat × Nat) × Nat × Nat := (s.ram, s.chip.port, s.chip.portAt, s.now)

theorem State.touchRam_hostPort (s : State) (off len : Nat) : (s.touchRam off len).hostPort = s.hostPort := by
  unfold State.touchRam State.hostPort
  dsimp only
  split
  · simp
  · rfl

theorem State.ramError_hostPort (s : State) (e : Nat × Bool) : (s.ramError e).hostPort = s.hostPort := by
  unfold State.ramError State.hostPort
  split
  · simp
  · simp

theorem State.meetFlaws_hostPort (s : State) (off len : Nat) : (s.meetFlaws off len).hostPort = s.hostPort := by
  unfold State.meetFlaws
  exact State.foldl_keeps _ _ State.ramError_hostPort

theorem State.ramReadWith_congr {t : State} (same : t.hostPort = s.hostPort) (clash : List Nat) (off len : Nat) :
    t.ramReadWith clash off len = s.ramReadWith clash off len := by
  simp only [State.hostPort, Prod.mk.injEq] at same
  obtain ⟨ram, port, portAt, now⟩ := same
  simp only [State.ramReadWith, State.ramRead, State.clashOld, ram, port, portAt, now]

/-- A read is answered with the bytes of the host port. -/
theorem exec_descriptorRamHostRead {off : BitVec 16} {len : BitVec 13} {met : RamMeets}
    (wf : (Instr.descriptorRamHostRead off len met).wf = true) (answers : s.pcie.answers = true) :
    ∃ t, exec (.descriptorRamHostRead off len met) s = .next t ∧
      t.out.getLast? = some (.completion (s.ramReadWith met.clash off.toNat len.toNat)) := by
  refine ⟨_, (if_neg (by simp [wf])).trans (congrArg Host.Outcome.next (if_pos answers)), ?_⟩
  refine List.getLast?_concat.trans (congrArg (fun x => some (Out.completion x)) (State.ramReadWith_congr ?_ ..))
  exact (State.meetFlaws_hostPort ..).trans (State.touchRam_hostPort ..)

/-! ### Both ports in one cycle (R294) -/

theorem memReadBlock_eq (m : Memory) (a n : Nat) : memReadBlock m a n = (List.range n).map (fun i => memRead m (a + i)) := by
  induction n generalizing a with
  | zero => rfl
  | succ n ih =>
    rw [memReadBlock, ih, List.range_succ_eq_map, List.map_cons, List.map_map]
    refine congrArg₂ List.cons rfl (List.map_congr_left (fun i _ => ?_))
    show memRead m (a + 1 + i) = memRead m (a + (i + 1))
    congr 1
    omega

/-- A stored block reads back. -/
theorem memReadBlock_memWriteBlock {m : Memory} (a : Nat) (bs : List Byte) (wf : m.wf = true) :
    memReadBlock (memWriteBlock m a bs) a bs.length = bs := by
  rw [memReadBlock_eq]
  refine List.ext_getElem (by simp) (fun i _ hi => ?_)
  rw [List.getElem_map, List.getElem_range, memRead_memWriteBlock _ _ _ wf, if_pos ⟨by omega, by omega⟩, Nat.add_sub_cancel_left]
  exact List.getD_eq_getElem _ _ hi

theorem dwordsOf_dword {off : Nat} (aligned : off % 4 = 0) (a b c d : Byte) :
    dwordsOf off [some a, some b, some c, some d] = [(off, some (d ++ c ++ b ++ a))] := by
  simp [dwordsOf, enabledByte, aligned]

/-- A dword that differs from what the HKC port wrote in this cycle is counted and stored. -/
theorem State.ramWrite_clash {off old : Nat} {v : Dword} {bytes : List (Option Byte)} (dword : dwordsOf off bytes = [(off, some v)])
    (quiet : s.quiet = true) (low : 4 ≤ off) (below : off < 0xC000) (wrote : s.chip.portAt = s.now)
    (found : s.chip.port.find? (fun x => decide (x.1 = off)) = some (off, old)) (differs : v.toNat ≠ s.ramWord off) :
    (s.ramWrite off { bytes := bytes, clash := [off], flaws := [] }).objNat 0x5830 1 = (s.bump 0x5830 1).objNat 0x5830 1 := by
  have clash : s.ramClash [off] (off, some v) = s.bump 0x5830 1 := by
    unfold State.ramClash State.clashOld
    dsimp only
    rw [if_pos ⟨wrote, by simp⟩, found]
    exact if_neg (by omega)
  have calm : (s.bump 0x5830 1).interrupt (odmBase + off) = s.bump 0x5830 1 := by
    obtain ⟨-, free⟩ := Bool.and_eq_true_iff.mp quiet
    unfold State.interrupt
    rw [State.bump_guard, Option.isNone_iff_eq_none.mp free]
  have touched (t : State) : (t.touchRam off 4).objNat 0x5830 1 = t.objNat 0x5830 1 := by
    unfold State.touchRam
    dsimp only
    split
    · exact State.objNat_bump_other (by decide) _
    · rfl
  unfold State.ramWrite
  dsimp only
  rw [dword, List.foldl_cons, List.foldl_nil, clash]
  unfold State.ramDword
  dsimp only
  rw [if_neg (by omega), if_neg (by omega), calm]
  refine Eq.trans ?_ (touched (s.bump 0x5830 1))
  simp only [State.objNat, State.ramStore]

/-- Settles O28: the host port stores whole dwords below the HKC area, and answers a read from what stood there before the
HKC port's write. -/
theorem descriptorRamCompletes : Obligations.DescriptorRamCompletes := by
  refine ⟨fun off w s ⟨_, _, _, wfRam⟩ wf answers low => ?_, fun off w s wf answers => ?_, fun off len met s wf answers => ?_,
    fun off len met s wf answers alone => ?_, fun off a b c d old s ⟨_, _, _, wfRam⟩ quiet low below aligned wrote found differs => ?_⟩
  · have done := exec_descriptorRamHostWrite wf answers
    have read (x : Nat) := memRead_storeDwords off.toNat w.bytes (keep := belowHkc) wfRam x
    rw [← State.ramWrite_ram low] at read
    refine .next done ⟨stays_of_exec (u := .dsMem) done rfl, stays_of_exec (u := .basin) done rfl, stays_of_exec (u := .dies) done rfl,
      fun x hx => (read x).trans (if_pos (decide_eq_true (by omega))), fun x hx => (read x).trans (if_neg (by simp [belowHkc]; omega))⟩
  · have done := exec_descriptorRamHostWrite wf answers
    exact .next done ⟨stays_of_exec (u := .dsMem) done rfl, stays_of_exec (u := .basin) done rfl, stays_of_exec (u := .dies) done rfl⟩
  · obtain ⟨t, done, out⟩ := exec_descriptorRamHostRead wf answers
    exact .next done ⟨sameMem_of_exec done rfl rfl rfl, out⟩
  · obtain ⟨t, done, out⟩ := exec_descriptorRamHostRead wf answers
    rw [alone] at out
    exact .next done out
  · have wf : (Instr.descriptorRamHostWrite off { bytes := [some a, some b, some c, some d], clash := [off.toNat], flaws := [] }).wf =
        true :=
      decide_eq_true (by
        show 0 < 4 ∧ 4 ≤ 4096 ∧ off.toNat + 4 ≤ 2 ^ 16 ∧ off.toNat % 4096 + 4 ≤ 4096
        omega)
    have dword := dwordsOf_dword aligned a b c d
    have done := exec_descriptorRamHostWrite wf (Bool.and_eq_true_iff.mp quiet).1
    refine .next done ⟨?_, State.ramWrite_clash dword quiet low below wrote found differs⟩
    rw [State.ramWord, State.ramWrite_ram low, dword]
    simp only [List.foldl_cons, List.foldl_nil, storeDword]
    rw [if_pos (show belowHkc off.toNat = true from decide_eq_true below)]
    have back := memReadBlock_memWriteBlock (m := s.ram) off.toNat (leBytes 4 (d ++ c ++ b ++ a : Dword).toNat) wfRam
    rw [leBytes_length] at back
    rw [back, leNat_leBytes]
    exact Nat.mod_eq_of_lt (BitVec.isLt _)

end Sys2Proof.Machine
end



section
/-! PROOFS. Reads of the latching pairs (O11), and guarded writes in paired mode (O45). -/

namespace Sys2Proof.Machine

variable {s : State} {reg : GuardedReg}

/-! ### The latching pairs (R374) -/

theorem State.latchPair_keeps (s : State) (p : LatchPair) :
    (s.latchPair p).1.dies = s.dies ∧ (s.latchPair p).1.tb.acc = s.tb.acc ∧ (s.latchPair p).1.out = s.out := by
  cases p with
  | tbTime | pgT0 | ptpOffset | ptpMpd => exact ⟨rfl, rfl, rfl⟩
  | capTrig d =>
    unfold State.latchPair
    dsimp only
    split <;> exact ⟨rfl, rfl, rfl⟩

/-- The halves of a quadword make it up. -/
theorem append_halves (x : Qword) : (((x >>> 32).setWidth 32 : Dword) ++ (x.setWidth 32 : Dword) : Qword) = x := by
  ext i hi
  rw [BitVec.getElem_append]
  split
  · simp [BitVec.getLsbD_eq_getElem hi]
  · simp [Nat.add_sub_cancel' (not_lt.mp ‹_›), BitVec.getLsbD_eq_getElem hi]

theorem exec_latchingPairRead (answers : s.pcie.answers = true) (p : LatchPair) : exec (.latchingPairRead p) s =
    .next ((s.latchPair p).1.emit (.completion (leBytes 4 (s.latchPair p).2.toNat))) :=
  congrArg Host.Outcome.next (if_pos answers)

/-- Settles O11: `State.latchPair` gives the half that is answered and keeps the other, and stores nothing else. -/
theorem latchingReadsComplete : Obligations.LatchingReadsComplete := by
  refine ⟨fun p s answers => ⟨_, exec_latchingPairRead answers p, ?_⟩,
    fun s answers => ⟨_, exec_latchingPairRead answers .tbTime, append_halves s.time⟩⟩
  obtain ⟨dies, acc, out⟩ := s.latchPair_keeps p
  exact ⟨congrArg (· ++ _) out, dies, acc⟩

/-! ### The guarded registers (R376) -/

theorem mem_guardedRegs (reg : GuardedReg) : reg ∈ guardedRegs := by
  cases reg with
  | ydir d k | ydrv d k => revert d k; decide
  | fstepGo | dsSpeed | dsRas | hltFrz | hltBbadm => decide

/-- The guarded registers and their complements have offsets of their own. -/
theorem regOffset_apart : ∀ r ∈ guardedRegs, ∀ q ∈ guardedRegs, regOffset q ≠ regOffset r + 4 ∧ (regOffset q = regOffset r → q = r) := by
  decide +kernel

/-- A guarded register and its complement lie in one aligned quadword of BAR0 outside the descriptor RAM. -/
theorem regOffset_place (reg : GuardedReg) : regOffset reg % 8 = 0 ∧ regOffset reg < 2 ^ 20 ∧ regOffset reg / 0x10000 ≠ 6 := by
  cases reg with
  | ydir d k | ydrv d k =>
    have := d.isLt
    have := k.isLt
    simp only [regOffset, capReg]
    omega
  | fstepGo | dsSpeed | dsRas | hltFrz | hltBbadm => decide

theorem State.guardedAt_regOffset (has : s.hasReg reg = true) : s.guardedAt (regOffset reg) = some reg := by
  unfold State.guardedAt
  have found : (guardedRegs.find? (fun r => decide (regOffset r = regOffset reg) && s.hasReg r)).isSome = true := by
    rw [List.find?_isSome]
    exact ⟨reg, mem_guardedRegs reg, by simp [has]⟩
  obtain ⟨q, hq⟩ := Option.isSome_iff_exists.mp found
  have hit := List.find?_some hq
  rw [Bool.and_eq_true, decide_eq_true_eq] at hit
  rw [hq, (regOffset_apart reg (mem_guardedRegs reg) q (mem_guardedRegs q)).2 hit.1]

theorem State.guardedAt_complement (s : State) (reg : GuardedReg) : s.guardedAt (regOffset reg + 4) = none := by
  refine List.find?_eq_none.mpr fun q mem hit => ?_
  exact (regOffset_apart reg (mem_guardedRegs reg) q mem).1 (of_decide_eq_true (Bool.and_eq_true_iff.mp hit).1)

theorem State.hasReg_of_variant {t : State} (h : t.variant = s.variant) (reg : GuardedReg) : t.hasReg reg = s.hasReg reg := by
  cases reg with
  | ydir d k | ydrv d k =>
    simp only [State.hasReg, State.hasDie, h]
  | fstepGo | dsSpeed | dsRas | hltFrz | hltBbadm => rfl

/-! ### One dword of a write (R371) -/

theorem State.regDword_guarded (has : s.hasReg reg = true) (v : Dword) :
    s.regDword (regOffset reg, some v) = s.guardedWrite (regOffset reg) v (regApply reg) := by
  obtain ⟨-, -, notRam⟩ := regOffset_place reg
  rw [State.regDword, if_neg notRam]
  dsimp only
  rw [State.wholeDword, State.guardedAt_regOffset has]

theorem State.regDword_complement (has : s.hasReg reg = true) (v : Dword) :
    s.regDword (regOffset reg + 4, some v) = s.complementWrite (regOffset reg) v (regApply reg) := by
  obtain ⟨aligned, -, notRam⟩ := regOffset_place reg
  rw [State.regDword, if_neg (by omega)]
  dsimp only
  rw [State.wholeDword, s.guardedAt_complement reg, Nat.add_sub_cancel, State.guardedAt_regOffset has]

theorem State.interrupt_of_idle (idle : s.guard.pendingWrite = none) (off : Nat) : s.interrupt off = s := by
  rw [State.interrupt, idle]

/-- In paired mode a guarded value waits for its complement. -/
theorem State.guardedWrite_waits (answers : s.pcie.answers = true) (paired : s.guard.keyed = false) (idle : s.guard.pendingWrite = none)
    (shut : s.guard.unlocked = none) (off : Nat) (v : Dword) (apply : Dword → State → State) :
    s.guardedWrite off v apply = { s with guard := { s.guard with pendingWrite := some (off, v) } } := by
  have closed : s.closeLock = s := by rw [State.closeLock, shut]
  rw [State.guardedWrite, State.onBar0, if_pos answers, State.interrupt_of_idle idle, closed]
  exact if_neg (by simp [paired])

/-- The complement of the value that waits applies it. -/
theorem State.complementWrite_applies {off : Nat} {v : Dword} (answers : s.pcie.answers = true) (paired : s.guard.keyed = false)
    (waits : s.guard.pendingWrite = some (off, v)) (apply : Dword → State → State) :
    s.complementWrite off (~~~v) apply = apply v { s with guard := { s.guard with pendingWrite := none }.settle } := by
  have on : s.interrupt (off + 4) = s := by
    rw [State.interrupt, waits]
    exact if_pos rfl
  rw [State.complementWrite, State.onBar0, if_pos answers, on, if_neg (by simp [paired]), waits]
  exact if_pos ⟨rfl, rfl⟩

/-! ### Requests of one and of two dwords -/

theorem exec_registerWrite {off : BitVec 20} {bytes : List (Option Byte)} (wf : (Instr.registerWrite off bytes).wf = true)
    (answers : s.pcie.answers = true) :
    exec (.registerWrite off bytes) s = .next ((dwordsOf off.toNat bytes).foldl State.regDword s) := by
  show execRegisterWrite off bytes s = _
  rw [execRegisterWrite, wf, answers]
  rfl

theorem registerWrite_wf {off : BitVec 20} {bytes : List (Option Byte)} (aligned : off.toNat % bytes.length = 0)
    (size : bytes.length = 4 ∨ bytes.length = 8) : (Instr.registerWrite off bytes).wf = true := by
  have := off.isLt
  obtain h | h := size <;> rw [h] at aligned <;> simp [Instr.wf, accessOk, h] <;> omega

/-- A write of a whole dword is that dword's. -/
theorem exec_registerWrite_dword {n : Nat} (aligned : n % 4 = 0) (small : n < 2 ^ 20) (answers : s.pcie.answers = true) (a b c d : Byte) :
    exec (.registerWrite (BitVec.ofNat 20 n) [some a, some b, some c, some d]) s = .next (s.regDword (n, some (d ++ c ++ b ++ a))) := by
  have place : (BitVec.ofNat 20 n).toNat = n := Nat.mod_eq_of_lt small
  rw [exec_registerWrite (registerWrite_wf (by rw [place]; exact aligned) (.inl rfl)) answers, place, dwordsOf_dword aligned]
  rfl

theorem dwordsOf_qword {off : Nat} (aligned : off % 4 = 0) (a b c d e f g h : Byte) :
    dwordsOf off [some a, some b, some c, some d, some e, some f, some g, some h] =
      [(off, some (d ++ c ++ b ++ a)), (off + 4, some (h ++ g ++ f ++ e))] := by
  simp [dwordsOf, enabledByte, aligned, List.range_succ]

/-- The complement of a dword is that of its bytes. -/
theorem not_dword (a b c d : Byte) : (~~~d ++ ~~~c ++ ~~~b ++ ~~~a : Dword) = ~~~(d ++ c ++ b ++ a : Dword) := by
  simp only [BitVec.not_append]

/-- An aligned dword that is not enabled whole. -/
theorem dwordsOf_partial {off : Nat} {bytes : List (Option Byte)} (aligned : off % 4 = 0) (size : bytes.length = 4)
    (gap : none ∈ bytes) : dwordsOf off bytes = [(off, none)] := by
  match bytes, size with
  | [a, b, c, d], _ =>
    simp [dwordsOf, enabledByte, aligned]
    cases a <;> cases b <;> cases c <;> cases d <;> simp_all

theorem State.partialDword_guard (s : State) : s.partialDword.guard = s.guard := State.setEvBit_guard ..

theorem State.regDword_partial (s : State) (off : Nat) : s.regDword (off, none) = s.partialDword := by
  rw [State.regDword]
  split <;> rfl

/-- Settles O45, each clause by what one dword of the request does (`State.guardedWrite_waits`, `State.complementWrite_applies`). -/
theorem pairedModeTakesTwoWrites : Obligations.PairedModeTakesTwoWrites := by
  refine ⟨?_, ?_, ?_, ?_, ?_⟩
  · intro reg a b c d s has answers paired idle shut
    obtain ⟨aligned, small, -⟩ := regOffset_place reg
    refine ⟨_, exec_registerWrite_dword (by omega) small answers a b c d, ?_⟩
    rw [State.regDword_guarded has, State.guardedWrite_waits answers paired idle shut]
    exact ⟨rfl, rfl, ⟨rfl, rfl, rfl, rfl, rfl, rfl, rfl, rfl, rfl, rfl, rfl, rfl, rfl⟩, rfl, rfl, rfl⟩
  · intro reg a b c d s has answers paired waits
    obtain ⟨aligned, small, -⟩ := regOffset_place reg
    have applied := State.complementWrite_applies answers paired waits (regApply reg)
    rw [BitVec.not_not] at applied
    rw [exec_registerWrite_dword (by omega) (by omega) answers, State.regDword_complement has, applied]
  · intro off bytes s aligned size gap
    have wf : (Instr.registerWrite off bytes).wf = true := registerWrite_wf (by rw [size]; exact aligned) (.inl size)
    by_cases answers : s.pcie.answers = true
    · refine ⟨_, exec_registerWrite wf answers, ?_⟩
      rw [dwordsOf_partial aligned size gap, List.foldl_cons, List.foldl_nil, State.regDword_partial]
      exact s.partialDword_guard
    · refine ⟨s.emit .unsupported, ?_, rfl⟩
      show execRegisterWrite off bytes s = _
      rw [execRegisterWrite, wf]
      exact congrArg Host.Outcome.next (if_neg answers)
  · intro p s
    exact ⟨_, rfl, stays_of_exec (u := .guard) (c := .latchingPairRead p) rfl rfl⟩
  · intro reg a b c d s has answers paired idle shut
    obtain ⟨aligned, small, -⟩ := regOffset_place reg
    have place : (BitVec.ofNat 20 (regOffset reg)).toNat = regOffset reg := Nat.mod_eq_of_lt small
    have waiting := State.guardedWrite_waits answers paired idle shut (regOffset reg) (d ++ c ++ b ++ a) (regApply reg)
    have applied := State.complementWrite_applies (s := { s with guard := { s.guard with
      pendingWrite := some (regOffset reg, d ++ c ++ b ++ a) } }) answers paired rfl (regApply reg)
    have cleared : { s.guard with pendingWrite := none } = s.guard := by rw [← idle]
    rw [exec_registerWrite (registerWrite_wf (by rw [place]; exact aligned) (.inr rfl)) answers, place, dwordsOf_qword (by omega),
      not_dword, List.foldl_cons, List.foldl_cons, List.foldl_nil, State.regDword_guarded has, waiting]
    rw [State.regDword_complement ((State.hasReg_of_variant (by rfl) reg).trans has), applied]
    exact congrArg (fun g => Host.Outcome.next (regApply reg (d ++ c ++ b ++ a) { s with guard := Guard.settle g })) cleared

end Sys2Proof.Machine
end



section
/-! PROOFS. Requests of the deep store, parity errors, migration and scrub (O24). -/

namespace Sys2Proof.Machine

variable {a s : State} {r : EvReg} {n : Nat}

/-! ### What a port's requests leave of the deep store -/

/-- The channels and the place of patrol scrub are those of `a`. -/
def DeepFixed (a s : State) : Prop := s.deep.chans = a.deep.chans ∧ s.deep.scrub = a.deep.scrub

theorem DeepFixed.of_deep {t : State} (e : t.deep = s.deep) (h : DeepFixed a s) : DeepFixed a t := by
  unfold DeepFixed
  rw [e]
  exact h

theorem DeepFixed.ite {t : State} {c : Prop} [Decidable c] (hs : DeepFixed a s) (ht : DeepFixed a t) :
    DeepFixed a (if c then s else t) := by
  split
  · exact hs
  · exact ht

theorem DeepFixed.dsGrant {c} (h : DeepFixed a s) : DeepFixed a (s.dsGrant c) := by
  unfold State.dsGrant
  split <;> exact h

theorem DeepFixed.dsAsk {p addr write} (h : DeepFixed a s) : DeepFixed a (s.dsAsk p addr write) :=
  .ite h (.ite (.of_deep (Same.bump (u := .deep) .refl) h) (.dsGrant h))

theorem DeepFixed.dsServed {p} (h : DeepFixed a s) : DeepFixed a (s.dsServed p) := by
  unfold State.dsServed
  split
  · exact h
  · refine .dsGrant (.of_deep (Same.raiseTo (u := .deep) .refl) (.ite (.of_deep (Same.bump (u := .deep) .refl) ?_) ?_)) <;>
      exact .of_deep (Same.bump (u := .deep) .refl) h

theorem DeepFixed.migrateNext (h : DeepFixed a s) : DeepFixed a s.migrateNext := by
  unfold State.migrateNext
  split
  · exact .ite h.dsAsk h
  · exact h

theorem DeepFixed.damaged {b cause} (h : DeepFixed a s) : DeepFixed a (s.damaged b cause) := by
  unfold State.damaged
  split
  · exact h
  · exact h
  · have logged : DeepFixed a (s.put 0x5451 s.deep.damageNext (.bytes (leBytes 8 (b % 2 ^ 28 * 4096 + cause) ++ leBytes 8 s.time.toNat))) :=
      .of_deep (Same.put (u := .deep) .refl) h
    exact .of_deep (Same.bump (u := .deep) .refl) logged

/-- A group read without flaw goes on to the spare, and the channels stay. -/
theorem DeepFixed.migrated {addr g} (clean : g.corrected = false ∧ g.uncorrectable = false) (h : DeepFixed a s) :
    DeepFixed a (s.migrated addr g) := by
  obtain ⟨corrected, uncorrectable⟩ := clean
  simp only [State.migrated, State.groupRead, corrected, uncorrectable, Bool.false_eq_true, if_false, ite_self]
  split
  · exact h
  · exact .migrateNext (.of_deep (Same.putNat (u := .deep) .refl) h)

theorem DeepFixed.genRefilled {d bad} (h : DeepFixed a s) : DeepFixed a (s.genRefilled d bad) := by
  unfold State.genRefilled State.genAsk
  have taken : DeepFixed a ((s.genSettle d).genTake d bad) := .of_deep (Same.genTake (u := .deep) (.genSettle .refl)) h
  split
  · split
    · exact .dsAsk taken
    · exact taken
  · exact taken

/-! ### The place of patrol scrub -/

/-- Patrol scrub stands at `n`. -/
def ScrubAt (n : Nat) (s : State) : Prop := s.deep.scrub = n

theorem ScrubAt.of_deep {t : State} (e : t.deep = s.deep) (h : ScrubAt n s) : ScrubAt n t := (congrArg Deep.scrub e).trans h

theorem ScrubAt.of_fixed (fixed : DeepFixed a s) (h : ScrubAt n a) : ScrubAt n s := fixed.2.trans h

theorem ScrubAt.retireRank {c k} (h : ScrubAt n s) : ScrubAt n (s.retireRank c k) :=
  .of_deep (Same.bb (u := .deep) (.bump (.setEvBit .refl))) h

theorem ScrubAt.leaveService {c k} (h : ScrubAt n s) : ScrubAt n (s.leaveService c k) := by
  unfold State.leaveService
  split
  · exact .of_fixed (DeepFixed.migrateNext (.of_deep (Same.putNat (u := .deep) .refl) ⟨rfl, rfl⟩)) h
  · exact h.retireRank

theorem ScrubAt.rankOut {c k} (h : ScrubAt n s) : ScrubAt n (s.rankOut c k) := by
  unfold State.rankOut
  dsimp only
  split
  · exact h
  · split
    · exact .retireRank h
    · exact h.leaveService

theorem ScrubAt.correctedRead {c k} (h : ScrubAt n s) : ScrubAt n (s.correctedRead c k) := by
  unfold State.correctedRead
  dsimp only
  split
  · exact .rankOut (.of_deep (Same.bump (u := .deep) .refl) h)
  · exact .of_deep (Same.bump (u := .deep) .refl) h

theorem ScrubAt.badRead {b c k} (h : ScrubAt n s) : ScrubAt n (s.badRead b c k) :=
  .rankOut (.of_fixed (DeepFixed.damaged (.of_deep (Same.bb (u := .deep) (.setEvBit (.bump .refl))) ⟨rfl, rfl⟩)) h)

theorem ScrubAt.groupRead {addr g} (h : ScrubAt n s) : ScrubAt n (s.groupRead addr g) := by
  unfold State.groupRead
  dsimp only
  split
  · exact h
  · split <;> split
    · exact h.correctedRead.badRead
    · exact h.badRead
    · exact h.correctedRead
    · exact h

/-! ### Event bits -/

theorem Marked.dsGrant {c} (h : Marked r n s) : Marked r n (s.dsGrant c) := by
  unfold State.dsGrant
  split <;> exact h

theorem Marked.migrateNext (h : Marked r n s) : Marked r n s.migrateNext := by
  unfold State.migrateNext
  split
  · exact .ite (.ite h (.ite (.of_events (State.bump_events ..) h) (.dsGrant h))) h
  · exact h

theorem Marked.damaged {b cause} (h : Marked r n s) : Marked r n (s.damaged b cause) := by
  unfold State.damaged
  split
  · exact h
  · exact h
  · exact .of_events (by simp [State.damage]) h

theorem Marked.retireRank {c k} (h : Marked r n s) : Marked r n (s.retireRank c k) :=
  .bb (.of_events (State.bump_events ..) (.setEvBit h))

theorem Marked.rankOut {c k} (h : Marked r n s) : Marked r n (s.rankOut c k) := by
  unfold State.rankOut
  dsimp only
  split
  · exact h
  · split
    · exact .retireRank h
    · unfold State.leaveService
      split
      · exact .migrateNext (.of_events (State.putNat_events ..) h)
      · exact h.retireRank

/-! ### The queues of the ports -/

/-- The port's queue is empty. -/
def PortIdle (p : Fin 8) (s : State) : Prop := s.deep.ports[p] = none

theorem PortIdle.dsGrant {p c} (h : PortIdle p s) : PortIdle p (s.dsGrant c) := by
  unfold State.dsGrant
  split
  next q _ =>
    by_cases same : q = p
    · subst same
      simp [PortIdle, show s.deep.ports[q.val] = none from h]
    · simpa [PortIdle, Vector.getElem_set_ne _ _ (Fin.val_ne_of_ne same)] using h
  · exact h

theorem PortIdle.of_deep {p : Fin 8} {t : State} (e : t.deep = s.deep) (h : PortIdle p s) : PortIdle p t := by
  unfold PortIdle
  rw [e]
  exact h

/-- A request that is served leaves its queue empty. -/
theorem State.dsServed_idle (s : State) (p : Fin 8) : PortIdle p (s.dsServed p) := by
  unfold State.dsServed
  split
  next none => exact none
  next q _ =>
    have served : PortIdle p (State.bump { s with deep := { s.deep with ports := s.deep.ports.set p none } } (0x5430 + p.val) 1) :=
      .of_deep (Same.bump (u := .deep) .refl) (by simp [PortIdle])
    refine .dsGrant (.of_deep (Same.raiseTo (u := .deep) .refl) ?_)
    split
    · exact .of_deep (Same.bump (u := .deep) .refl) served
    · exact served

/-! ### The commands -/

/-- What a served request brings: nothing for a write, a group of the migration on P7, a group read else (R273, R275). -/
def State.afterService (s : State) (p : Fin 8) (q : DsRequest) (g : GroupResult) : State :=
  if q.write then s else if p = 7 then s.migrated q.addr g else s.groupRead q.addr g

/-- A write, and a read without flaw, changes no channel. -/
theorem DeepFixed.afterService {p q g} (clean : q.write = true ∨ g.corrected = false ∧ g.uncorrectable = false) (h : DeepFixed a s) :
    DeepFixed a (s.afterService p q g) := by
  unfold State.afterService
  obtain write | clean := clean
  · rw [if_pos write]
    exact h
  · refine .ite h (.ite (h.migrated clean) ?_)
    obtain ⟨corrected, uncorrectable⟩ := clean
    simpa only [State.groupRead, corrected, uncorrectable, Bool.false_eq_true, if_false, ite_self] using h

/-- Beside P7, such a request leaves the deep store's state as it is. -/
theorem State.afterService_clean {p : Fin 8} {q : DsRequest} {g : GroupResult} (other : p ≠ 7)
    (clean : q.write = true ∨ g.corrected = false ∧ g.uncorrectable = false) (s : State) : s.afterService p q g = s := by
  unfold State.afterService
  obtain write | ⟨corrected, uncorrectable⟩ := clean
  · exact if_pos write
  · simp only [if_neg other, State.groupRead, corrected, uncorrectable, Bool.false_eq_true, if_false, ite_self]

theorem exec_dsRequestComplete {p : Fin 8} {q : DsRequest} (free : s.frozenFull = false) (asked : s.deep.ports[p] = some q)
    (granted : q.granted = true) (g : GroupResult) : exec (.dsRequestComplete p g) s =
      .next (if p = 2 then ((s.dsServed p).afterService p q g).genRefilled 0 g.uncorrectable
        else if p = 3 then ((s.dsServed p).afterService p q g).genRefilled 1 g.uncorrectable
        else (s.dsServed p).afterService p q g) := by
  show execDsRequestComplete p g s = _
  unfold execDsRequestComplete State.afterService
  rw [if_neg (by simp [free]), asked]
  dsimp only
  rw [if_neg (by simp [granted])]

theorem exec_urgencyRise {p : Fin 8} {q : DsRequest} (free : s.frozenFull = false) (asked : s.deep.ports[p] = some q) :
    exec (.urgencyRise p) s = .next { s with deep := { s.deep with ports := s.deep.ports.set p (some { q with
      urgency := max q.urgency (urgencyAt p (s.now - q.entered)) }) } } := by
  show execUrgencyRise p s = _
  unfold execUrgencyRise
  rw [if_neg (by simp [free]), asked]

/-- The parity error's event survives the report and the rank's leaving service. -/
theorem dsParityError_marked {barge : BitVec 28} (free : s.frozenFull = false) (mapped : 4096 * barge.toNat < s.deep.top) (again : Bool) :
    ∃ t, exec (.dsParityError barge again) s = .next t ∧ Marked .ds 1 t := by
  refine ⟨_, congrArg Host.Outcome.next (if_neg (by simp [free, mapped])), ?_⟩
  have noted (i j code sev data) : Marked .ds 1 (((s.bump i j).setEvBit .ds 1).bb code sev data) := .bb (.of_setEvBit (by decide))
  exact .rankOut (.ite (.damaged (noted ..)) (noted ..))

/-- A channel's slot names the spare. -/
def SpareIn (c : Fin 8) (m : Migration) (s : State) : Prop :=
  s.deep.chans[c].slots[m.slot] = m.spare ∧ s.deep.chans[c].spare = none

theorem SpareIn.of_fixed {c m} (fixed : DeepFixed a s) (h : SpareIn c m a) : SpareIn c m s := by
  unfold SpareIn
  rw [fixed.1]
  exact h

/-- The copy's losses enter the damage lists, and the channels stay. -/
theorem DeepFixed.copyLosses {bad : List (BitVec 28)} (h : DeepFixed a s) :
    DeepFixed a (bad.foldl (fun s b => s.damaged b.toNat 1) s) := by
  induction bad generalizing s with
  | nil => exact h
  | cons b bad ih => exact ih h.damaged

/-- The migration's slot takes the spare (R275). -/
def State.spareNamed (s : State) (c : Fin 8) (m : Migration) : State :=
  State.withChan { s with deep := { s.deep with migrations := s.deep.migrations.filter (fun m => m.chan != c) } } c
    (fun x => { x with slots := x.slots.set m.slot m.spare, spare := none })

theorem State.spareNamed_spareIn (s : State) (c : Fin 8) (m : Migration) : SpareIn c m (s.spareNamed c m) := by
  simp [SpareIn, State.spareNamed, State.withChan, vmod]

theorem migrationDone_next {c : Fin 8} {m : Migration} (free : s.frozenFull = false)
    (found : s.deep.migrations.find? (fun m => m.chan == c) = some m) (bad : List (BitVec 28)) :
    ∃ t, exec (.migrationDone c bad) s = .next t ∧ SpareIn c m t ∧ Marked .ds 3 t := by
  have e : exec (.migrationDone c bad) s = .next ((((((((bad.foldl (fun s b => s.damaged b.toNat 1) s).spareNamed c m).dsServed 7).putNat
      0x5440 4 100).bump 0x5440 3).setEvBit .ds 3).bb 0x0063 2 (leBytes 1 c.val ++ leBytes 1 m.rank.val))) := by
    show execMigrationDone c bad s = _
    unfold execMigrationDone State.spareNamed
    rw [if_neg (by simp [free]), found]
  refine ⟨_, e, ?_, .bb (.of_setEvBit (by decide))⟩
  exact .of_fixed (.of_deep (Same.bb (u := .deep) (.setEvBit (.bump (.putNat .refl)))) (.dsServed ⟨rfl, rfl⟩)) (State.spareNamed_spareIn ..)

/-- Settles O24: each command's own equation, and what is kept by the ports (`DeepFixed`), by patrol scrub (`ScrubAt`) and of the event
bits (`Marked`). -/
theorem deepRequestsComplete : Obligations.DeepRequestsComplete := by
  refine ⟨?_, ?_, ?_, ?_, ?_⟩
  · intro p g q s free asked granted clean
    have e := exec_dsRequestComplete free asked granted g
    refine ⟨_, e, stays_of_exec (u := .dsMem) e rfl, ?_, fun other => ?_⟩
    · have served : DeepFixed s ((s.dsServed p).afterService p q g) := .afterService clean (.dsServed ⟨rfl, rfl⟩)
      exact (DeepFixed.ite served.genRefilled (.ite served.genRefilled served)).1
    · have apart : p ≠ 2 ∧ p ≠ 3 ∧ p ≠ 7 := by
        refine ⟨?_, ?_, ?_⟩ <;> rintro rfl <;> exact other (by decide)
      obtain ⟨two, three, seven⟩ := apart
      rw [if_neg two, if_neg three, State.afterService_clean seven clean]
      exact s.dsServed_idle p
  · intro p q s free asked
    refine ⟨_, exec_urgencyRise free asked, ?_, rfl⟩
    simp
  · intro barge again s free mapped
    obtain ⟨t, done, marked⟩ := dsParityError_marked free mapped again
    exact ⟨t, done, marked, stays_of_exec (u := .dsMem) done rfl⟩
  · intro c bad m s free found
    obtain ⟨t, done, ⟨slot, spare⟩, marked⟩ := migrationDone_next free found bad
    exact ⟨t, done, slot, spare, marked, stays_of_exec (u := .dsMem) done rfl⟩
  · intro g a s enabled on still found calm
    have e : exec (.patrolScrubRead g) s = .next ((State.dsGroups { s with deep := { s.deep with scrub := (a + 1024) % s.deep.top } }
        7 1).groupRead a g) := by
      show execPatrolScrubRead g s = _
      unfold execPatrolScrubRead
      rw [if_pos (by simp [enabled, on, still]), found]
      dsimp only
      rw [if_neg (by simp [calm])]
    refine ⟨_, e, ScrubAt.groupRead (.of_deep (Same.dsGroups (u := .deep) .refl) rfl), stays_of_exec (u := .dsMem) e rfl⟩

end Sys2Proof.Machine
end



section
/-! PROOFS. The PCI Express endpoint: what the operations of chapter 16 leave of its state.

Three layers. An interrupt changes messages alone (`MsixFree`). The next entry of a ring changes a channel's job and the outstanding reads
(`JobFree`). The end of a job is an operation on the endpoint's state alone (`Pcie.ended`, `Pcie.halted`). -/

namespace Sys2Proof.Machine

variable {β : Type} {p : Pcie → β} {s : State} {k j : Fin 8}

/-! ### Messages (R334) -/

/-- A part of the endpoint that holds no pending bit. -/
def PbaFree (p : Pcie → β) : Prop := ∀ x b, p { x with msix := { x.msix with pba := b } } = p x

theorem MsixFree.pbaFree (free : MsixFree p) : PbaFree p := fun x _ => free x _

theorem PbaFree.flushVector (free : PbaFree p) (v : Fin 64) : p (s.flushVector v).pcie = p s.pcie := by
  unfold State.flushVector
  split
  · exact free ..
  · rfl

theorem PbaFree.flushAll (free : PbaFree p) : p s.flushAll.pcie = p s.pcie :=
  State.foldl_keeps (p := fun t => p t.pcie) _ s (fun _ v => free.flushVector v)

/-! ### Operations that leave the endpoint alone, messages aside -/

theorem State.touchRam_pcie (s : State) (off len : Nat) : (s.touchRam off len).pcie = s.pcie := by
  unfold State.touchRam
  dsimp only
  split
  · exact State.bump_pcie ..
  · rfl

theorem State.hkcRam_pcie (s : State) (off : Nat) (bs : List Byte) : (s.hkcRam off bs).pcie = s.pcie := s.touchRam_pcie off bs.length

theorem MsixFree.ramError (free : MsixFree p) (e : Nat × Bool) : p (s.ramError e).pcie = p s.pcie := by
  unfold State.ramError
  split
  · rw [free.bb, State.bump_pcie]
  · rw [State.bump_pcie]

theorem MsixFree.hkcReads (free : MsixFree p) (off len : Nat) : p (s.hkcReads off len).pcie = p s.pcie :=
  (State.foldl_keeps (p := fun t => p t.pcie) _ _ (fun _ e => free.ramError e)).trans (congrArg p (s.touchRam_pcie off len))

theorem State.dsGrant_pcie (s : State) (c : Fin 8) : (s.dsGrant c).pcie = s.pcie := by
  unfold State.dsGrant
  split <;> rfl

theorem State.dsAsk_pcie (s : State) (c : Fin 8) (addr : Nat) (write : Bool) : (s.dsAsk c addr write).pcie = s.pcie := by
  unfold State.dsAsk
  split
  · rfl
  · split
    · exact State.bump_pcie ..
    · exact State.dsGrant_pcie ..

theorem State.dsServed_pcie (s : State) (c : Fin 8) : (s.dsServed c).pcie = s.pcie := by
  unfold State.dsServed
  split
  · rfl
  · rw [State.dsGrant_pcie, State.raiseTo_pcie]
    split <;> simp only [State.bump_pcie]

/-! ### The next entry of a ring (R327) -/

/-- A channel, its work aside. -/
def DmaChan.rest (c : DmaChan) : DmaChan := { c with job := none, fetching := false }

/-- A part of the endpoint that holds no message, no outstanding read and no job. -/
structure JobFree (p : Pcie → β) : Prop where
  msix : MsixFree p
  tags : ∀ x t, p { x with tags := t } = p x
  job : ∀ x k f, (∀ c, (f c).rest = c.rest) → p { x with dma := vmod x.dma k f } = p x

theorem JobFree.withDma (free : JobFree p) {f : DmaChan → DmaChan} (rest : ∀ c, (f c).rest = c.rest := by intro _; rfl) :
    p (s.withDma k f).pcie = p s.pcie := free.job _ k f rest

theorem JobFree.issueRead (free : JobFree p) {use addr len} {t : State} (e : s.issueRead k use addr len = some t) :
    p t.pcie = p s.pcie := by
  unfold State.issueRead at e
  split at e
  · split at e
    · exact Option.some.inj e ▸ free.tags ..
    · cases e
  · cases e

theorem JobFree.pumpJob (free : JobFree p) (k : Fin 8) (n : Nat) : p (s.pumpJob k n).pcie = p s.pcie := by
  induction n generalizing s with
  | zero => rfl
  | succ n ih =>
    unfold State.pumpJob
    split
    · rfl
    · split
      · dsimp only
        split
        next t e => exact ih.trans ((free.withDma).trans (free.issueRead e))
        next => rfl
      · rfl

theorem JobFree.beginJob (free : JobFree p) (d : Descriptor) : p (s.beginJob k d).pcie = p s.pcie := by
  unfold State.beginJob State.pump
  dsimp only
  rw [free.pumpJob]
  split
  · rw [State.dsAsk_pcie]
    exact free.withDma
  · exact free.withDma

theorem JobFree.kick (free : JobFree p) (k : Fin 8) : p (s.kick k).pcie = p s.pcie := by
  unfold State.kick
  dsimp only
  split
  · split
    · split
      · exact free.msix.hkcReads ..
      · exact (free.beginJob _).trans (free.msix.hkcReads ..)
    · split
      next t e => exact (free.withDma).trans (free.issueRead e)
      next => rfl
  · rfl

theorem JobFree.kickAll (free : JobFree p) : p s.kickAll.pcie = p s.pcie :=
  State.foldl_keeps (p := fun t => p t.pcie) _ s (fun _ _ => (free.pumpJob _ 64).trans (free.kick _))

/-- A channel's registers are no job's. -/
theorem jobFree_rest (j : Fin 8) : JobFree (fun x => x.dma[j].rest) where
  msix _ _ := rfl
  tags _ _ := rfl
  job x k f rest := by
    by_cases h : j = k
    · subst h
      exact (congrArg DmaChan.rest (vmod_same ..)).trans (rest _)
    · exact congrArg DmaChan.rest (vmod_other _ _ _ _ h)

/-! ### The end of a job (R330 to R332) -/

/-- A channel whose entry has ended with a status. -/
def DmaChan.ended (status : Nat) (c : DmaChan) : DmaChan :=
  { c with
    cons := (c.cons + 1) % c.entries, job := none, fetching := false, halted := c.halted || decide (2 < status)
    lastErr := if status = 1 then c.lastErr else status }

/-- The endpoint after the end of a channel's entry, messages aside. -/
def Pcie.ended (x : Pcie) (k : Fin 8) (status : Nat) : Pcie := { x.discard k with dma := vmod x.dma k (DmaChan.ended status) }

theorem State.writeStatus_pcie (s : State) (k : Fin 8) (status done : Nat) : (s.writeStatus k status done).pcie = s.pcie := by
  unfold State.writeStatus
  dsimp only
  split <;> exact State.hkcRam_pcie ..

theorem State.countJob_pcie (s : State) (k : Fin 8) (status moved : Nat) : (s.countJob k status moved).pcie = s.pcie := by
  unfold State.countJob
  rw [State.bumpBy_pcie, State.bump_pcie]

theorem MsixFree.jobVector (free : MsixFree p) (k : Fin 8) (status : Nat) (irq : Bool) : p (s.jobVector k status irq).pcie = p s.pcie := by
  unfold State.jobVector
  split
  · split
    · exact free.raise _
    · rfl
  · exact free.raise _

theorem MsixFree.endJob (free : MsixFree p) (k : Fin 8) (status : Nat) : p (s.endJob k status).pcie = p (s.pcie.ended k status) := by
  have rang (t : State) : p (if status = 1 then t else t.setEvBit (.chan k) 7).pcie = p t.pcie := by
    split
    · rfl
    · exact free.setEvBit ..
  unfold State.endJob
  dsimp only
  rw [free.jobVector, rang, State.countJob_pcie, State.writeStatus_pcie]
  rfl

theorem vmod_absorb {α : Type} {n : Nat} (v : Vector α n) (i : Fin n) {f : α → α} (g : α → α) (h : ∀ c, g (f c) = g c) :
    vmod (vmod v i f) i g = vmod v i g := by
  simp [vmod, h]

theorem State.withDma_ended {f : DmaChan → DmaChan} {status : Nat} (s : State) (k : Fin 8)
    (h : ∀ c, DmaChan.ended status (f c) = DmaChan.ended status c) : (s.withDma k f).pcie.ended k status = s.pcie.ended k status :=
  congrArg (fun v => { s.pcie.discard k with dma := v }) (vmod_absorb s.pcie.dma k _ h)

/-- What a job has moved when it is cut short is forgotten with the job. -/
theorem State.cutShort_ended (s : State) (k : Fin 8) (status : Nat) : (s.cutShort k).pcie.ended k status = s.pcie.ended k status := by
  unfold State.cutShort
  split
  · rfl
  · split
    · rfl
    · dsimp only
      rw [State.withDma_ended]
      · rfl
      · exact fun _ => rfl

/-- The endpoint after a halt of a channel, messages aside. -/
def Pcie.halted (x : Pcie) (k : Fin 8) (status : Nat) : Pcie := if x.dma[k].busy then x.ended k status else x

theorem MsixFree.haltJob (free : MsixFree p) (k : Fin 8) (status : Nat) : p (s.haltJob k status).pcie = p (s.pcie.halted k status) := by
  unfold State.haltJob Pcie.halted
  split
  · rw [free.endJob, State.cutShort_ended]
  · rfl

/-- A part of the endpoint that holds no message, and nothing of an entry at work. -/
structure EndFree (p : Pcie → β) : Prop where
  msix : MsixFree p
  ended : ∀ x k status, p (Pcie.ended x k status) = p x

theorem EndFree.endJob (free : EndFree p) (k : Fin 8) (status : Nat) : p (s.endJob k status).pcie = p s.pcie :=
  (free.msix.endJob k status).trans (free.ended ..)

theorem EndFree.haltJob (free : EndFree p) (k : Fin 8) (status : Nat) : p (s.haltJob k status).pcie = p s.pcie := by
  rw [free.msix.haltJob, Pcie.halted]
  split
  · exact free.ended ..
  · rfl

theorem EndFree.haltAll (free : EndFree p) (status : Nat) : p (s.haltAll status).pcie = p s.pcie :=
  State.foldl_keeps (p := fun t => p t.pcie) _ s (fun _ k => free.haltJob k status)

theorem msixFree_chan (j : Fin 8) : MsixFree (fun x => x.dma[j]) := fun _ _ => rfl

theorem Pcie.ended_same (x : Pcie) (k : Fin 8) (status : Nat) : (x.ended k status).dma[k] = x.dma[k].ended status := vmod_same ..

theorem Pcie.ended_other (x : Pcie) (h : j ≠ k) (status : Nat) : (x.ended k status).dma[j] = x.dma[j] := vmod_other _ _ _ _ h

/-- Whether a channel runs is the host's to say. -/
theorem endFree_run (j : Fin 8) : EndFree (fun x => x.dma[j].run) where
  msix _ _ := rfl
  ended x k status := by
    by_cases h : j = k
    · subst h
      exact (congrArg DmaChan.run (x.ended_same j status)).trans rfl
    · exact congrArg DmaChan.run (x.ended_other h status)

theorem State.haltJob_other (h : j ≠ k) (s : State) (status : Nat) : (s.haltJob k status).pcie.dma[j] = s.pcie.dma[j] := by
  refine ((msixFree_chan j).haltJob k status).trans ?_
  unfold Pcie.halted
  split
  · exact s.pcie.ended_other h status
  · rfl

theorem State.haltJob_of_busy (busy : s.pcie.dma[k].busy = true) (status : Nat) :
    (s.haltJob k status).pcie.dma[k] = s.pcie.dma[k].ended status := by
  refine ((msixFree_chan k).haltJob k status).trans ?_
  rw [Pcie.halted, if_pos busy]
  exact s.pcie.ended_same k status

/-- A channel has no job. -/
def Jobless (k : Fin 8) (s : State) : Prop := s.pcie.dma[k].job = none

theorem Jobless.of_chan {t : State} (e : t.pcie.dma[k] = s.pcie.dma[k]) (h : Jobless k s) : Jobless k t := (congrArg DmaChan.job e).trans h

theorem State.haltJob_jobless (s : State) (k : Fin 8) (status : Nat) : Jobless k (s.haltJob k status) := by
  by_cases busy : s.pcie.dma[k].busy = true
  · exact (congrArg DmaChan.job (State.haltJob_of_busy busy status)).trans rfl
  · rw [State.haltJob, if_neg busy]
    rw [DmaChan.busy, Bool.or_eq_true, not_or, Bool.not_eq_true, Option.isSome_eq_false_iff, Option.isNone_iff_eq_none] at busy
    exact busy.1

theorem State.haltAll_jobless (s : State) (k : Fin 8) (status : Nat) : Jobless k (s.haltAll status) := by
  have stays (t : State) (j : Fin 8) (h : Jobless k t) : Jobless k (t.haltJob j status) := by
    by_cases same : k = j
    · subst same
      exact t.haltJob_jobless k status
    · exact .of_chan (State.haltJob_other same t status) h
  exact foldl_reaches (P := fun _ => True) (Q := Jobless k) (f := fun t j => t.haltJob j status) (x := k) (fun _ _ _ => trivial)
    (fun t _ => t.haltJob_jobless k status) stays (List.finRange 8) (List.mem_finRange k) s trivial

/-! ### Channel control (R327, R332) -/

/-- A kick leaves a channel's registers as they are. -/
theorem State.withDma_kick (s : State) (k : Fin 8) (f : DmaChan → DmaChan) :
    ((s.withDma k f).kick k).pcie.dma[k].rest = (f s.pcie.dma[k]).rest :=
  ((jobFree_rest k).kick k).trans (congrArg DmaChan.rest (s.withDma_same k f))

theorem Marked.jobVector {r n k status irq} (h : Marked r n s) : Marked r n (s.jobVector k status irq) :=
  .ite (.ite h.raise h) h.raise

/-- A failed entry sets its channel's error bit. -/
theorem State.endJob_marked (s : State) (k : Fin 8) {status : Nat} (h : status ≠ 1) : Marked (.chan k) 7 (s.endJob k status) := by
  unfold State.endJob
  dsimp only
  rw [if_neg h]
  exact .jobVector (.of_setEvBit (by decide))

/-- Settles O31: a kick leaves a channel's registers (`jobFree_rest`), and a halt ends its entry (`Pcie.halted`). -/
theorem dmaControlCompletes : Obligations.DmaControlCompletes := by
  have next {off f} {s : State} (quiet : s.quiet = true) : Host.Outcome.next (s.onBar0 off f) = (.next (f s) : Result) :=
    congrArg Host.Outcome.next (State.onBar0_of_quiet quiet _ _)
  refine ⟨?_, ?_, ?_, ?_, ?_⟩
  · intro k s quiet stopped
    have begun : s.dmaRun k = (s.withDma k _).kick k := if_neg (by rw [stopped]; decide)
    have chan := s.withDma_kick k (fun x => { x with
      run := true, ringBase := s.pcie.dma[k].baseHi.toNat * 2 ^ 32 + s.pcie.dma[k].baseLo.toNat, ringLog2 := s.pcie.dma[k].size
      ringStaged := s.pcie.dma[k].staged, cons := s.pcie.dma[k].cons % 2 ^ s.pcie.dma[k].size })
    refine ⟨s.dmaRun k, next quiet, ?_⟩
    rw [begun]
    exact ⟨congrArg DmaChan.run chan, congrArg DmaChan.ringLog2 chan, congrArg DmaChan.ringStaged chan, congrArg DmaChan.ringBase chan⟩
  · intro k s quiet
    have done : exec (.dmaStop k) s = .next (s.dmaStop k) := next quiet
    refine ⟨_, done, ?_, ?_, stays_of_exec (u := .dsMem) done rfl, stays_of_exec (u := .basin) done rfl, fun j other => ?_⟩
    · exact congrArg DmaChan.run (State.withDma_same _ k _)
    · exact (congrArg DmaChan.job (State.withDma_same _ k _)).trans (s.haltJob_jobless k 7)
    · exact (State.withDma_other _ _ _ _ other).trans (State.haltJob_other other s 7)
  · intro k s quiet busy
    have done : exec (.dmaAbort k) s = .next (s.haltJob k 7) := next quiet
    have chan := State.haltJob_of_busy busy 7
    refine ⟨_, done, (congrArg DmaChan.job chan).trans rfl, ?_, (congrArg DmaChan.lastErr chan).trans rfl, ?_,
      (endFree_run k).haltJob k 7,
      stays_of_exec (u := .dsMem) done rfl⟩
    · exact (congrArg DmaChan.halted chan).trans (Bool.or_true _)
    · rw [State.haltJob, if_pos busy]
      exact State.endJob_marked _ k (by decide)
  · intro k s quiet bme
    have done : exec (.dmaResume k) s = .next (s.dmaResume k) := next quiet
    refine ⟨_, done, ?_⟩
    have free : s.dmaResume k = if s.pcie.dma[k].halted then (s.withDma k (fun x => { x with halted := false })).kick k else s :=
      if_neg (by simp [bme])
    by_cases halted : s.pcie.dma[k].halted = true
    · rw [free, if_pos halted]
      have chan := s.withDma_kick k (fun x => { x with halted := false })
      exact ⟨(congrArg DmaChan.halted chan).trans rfl, (congrArg DmaChan.run chan).trans rfl⟩
    · rw [free, if_neg halted]
      exact ⟨Bool.not_eq_true _ ▸ halted, rfl⟩
  · intro k i s quiet
    have chan := s.withDma_kick k (fun x => { x with prod := i.toNat })
    exact ⟨_, next quiet, (congrArg DmaChan.prod chan).trans rfl, (congrArg DmaChan.run chan).trans rfl⟩

end Sys2Proof.Machine
end



section
/-! PROOFS. The states and resets of the function (O33, O34). -/

namespace Sys2Proof.Machine

variable {β : Type} {p : Pcie → β} {s : State} {k : Fin 8}

/-! ### Bus mastering and D-states (R335, R338) -/

theorem endFree_cfg : EndFree Pcie.cfg := ⟨fun _ _ => rfl, fun _ _ _ => rfl⟩
theorem endFree_dstate : EndFree Pcie.dstate := ⟨fun _ _ => rfl, fun _ _ _ => rfl⟩
theorem jobFree_cfg : JobFree Pcie.cfg := ⟨fun _ _ => rfl, fun _ _ => rfl, fun _ _ _ _ => rfl⟩

/-- All jobs end, and an event tells that some ran. -/
theorem EndFree.haltAll_told (free : EndFree p) (any : Bool) (status : Nat) :
    p (if any = true then (s.haltAll status).setEvBit .hdma 26 else s.haltAll status).pcie = p s.pcie := by
  split
  · rw [free.msix.setEvBit, free.haltAll]
  · exact free.haltAll status

theorem State.haltAll_told_jobless (s : State) (any : Bool) (status : Nat) (k : Fin 8) :
    Jobless k (if any = true then (s.haltAll status).setEvBit .hdma 26 else s.haltAll status) := by
  split
  · exact .of_chan ((msixFree_chan k).setEvBit ..) (s.haltAll_jobless k status)
  · exact s.haltAll_jobless k status

theorem State.bmeOff_cfg (s : State) : s.bmeOff.pcie.cfg = { s.pcie.cfg with bme := false } := by
  unfold State.bmeOff
  split
  · exact endFree_cfg.haltAll_told _ 8
  next off =>
    rw [Bool.not_eq_true] at off
    rw [← off]

theorem State.bmeOff_jobless (on : s.pcie.cfg.bme = true) (k : Fin 8) : Jobless k s.bmeOff := by
  rw [State.bmeOff, if_pos on]
  exact State.haltAll_told_jobless _ _ 8 k

theorem State.bmeOn_cfg (s : State) : s.bmeOn.pcie.cfg = { s.pcie.cfg with bme := true } := by
  unfold State.bmeOn
  split
  next on => rw [← on]
  · exact jobFree_cfg.kickAll.trans jobFree_cfg.msix.pbaFree.flushAll

/-- D3hot holds every running channel (R335). -/
theorem State.enterD3_of_d0 (d0 : s.pcie.dstate = .d0) :
    s.enterD3.pcie.dstate = .d3hot ∧ s.enterD3.pcie.cfg = s.pcie.cfg ∧
      ∀ k : Fin 8, s.enterD3.pcie.dma[k].job = none ∧ (s.pcie.dma[k].run = true → s.enterD3.pcie.dma[k].halted = true) := by
  rw [State.enterD3, if_pos d0]
  dsimp only
  refine ⟨endFree_dstate.haltAll_told _ 8, endFree_cfg.haltAll_told _ 8, fun k => ?_⟩
  have jobless := State.haltAll_told_jobless { s with pcie := { s.pcie with dstate := .d3hot } } (decide (0 < s.pcie.busyCount)) 8 k
  have run := (endFree_run k).haltAll_told (s := { s with pcie := { s.pcie with dstate := .d3hot } }) (decide (0 < s.pcie.busyCount)) 8
  simp only [Fin.getElem_fin, Vector.getElem_map]
  refine ⟨jobless, fun on => Bool.or_eq_true_iff.mpr (.inr (run.trans on))⟩

theorem exec_msixUnmask_vector (answers : s.pcie.answers = true) (v : Fin 64) :
    exec (.msixUnmask (.vector v)) s = .next (s.maskVector v false) := congrArg Host.Outcome.next (if_pos answers)

/-- Settles O33, by what an interrupt, a kick and a halt leave of the endpoint. -/
theorem functionStatesComplete : Obligations.FunctionStatesComplete := by
  refine ⟨?_, ?_, ?_, ?_, ?_, ?_, ?_, ?_⟩
  · intro s allowed on
    have done : exec .busMasterDisable s = .next s.bmeOff := congrArg Host.Outcome.next (if_pos allowed)
    exact ⟨_, done, congrArg CfgSpace.bme s.bmeOff_cfg, s.bmeOff_jobless on, stays_of_exec (u := .dsMem) done rfl⟩
  · intro s allowed _
    have done : exec .busMasterEnable s = .next s.bmeOn := congrArg Host.Outcome.next (if_pos allowed)
    exact ⟨_, done, congrArg CfgSpace.bme s.bmeOn_cfg, stays_of_exec (u := .dsMem) done rfl, stays_of_exec (u := .basin) done rfl⟩
  · intro s allowed d0
    exact ⟨_, congrArg Host.Outcome.next (if_pos allowed), s.enterD3_of_d0 d0⟩
  · intro s allowed d3
    refine ⟨State.flushAll { s with pcie := { s.pcie with dstate := .d0 } },
      congrArg Host.Outcome.next ((if_pos allowed).trans (if_pos d3)), ?_, ?_, ?_⟩
    · exact PbaFree.flushAll (p := Pcie.dstate) fun _ _ => rfl
    · exact PbaFree.flushAll (p := Pcie.cfg) fun _ _ => rfl
    · exact PbaFree.flushAll (p := Pcie.dma) fun _ _ => rfl
  · intro v s answers
    refine ⟨_, exec_msixUnmask_vector answers v, ?_, ?_⟩
    · exact PbaFree.flushVector (p := fun x => x.msix.mask) (fun _ _ => rfl) v
    · exact PbaFree.flushVector (p := fun x => x.msix.enable) (fun _ _ => rfl) v
  · intro s allowed
    refine ⟨(s.withMsix (fun m => { m with funcMask := false })).flushAll, congrArg Host.Outcome.next (if_pos allowed), ?_, ?_⟩
    · exact PbaFree.flushAll (p := fun x => x.msix.funcMask) fun _ _ => rfl
    · exact PbaFree.flushAll (p := fun x => x.msix.mask) fun _ _ => rfl
  · intro s allowed
    refine ⟨(s.withMsix (fun m => { m with enable := true })).flushAll, congrArg Host.Outcome.next (if_pos allowed), ?_, ?_⟩
    · exact PbaFree.flushAll (p := fun x => x.msix.enable) fun _ _ => rfl
    · exact PbaFree.flushAll (p := fun x => x.msix.mask) fun _ _ => rfl
  · intro s allowed
    exact ⟨s.clearPme, congrArg Host.Outcome.next (if_pos allowed), rfl, rfl, rfl⟩

/-! ### Resets of the function (R337, R339, R340) -/

theorem endFree_resetWait : EndFree Pcie.resetWait := ⟨fun _ _ => rfl, fun _ _ _ => rfl⟩

theorem State.hkcRam_now (s : State) (off : Nat) (bs : List Byte) : (s.hkcRam off bs).now = s.now := by
  have touched : (s.touchRam off bs.length).now = s.now := by
    unfold State.touchRam
    dsimp only
    split
    · exact State.bump_now ..
    · rfl
  exact touched

theorem State.endJob_now (s : State) (k : Fin 8) (status : Nat) : (s.endJob k status).now = s.now := by
  have written (done : Nat) : (s.writeStatus k status done).now = s.now := by
    unfold State.writeStatus
    dsimp only
    split <;> exact State.hkcRam_now ..
  simp [State.endJob, State.jobVector, State.countJob, apply_ite State.now, written]

theorem State.cutShort_now (s : State) (k : Fin 8) : (s.cutShort k).now = s.now := by
  unfold State.cutShort
  split
  · rfl
  · split <;> rfl

theorem State.haltAll_now (s : State) (status : Nat) : (s.haltAll status).now = s.now := by
  refine State.foldl_keeps (p := State.now) _ s fun t k => ?_
  unfold State.haltJob
  split
  · rw [State.endJob_now, State.cutShort_now]
  · rfl

theorem State.beginReset_pcie (s : State) (flr : Bool) :
    (s.beginReset flr).pcie = { (s.haltAll 9).pcie with resetWait := some (flr, s.now + ms 10) } := by
  unfold State.beginReset
  dsimp only
  rw [State.bump_pcie, State.haltAll_now]

theorem Guard.settle_unlocked (g : Guard) : g.settle.unlocked = g.unlocked := by
  unfold Guard.settle
  split <;> rfl

theorem State.mbReset_pcie (s : State) : s.mbReset.pcie = s.pcie := State.hkcRam_pcie ..

theorem State.mbReset_guard (s : State) : s.mbReset.guard = s.guard := by
  have : Off .guard .ram := ⟨nofun⟩
  exact Stays.mbReset (u := .guard) .refl

/-- The endpoint's state after a reset of the function (R337). -/
theorem State.resetFunction_pcie (s : State) : s.resetFunction.pcie = { s.pcie with
    cfg := s.pcie.cfg.cleared, msix := .reset, dstate := .d0, dma := Vector.replicate 8 .reset, hwinBase := 0, resetWait := none
    status := 0 } := State.mbReset_pcie _

theorem State.resetFunction_unlocked (s : State) : s.resetFunction.guard.unlocked = none :=
  (congrArg Guard.unlocked (State.mbReset_guard _)).trans (Guard.settle_unlocked _)

theorem endFree_linkUp : EndFree Pcie.linkUp := ⟨fun _ _ => rfl, fun _ _ _ => rfl⟩

/-- Tags are retired, and the function is reset (R339, R340). -/
def Pcie.afterReset (x : Pcie) (until_ : Nat) : Pcie :=
  { x with
    tags := [], retired := x.tags.foldl (fun m e => mput e.tag until_ m) x.retired
    cfg := x.cfg.cleared, msix := .reset, dstate := .d0, dma := Vector.replicate 8 .reset, hwinBase := 0, resetWait := none, status := 0 }

theorem State.retireTags_resetFunction (s : State) : s.retireTags.resetFunction.pcie = s.pcie.afterReset (s.now + sec 1) :=
  State.resetFunction_pcie _

/-- The link is down, and every job has ended (R340). -/
def State.linkDown (s : State) : State := State.haltAll { s with pcie := { s.pcie with linkUp := false, rate := 0, width := 0 } } 10

/-- The endpoint's state after the loss of the link, messages aside (R340). -/
theorem MsixFree.linkLost (free : MsixFree p) (ltssm : Byte) : p (s.linkLost ltssm).pcie =
    p (s.linkDown.pcie.afterReset (s.linkDown.now + sec 1)) := by
  unfold State.linkLost State.linkDown
  dsimp only
  rw [free.bb, State.bump_pcie, State.retireTags_resetFunction]

theorem State.linkLost_parts (s : State) (ltssm : Byte) : (s.linkLost ltssm).pcie.linkUp = false ∧ (s.linkLost ltssm).pcie.tags = [] ∧
    (s.linkLost ltssm).pcie.cfg = s.pcie.cfg.cleared := by
  have down : s.linkDown.pcie.linkUp = false := by rw [State.linkDown, endFree_linkUp.haltAll]
  have cfg : s.linkDown.pcie.cfg = s.pcie.cfg := by rw [State.linkDown, endFree_cfg.haltAll]
  rw [MsixFree.linkLost (p := Pcie.linkUp) fun _ _ => rfl, MsixFree.linkLost (p := Pcie.tags) fun _ _ => rfl,
    MsixFree.linkLost (p := Pcie.cfg) fun _ _ => rfl]
  generalize s.linkDown.pcie = x at down cfg
  exact ⟨down, rfl, congrArg CfgSpace.cleared cfg⟩

/-! ### Configuration writes (R322) -/

/-- A whole write of Command. -/
theorem State.writeCommand_cfg (s : State) (v : Dword) :
    (s.writeCommand v 0xF).pcie.cfg = { s.pcie.cfg with
      memEnable := v.getLsbD 1, parity := v.getLsbD 6, bme := v.getLsbD 2, serr := v.getLsbD 8, intxDisable := v.getLsbD 10 } := by
  have low : (lane 0xF 0) = true := rfl
  have mid : (lane 0xF 1) = true := rfl
  have high : (lane 0xF 3) = true := rfl
  have mastered (t : State) : (if v.getLsbD 2 = true then t.bmeOn else t.bmeOff).pcie.cfg = { t.pcie.cfg with bme := v.getLsbD 2 } := by
    split
    next on => rw [t.bmeOn_cfg, on]
    next off =>
      rw [Bool.not_eq_true] at off
      rw [t.bmeOff_cfg, off]
  unfold State.writeCommand
  dsimp only
  rw [if_pos low, if_pos mid, if_pos high]
  unfold State.withCfg
  dsimp only
  rw [mastered]

theorem State.beginReset_jobless (s : State) (flr : Bool) (k : Fin 8) : (s.beginReset flr).pcie.dma[k].job = none := by
  have jobless : (s.haltAll 9).pcie.dma[k].job = none := s.haltAll_jobless k 9
  rw [State.beginReset_pcie]
  dsimp only
  exact jobless

theorem State.beginReset_resetWait (s : State) (flr : Bool) : (s.beginReset flr).pcie.resetWait = some (flr, s.now + ms 10) :=
  congrArg Pcie.resetWait (s.beginReset_pcie flr)

theorem exec_functionLevelReset (allowed : s.pcie.cfgOpen = true) : exec .functionLevelReset s = .next (s.beginReset true) := by
  show execFunctionLevelReset s = _
  rw [execFunctionLevelReset, State.startFlr, if_pos allowed]

theorem exec_hotReset (allowed : s.pcie.cfgOpen = true) : exec .hotReset s =
    .next { s.beginReset false with pcie := { (s.beginReset false).pcie with linkUp := false, rate := 0, width := 0 } } := by
  show execHotReset s = _
  rw [execHotReset, if_pos allowed]

theorem exec_flrWaitEnd (due : s.resetDue = true) : exec .flrWaitEnd s = .next s.retireTags.resetFunction := by
  show execFlrWaitEnd s = _
  rw [execFlrWaitEnd, if_pos due]

/-- Settles O34: the frames are those of the commands, and the rest is the endpoint's state after a halt, a reset and a write of Command. -/
theorem functionResetsComplete : Obligations.FunctionResetsComplete := by
  refine ⟨?_, ?_, ?_, ?_, ?_, ?_, ?_⟩
  · intro s allowed
    have done := exec_functionLevelReset allowed
    exact ⟨_, done, s.beginReset_resetWait true, s.beginReset_jobless true, stays_of_exec (u := .dies) done rfl,
      stays_of_exec (u := .dsMem) done rfl⟩
  · intro s allowed
    have done := exec_hotReset allowed
    exact ⟨_, done, s.beginReset_resetWait false, rfl, stays_of_exec (u := .dies) done rfl⟩
  · intro s due
    have done := exec_flrWaitEnd due
    refine ⟨_, done, ?_, ?_, ?_, ?_, State.resetFunction_unlocked _, stays_of_exec (u := .dies) done rfl, stays_of_exec (u := .tb) done rfl,
      stays_of_exec (u := .dsMem) done rfl⟩ <;> rw [State.resetFunction_pcie]
    · rfl
    · rfl
  · intro ltssm s up
    have done : exec (.pcieLinkLoss ltssm) s = .next (s.linkLost ltssm) := congrArg Host.Outcome.next (if_pos up)
    obtain ⟨down, tags, cfg⟩ := s.linkLost_parts ltssm
    exact ⟨_, done, down, tags, cfg, stays_of_exec (u := .dies) done rfl, stays_of_exec (u := .dsMem) done rfl⟩
  · intro rate width s free down some_ known
    refine ⟨_, congrArg Host.Outcome.next (if_pos ⟨free, by simp [down], some_, ?_⟩), rfl, rfl, rfl, rfl⟩
    simpa using known
  · intro off value be s wf allowed
    obtain ⟨t, done⟩ := exec_of_wf (s := s) wf
    exact ⟨t, done, stays_of_exec (u := .dies) done rfl, stays_of_exec (u := .dsMem) done rfl, stays_of_exec (u := .basin) done rfl,
      stays_of_exec (u := .tb) done rfl⟩
  · intro value s allowed
    have done : exec (.configurationWrite 4 value 0xF) s = .next (s.writeCommand value 0xF) := congrArg Host.Outcome.next (if_pos allowed)
    exact ⟨_, done, congrArg CfgSpace.memEnable (s.writeCommand_cfg value), congrArg CfgSpace.bme (s.writeCommand_cfg value),
      congrArg CfgSpace.serr (s.writeCommand_cfg value), (congrArg CfgSpace.bar0 (s.writeCommand_cfg value)).trans rfl⟩

end Sys2Proof.Machine
end



section
/-! PROOFS. Jobs, completions and retired tags (O32). -/

namespace Sys2Proof.Machine

variable {s : State} {k : Fin 8}

/-! ### The end of a job (R330) -/

/-- A finished job has ended its channel's entry, and the kick that follows leaves the registers. -/
theorem State.endJob_kick (s : State) (k : Fin 8) (status : Nat) :
    ((s.endJob k status).kick k).pcie.dma[k].rest = (s.pcie.dma[k].ended status).rest :=
  ((jobFree_rest k).kick k).trans (congrArg DmaChan.rest (((msixFree_chan k).endJob k status).trans (s.pcie.ended_same k status)))

theorem exec_dmaJobComplete {j : DmaJob} (job : s.pcie.dma[k].job = some j) :
    exec (.dmaJobComplete k) s = .next ((s.finishJob k j).kick k) := by
  show execDmaJobComplete k s = _
  rw [execDmaJobComplete, job]

/-- Data on its way to the host leaves a channel's registers to the end of the job. -/
theorem State.finishToHost_rest (s : State) (k : Fin 8) (j : DmaJob) :
    ((s.finishToHost k j).kick k).pcie.dma[k].rest = (s.pcie.dma[k].ended (if (s.jobData j.desc).2 then 2 else 1)).rest := by
  have served (c : Bool) (t : State) : (if c = true then t.dsServed 4 else t).pcie = t.pcie := by
    split
    · exact State.dsServed_pcie ..
    · rfl
  unfold State.finishToHost
  dsimp only
  rw [State.endJob_kick, State.withDma_same, served]
  rfl

/-- A job to the host writes its data first (R321, R329). -/
theorem State.finishToHost_out (s : State) (k : Fin 8) (j : DmaJob) :
    s.out ++ hostWrites s.pcie.payload s.pcie.cfg.relaxed (s.jobData j.desc).1.length j.desc.haddr (s.jobData j.desc).1 <+:
      ((s.finishToHost k j).kick k).out := by
  have kept : Keeps (s.dataToHost j.desc.haddr (s.jobData j.desc).1) ((s.finishToHost k j).kick k) :=
    .kick (.endJob (.withDma (.when (.refl _) .dsServed)))
  obtain ⟨-, -, -, out⟩ := kept
  exact out

theorem State.finishJob_toHost {j : DmaJob} (unchecked : j.verdict = none) (toHost : j.desc.op ≠ 1)
    (ready : s.usesDeep j.desc = true → s.deep.ready = true) (may : s.pcie.mayIssue = true) : s.finishJob k j = s.finishToHost k j := by
  unfold State.finishJob
  rw [unchecked]
  dsimp only
  rw [if_neg, if_neg toHost, if_pos may]
  rw [Bool.and_eq_true, Bool.not_eq_true', not_and, Bool.not_eq_false]
  exact ready

/-! ### Completions (R326, R339) -/

theorem fitBytes_length (n : Nat) (bs : List Byte) : (fitBytes n bs).length = n := by
  simp only [fitBytes, zeros, List.length_append, List.length_take, List.length_replicate]
  omega

theorem State.intoDeep_of_range {a n : Nat} (whole : s.deep.rangeOk a n = true) (bs : List Byte) :
    (s.intoDeep a (fitBytes n bs)).dsMem = memWriteBlock s.dsMem a (fitBytes n bs) := by
  rw [State.intoDeep, fitBytes_length, if_pos whole]

/-- Data of a read goes to its place, and nothing after it stores to the deep store. -/
theorem State.completed_data {e : TagEntry} {a : Nat} (use : e.use = .data a) (whole : s.deep.rangeOk a e.len = true) (bs : List Byte) :
    (s.completed e .ok bs).kickAll.dsMem = memWriteBlock s.dsMem a (fitBytes e.len bs) := by
  have here : s.completed e .ok bs = State.dataHere { s with pcie := s.pcie.release e.tag } e a bs := by
    unfold State.completed
    rw [use]
  have kept : Stays .dsMem (State.intoDeep { s with pcie := s.pcie.release e.tag } a (fitBytes e.len bs))
      (s.completed e .ok bs).kickAll := by
    rw [here]
    exact .kickAll (.pump (.withDma .refl))
  exact Eq.trans kept (State.intoDeep_of_range (s := { s with pcie := s.pcie.release e.tag }) whole bs)

/-- A tag's number leaves the outstanding ones with its read. -/
theorem Pcie.release_tags (x : Pcie) (tag : Nat) : ∀ n ∈ (x.release tag).tags.map TagEntry.tag, n ≠ tag := by
  simp only [Pcie.release, List.mem_map, List.mem_filter, bne_iff_ne]
  rintro n ⟨e, ⟨-, other⟩, rfl⟩
  exact other

theorem endFree_tagNumbers : EndFree (fun x => x.tags.map TagEntry.tag) where
  msix _ _ := rfl
  ended x k status := by
    simp only [Pcie.ended, Pcie.discard, List.map_map]
    refine List.map_congr_left fun e _ => ?_
    simp only [Function.comp]
    split <;> rfl

theorem State.logRead_tags (s : State) (tag cause : Nat) : (s.logRead tag cause).pcie.tags = s.pcie.tags := rfl

/-- A read has timed out: counted and logged, and its job fails (R326). -/
def State.timedOut (s : State) (e : TagEntry) : State :=
  let t := (State.bump { s with pcie := s.pcie.release e.tag } 0x6020 3).logRead e.tag 4
  match e.use with
  | .discard => t
  | .descriptor => t.readFailed e
  | .data _ => t.readFailed e

theorem exec_completionTimeout {tag : BitVec 10} {e : TagEntry} (found : s.pcie.tags.find? (fun e => e.tag == tag.toNat) = some e)
    (on : s.pcie.cfg.cplTimeoutDisable = false) (running : s.pcie.resetWait = none) :
    exec (.completionTimeout tag) s = .next (s.timedOut e) := by
  show execCompletionTimeout tag s = _
  rw [execCompletionTimeout, found]
  exact congrArg Host.Outcome.next (if_neg (by simp [on, running]))

/-- The failure of a job keeps its tags taken, but for the one that has timed out. -/
theorem State.timedOut_tags (s : State) (e : TagEntry) :
    (s.timedOut e).pcie.tags.map TagEntry.tag = (s.pcie.release e.tag).tags.map TagEntry.tag := by
  have logged : ((State.bump { s with pcie := s.pcie.release e.tag } 0x6020 3).logRead e.tag 4).pcie.tags =
      (s.pcie.release e.tag).tags := by
    rw [State.logRead_tags, State.bump_pcie]
  have failed (t : State) : (t.readFailed e).pcie.tags.map TagEntry.tag = t.pcie.tags.map TagEntry.tag := by
    unfold State.readFailed
    split
    · exact endFree_tagNumbers.endJob ..
    · rfl
  unfold State.timedOut
  dsimp only
  split
  · rw [logged]
  · rw [failed, logged]
  · rw [failed, logged]

/-- Settles O32: the registers after an ended job (`State.endJob_kick`), and what a completion does with its tag and its data. -/
theorem dmaJobsComplete : Obligations.DmaJobsComplete := by
  refine ⟨?_, ?_, ?_, ?_, ?_, ?_⟩
  · intro k j v s job verdict
    have done := exec_dmaJobComplete job
    have ends : s.finishJob k j = s.endJob k v := by rw [State.finishJob, verdict]
    have rest := s.endJob_kick k v
    rw [ends] at done
    exact ⟨_, done, (congrArg DmaChan.cons rest).trans rfl, (congrArg DmaChan.lastErr rest).trans rfl,
      stays_of_exec (u := .dsMem) done rfl, stays_of_exec (u := .basin) done rfl⟩
  · intro k j s job unchecked toHost ready may _
    have done := exec_dmaJobComplete job
    rw [State.finishJob_toHost unchecked toHost ready may] at done
    obtain ⟨rest, out⟩ := s.finishToHost_out k j
    exact ⟨_, done, (congrArg DmaChan.cons (s.finishToHost_rest k j)).trans rfl, stays_of_exec (u := .dsMem) done rfl,
      stays_of_exec (u := .basin) done rfl, rest, out.symm⟩
  · intro tag data e a s current found use whole
    have done : exec (.pcieCompletionReceive tag .ok data) s = .next (s.completed e .ok data).kickAll := by
      show execPcieCompletionReceive tag .ok data s = _
      rw [execPcieCompletionReceive, if_neg (by simp [current]), found]
    exact ⟨_, done, State.completed_data use whole data, stays_of_exec (u := .basin) done rfl⟩
  · intro tag st data s retired
    have marked : Marked .hdma 27 ((s.setEvBit .hdma 27).bump 0x6020 2) := .of_events (State.bump_events ..) (.of_setEvBit (by decide))
    refine ⟨_, congrArg Host.Outcome.next (if_pos retired), marked, ?_, ?_, ?_⟩
    · exact Stays.bump (u := .dsMem) (.setEvBit .refl)
    · exact Stays.bump (u := .basin) (.setEvBit .refl)
    · exact Stays.bump (u := .ram) (.setEvBit .refl)
  · intro tag e s found on running
    have done := exec_completionTimeout found on running
    have tagged : e.tag = tag.toNat := by simpa using List.find?_some found
    refine ⟨_, done, fun x mem => ?_, stays_of_exec (u := .dsMem) done rfl⟩
    refine tagged ▸ s.pcie.release_tags e.tag x.tag ?_
    rw [← s.timedOut_tags e]
    exact List.mem_map_of_mem mem
  · intro tag at_ s retired due
    have done : exec (.retiredTagExpiry tag) s =
        .next (State.kickAll { s with pcie := { s.pcie with retired := mdel tag.toNat s.pcie.retired } }) := by
      show execRetiredTagExpiry tag s = _
      rw [execRetiredTagExpiry, retired]
      exact congrArg Host.Outcome.next (if_pos due)
    exact ⟨_, done, JobFree.kickAll (p := Pcie.retired) ⟨fun _ _ => rfl, fun _ _ => rfl, fun _ _ _ _ => rfl⟩,
      stays_of_exec (u := .dsMem) done rfl⟩

end Sys2Proof.Machine
end



section
/-! PROOFS. Losses of power and resets (O39). -/

namespace Sys2Proof.Machine

variable {a s t : State}

/-! ### What the ending of a capture leaves aside -/

/-- The time, MRAM, the gauges and the black-box ring are those of `a`. -/
def Aside (a s : State) : Prop := s.now = a.now ∧ s.mram = a.mram ∧ s.gauges = a.gauges ∧ s.health.ring = a.health.ring

theorem Aside.refl : Aside s s := ⟨rfl, rfl, rfl, rfl⟩

theorem Aside.of_parts (e : t.now = s.now ∧ t.mram = s.mram ∧ t.gauges = s.gauges ∧ t.health = s.health) (h : Aside a s) : Aside a t := by
  obtain ⟨now, mram, gauges, health⟩ := e
  obtain ⟨hn, hm, hg, hr⟩ := h
  exact ⟨now.trans hn, mram.trans hm, gauges.trans hg, (congrArg Health.ring health).trans hr⟩

/-- A change of none of these. -/
theorem Aside.update {f pe o va ob ev gu ho pc di po jt tb ne kn ge de ch cl pi ds dm ba ra} (h : Aside a s) :
    Aside a ⟨s.now, f, pe, o, va, ob, ev, gu, ho, pc, di, po, s.health, s.mram, jt, tb, ne, kn, s.gauges, ge, de, ch, cl, pi, ds, dm, ba,
      ra⟩ := h

theorem Aside.ite {c : Prop} [Decidable c] (hs : Aside a s) (ht : Aside a t) : Aside a (if c then s else t) := by
  split
  · exact hs
  · exact ht

theorem Aside.foldl {α : Type} {f : State → α → State} {l : List α} (hf : ∀ {t x}, Aside a t → Aside a (f t x)) (h : Aside a s) :
    Aside a (l.foldl f s) := List.foldlRecOn (motive := Aside a) l f h (fun _ ht _ _ => hf ht)

theorem Aside.emit {o} (h : Aside a s) : Aside a (s.emit o) := h
theorem Aside.withDie {d f} (h : Aside a s) : Aside a (s.withDie d f) := h
theorem Aside.withGen {d f} (h : Aside a s) : Aside a (s.withGen d f) := h
theorem Aside.put {i j v} (h : Aside a s) : Aside a (s.put i j v) := .of_parts (by simp) h
theorem Aside.putNat {i j n} (h : Aside a s) : Aside a (s.putNat i j n) := .of_parts (by simp) h
theorem Aside.bumpBy {i j n} (h : Aside a s) : Aside a (s.bumpBy i j n) := .of_parts (by simp) h
theorem Aside.bump {i j} (h : Aside a s) : Aside a (s.bump i j) := .of_parts (by simp) h
theorem Aside.raiseTo {i j n} (h : Aside a s) : Aside a (s.raiseTo i j n) := .of_parts (by simp) h
theorem Aside.raise {v} (h : Aside a s) : Aside a (s.raise v) := .of_parts (by simp) h
theorem Aside.setEvBit {r i} (h : Aside a s) : Aside a (s.setEvBit r i) := .of_parts (by simp) h
theorem Aside.bbDrop (h : Aside a s) : Aside a s.bbDrop := .setEvBit (.bump h)

theorem Aside.bb {code sev data} (h : Aside a s) : Aside a (s.bb code sev data) := by
  unfold State.bb
  dsimp only
  split
  · exact h
  · split
    · exact h.bbDrop
    · split
      · exact .bbDrop h
      · exact h.bbDrop

theorem Aside.ignoreOp {loc via c} (h : Aside a s) : Aside a (s.ignoreOp loc via c) := by
  unfold State.ignoreOp
  dsimp only
  split
  · exact .bb (.setEvBit (.bump h))
  · exact .setEvBit (.bump h)

/-! ### Running a die -/

theorem Aside.pulseOver {p at_} (h : Aside a s) : Aside a (s.pulseOver p at_) := by
  unfold State.pulseOver
  split
  · exact .ite h h
  · exact h

theorem Aside.startPulse {p x} (h : Aside a s) : Aside a (State.startPulse p s x) := by
  unfold State.startPulse
  dsimp only
  split
  · exact h.pulseOver
  · exact h.pulseOver

theorem Aside.settlePin {p} (h : Aside a s) : Aside a (s.settlePin p) := .foldl .startPulse h
theorem Aside.pulse {p d at_} (h : Aside a s) : Aside a (s.pulse p d at_) := .ite h h

theorem Aside.genJump {d src ref} (h : Aside a s) : Aside a (s.genJump d src ref) := by
  unfold State.genJump
  refine .ite ?_ ?_
  · split
    · exact h.ignoreOp
    · exact h
    · exact h
  · split
    · exact .ite h.bump (.ite h (.setEvBit (.bump (.withGen h))))
    · exact .ite h.bump (.setEvBit (.bump (.withGen h)))
    all_goals exact h.bump

theorem Aside.applyFx {d x} (h : Aside a s) : Aside a (State.applyFx d s x) := by
  unfold State.applyFx
  split
  · exact h.bumpBy
  · exact h.raiseTo
  · exact .ite (.genJump (.ite h h)) (.ite h h)
  · exact .ite (.pulse (.ite h.pulse h)) (.ite h.pulse h)
  · exact .ite h.genJump h
  · exact h
  · exact h.raise
  · exact .ite h h
  · exact h.bb

theorem Aside.runDie {d f} (h : Aside a s) : Aside a (s.runDie d f) := by
  have settled : Aside a (((f (s.toRun d)).fx.foldl (State.applyFx d)
      { s with dies := s.dies.set d (f (s.toRun d)).die, basin := s.basin.set d (f (s.toRun d)).basin }).settlePins) :=
    .settlePin (.settlePin (.foldl .applyFx h))
  unfold State.runDie State.noteTrigTime
  dsimp only
  split
  · exact .ite settled settled.put
  · exact settled

theorem Aside.endDie {d cause} (h : Aside a s) : Aside a (s.endDie d cause) := .ite h.runDie h

/-! ### Sealing (R140) -/

theorem Aside.moveBarge {d m slot ring} (h : Aside a s) : Aside a (s.moveBarge d m slot ring) := .withDie (.bumpBy h)

theorem Aside.sluiceOne {d} (h : Aside a s) (e : s.sluiceOne d = some t) : Aside a t := by
  unfold State.sluiceOne at e
  extract_lets _ _ _ _ _ _ old _ s' at e
  split at e
  · cases e
  split at e
  · cases e
  split at e
  · cases e
  split at e
  · exact Option.some.inj e ▸ .endDie h
  · refine Option.some.inj e ▸ .moveBarge ?_
    unfold s'
    cases old <;> exact h

theorem Aside.sluiceAll {ds n} (h : Aside a s) : Aside a (s.sluiceAll ds n) := by
  induction n generalizing s with
  | zero => exact h
  | succ n ih =>
    unfold State.sluiceAll
    split
    next t e =>
      obtain ⟨d, -, e⟩ := Option.bind_eq_some_iff.mp e
      exact ih (h.sluiceOne e)
    next => exact h

theorem Aside.reserveMove {d m} (h : Aside a s) : Aside a (s.reserveMove d m) := by
  unfold State.reserveMove
  dsimp only
  split
  · exact h
  · exact .ite h.moveBarge h

theorem Aside.putDir {lead b} (h : Aside a s) : Aside a (s.putDir lead b) := by
  unfold State.putDir
  refine .ite ?_ h
  split <;> exact h

theorem Aside.restSpll {d} (h : Aside a s) : Aside a (s.restSpll d) := .ite h h

theorem Aside.sealDie {addr short d} (h : Aside a s) : Aside a (State.sealDie addr short s d) :=
  .restSpll (.withDie (.putNat (.putNat h)))

theorem Aside.sealConvoy {ds lead} (h : Aside a s) : Aside a (s.sealConvoy ds lead) := by
  have all_ {addr short} : Aside a (ds.foldl (State.sealDie addr short) ((s.dirBarges ds lead).foldl (State.putDir lead) s)) :=
    .foldl .sealDie (.foldl .putDir h)
  exact .raise (.ite all_.bb all_)

theorem Aside.closeDie {d} (h : Aside a s) : Aside a (s.closeDie d) := .foldl .putNat h.runDie
theorem Aside.reserveEvents {d} (h : Aside a s) : Aside a (s.reserveEvents d) := .ite (.foldl .reserveMove h) h
theorem Aside.leaveBacklog {d} (h : Aside a s) : Aside a (s.leaveBacklog d) := .ite h h
theorem Aside.markFault {d} (h : Aside a s) : Aside a (s.markFault d) := .ite h h
theorem Aside.sluiceBegin {d} (h : Aside a s) : Aside a (s.sluiceBegin d) := h

theorem Aside.abortConvoy {d} (h : Aside a s) : Aside a (s.abortConvoy d) :=
  .ite (.sealConvoy (.foldl .markFault (.foldl .leaveBacklog (.foldl .reserveEvents (.sluiceAll (.foldl .sluiceBegin
    (.foldl .closeDie h.endDie))))))) h

/-! ### The ending of all work (R387, R397) -/

theorem Aside.abortTest (h : Aside a s) : Aside a s.abortTest := by
  unfold State.abortTest
  split
  · exact h
  · refine .put ?_
    split
    · exact .ite (.ite h h) h
    · exact h

theorem Aside.genAbort {d} (h : Aside a s) : Aside a (s.genAbort d) := by
  have played : Aside a (s.genPlay d) := .ite h h
  exact .withGen (.ite played played)

theorem Aside.hkcRam {off bs} (h : Aside a s) : Aside a (s.hkcRam off bs) := by
  have touched : Aside a (s.touchRam off bs.length) := .ite (.bump h) h
  exact touched

theorem Aside.dropLinks (h : Aside a s) : Aside a s.dropLinks := .hkcRam (s := { s with pcie := _, events := _, guard := _ }) h

/-- Work ends: no gauge runs, and the time, MRAM and the ring stay. -/
theorem State.endWork_spec (s : State) : s.endWork.now = s.now ∧ s.endWork.mram = s.mram ∧ s.endWork.health.ring = s.health.ring ∧
    ∀ g : Fin 64, s.endWork.gauges[g].state ≠ .running := by
  obtain ⟨now, mram, -, ring⟩ : Aside s ((s.abortTest.genAbort 0).genAbort 1) := .genAbort (.genAbort (.abortTest .refl))
  refine ⟨now, mram, ring, fun g => ?_⟩
  simp only [State.endWork, State.abortGauges, Fin.getElem_fin, Vector.getElem_map]
  split
  · exact nofun
  all_goals
    next h =>
      dsimp only
      rw [h]
      exact nofun

/-! ### A power fail, and a power-on reset (R386, R387) -/

theorem State.saveTime_spec (s : State) : s.saveTime.mram.keys = s.mram.keys ∧ s.saveTime.mram.convoyId = s.mram.convoyId ∧
    s.saveTime.health.ring = s.health.ring := by
  unfold State.saveTime
  split <;> exact ⟨rfl, rfl, rfl⟩

theorem State.goOff_ring (s : State) (pfw : Bool) : (s.goOff pfw).health.ring = s.health.ring := by
  obtain ⟨-, -, saved⟩ := s.saveTime_spec
  obtain ⟨-, -, ended, -⟩ := s.saveTime.endWork_spec
  obtain ⟨-, -, -, dropped⟩ := Aside.dropLinks (.refl (s := s.saveTime.endWork))
  exact dropped.trans (ended.trans saved)

theorem State.powerFail_ring (s : State) (rails : BitVec 16) : (s.powerFail rails).health.ring = s.health.ring := by
  unfold State.powerFail
  rw [State.goOff_ring]
  obtain ⟨-, -, -, kept⟩ : Aside s (((s.bump 0x7010 3).setEvBit .pwr 3).bb 0x0010 3
      (leBytes 4 (((s.bump 0x7010 3).setEvBit .pwr 3).openId 0) ++ leBytes 4 (((s.bump 0x7010 3).setEvBit .pwr 3).openId 1) ++
        leBytes 2 rails.toNat)) := .bb (.setEvBit (.bump .refl))
  exact kept

/-! ### Fundamental reset (R397) -/

/-- All work has ended, and no link is up (R397 step 1). -/
def State.haltedWork (s : State) : State := (State.dropLinks { s with health := { s.health with freeze := none } }).endWork

theorem State.haltedWork_spec (s : State) : s.haltedWork.now = s.now ∧ s.haltedWork.mram = s.mram ∧
    ∀ g : Fin 64, s.haltedWork.gauges[g].state ≠ .running := by
  obtain ⟨now1, mram1, -, -⟩ := Aside.dropLinks (.refl (s := { s with health := { s.health with freeze := none } }))
  obtain ⟨now2, mram2, -, rest⟩ := (State.dropLinks { s with health := { s.health with freeze := none } }).endWork_spec
  exact ⟨now2.trans now1, mram2.trans mram1, rest⟩

/-- The state that a fundamental reset wipes: its convoys are aborted, and it is noted (R397 steps 2 to 4). -/
def State.beforeWipe (s : State) (kind : Nat) : State :=
  let t := ((s.haltedWork.abortConvoy 0).abortConvoy 1).noteReset kind
  t.bb 0x0011 2 (leBytes 1 kind ++ leBytes 8 (t.sealedDir 0) ++ leBytes 8 (t.sealedDir 1))

theorem Aside.noteReset {code} (h : Aside a s) : Aside a (s.noteReset code) := .bump (.put (.putNat h))

theorem Aside.beforeWipe (s : State) (kind : Nat) : Aside s.haltedWork (s.beforeWipe kind) := by
  unfold State.beforeWipe
  exact .bb (.noteReset (.abortConvoy (.abortConvoy .refl)))

theorem State.noteReset_lastReset (s : State) (code : Nat) : (s.noteReset code).power.lastReset = code := by
  unfold State.noteReset
  simp only [State.bump_power, State.put_power, State.putNat_power]

theorem State.beforeWipe_lastReset (s : State) (kind : Nat) : (s.beforeWipe kind).power.lastReset = kind := by
  unfold State.beforeWipe
  dsimp only
  rw [State.bb_power, State.noteReset_lastReset]

theorem State.beforeWipe_spec (s : State) (kind : Nat) : (s.beforeWipe kind).now = s.now ∧ (s.beforeWipe kind).mram = s.mram ∧
    ∀ g : Fin 64, (s.beforeWipe kind).gauges[g].state ≠ .running := by
  obtain ⟨now1, mram1, rest⟩ := s.haltedWork_spec
  obtain ⟨now2, mram2, gauges, -⟩ := Aside.beforeWipe s kind
  refine ⟨now2.trans now1, mram2.trans mram1, ?_⟩
  rw [gauges]
  exact rest

/-- What stands after the wipe. -/
theorem State.wiped_spec (s : State) (keep : Bool) : (s.wiped keep).now = s.now ∧ (s.wiped keep).mram = s.mram ∧
    (s.wiped keep).gauges = s.gauges ∧ (s.wiped keep).power = s.power ∧ (s.wiped keep).pins = Pins.reset ∧
    ∀ d : Die, (s.wiped keep).gens[d].state = .stopped := by
  refine ⟨rfl, rfl, rfl, rfl, rfl, fun d => ?_⟩
  simp only [State.wiped, Fin.getElem_fin, Vector.getElem_map]
  rfl

/-- The reset is under way (R397 step 4). -/
def State.inReset (s : State) : State :=
  { s with power := { s.power with
    state := .on, transition := none, phase := .fundamental, phaseSince := s.now, ready := false, everReady := false, hkcUp := false
    domains := 0, idleSince := [] } }

theorem State.enterReset_eq (s : State) (kind : Nat) :
    s.enterReset kind = ((s.beforeWipe kind).wiped ((s.beforeWipe kind).objBool 0x5800 1)).inReset := by
  unfold State.enterReset State.beforeWipe State.haltedWork State.inReset
  dsimp only

/-- A fundamental reset keeps MRAM, and stops what runs. -/
theorem State.enterReset_spec (s : State) (kind : Nat) : (s.enterReset kind).power.phase = .fundamental ∧
    (s.enterReset kind).power.phaseSince = s.now ∧ (s.enterReset kind).power.ready = false ∧
    (s.enterReset kind).power.lastReset = kind ∧ (s.enterReset kind).pins = Pins.reset ∧ (s.enterReset kind).mram = s.mram ∧
    (∀ d : Die, (s.enterReset kind).gens[d].state = .stopped) ∧ ∀ g : Fin 64, (s.enterReset kind).gauges[g].state ≠ .running := by
  obtain ⟨now, mram, rest⟩ := s.beforeWipe_spec kind
  have last := s.beforeWipe_lastReset kind
  obtain ⟨now', mram', gauges, power, pins, gens⟩  :=
    (s.beforeWipe kind).wiped_spec ((s.beforeWipe kind).objBool 0x5800 1)
  rw [State.enterReset_eq]
  generalize (s.beforeWipe kind).wiped _ = w at *
  refine ⟨rfl, now'.trans now, rfl, (congrArg Power.lastReset power).trans last, pins, mram'.trans mram, gens, ?_⟩
  rw [← gauges] at rest
  exact rest

/-! ### The beginning of a start (R399) -/

/-- Power, the position, the time base and the boot count are those of `a`. -/
def HistoryAside (a s : State) : Prop :=
  s.power = a.power ∧ s.knots = a.knots ∧ s.tb = a.tb ∧ s.mram.bootCount = a.mram.bootCount

theorem HistoryAside.of_parts (e : t.power = s.power ∧ t.knots = s.knots ∧ t.tb = s.tb ∧ t.mram = s.mram) (h : HistoryAside a s) :
    HistoryAside a t := by
  obtain ⟨power, knots, tb, mram⟩ := e
  obtain ⟨hp, hk, ht, hm⟩ := h
  exact ⟨power.trans hp, knots.trans hk, tb.trans ht, (congrArg (fun m : Mram => m.bootCount) mram).trans hm⟩

theorem HistoryAside.loseItem {i} (h : HistoryAside a s) : HistoryAside a (s.loseItem i) := by
  unfold State.loseItem
  split <;> exact h

theorem HistoryAside.bumpBy {i j n} (h : HistoryAside a s) : HistoryAside a (s.bumpBy i j n) := .of_parts (by simp) h
theorem HistoryAside.putNat {i j n} (h : HistoryAside a s) : HistoryAside a (s.putNat i j n) := .of_parts (by simp) h
theorem HistoryAside.bb {code sev data} (h : HistoryAside a s) : HistoryAside a (s.bb code sev data) := .of_parts (by simp) h

theorem HistoryAside.lostItems {l : List (Fin 8)} (h : HistoryAside a s) : HistoryAside a (l.foldl State.loseItem s) :=
  List.foldlRecOn (motive := HistoryAside a) l _ h (fun _ ht _ _ => ht.loseItem)

theorem HistoryAside.readHistory {x} (h : HistoryAside a s) : HistoryAside a (s.readHistory x) := by
  unfold State.readHistory
  refine .putNat ?_
  split
  · exact .bumpBy h.lostItems
  · exact .bb (.bumpBy h.lostItems)

/-- The beginning of a start. -/
theorem State.beginStart_spec (s : State) (x : Straps) (h : HistoryCheck) (dimms : Bool) :
    (s.beginStart x h dimms).power.lastReset = s.power.lastReset ∧ (s.beginStart x h dimms).knots.pos = x.nodeid ∧
      (s.beginStart x h dimms).tb = s.tb ∧ (s.beginStart x h dimms).mram.bootCount = s.mram.bootCount := by
  obtain ⟨power, knots, tb, boots⟩ : HistoryAside (s.latch x) ((s.latch x).readHistory h) := .readHistory ⟨rfl, rfl, rfl, rfl⟩
  have last : ((s.latch x).readHistory h).power.lastReset = s.power.lastReset := by rw [power]; rfl
  have pos : ((s.latch x).readHistory h).knots.pos = x.nodeid := by rw [knots]; rfl
  exact ⟨last, pos, tb, boots⟩

/-- A reset is noted beside the time base and MRAM. -/
theorem State.noteReset_spec (s : State) (code : Nat) : (s.noteReset code).power = { s.power with lastReset := code } ∧
    (s.noteReset code).tb = s.tb ∧ (s.noteReset code).mram = s.mram := by
  simp [State.noteReset]

theorem exec_powerFailWarning (up : s.power.phase ≠ .powerOn) (on : s.power.state ≠ .off) (rails : BitVec 16) :
    exec (.powerFailWarning rails) s = .next (s.powerFail rails) := congrArg Host.Outcome.next (if_neg (not_or.mpr ⟨up, on⟩))

theorem exec_fundamentalResetAssert (free : s.power.phase = .none) (on : s.power.state ≠ .off) (pin : ResetPin) :
    exec (.fundamentalResetAssert pin) s = .next ((s.pinFalls pin).enterReset (pinCode pin)) := by
  show execFundamentalResetAssert pin s = _
  rw [execFundamentalResetAssert, free]
  exact congrArg Host.Outcome.next (if_neg on)

theorem exec_fundamentalResetRelease (held : s.power.phase = .fundamental) (on : s.power.state ≠ .off) (straps : Straps)
    (h : HistoryCheck) : exec (.fundamentalResetRelease straps h) s =
      .next ((s.dropScan.passUntil (s.dropScan.power.phaseSince + us 1000)).beginStart straps h h.dimmPower) := by
  have power : s.dropScan.power = s.power := by
    unfold State.dropScan
    split <;> rfl
  show execFundamentalResetRelease straps h s = _
  rw [execFundamentalResetRelease, if_pos held]
  dsimp only
  rw [if_neg (by rw [power]; exact on)]

theorem exec_mainRailsReturn (off : s.power.state = .off) (free : s.power.phase = .none) (perst : s.power.perstLow = false)
    (sysrst : s.power.sysrstLow = false) (cool : s.health.tripped = false) (straps : Straps) (h : HistoryCheck) :
    exec (.mainRailsReturn straps h) s = .next (((State.restartTime { s with health := { s.health with tripped := false } }).noteReset
      (if s.power.pfwOff then 4 else 3)).beginStart straps h h.dimmPower) := by
  show execMainRailsReturn straps h s = _
  rw [execMainRailsReturn, if_pos ⟨off, free⟩, if_neg (by simp [perst, sysrst]), State.leaveOff, if_neg (by simp [cool])]

/-- Settles O39: what a fundamental reset and the beginning of a start leave (`State.enterReset_spec`, `State.beginStart_spec`). -/
theorem resetsComplete : Obligations.ResetsComplete := by
  refine ⟨?_, ?_, ?_, ?_, ?_, ?_⟩
  · intro rails s up on
    have done := exec_powerFailWarning up on rails
    exact ⟨_, done, rfl, rfl, rfl, rfl, stays_of_exec (u := .tb) done rfl, stays_of_exec (u := .dsMem) done rfl, s.powerFail_ring rails⟩
  · intro s
    obtain ⟨keys, ids, ring⟩ := s.saveTime_spec
    exact ⟨_, rfl, rfl, rfl, rfl, ring, keys, ids⟩
  · intro straps h s off perst sysrst
    obtain ⟨last, pos, -, boots⟩ :=
      (State.noteReset { s with mram := { s.mram with bootCount := s.mram.bootCount + 1 } } 0).beginStart_spec straps h false
    obtain ⟨noted, -, mram⟩ := State.noteReset_spec { s with mram := { s.mram with bootCount := s.mram.bootCount + 1 } } 0
    exact ⟨_, congrArg Host.Outcome.next ((if_pos off).trans (if_neg (by simp [perst, sysrst]))), rfl,
      last.trans (congrArg Power.lastReset noted), boots.trans (congrArg (fun m : Mram => m.bootCount) mram), pos, rfl⟩
  · intro pin s free on
    have done := exec_fundamentalResetAssert free on pin
    have fallen : (s.pinFalls pin).now = s.now ∧ (s.pinFalls pin).mram = s.mram := by cases pin <;> exact ⟨rfl, rfl⟩
    obtain ⟨phase, since, ready, last, pins, mram, rest⟩ := (s.pinFalls pin).enterReset_spec (pinCode pin)
    exact ⟨_, done, phase, since.trans fallen.1, ready, last, pins, stays_of_exec (u := .tb) done rfl, mram.trans fallen.2, rest⟩
  · intro straps h s held on
    have done := exec_fundamentalResetRelease held on straps h
    obtain ⟨-, pos, -, -⟩ := (s.dropScan.passUntil (s.dropScan.power.phaseSince + us 1000)).beginStart_spec straps h h.dimmPower
    exact ⟨_, done, rfl, rfl, rfl, pos⟩
  · intro straps h s off free perst sysrst cool
    have done := exec_mainRailsReturn off free perst sysrst cool straps h
    obtain ⟨last, -, tb, -⟩ := ((State.restartTime { s with health := { s.health with tripped := false } }).noteReset
      (if s.power.pfwOff then 4 else 3)).beginStart_spec straps h h.dimmPower
    obtain ⟨noted, tb', -⟩ := (State.restartTime { s with health := { s.health with tripped := false } }).noteReset_spec
      (if s.power.pfwOff then 4 else 3)
    exact ⟨_, done, rfl, rfl, last.trans (congrArg Power.lastReset noted), tb.trans tb'⟩

end Sys2Proof.Machine
end



section
/-! PROOFS. The dictionary service: reads, writes and subscriptions in service (O36). -/

namespace Sys2Proof.Machine

variable {a s t : State} {k : Fin 256}

/-! ### What the service's traffic leaves -/

/-- A subscription, but for the changes that wait to be notified. -/
def Subscription.base (x : Subscription) : Subscription := { x with merged := 0, changedAt := 0 }

/-- The generators, servo setting `k` and the subscriptions, their waiting changes aside, are those of `a`. -/
def Attended (k : Fin 256) (a s : State) : Prop :=
  s.gens = a.gens ∧ storeGet s.objs 0x4420 k.val = storeGet a.objs 0x4420 k.val ∧
    s.dict.subs.map Subscription.base = a.dict.subs.map Subscription.base

theorem Attended.refl : Attended k s s := ⟨rfl, rfl, rfl⟩

theorem Attended.ite {c : Prop} [Decidable c] (hs : Attended k a s) (ht : Attended k a t) : Attended k a (if c then s else t) := by
  split
  · exact hs
  · exact ht

theorem Attended.foldl {α : Type} {f : State → α → State} {l : List α} (hf : ∀ {t x}, Attended k a t → Attended k a (f t x))
    (h : Attended k a s) : Attended k a (l.foldl f s) := List.foldlRecOn (motive := Attended k a) l f h (fun _ ht _ _ => hf ht)

theorem Attended.of_parts (e : t.gens = s.gens ∧ t.objs = s.objs ∧ t.dict = s.dict) (h : Attended k a s) : Attended k a t := by
  obtain ⟨gens, objs, dict⟩ := e
  unfold Attended
  rw [gens, objs, dict]
  exact h

/-- A note of a change adds to the waiting changes alone. -/
theorem Dict.note_subs (d : Dict) (i j : Nat) (t : Qword) : (d.note i j t).subs.map Subscription.base = d.subs.map Subscription.base := by
  simp only [Dict.note, List.map_map]
  refine List.map_congr_left fun x _ => ?_
  simp only [Function.comp]
  split <;> rfl

theorem objKey_ne {i j : Nat} (apart : i ≠ 0x4420 ∧ j < 256) : objKey 0x4420 k.val ≠ objKey i j := by
  have := k.isLt
  unfold objKey
  omega

/-- A counter of another object counts. -/
theorem Attended.bumpBy {i j n} (apart : i ≠ 0x4420 ∧ j < 256 := by decide) (h : Attended k a s) : Attended k a (s.bumpBy i j n) := by
  unfold State.bumpBy
  split
  · exact h
  · obtain ⟨gens, setting, subs⟩ := h
    refine ⟨gens, (storeGet_storePut_other (objKey_ne apart) ..).trans setting, (Dict.note_subs ..).trans subs⟩

theorem Attended.bump {i j} (apart : i ≠ 0x4420 ∧ j < 256 := by decide) (h : Attended k a s) : Attended k a (s.bump i j) := .bumpBy apart h

theorem Attended.raise {v} (h : Attended k a s) : Attended k a (s.raise v) := .of_parts (by simp) h
theorem Attended.setEvBit {r i} (h : Attended k a s) : Attended k a (s.setEvBit r i) := .of_parts (by simp) h
theorem Attended.bbDrop (h : Attended k a s) : Attended k a s.bbDrop := .setEvBit (.bump (h := h))

theorem Attended.bb {code sev data} (h : Attended k a s) : Attended k a (s.bb code sev data) := by
  unfold State.bb
  dsimp only
  split
  · exact h
  · split
    · exact h.bbDrop
    · split
      · exact .bbDrop h
      · exact h.bbDrop

/-! ### The mailbox's memory -/

theorem Attended.touchRam {off len} (h : Attended k a s) : Attended k a (s.touchRam off len) := .ite (.bump (h := h)) h
theorem Attended.ramError {e} (h : Attended k a s) : Attended k a (s.ramError e) := .ite (.bb (.bump (h := h))) (.bump (h := h))
theorem Attended.hkcReads {off len} (h : Attended k a s) : Attended k a (s.hkcReads off len) := .foldl .ramError (touchRam h)
theorem Attended.hkcRam {off bs} (h : Attended k a s) : Attended k a (s.hkcRam off bs) := touchRam (off := off) (len := bs.length) h

theorem Attended.mbAnswer {f} (h : Attended k a s) : Attended k a (s.mbAnswer f) :=
  .raise (.hkcRam (.hkcRam (.ite (.bumpBy (h := h)) h)))

/-! ### Frames that go out -/

theorem Attended.authentic {key f} (h : Attended k a s) : Attended k a (s.authentic key f).1 := by
  unfold State.authentic
  split <;> exact h

theorem Attended.sendUdp {p addr port key f} (h : Attended k a s) : Attended k a (s.sendUdp p addr port key f) := .ite h.authentic h

theorem Attended.drainTunnel {q n} (h : Attended k a s) : Attended k a (s.drainTunnel q n) := by
  induction n generalizing s with
  | zero => exact h
  | succ n ih =>
    unfold State.drainTunnel
    split
    · exact h
    · exact .ite (ih h) h

theorem Attended.sendTunnelOn {f q} (h : Attended k a s) : Attended k a (s.sendTunnelOn f q) := .drainTunnel h

theorem Attended.sendTunnel {ports dest frame} (h : Attended k a s) : Attended k a (s.sendTunnel ports dest frame) :=
  .foldl (.foldl .sendTunnelOn) h

theorem Attended.sendBack {r f} (h : Attended k a s) : Attended k a (s.sendBack r f) := by
  unfold State.sendBack
  split
  · exact .ite h h.mbAnswer
  · exact h.sendUdp
  · exact h.sendUdp
  · exact h.sendTunnel
  · exact h
  · exact h

theorem Attended.tunnelAway {r} (h : Attended k a s) : Attended k a (s.tunnelAway r) :=
  .ite h.sendBack (.ite (.sendBack (.bump (h := h))) (.sendTunnel h))

/-! ### The order of service (R354) -/

theorem Attended.admitRequest {r} (h : Attended k a s) : Attended k a (s.admitRequest r) := by
  have h1 : Attended k a (if r.path = .mailbox ∧ frameOp r.frame ≠ 6 then s.mbServing else s) := .ite h.hkcRam h
  unfold State.admitRequest
  refine .ite h1.tunnelAway (.ite h1 (.ite h1.sendBack ?_))
  split
  · exact h1.sendBack
  · exact .ite h1.sendBack (.ite h1.sendBack h1)

theorem Attended.takeMailbox (h : Attended k a s) : Attended k a s.takeMailbox := by
  have read : Attended k a (State.hkcReads { s with dict := { s.dict with mailbox := false } } 0x100
      (State.mailboxLength { s with dict := { s.dict with mailbox := false } })) := .hkcReads h
  unfold State.takeMailbox
  refine .ite read ?_
  split
  · exact read.admitRequest
  · exact .bump (h := read)

theorem Attended.takeEth {p} (h : Attended k a s) : Attended k a (s.takeEth p) := by
  unfold State.takeEth
  dsimp only
  split
  · exact h
  · split
    · exact .bump (h := .sendUdp h)
    · exact .admitRequest h

theorem Attended.takeTunnel (h : Attended k a s) : Attended k a s.takeTunnel := by
  unfold State.takeTunnel
  split
  · exact h
  · exact .admitRequest h

theorem Attended.takeUpTo {n} (h : Attended k a s) : Attended k a (State.takeUpTo n s) := by
  induction n generalizing s with
  | zero => exact h
  | succ n ih =>
    unfold State.takeUpTo
    refine .ite h ?_
    split
    · refine ih ?_
      unfold State.takeFrom
      split
      · exact .takeMailbox h
      · exact .takeEth h
      · exact .takeEth h
      · exact .takeTunnel h
    · exact h

theorem Attended.complete {r items} (h : Attended k a s) : Attended k a (s.complete r items) := .takeUpTo (.sendBack (.bump (h := h)))

/-! ### Requests in service (O36) -/

/-- A request in service is taken off, and its operation is that of its frame. -/
theorem State.inService_frameOp {op : Nat} {r : Request} {items : List Item} (serving : s.inService op = some (r, items)) :
    frameOp r.frame = op := by
  unfold State.inService at serving
  split at serving
  · next q _ =>
    by_cases served : (s.power.hkcUp && decide (frameOp q.frame = op)) = true
    · rw [if_pos served] at serving
      rw [Bool.and_eq_true, decide_eq_true_iff] at served
      split at serving
      · obtain ⟨rfl, -⟩ := Prod.mk.inj (Option.some.inj serving)
        exact served.2
      · exact nomatch serving
    · rw [if_neg served] at serving
      exact nomatch serving
  · exact nomatch serving

/-- Without a key, an answer to a port of Ethernet leaves on it when its link is up. -/
theorem State.sendBack_eth_out {p : Fin 2} {r : Request} (path : r.path = if p = 0 then .eth0 else .eth1) (plain : r.key = none)
    (linked : s.net.ports[p].linkUp = true) (f : List Byte) :
    (s.sendBack r f).out = s.out ++ [.udp p
      { dest := r.srcAddr, srcPort := 48620, destPort := r.srcPort, vlan := s.vlanOf p, priority := none, hops := none } f] := by
  match p, path, linked with
  | 0, path, linked =>
    rw [State.sendBack, path]
    exact (congrArg State.out (if_pos linked)).trans (by rw [plain]; rfl)
  | 1, path, linked =>
    rw [State.sendBack, path]
    exact (congrArg State.out (if_pos linked)).trans (by rw [plain]; rfl)

/-- The completed request's response leaves on its port, before what the next requests send. -/
theorem State.complete_out {p : Fin 2} {r : Request} (path : r.path = if p = 0 then .eth0 else .eth1) (plain : r.key = none)
    (linked : s.net.ports[p].linkUp = true) (items : List Item) :
    ∃ w rest, (s.complete r items).out = s.out ++
        .udp p w (backFrame (frameOp r.frame) (firstStatus items) (frameTag r.frame) items.length (items.flatMap odpItem)) :: rest ∧
      w.dest = r.srcAddr ∧ w.srcPort = 48620 ∧ w.destPort = r.srcPort ∧ w.vlan = s.vlanOf p := by
  unfold State.complete
  generalize eu : s.bump 0x1120 1 = u
  have apart : objKey (0x4400 + p.val) 9 ≠ objKey 0x1120 1 := by unfold objKey; omega
  have vlan : u.vlanOf p = s.vlanOf p := by rw [← eu]; exact s.objNat_bump_other apart
  have net : u.net = s.net := by rw [← eu]; exact s.bump_net _ _
  have sofar : u.out = s.out := by rw [← eu]; exact s.bump_out _ _
  rw [← net] at linked
  dsimp only
  generalize backFrame _ _ _ _ _ = f
  obtain ⟨-, -, -, rest, sent⟩ := (Keeps.refl (u.sendBack r f)).takeNext
  rw [State.sendBack_eth_out path plain linked, List.append_assoc, sofar] at sent
  exact ⟨_, rest, sent.symm, rfl, rfl, rfl, vlan⟩

/-! ### A servo setting is written -/

/-- The subindexes of the servo settings are bytes. -/
theorem objRow_servo_sub {sub : Nat} {row : ObjRow} (listed : objRow 0x4420 sub = some row) : sub < 256 := by
  have rows : ∀ r ∈ objRowsFor 0x4420, r.shi < 256 := by decide +kernel
  have within := List.find?_some listed
  rw [decide_eq_true_iff] at within
  exact lt_of_le_of_lt within.2.2.2 (rows row (List.mem_of_find?_eq_some listed))

theorem State.objRow_of_objectAt {idx sub : Nat} {row : ObjRow} (listed : s.objectAt idx sub = some row) : objRow idx sub = some row := by
  unfold State.objectAt at listed
  split at listed
  · next r row =>
    by_cases absent : r.die = 1 ∧ (!s.hasDie 1) = true
    · rw [if_pos absent] at listed
      exact nomatch listed
    · rw [if_neg absent] at listed
      rw [row, listed]
  · exact nomatch listed

/-- An object that is put in place of its default holds the value. -/
theorem State.put_holds {idx sub : Nat} {v : Val} (other : v ≠ objDefault idx sub) (s : State) :
    storeGet (s.put idx sub v).objs idx sub = v := by
  unfold State.put
  split
  · assumption
  · exact storeGet_storePut_same other _

/-- A servo setting is written by putting it. -/
theorem State.act_servo (s : State) (sub : Nat) (v : Val) (via : Source) (addr : List Byte) :
    s.act 0x4420 sub v via addr = s.put 0x4420 sub v := by
  simp [State.act, State.actNet]

/-- A WRITE of an allowed value of a servo setting puts it. -/
theorem State.writeItem_servo {r : Request} {i : Item} {row : ObjRow} {v : Val} (listed : s.objectAt i.index i.sub = some row)
    (servo : i.index = 0x4420) (writable : row.acc = .rw) (typed : i.typ = row.typ.code)
    (fits : lengthOk row.typ i.value.length = true) (allowed : clampVal s.variant row (readVal row.typ i.value) = (v, none)) :
    (s.writeItem r i).1 = s.put 0x4420 i.sub v := by
  have idle : s.instrumentRuns 0x4420 i.sub = false := rfl
  have asked : s.clampField row 0x4420 i.sub (readVal row.typ i.value) r.path = (s, v) := by rw [State.clampField, allowed]
  rw [State.writeItem, listed]
  simp [servo, writable, typed, fits, State.writeForm, idle, State.applyWrite, clampsItself, asked, State.act_servo]

/-- Serving the write of a servo setting leaves it with its value. -/
theorem State.serveWrite_servo {r : Request} {i : Item} {row : ObjRow} {v : Val} (listed : s.objectAt i.index i.sub = some row)
    (servo : i.index = 0x4420) (writable : row.acc = .rw) (typed : i.typ = row.typ.code)
    (fits : lengthOk row.typ i.value.length = true) (allowed : clampVal s.variant row (readVal row.typ i.value) = (v, none))
    (other : v ≠ objDefault i.index i.sub) :
    storeGet (s.serveWrite r [i]).objs i.index i.sub = v ∧ (s.serveWrite r [i]).dies = s.dies ∧ (s.serveWrite r [i]).dsMem = s.dsMem := by
  have written : (s.served.writeItem r i).1 = s.served.put 0x4420 i.sub v :=
    State.writeItem_servo (s := s.served) listed servo writable typed fits allowed
  unfold State.serveWrite
  dsimp only [State.writeItems]
  rw [written]
  generalize [(s.served.writeItem r i).2] = items
  rw [servo] at listed other ⊢
  have byte := objRow_servo_sub (State.objRow_of_objectAt listed)
  obtain ⟨-, setting, -⟩ :=
    Attended.complete (r := r) (items := items) (Attended.refl (k := ⟨i.sub, byte⟩) (s := s.served.put 0x4420 i.sub v))
  have : Off .dies .ram := ⟨nofun⟩
  have : Off .dsMem .ram := ⟨nofun⟩
  have dies : Stays .dies (s.served.put 0x4420 i.sub v) _ := .complete (r := r) (items := items) .refl
  have deep : Stays .dsMem (s.served.put 0x4420 i.sub v) _ := .complete (r := r) (items := items) .refl
  exact ⟨setting.trans (s.served.put_holds other), dies.trans (s.served.put_dies ..), deep.trans (s.served.put_dsMem ..)⟩

/-- Serving the write of an object that no table lists changes nothing of the units. -/
theorem State.serveWrite_unlisted {r : Request} {i : Item} (unlisted : s.objectAt i.index i.sub = none) :
    (s.serveWrite r [i]).dies = s.dies ∧ (s.serveWrite r [i]).gens = s.gens ∧ (s.serveWrite r [i]).tb = s.tb ∧
      (s.serveWrite r [i]).pins = s.pins ∧ (s.serveWrite r [i]).dsMem = s.dsMem := by
  have absent : s.served.writeItem r i = (s.served, i.fail 3) := by
    have unlisted : s.served.objectAt i.index i.sub = none := unlisted
    rw [State.writeItem, unlisted]
  unfold State.serveWrite
  dsimp only [State.writeItems]
  rw [absent]
  have : Off .dies .ram := ⟨nofun⟩
  have : Off .tb .ram := ⟨nofun⟩
  have : Off .pins .ram := ⟨nofun⟩
  have : Off .dsMem .ram := ⟨nofun⟩
  have dies : Stays .dies s.served _ := .complete (r := r) (items := [i.fail 3]) .refl
  have time : Stays .tb s.served _ := .complete (r := r) (items := [i.fail 3]) .refl
  have pins : Stays .pins s.served _ := .complete (r := r) (items := [i.fail 3]) .refl
  have deep : Stays .dsMem s.served _ := .complete (r := r) (items := [i.fail 3]) .refl
  obtain ⟨gens, -, -⟩ := Attended.complete (r := r) (items := [i.fail 3]) (Attended.refl (k := 0) (s := s.served))
  exact ⟨dies, gens, time, pins, deep⟩

/-! ### A subscription is made -/

/-- A SUBSCRIBE of a readable object, with room left, ends with a subscription whose lease begins now. -/
theorem State.subscribeItem_leased {r : Request} {i : Item} {row : ObjRow} (listed : s.objectAt i.index i.sub = some row)
    (readable : row.acc ≠ .wo) (whole : i.value.length = 4) (kept : (leNat i.value).testBit 31 = false) (room : s.dict.subs.length < 64) :
    s.newSub r i ∈ (s.subscribeItem r i).1.dict.subs := by
  have fewer : ¬ 64 ≤ (s.dict.subs.filter (fun x => !x.of r i)).length := by
    have := List.length_filter_le (fun x => !Subscription.of x r i) s.dict.subs
    omega
  rw [State.subscribeItem, listed]
  dsimp only
  rw [if_neg readable, if_neg (not_not_intro whole), State.subscribe, kept, if_neg (nomatch ·), if_neg fewer]
  exact List.mem_append_right _ (List.mem_singleton_self _)

/-- A subscription is still there after a request's completion, its waiting changes aside. -/
theorem State.complete_keeps_subscription {x : Subscription} (made : x ∈ s.dict.subs) (r : Request) (items : List Item) :
    ∃ y ∈ (s.complete r items).dict.subs, y.base = x.base := by
  obtain ⟨-, -, subs⟩ := Attended.complete (r := r) (items := items) (Attended.refl (k := 0) (s := s))
  rw [← List.mem_map, subs]
  exact List.mem_map_of_mem made

/-! ### The dictionary service (O36) -/

/-- Settles O36: a completed request's response leaves first; what is served after it leaves the settings and the subscriptions. -/
theorem odpAccessesComplete : Obligations.OdpAccessesComplete := by
  unfold Obligations.OdpAccessesComplete
  refine ⟨?_, ?_, ?_, ?_, ?_, ?_⟩
  · intro p r items s serving path plain linked
    have done : exec .odpRead s = .next (s.served.complete r (items.map s.readItem)) := by
      show execOdpRead s = _
      rw [execOdpRead, serving]
    obtain ⟨w, rest, sent, back⟩ := State.complete_out (s := s.served) path plain linked (items.map s.readItem)
    rw [State.inService_frameOp serving, List.length_map] at sent
    exact ⟨_, done, stays_of_exec (u := .dies) done rfl, stays_of_exec (u := .tb) done rfl, stays_of_exec (u := .dsMem) done rfl,
      w, rest, sent, back⟩
  · intro p r i s serving path plain linked
    have done : exec .odpReadBlock s = .next (s.served.complete r (s.readBlock i)) := by
      show execOdpReadBlock s = _
      rw [execOdpReadBlock, serving]
      exact congrArg (fun l => Host.Outcome.next (s.served.complete r l)) (List.append_nil _)
    obtain ⟨w, rest, sent, back⟩ := State.complete_out (s := s.served) path plain linked (s.readBlock i)
    rw [State.inService_frameOp serving] at sent
    exact ⟨_, done, stays_of_exec (u := .dies) done rfl, stays_of_exec (u := .tb) done rfl, stays_of_exec (u := .dsMem) done rfl,
      w, rest, sent, back⟩
  · intro r i row s serving listed readable whole kept room
    have done : exec .odpSubscribe s = .next ((s.served.subscribeItem r i).1.complete r [(s.served.subscribeItem r i).2]) := by
      show execOdpSubscribe s = _
      rw [execOdpSubscribe, serving]
    have made := State.subscribeItem_leased (s := s.served) (r := r) listed readable whole kept room
    obtain ⟨x, mem, same⟩ := State.complete_keeps_subscription made r [(s.served.subscribeItem r i).2]
    refine ⟨_, done, stays_of_exec (u := .dies) done rfl, x, mem, ?_⟩
    obtain ⟨path, index, sub, addr, renewed⟩ :
        x.base.path = _ ∧ x.base.index = _ ∧ x.base.sub = _ ∧ x.base.srcAddr = _ ∧ x.base.renewed = _ := by
      rw [same]
      exact ⟨rfl, rfl, rfl, rfl, rfl⟩
    exact ⟨path, index, sub, addr, renewed⟩
  · intro r i row v s serving listed servo writable typed fits allowed other
    have done : exec .odpWrite s = .next (s.serveWrite r [i]) := by
      show execOdpWrite s = _
      rw [execOdpWrite, serving]
    exact ⟨_, done, State.serveWrite_servo listed servo writable typed fits allowed other⟩
  · intro r i row v s serving listed servo writable typed fits allowed other
    have done : exec .odpWriteBlock s = .next (s.serveWrite r [i]) := by
      show execOdpWriteBlock s = _
      rw [execOdpWriteBlock, serving]
    exact ⟨_, done, State.serveWrite_servo listed servo writable typed fits allowed other⟩
  · intro r i s serving unlisted
    have done : exec .odpWrite s = .next (s.serveWrite r [i]) := by
      show execOdpWrite s = _
      rw [execOdpWrite, serving]
    exact ⟨_, done, State.serveWrite_unlisted unlisted⟩

end Sys2Proof.Machine
end



section
/-! PROOFS. The dictionary service: requests, notifications, leases and keys (O35). -/

namespace Sys2Proof.Machine

variable {a s : State} {k : Fin 256}

/-! ### The mailbox's request (R365) -/

theorem State.bbDrop_serving (s : State) : s.bbDrop.dict.serving = s.dict.serving :=
  (congrArg Dict.serving (State.setEvBit_dict ..)).trans rfl

theorem State.bb_serving (s : State) (code sev : Nat) (data : List Byte) : (s.bb code sev data).dict.serving = s.dict.serving := by
  unfold State.bb
  dsimp only
  split
  · rfl
  · split
    · exact s.bbDrop_serving
    · split
      · exact State.bbDrop_serving _
      · exact s.bbDrop_serving

/-- A BAR0 write leaves the request in service, whatever it interrupts. -/
theorem State.interrupt_serving (s : State) (off : Nat) : (s.interrupt off).dict.serving = s.dict.serving := by
  unfold State.interrupt
  split
  · split
    · rfl
    · refine (State.bb_serving ..).trans ?_
      rw [State.setEvBit_dict, State.setEvBit_dict]
  · rfl

theorem State.touchRam_serving (s : State) (off len : Nat) : (s.touchRam off len).dict.serving = s.dict.serving := by
  unfold State.touchRam
  dsimp only
  split
  · rfl
  · rfl

/-- A stored first word reads back, and the second word reads as before. -/
theorem memReadBlock_first {m : Memory} (wf : m.wf = true) (v : Dword) :
    leNat (memReadBlock (memWriteBlock m 0 (leBytes 4 v.toNat)) 0 4) = v.toNat ∧
      memReadBlock (memWriteBlock m 0 (leBytes 4 v.toNat)) 4 4 = memReadBlock m 4 4 := by
  have back := memReadBlock_memWriteBlock 0 (leBytes 4 v.toNat) wf
  rw [leBytes_length] at back
  constructor
  · rw [back, leNat_leBytes]
    exact Nat.mod_eq_of_lt v.isLt
  · rw [memReadBlock_eq, memReadBlock_eq]
    refine List.map_congr_left fun i _ => ?_
    rw [memRead_memWriteBlock _ _ _ wf, leBytes_length, if_neg (by omega)]

/-- The state in which a MB_REQ has been stored. -/
def State.asked (s : State) (v : Dword) : State := ((s.interrupt odmBase).touchRam 0 4).ramStore 0 (leBytes 4 v.toNat)

theorem State.ramDword_request (s : State) (v : Dword) : s.ramDword (0, some v) = (s.asked v).mbSubmit := by
  unfold State.ramDword State.asked
  dsimp only
  rw [if_neg (by decide), if_pos rfl, Nat.add_zero]

theorem State.asked_ram (s : State) (v : Dword) : (s.asked v).ram = memWriteBlock s.ram 0 (leBytes 4 v.toNat) := by
  have : Off .ram .guard := ⟨nofun⟩
  exact congrArg (memWriteBlock · 0 (leBytes 4 v.toNat)) (Stays.touchRam (u := .ram) (.interrupt .refl))

theorem State.asked_serving (s : State) (v : Dword) : (s.asked v).dict.serving = s.dict.serving :=
  (State.touchRam_serving ..).trans (s.interrupt_serving _)

/-- While a request is in service, a MB_REQ other than MB_RSP waits. -/
theorem State.mbSubmit_waits (serving : s.dict.serving.isSome = true) (other : s.mbReq ≠ s.mbRsp)
    (free : (s.ramWord 4).testBit 16 = false) : s.mbSubmit = { s with dict := { s.dict with mailbox := true } } := by
  rw [State.mbSubmit, if_neg (by rw [free]; exact fun h => h.elim other (nomatch ·))]
  exact State.takeNext_serving serving

theorem State.asked_mbSubmit {seq : BitVec 16} (wf : s.ram.wf = true) (serving : s.dict.serving.isSome = true)
    (other : s.mbRsp ≠ seq.toNat) (free : (s.ramWord 4).testBit 16 = false) :
    (s.asked (seq.setWidth 32)).mbSubmit.dict.mailbox = true ∧ (s.asked (seq.setWidth 32)).mbSubmit.ramWord 0 = seq.toNat := by
  have small := seq.isLt
  obtain ⟨first, others⟩ := memReadBlock_first wf (seq.setWidth 32)
  have word : (s.asked (seq.setWidth 32)).ramWord 0 = seq.toNat := by
    rw [State.ramWord, State.asked_ram, first, BitVec.toNat_setWidth_of_le (by decide)]
  have rsp : (s.asked (seq.setWidth 32)).ramWord 4 = s.ramWord 4 := by rw [State.ramWord, State.asked_ram, others, State.ramWord]
  rw [State.mbSubmit_waits]
  · exact ⟨rfl, word⟩
  · rw [State.asked_serving, serving]
  · rw [State.mbReq, State.mbRsp, word, rsp, Nat.mod_eq_of_lt small]
    exact other.symm
  · rw [rsp, free]

/-! ### A datagram (R355) -/

section Counted

variable (s : State) (p : Fin 2)

theorem State.countFrame_frameFits (vlan length : Nat) : (s.countFrame p).frameFits p vlan length = s.frameFits p vlan length := by
  rw [State.frameFits, State.frameFits, State.vlanOf, State.vlanOf, s.countFrame_objNat p (by omega) (by omega),
    s.countFrame_objNat p (by omega) (by omega)]

theorem State.countFrame_hasAddr (v6 : Bool) : (s.countFrame p).hasAddr p v6 = s.hasAddr p v6 := by
  simp (disch := omega) only [State.hasAddr, State.countFrame_objBytes, State.countFrame_objNat]

theorem State.countFrame_mustAuth (f : List Byte) : (s.countFrame p).mustAuth p f = s.mustAuth p f := by
  simp (disch := omega) only [State.mustAuth, State.countFrame_objBool]

end Counted

/-- A whole datagram that fits the port's settings reaches the service while the HKC serves. -/
theorem exec_odpDatagramReceive {p : Fin 2} {dg : Datagram} (hears : s.ethHears p = true)
    (on : (s.objNat (0x4400 + p.val) 0x0A).testBit 0 = true) (addressed : s.hasAddr p (decide (dg.srcAddr.length = 16)) = true)
    (fits : s.frameFits p dg.vlan.toNat (packetLength dg) = true) (whole : dg.fragment = false) (up : s.power.hkcUp = true) :
    exec (.odpDatagramReceive p dg) s = .next ((s.countFrame p).odpFrame p dg.srcAddr dg.srcPort.toNat dg.payload) := by
  show execOdpDatagramReceive p dg s = _
  refine congrArg Host.Outcome.next ((if_pos hears).trans ?_)
  dsimp only
  rw [State.countFrame_frameFits, State.countFrame_hasAddr, fits, addressed, Bool.and_self, if_pos rfl, State.odpArrive,
    s.countFrame_objNat p (by omega) (by omega), on, whole, State.countFrame_power, up]
  rfl

/-- A request that need not be authentic is queued. -/
theorem State.odpFrame_plain {p : Fin 2} {f : List Byte} (ok : frameOk f = true) (request : frameBack f = false)
    (plain : s.mustAuth p f = false) (addr : List Byte) (port : Nat) : s.odpFrame p addr port f = s.queueOdp p addr port none f := by
  rw [State.odpFrame, ok, request, plain]
  rfl

/-- The state with a request at the end of a port's queue. -/
def State.enqueued (s : State) (p : Fin 2) (r : Request) : State :=
  { s with dict := { s.dict with ethQueue := s.dict.ethQueue.set p (s.dict.ethQueue[p] ++ [r]) } }

/-- A request that is not in the response store joins its port's queue behind the one in service. -/
theorem State.queueOdp_joins {p : Fin 2} (new : s.dict.stored[p] = []) (room : s.dict.ethQueue[p].length < 8)
    (serving : s.dict.serving.isSome = true) (addr : List Byte) (port : Nat) (key : Option (Fin 4)) (f : List Byte) :
    ∃ r : Request, r.srcAddr = addr ∧ (s.queueOdp p addr port key f).dict.ethQueue[p] = s.dict.ethQueue[p] ++ [r] ∧
      (s.queueOdp p addr port key f).out = s.out := by
  unfold State.queueOdp
  dsimp only
  generalize er : Request.mk _ _ _ _ _ _ = r
  refine ⟨r, by rw [← er], ?_⟩
  have fresh : s.storedFor p r = none := by rw [State.storedFor, new]; rfl
  rw [fresh]
  dsimp only
  rw [if_neg (Nat.not_le.mpr room)]
  have waits : (s.enqueued p r).takeNext = s.enqueued p r := State.takeNext_serving serving
  unfold State.enqueued at waits
  rw [waits]
  exact ⟨Vector.getElem_set_self .., rfl⟩

/-! ### Keys (R363) -/

theorem fitBytes_of_length {n : Nat} {bs : List Byte} (h : bs.length = n) : fitBytes n bs = bs := by
  rw [fitBytes, List.take_of_length_le h.le, h, Nat.sub_self]
  exact List.append_nil bs

/-- The state in which the length of a written key has been clamped. -/
def State.keyClamped (s : State) (n : Fin 4) (key : List Byte) : State :=
  if key.length = 32 then s else s.clampOp (0x1110 + n.val, 1) 4 .mailbox key.length 32

theorem State.keyClamped_keys (s : State) (n : Fin 4) (key : List Byte) : (s.keyClamped n key).mram.keys = s.mram.keys := by
  unfold State.keyClamped
  split
  · rfl
  · rw [State.clampOp_mram]

/-- A written key stands alone in its place, and no replay window of it is left. -/
theorem State.writeKey_fitted (s : State) (n : Fin 4) (key : List Byte) :
    (s.writeKey n (fitBytes 32 key)).mram.keys[n] = some (fitBytes 32 key) ∧ (s.writeKey n (fitBytes 32 key)).mram.sendSeq[n] = 0 ∧
      (∀ m : Fin 4, m ≠ n → (s.writeKey n (fitBytes 32 key)).mram.keys[m] = s.mram.keys[m]) ∧
      ∀ x ∈ (s.writeKey n (fitBytes 32 key)).dict.replays, x.key ≠ n := by
  refine ⟨?_, ?_, fun m other => ?_, fun x mem => ?_⟩
  · exact (Vector.getElem_set_self ..).trans (congrArg some (fitBytes_of_length (fitBytes_length ..)))
  · exact Vector.getElem_set_self ..
  · exact Vector.getElem_set_ne n.isLt m.isLt (fun h => other (Fin.ext h.symm))
  · exact of_decide_eq_true (List.mem_filter.mp mem).2

/-! ### Notifications (R361) -/

theorem Attended.mbNotify {i j typ n v bs} (h : Attended k a s) : Attended k a (s.mbNotify i j typ n v bs) :=
  .ite (.bump (h := h)) (.raise (.bump (h := .hkcRam (.hkcRam h))))

theorem Attended.notifyEth {p x bs} (h : Attended k a s) : Attended k a (s.notifyEth p x bs) :=
  .ite h (.ite (.bump (by omega) h) (.bump (h := .sendUdp h)))

theorem Attended.sendNotify {x n v i} (h : Attended k a s) : Attended k a (s.sendNotify x n v i) := by
  unfold State.sendNotify
  split
  · exact .mbNotify h
  · exact .notifyEth h
  · exact .notifyEth h
  · exact .ite (.bump (h := .sendTunnel h)) h
  · exact h
  · exact h

/-- A subscription keeps its place, its waiting changes aside. -/
theorem Attended.entry (h : Attended k a s) {i : Nat} {x : Subscription} (here : a.dict.subs[i]? = some x) :
    ∃ y, s.dict.subs[i]? = some y ∧ y.base = x.base := by
  obtain ⟨-, -, subs⟩ := h
  have same : (s.dict.subs.map Subscription.base)[i]? = some x.base := by rw [subs, List.getElem?_map, here, Option.map_some]
  rw [List.getElem?_map] at same
  exact Option.map_eq_some_iff.mp same

/-- The subscription, notified now of the value of now. -/
def State.notified (s : State) (x : Subscription) : Subscription :=
  { x with merged := 0, lastSent := some s.now, lastVal := s.readObj x.index x.sub }

/-- What was notified is noted in the subscription: the value, and the time it was sent. -/
theorem State.notify_sent {i : Nat} {x : Subscription} (here : s.dict.subs[i]? = some x) :
    ((s.notify i x).dict.subs[i]?).map Subscription.lastSent = some (some s.now) ∧
      ((s.notify i x).dict.subs[i]?).map Subscription.lastVal = some (s.readObj x.index x.sub) := by
  have inside := (List.getElem?_eq_some_iff.mp here).1
  have sent : Attended 0 (s.withSubs (s.dict.subs.set i (s.notified x))) (s.notify i x) := .bumpBy (h := .sendNotify .refl)
  obtain ⟨y, held, same⟩ := sent.entry (i := i) (List.getElem?_set_self inside)
  have lastSent : y.base.lastSent = some s.now := congrArg Subscription.lastSent same
  have lastVal : y.base.lastVal = s.readObj x.index x.sub := congrArg Subscription.lastVal same
  rw [held]
  exact ⟨congrArg some lastSent, congrArg some lastVal⟩

/-! ### Requests, notifications, leases and keys (O35) -/

/-- Settles O35: while a request is in service, what arrives waits behind it; a notification changes of its subscription no more
than it notes. -/
theorem requestsAndNotificationsComplete : Obligations.RequestsAndNotificationsComplete := by
  unfold Obligations.RequestsAndNotificationsComplete
  refine ⟨?_, ?_, ?_, ?_, ?_, ?_⟩
  · rintro seq s ⟨-, -, -, wf⟩ answers serving other free
    have done : exec (.mailboxSubmit seq) s = .next (s.asked (seq.setWidth 32)).mbSubmit :=
      congrArg Host.Outcome.next ((if_pos answers).trans (s.ramDword_request _))
    obtain ⟨mailbox, word⟩ := State.asked_mbSubmit wf serving other free
    exact ⟨_, done, mailbox, word, stays_of_exec (u := .dsMem) done rfl, stays_of_exec (u := .basin) done rfl⟩
  · intro p dg s hears on addressed fits whole up ok request plain new room serving
    obtain ⟨r, source, joined, silent⟩ :=
      State.queueOdp_joins (s := s.countFrame p) new room serving dg.srcAddr dg.srcPort.toNat none dg.payload
    have done := exec_odpDatagramReceive hears on addressed fits whole up
    rw [State.odpFrame_plain ok request ((s.countFrame_mustAuth p _).trans plain)] at done
    have queue : (s.countFrame p).dict.ethQueue[p] = s.dict.ethQueue[p] := rfl
    rw [queue] at joined
    refine ⟨_, done, ?_, ?_, silent.trans (s.countFrame_out p)⟩
    · rw [joined, List.length_append, List.length_singleton]
    · rw [joined, List.getLast?_concat, Option.map_some, source]
  · intro p dg s hears on addressed fits whole up malformed
    rw [exec_odpDatagramReceive hears on addressed fits whole up, State.odpFrame, malformed]
    rfl
  · intro n key s up
    have done : exec (.keyWrite n key .mailbox) s = .next ((s.keyClamped n key).writeKey n (fitBytes 32 key)) :=
      congrArg Host.Outcome.next (if_pos ⟨up, rfl⟩)
    obtain ⟨here, seq, others, replays⟩ := (s.keyClamped n key).writeKey_fitted n key
    exact ⟨_, done, here, seq, fun m other => (others m other).trans (by rw [s.keyClamped_keys]), replays⟩
  · intro i x s here up changed due
    have done : exec (.notify i) s = .next (s.notify i.val x) := by
      show execNotify i s = _
      rw [execNotify, here]
      dsimp only
      rw [up, changed, due]
      rfl
    exact ⟨_, done, State.notify_sent here⟩
  · intro i x s here up leased ended
    have done : exec (.subscriptionLapse i) s = .next (s.withSubs (s.dict.subs.eraseIdx i.val)) := by
      show execSubscriptionLapse i s = _
      rw [execSubscriptionLapse, here]
      dsimp only
      rw [up, leased, decide_eq_true ended]
      rfl
    exact ⟨_, done, rfl, rfl⟩

end Sys2Proof.Machine
end
